-- ==== Sys2Proof/Word.lean ====
section
/-!
DEFINITION. Words, bytes and the bit fields of the manual's tables (00_scope.md R2, R4).
A field map gives bits as [msb:lsb]; `fld` reads one from a 64-bit word and `bits` from a number.
-/
namespace Sys2Proof

/-- One 64-bit doubleword of a command, record or structure (00_scope.md R2). -/
abbrev Word := BitVec 64

/-- One byte of memory. -/
abbrev Byte := BitVec 8

/-- Bits [hi:lo] of a number. -/
def bits (x hi lo : Nat) : Nat := (x >>> lo) % 2 ^ (hi + 1 - lo)

/-- Bit `i` of a number. -/
def bit (x i : Nat) : Bool := (x >>> i) % 2 == 1

/-- Field [hi:lo] of a doubleword. -/
def fld (w : Word) (hi lo : Nat) : Nat := bits w.toNat hi lo

/-- Flag bit `i` of a doubleword. -/
def flag (w : Word) (i : Nat) : Bool := bit w.toNat i

/-- A flag as the number 0 or 1. -/
def b2n (b : Bool) : Nat := if b then 1 else 0

/-- The number whose bytes, least significant first, are `bs` (00_scope.md R2). -/
def leNat : List Byte → Nat
  | [] => 0
  | b :: bs => b.toNat + 256 * leNat bs

/-- The `n` bytes of `x`, least significant first (00_scope.md R2). -/
def leBytes : Nat → Nat → List Byte
  | 0, _ => []
  | n + 1, x => BitVec.ofNat 8 x :: leBytes n (x / 256)

/-- The `n` bytes of `x`, most significant first (00_scope.md R3). -/
def beBytes (n x : Nat) : List Byte := (leBytes n x).reverse

/-- The number whose bytes, most significant first, are `bs`. -/
def beNat (bs : List Byte) : Nat := leNat bs.reverse

/-- The 8 little-endian bytes of a doubleword. -/
def wordBytes (w : Word) : List Byte := leBytes 8 w.toNat

/-- The doublewords of a list of bytes, in order; a short tail is filled with zeros. -/
def bytesToWords : Nat → List Byte → List Word
  | 0, _ => []
  | n + 1, bs => BitVec.ofNat 64 (leNat (bs.take 8)) :: bytesToWords n (bs.drop 8)

/-- A two's-complement field of `n` bits read as an integer (00_scope.md R4, type S). -/
def signed (n x : Nat) : Int :=
  if x % 2 ^ n < 2 ^ (n - 1) then (x % 2 ^ n : Nat) else ((x % 2 ^ n : Nat) : Int) - (2 ^ n : Nat)

/-- An integer as a two's-complement field of `n` bits. -/
def unsignedOf (n : Nat) (z : Int) : Nat := (z % ((2 ^ n : Nat) : Int)).toNat

/-- Least integer not below `a / b`. -/
def ceilDiv (a b : Nat) : Nat := (a + b - 1) / b

/-- `a` raised to the next multiple of `b`. -/
def roundUp (a b : Nat) : Nat := ceilDiv a b * b

/-- A counter of `n` bits that saturates (registers that the manual marks "saturates"). -/
def satAdd (n a b : Nat) : Nat := min (a + b) (2 ^ n - 1)

/-- A counter of `n` bits that wraps. -/
def wrapAdd (n a b : Nat) : Nat := (a + b) % 2 ^ n

end Sys2Proof
end

