-- ==== Sys2Proof/Syntax.lean ====
section
/-!
DEFINITION. The commands of the block (spec/opcode_table.json) and the shapes of their operands.
-/
namespace Sys2Proof

/-- A host command as one queue accepted it: the function and the queue that carry it, the module it was
forwarded from (01_serving_roles.md R11) with the tenant it carries, and its eight doublewords (04_host_queues.md Table 4.5). -/
structure Cmd where
  /-- Function 0–16 (04 R83). -/
  fn : Nat
  /-- Queue pair 0–63. -/
  q : Nat
  /-- Fabric ID of the accepting module and the tenant, when the command was forwarded here. -/
  src : Option (Nat × Nat)
  /-- The accepting module's slot, in a command that was forwarded or mirrored: it tells equal commands apart, and finds the slot again
  when the completion comes. -/
  tag : Nat := 0
  w0 : Word
  w1 : Word
  w2 : Word
  w3 : Word
  w4 : Word
  w5 : Word
  w6 : Word
  w7 : Word
deriving DecidableEq, Repr

/-- A function that is enabled and disabled as a whole (02_module_organisation.md R47). -/
inductive FnId where
  | island (i : Nat)
  | link (port sub : Nat)
  | tenant (t : Nat)
  | ladle (l : Nat)
  | queue (fn q : Nat)
  | kettle (fn : Nat)
  | bank (b : Nat)
deriving DecidableEq, Repr

/-- The two paths to the MGMT block (03_configuration_image_and_startup.md R71). -/
inductive Path where
  | mgmt | phys
deriving DecidableEq, Repr

/-- Causes of an emergency stop (17_shaping_and_budgets.md R508). -/
inductive StopCause where
  | resetPin | powerOk | sensorReset | sensorErase | junction | entropy | boundaryScan
deriving DecidableEq, Repr

/-- What the board presents when MOD_RESET_N and PWR_OK are both high (03 R64): the NVM's new bytes if it was rewritten, whether
it answers, whether the reads of both sections complete (03 Table 3.14), whether the device seed could be reconstructed (19_security.md R540),
whether the entropy health tests pass (19 R541), the MGMT_ADDR strap, the memory dies (part 0) and die-to-die lanes (part 3), by their number in
18_reliability_and_spares.md Table 18.3, of stacks that failed their first training and whose health data calls for a spare, and the stacks whose
training failed twice (03 R65). -/
structure BoardStart where
  nvm : Option (List (Nat × BitVec 8))
  nvmOk : Bool
  sectionsOk : Bool
  seedOk : Bool
  entropyOk : Bool
  addr : Nat
  retrained : List (Nat × Nat)
  failedStacks : List Nat
deriving DecidableEq, Repr

/-- Boundary-scan instructions, and the TAP's passage through Test-Logic-Reset (21_power_pins_package.md R592, R593). -/
inductive ScanInstr where
  | bypass | idcode | samplePreload | extest | extestPulse | extestTrain | clamp | highz | testLogicReset
deriving DecidableEq, Repr

/-- A rail reading of one AVSBus pass (21 R577): rail selector, millivolts, units of 0.1 A. -/
structure RailSample where
  rail : Nat
  mv : Nat
  deciAmp : Nat
deriving DecidableEq, Repr

/-- Which interrupt mask a write reaches (04_host_queues.md Table 4.3, R111). -/
inductive IrqMask where
  | lo | hi | evt
  | msix (vector : Nat)
deriving DecidableEq, Repr

/-- Whose register a write reaches: a function's block, a queue-pair page, a Kettle block, the MSI-X table of a function, the SR-IOV capability of the
physical function, or the MGMT block by one path. -/
inductive RegSpace where
  | func (fn : Nat)
  | queue (fn q : Nat)
  | kettle (fn : Nat)
  | msix (fn : Nat)
  | sriov
  | mgmt (p : Path)
deriving DecidableEq, Repr

/-- The base header of a Horxiza packet (14_fabric_ports_and_addressing.md Table 14.3). -/
structure BaseHdr where
  version : Nat
  kind : Nat
  cls : Nat
  locked : Bool
  entropy : Nat
  membership : Nat
  dest : Nat
  src : Nat
  length : Nat
  stamp : Nat
  keyEpoch : Nat
  seq : Nat
deriving DecidableEq, Repr

/-- The transport header (15_message_transport.md Table 15.3). -/
structure TransHdr where
  type : Nat
  mode : Nat
  final : Bool
  dstEp : Nat
  dstGen : Nat
  srcEp : Nat
  srcGen : Nat
  reason : Nat
  serial : Nat
  packet : Nat
  msgLength : Nat
  tag : Nat
  hintUs : Nat
  mkey : Nat
  off64 : Nat
deriving DecidableEq, Repr

/-- A KIND 0 packet: base header, transport header, data (15 R439). -/
structure XPacket where
  base : BaseHdr
  hdr : TransHdr
  data : List (BitVec 8)
deriving DecidableEq, Repr

/-- The tray header (16_tray_memory_fabric.md Table 16.4). -/
structure TrayHdr where
  type : Nat
  op : Nat
  aop : Nat
  width : Nat
  dtype : Nat
  opId : Nat
  ackedBelow : Nat
  status : Nat
  poison : Bool
  addr : Nat
  mkey : Nat
  len : Nat
deriving DecidableEq, Repr

/-- A KIND 1 packet: base header, tray header, data (16 R468). -/
structure TPacket where
  base : BaseHdr
  hdr : TrayHdr
  data : List (BitVec 8)
deriving DecidableEq, Repr

/-- The announcement payload (14 Table 14.4). -/
structure Announce where
  installation : Nat
  serial : Nat
  fabricId : Nat
  role : Nat
  portDies : Nat
  link : Nat
  linksOn : Nat
  membership : Nat
deriving DecidableEq, Repr

/-- One path of a route entry (14 Table 14.6). -/
structure RoutePath where
  port : Nat
  sub : Nat
  farPort : Nat
  farSub : Nat
deriving DecidableEq, Repr

/-- A KIND 3 message once every fragment is held (14 Table 14.5). -/
inductive Control where
  | assign (serial id pfx : Nat)
  | routeUpdate (slotTable : Bool) (first : Nat) (entries : List (List RoutePath))
  | membership (epoch : Nat) (members : List (Nat × Nat))
  | heartbeat (words : List Nat)
  | membershipRequest (epoch : Nat)
  | other (subtype : Nat)
deriving DecidableEq, Repr

/-- What a frame carries: the payload of each KIND (14 Table 14.3), and the frames that are no Horxiza packets (R410). A control fragment carries
its place in its message, and the message, which counts once every fragment is held. -/
inductive Payload where
  | xport (p : XPacket)
  | tray (p : TPacket)
  | announce (b : BaseHdr) (a : Announce)
  | control (b : BaseHdr) (frag count : Nat) (c : Control)
  | unknown (b : BaseHdr)
  | ptp
  | pfc (classes : List (Nat × Bool))
  | solicitation (addr : Nat)
  | advertisement (addr : Nat)
deriving DecidableEq, Repr

/-- A frame (14 R410): whether its checksums hold, its EtherType or UDP port, the link number of R409 that its destination address names, whether its
tag authenticates under the key that the receiver would use, its bytes on the link, and what it carries. -/
structure Frame where
  checkOk : Bool
  etype : Nat
  link : Nat
  authentic : Bool
  bytes : Nat
  payload : Payload
deriving DecidableEq, Repr

/-- An IEEE 1588 message as it bears on the timebase (14 R421, R422): the port on which it came, the offset from the master in ns, the master's time, and whether the best
master clock algorithm elects this module. -/
structure PtpInfo where
  port : Nat
  sync : Bool
  offset : Int
  masterTime : Nat
  elected : Bool
deriving DecidableEq, Repr


/-- The bytes of one object in stack memory (a tensor, a page, a tray region, a weight run). `cells` lists bytes that
were written; `fill` is `none` where an unlisted byte is 0, and `some n` where it is the free value `Config.freeByte n`,
because the manual gives no content at allocation (07_ladle_engines.md R222). `bad` lists the object's poisoned
64-byte lines (18_reliability_and_spares.md R517). -/
structure Blob where
  cells : List (Nat × BitVec 8)
  fill : Option Nat
  bad : List Nat
deriving DecidableEq, Repr

/-- The request record (05_request_state_and_ownership.md Table 5.2). -/
structure ReqRec where
  handle : Nat
  epoch : Nat
  step : Nat
  phase : Nat
  prior : Nat
  target : Nat
  replicas : Nat
  recoveries : Nat
  peer : Nat
  owner : Nat
  origin : Nat
  decodeTarget : Nat
  job : Nat
  model : Nat
  composition : Nat
  adapter : Nat
  adapterVersion : Nat
  promptTokens : Nat
  tokenLimit : Nat
  logged : Nat
  firstMissing : Nat
  placed : Nat
  pageList : Nat
  admitTime : Nat
  seed : Nat
  sampler : List Word
  stepTime : Nat
  stepDigest : Nat
  createDigest : Nat
  logLocator : Nat
deriving DecidableEq, Repr

/-- The payload of a ledger step (05 Table 5.4). -/
inductive LPayload where
  | none
  | create (r : ReqRec) (prompt : List Nat)
  | append (tokens : List Nat) (sampler : List Word)
  /-- Record fields of the new owner, in a CLAIM. -/
  | claim (r : ReqRec)
deriving DecidableEq, Repr

/-- A ledger step: header and payload (05 Table 5.3). -/
structure LStep where
  handle : Nat
  epoch : Nat
  step : Nat
  kind : Nat
  newPhase : Nat
  target : Nat
  peer : Nat
  issuer : Nat
  digest : Nat
  membership : Nat
  firstMissing : Nat
  logged : Nat
  adapterVersion : Nat
  payload : LPayload
deriving DecidableEq, Repr

/-- A ledger notice, reply or query answer (05 Table 5.5). `ofStep` is the step that it answers and `ofKind` its kind, which the transport
message correlates; `head` is the handle's head in a LEDGER_MOVED reply and `membership` the epoch of the reply's base header (R132).
`body` is the committed record and log, in an answer to a query that asks for them (R156). -/
structure Notice where
  handle : Nat
  epoch : Nat
  step : Nat
  status : Nat
  phase : Nat
  owner : Nat
  repeated : Bool
  firstMissing : Nat
  logged : Nat
  ofStep : Nat
  ofKind : Nat
  head : Nat
  membership : Nat
  body : Option (ReqRec × List Nat)
deriving DecidableEq, Repr

/-- A page on its way: its place, how many of its positions are written, and its bytes. -/
structure PageData where
  layer : Nat
  index : Nat
  upto : Nat
  blob : Blob
deriving DecidableEq, Repr

/-- A page entry as an OFFER carries it (06_kv_pages_and_tiers.md Table 6.2, with DIR_INDEX zero). -/
structure OfferPage where
  present : Bool
  full : Bool
  shared : Bool
  pin : Bool
deriving DecidableEq, Repr

/-- An OFFER (05 Table 5.6 Note 1, 06 R169): header fields, the working record, the token log, the chain hash of each of the P blocks, and the page
entries in layer-major order, page n being layer n / P, index n mod P. -/
structure Offer where
  step : Nat
  epoch : Nat
  target : Nat
  sender : Nat
  record : ReqRec
  log : List Nat
  hashes : List Nat
  pages : List OfferPage
deriving DecidableEq, Repr

/-- What the transport says of a command that was forwarded: whether sending it has failed (01_serving_roles.md R601). -/
structure SendReport where
  cmd : Cmd
  failed : Bool
deriving DecidableEq, Repr

/-- What is known of a command that was forwarded: whether an owner has accepted it (01 R601). -/
structure OwnerReport where
  cmd : Cmd
  accepted : Bool
deriving DecidableEq, Repr

/-- The form of a QUERY: whether the whole record is asked for, and the membership epoch it was sent under (05 R130, R132). -/
structure QueryForm where
  whole : Bool
  membership : Nat
deriving DecidableEq, Repr

/-- A replica page and the module that forwarded it (05 R143). -/
structure ReplicaData where
  sender : Nat
  page : PageData
deriving DecidableEq, Repr

/-- The replica members whose FLUSH for a request has completed OK (05 R143). -/
structure FlushReport where
  handle : Nat
  flushed : List Nat
deriving DecidableEq, Repr

/-- The header of a Tongs message (05 Table 5.6): TYPE 0 OFFER, 1 PLACED, 2 REFUSE. -/
structure Tongs where
  handle : Nat
  epoch : Nat
  step : Nat
  type : Nat
  target : Nat
  reason : Nat
  sender : Nat
  pages : Nat
  held : Nat
deriving DecidableEq, Repr

/-- A Tongs message but for its HANDLE and SENDER: the other fields of the header (05 Table 5.6), and the bits of a PLACED that are set. -/
structure TongsBody where
  epoch : Nat
  step : Nat
  type : Nat
  target : Nat
  reason : Nat
  pages : Nat
  held : Nat
  bits : List Nat
deriving DecidableEq, Repr

def TongsBody.header (b : TongsBody) (h sender : Nat) : Tongs :=
  { handle := h, epoch := b.epoch, step := b.step, type := b.type, target := b.target, reason := b.reason, sender := sender, pages := b.pages,
    held := b.held }

def Tongs.body (t : Tongs) (bits : List Nat) : TongsBody :=
  { epoch := t.epoch, step := t.step, type := t.type, target := t.target, reason := t.reason, pages := t.pages, held := t.held, bits := bits }

/-- A loan message (06_kv_pages_and_tiers.md Table 6.7). -/
structure LoanMsg where
  type : Nat
  grants : Nat
  stack : Nat
  sender : Nat
  grantId : Nat
  key : Nat
  addr : Nat
  deadline : Nat
deriving DecidableEq, Repr

/-- Messages of the system endpoints (15_message_transport.md Table 15.1): what they carry, whole. -/
inductive SysMsg where
  | step (copy : Nat) (x : LStep)
  | notice (n : Notice)
  | query (handle src : Nat) (whole : Bool) (membership : Nat)
  | answer (n : Notice)
  | repair (copy : Nat) (r : ReqRec) (log : List Nat)
  | endRepair (epoch src : Nat)
  | offer (o : Offer)
  | placed (hd : Tongs) (held : List Nat)
  | refuse (hd : Tongs)
  | page (handle : Nat) (p : PageData)
  | replica (handle sender : Nat) (p : PageData)
  | flush (handle sender : Nat)
  | command (c : Cmd) (members : List Nat)
  | completion (c : Cmd) (status r0 r1 : Nat)
  | released (c : Cmd)
  | search (c : Cmd) (input : List (BitVec 8 × Bool))
  | found (c : Cmd) (status r0 r1 : Nat) (data : List (BitVec 8 × Bool))
  | loan (m : LoanMsg)
  | mirror (seq : Nat) (c : Cmd) (inputs : List (Nat × BitVec 8))
  | mirrorDone (seq digest given : Nat)
deriving DecidableEq, Repr

/-- What the model holds in the memory line that a detector found uncorrectable (18_reliability_and_spares.md Table 18.2): a line of a page, a tensor, an
adapter version, an index partition or a tray region, a directory entry, a ledger copy, an owned request's page list or token log, or nothing. -/
inductive MemPlace where
  | nothing
  | page (dir line : Nat)
  | tensor (tenant id line : Nat)
  | adapter (tenant adapter version line : Nat)
  | partition (tenant index version part line : Nat)
  | tray (line : Nat)
  | entry (dir : Nat)
  | ledger (handle copy : Nat)
  | list (handle : Nat)
  | log (handle : Nat)
deriving DecidableEq, Repr

/-- One detection (18 Table 18.1): the detector, the detecting island, the index of the part under Table 18.3, the KIND of R513, the part that an SRAM belongs
to, whether the word holds control state, what the line or row holds, whether it is the first failure of a Whisk's step, and the command whose
read met it. -/
structure Detected where
  detector : Nat
  island : Nat
  index : Nat
  kind : Nat
  part : Option (Nat × Nat)
  control : Bool
  place : MemPlace
  row : Nat
  first : Bool
  reader : Option Cmd
deriving DecidableEq, Repr

/-- The commands of the block, one for each row of spec/opcode_table.json. -/
inductive Instr where
  /-- MODULE_START (R64). MOD_RESET_N and PWR_OK both high begin start-up at step 1 of Table 3.10. -/
  | moduleStart (b : BoardStart)
  /-- FABRIC_TRAINING_END (R66). Step 8 ends 500 ms after it began, whether or not every port has trained. -/
  | fabricTrainingEnd
  /-- ENTER_READY (R67). The module enters READY at the start of step 9 and sends its first announcement on every trained port. -/
  | enterReady
  /-- EMERGENCY_STOP (R508). A reset, power-good loss, sensor RESET or ERASE, 115 °C, entropy failure or EXTEST-class instruction stops all work and starts the current ramp-down. -/
  | emergencyStop (cause : StopCause)
  /-- STOP_RAMP_END (R508). When the governed current reaches the 20 A floor, the module enters reset. -/
  | stopRampEnd
  /-- MOD_RESET_LOW (R590). MOD_RESET_N low for 1 µs or longer causes an emergency stop and a module reset; shorter lows are ignored. -/
  | modResetLow (ns : Nat)
  /-- PWR_OK_LOW (R590). PWR_OK low for 100 ns or longer causes an emergency stop. -/
  | pwrOkLow (ns : Nat)
  /-- PERST_N (R82). PERST_N or loss of the PCI Express link resets the host interface island; queues and rings go OFF and completions due meanwhile are dropped and counted. -/
  | perstN
  /-- HOST_LINK_TRAINED (R79). The PCI Express link trains; a degraded rate or width writes a LINK_DEGRADED event record. -/
  | hostLinkTrained (width : Nat) (rate : Nat) (flit : Bool)
  /-- SENSOR_TRIP (R553). A rail, clock, temperature, shield-mesh or TAMPER_N sensor trips and takes the LOG, RESET or ERASE response of its class. -/
  | sensorTrip (sensor : Nat)
  /-- JUNCTION_THROTTLE (R507). Every 1 ms, P is lowered by 10 W while the junction is at or above 100 °C, and raised by 10 W once it is below. -/
  | junctionThrottle (sensor : Nat) (tj : Int)
  /-- THERMAL_STOP_RELEASE (R583). After a thermal stop, the module starts only when MOD_RESET_N has been low for 10 µs and is released again. -/
  | thermalStopRelease (ns : Nat)
  /-- BOUNDARY_SCAN_INSTRUCTION (R593). Loading EXTEST, EXTEST_PULSE, EXTEST_TRAIN, CLAMP or HIGHZ causes an emergency stop, and the module holds in reset until the TAP passes Test-Logic-Reset. -/
  | boundaryScanInstruction (code : ScanInstr)
  /-- INTERNAL_TEST_SELECT (R557). Selecting an internal test instruction in PROVISIONED zeroises the key store and holds every island but 30 in reset. -/
  | internalTestSelect
  /-- PPS_IN_PULSE (R424). A PPS_IN edge aligns the whole seconds of fabric time when the module is its own grandmaster. -/
  | ppsInPulse (ns : Nat)
  /-- ENTROPY_HEALTH_FAIL (R541). A failed entropy health test holds the module at start-up, or causes an emergency stop at run time. -/
  | entropyHealthFail
  /-- GOVERNOR_STEP (R504). Every 100 ns the governor estimates current and sets duty and ballast within the slew band. -/
  | governorStep (demand : Nat)
  /-- GOVERNOR_CALIBRATE (R503). Every 1 ms the governor corrects its coefficients from the PMBus current readings. -/
  | governorCalibrate
  /-- AVS_RAIL_READ (R577). Every 100 µs the module reads the voltage and current of every rail over AVSBus. -/
  | avsRailRead (samples : List RailSample)
  /-- BUDGET_PERIOD_BOUNDARY (R499). At each 10 µs boundary every budget gate receives its grant and the remaining balance is discarded. -/
  | budgetPeriodBoundary
  /-- AGE_EPOCH (R179). Every 1 ms of fabric time, the AGE of unpinned resident directory entries rises by one. -/
  | ageEpoch
  /-- PRESSURE_PARK (R186). Above 950 per mille occupancy, idle DECODE requests are parked, by handoff home or in place, until occupancy falls below 900. -/
  | pressurePark
  /-- DEMOTION_PLACED (R180). A demotion copy placed in the lower tier moves the entry there and frees the old run. -/
  | demotionPlaced (dir : Nat)
  /-- PROMOTION_PLACED (R180). A promotion copy placed in the higher tier moves the entry there; the old run drains under R181. -/
  | promotionPlaced (dir : Nat)
  /-- OLD_RUN_DRAINED (R181). The old run of a promotion is freed once every pin taken on it before the move completed is released. -/
  | oldRunDrained (dir : Nat)
  /-- DUMP_BOUNDARY (R569). At each dump period boundary every island latches its counters and the dump unit writes the set or skips the period. -/
  | dumpBoundary
  /-- HEALTH_SUBWINDOW (R520). At each sub-window boundary, health scores are recomputed over the last 16 sub-windows. -/
  | healthSubwindow (part : Nat)
  /-- MEMORY_SCRUB (R516). Each stack controller scrubs every line of its stack once in each 24 hours. -/
  | memoryScrub (stack : Nat)
  /-- CAM_ROW_CHECK (R340). Every microsecond one row of each bank is compared with its shadow and corrected or poisoned. -/
  | camRowCheck (diff : List (Nat × Bool))
  /-- DETECTION (R512). A detector reports a fault; it writes an event record, raises its counter and adds to the part's health score. -/
  | detection (d : Detected)
  /-- ISLAND_RESET_COMPLETE (R518). The island restarts from its clean reset state within the bound of Table 18.4. -/
  | islandResetComplete (island : Nat)
  /-- SPARE_MOVE_BEGIN (R522). At the part's job boundary the move onto the reserved spare begins under Table 18.6. -/
  | spareMoveBegin (part : Nat) (k : Nat)
  /-- SPARE_MOVE_COMPLETE (R521). The spare takes the logical index, the part becomes ABSENT and the retirement is fused. -/
  | spareMoveComplete (part : Nat) (k : Nat) (ok : Bool)
  /-- CREDIT_WATCH_TIMEOUT (R35). A credit that is not returned within its bound is reported as a detector event. -/
  | creditWatchTimeout (island : Nat)
  /-- FUNCTION_ENABLE (R48). An enable of an island, port, tenant, Ladle or queue moves its status under Table 2.11. -/
  | functionEnable (f : FnId)
  /-- FUNCTION_DISABLE (R48). A disable moves the function to STOPPING, or clears LATCH, under Table 2.11. -/
  | functionDisable (f : FnId)
  /-- INITIALISATION_COMPLETE (R48). A STARTING function finishes initialising and becomes ON. -/
  | initialisationComplete (f : FnId)
  /-- SHUTDOWN_COMPLETE (R49). A STOPPING function restores its clean reset state and enters OFF, or STARTING when LATCH is set. -/
  | shutdownComplete (f : FnId)
  /-- TENANT_ENABLE (R86). HOST_FUNC_CTL.ENABLE enables the function's tenant; it is refused before READY. -/
  | tenantEnable (fn : Nat)
  /-- TENANT_DISABLE (R86). HOST_FUNC_CTL.DISABLE disables the function's tenant. -/
  | tenantDisable (fn : Nat)
  /-- QUEUE_ENABLE (R88). HOST_Q_CTL.ENABLE enables a queue pair after checks of tenant status, bases and sizes, or sets CODE. -/
  | queueEnable (fn : Nat) (q : Nat)
  /-- QUEUE_DISABLE (R90). HOST_Q_CTL.DISABLE moves the queue pair to STOPPING; fetched entries are refused or aborted. -/
  | queueDisable (fn : Nat) (q : Nat)
  /-- QUEUE_SHUTDOWN_TIMEOUT (R90). Queue shut-down completes 5 ms after the disable if started commands remain. -/
  | queueShutdownTimeout (fn : Nat) (q : Nat)
  /-- QUEUE_CONFIG_WRITE (R87). A write to a queue base or size register is accepted only while the pair is OFF, and otherwise sets RING_BUSY. -/
  | queueConfigWrite (fn : Nat) (q : Nat) (off : Nat) (v : Nat)
  /-- SQ_TAIL_DOORBELL (R91). A write to HOST_SQ_TAIL submits entries, or is ignored with DOORBELL_INVALID. -/
  | sqTailDoorbell (fn : Nat) (q : Nat) (v : Nat) (placed : List (Nat × BitVec 8)) (bad : List Nat)
  /-- CQ_HEAD_DOORBELL (R91). A write to HOST_CQ_HEAD frees completion entries, or is ignored with DOORBELL_INVALID. -/
  | cqHeadDoorbell (fn : Nat) (q : Nat) (v : Nat)
  /-- COMMAND_FETCH (R93). The fetch arbiter grants a queue with a free slot and fetches up to eight entries. -/
  | commandFetch
  /-- COMPLETION_POST (R102). A completion is written when the completion queue has a free entry, and its command slot is released. -/
  | completionPost (fn : Nat) (q : Nat)
  /-- INTERRUPT_COALESCE_TIMER (R111). A completion unread for 8 µs, or a Kettle ring unsignalled for 8 µs, raises its vector. -/
  | interruptCoalesceTimer (fn : Nat) (vector : Nat)
  /-- IRQ_MASK_WRITE (R111). Unmasking a vector in HOST_IRQ_MASK or the MSI-X table signals any pending condition. -/
  | irqMaskWrite (fn : Nat) (m : IrqMask) (v : Nat)
  /-- KETTLE_FLUSH_TIMER (R113). The open word is closed 20 µs after its first record and padded under R114. -/
  | kettleFlushTimer (fn : Nat)
  /-- KETTLE_WORD_WRITE (R116). A closed word is written to the ring, overwriting the oldest word and counting losses when full. -/
  | kettleWordWrite (fn : Nat) (parityBad : Bool)
  /-- KETTLE_ENABLE (R88). KETTLE_CTL.ENABLE enables the ring, refused as for a queue. -/
  | kettleEnable (fn : Nat)
  /-- KETTLE_DISABLE (R118). KETTLE_CTL.DISABLE stops the ring and discards its staged and open words into KETTLE_LOST. -/
  | kettleDisable (fn : Nat)
  /-- KETTLE_CONFIG_WRITE (R87). A write to KETTLE_BASE or KETTLE_SIZE takes effect only while the ring is OFF. -/
  | kettleConfigWrite (fn : Nat) (off : Nat) (v : Nat)
  /-- KETTLE_HEAD_WRITE (R117). A write to KETTLE_HEAD takes effect only if it lies between the head and the tail. -/
  | kettleHeadWrite (fn : Nat) (v : Nat)
  /-- KNOB_WRITE (R73). A write to MGMT_KNOB_VAL is checked for listing, instance and bounds, and sets RESULT. -/
  | knobWrite (p : Path) (v : Nat)
  /-- PCTR_CFG_WRITE (R566). A write to MGMT_PCTR_CFG clears and reconfigures the selected counter and raises CONFIG_SEQ. -/
  | pctrCfgWrite (p : Path) (v : Nat)
  /-- DUMP_HEAD_WRITE (R571). A write to MGMT_DUMP_HEAD takes effect only within the written lines. -/
  | dumpHeadWrite (p : Path) (v : Nat)
  /-- MGMT_CTR_LO_READ (R574). A read of MGMT_CTR_LO latches MGMT_CTR_HI. -/
  | mgmtCtrLoRead (p : Path)
  /-- HOST_CTR_LO_READ (R575). A read of HOST_CTR_LO latches HOST_CTR_HI. -/
  | hostCtrLoRead (fn : Nat)
  /-- MGMT_TIME_LO_READ (R532). A read of MGMT_TIME_LO latches the selected count's high word. -/
  | mgmtTimeLoRead (p : Path)
  /-- MGMT_RAIL_V_READ (R594). A read of MGMT_RAIL_V latches MGMT_RAIL_I. -/
  | mgmtRailVRead (p : Path)
  /-- REGISTER_WRITE (R85). A write to a register without a row of its own, such as a selector, stores its RW fields. -/
  | registerWrite (r : RegSpace) (off : Nat) (v : Nat)
  /-- NOP (R96). NOP completes OK with no effect. -/
  | nop (c : Cmd)
  /-- JOB_OPEN (R103). JOB_OPEN returns a new job ID and raises the tenant's job count, or fails with JOB_LIMIT. -/
  | jobOpen (c : Cmd)
  /-- JOB_CLOSE (R105). JOB_CLOSE marks the job closing, cancels its requests and tray regions, and completes when every CANCEL has completed. -/
  | jobClose (c : Cmd)
  /-- BATCH_REGISTER (R106). BATCH_REGISTER copies a batch descriptor into stack memory and returns a batch ID. -/
  | batchRegister (c : Cmd)
  /-- BATCH_RELEASE (R109). BATCH_RELEASE completes once earlier commands naming the batch have completed. -/
  | batchRelease (c : Cmd)
  /-- TENANT_RESET (R99). TENANT_RESET performs the tenant reset of another tenant and completes when that tenant is OFF. -/
  | tenantReset (c : Cmd)
  /-- QUEUE_FENCE (R38). QUEUE_FENCE holds later commands of the queue until every earlier one has completed. -/
  | queueFence (c : Cmd)
  /-- PLACE_FENCE (R40). PLACE_FENCE completes once every covered write is placed, with a host read for host writes. -/
  | placeFence (c : Cmd)
  /-- TRAY_FENCE (R480). TRAY_FENCE completes when every covered tray operation has its reply or has ended. -/
  | trayFence (c : Cmd)
  /-- FENCE_COMPLETE (R41). A fence completes once its covered operations end, with FENCE_UNPLACED if any failed. -/
  | fenceComplete (c : Cmd)
  /-- FORWARD_RETRY_TIMER (R601). Every 100 µs an unaccepted forward queries the tail again and forwards to the owner named. -/
  | forwardRetryTimer (r : SendReport)
  /-- FORWARD_TIMEOUT (R601). A command not accepted 1,000 ms after its first forwarding completes with PEER_UNREACHABLE. -/
  | forwardTimeout (r : OwnerReport)
  /-- FORWARDED_COMMAND_ARRIVAL (R14). A forwarded command reaches a module; it runs it, holds it, or forwards it again to the committed owner. -/
  | forwardedCommandArrival (c : Cmd) (members : List Nat) (input : List (BitVec 8 × Bool))
  /-- FORWARDED_COMPLETION_ARRIVAL (R12). The completion of a forwarded command is posted on the accepting module, or discarded if already completed. -/
  | forwardedCompletionArrival (c : Cmd) (status : Nat) (r0 : Nat) (r1 : Nat) (data : List (BitVec 8 × Bool))
  /-- ADMIT (R157). ADMIT checks its operands, reads the prompt and sampler block, and issues CREATE. -/
  | admitRequest (c : Cmd)
  /-- PREFILL_CHUNK (R158). PREFILL_CHUNK writes the pages of a prompt chunk, binding the adapter version on the first chunk. -/
  | prefillChunk (c : Cmd) (kv : List PageData)
  /-- HANDOFF (R140). HANDOFF waits for started commands and begins a handoff to TARGET. -/
  | handoff (c : Cmd)
  /-- PARK (R155). PARK moves a DECODE request to PARKED, in place or by handoff to its home. -/
  | park (c : Cmd)
  /-- RESUME (R155). RESUME returns a PARKED request to DECODE, in place or by handoff. -/
  | resume (c : Cmd)
  /-- CANCEL (R155). CANCEL frees a request's state and completes when FINISH with DONE has committed. -/
  | cancel (c : Cmd)
  /-- QUERY (R155). QUERY returns the epoch, phase, owner and counts from the owner's working copy. -/
  | query (c : Cmd)
  /-- LOG_READ (R156). LOG_READ writes committed tokens of the log to host memory. -/
  | logRead (c : Cmd)
  /-- RECORD_READ (R156). RECORD_READ writes the tail's committed record to host memory. -/
  | recordRead (c : Cmd)
  /-- LEDGER_STEP_RESEND_TIMER (R129). Every 100 µs an unanswered step is sent again to the head under the newest epoch. -/
  | ledgerStepResendTimer (h : Nat)
  /-- LEDGER_STEP_ARRIVAL (R137). A copy applies an arriving step under its conditions, forwards it, and the tail commits it. -/
  | ledgerStepArrival (copy : Nat) (x : LStep)
  /-- LEDGER_NOTICE (R129). A commit notice reaches the head, issuer, owner or peer, which acts on it. -/
  | ledgerNotice (n : Notice)
  /-- LEDGER_QUERY (R130). The tail answers a query with committed state only. -/
  | ledgerQuery (h : Nat) (src : Nat) (form : QueryForm)
  /-- LEDGER_QUERY_RETRY_TIMER (R147). A query without an answer within 100 µs is sent again to the tail under the newest epoch. -/
  | ledgerQueryRetryTimer (h : Nat)
  /-- LEDGER_ANSWER (R144). A query answer settles a sender or receiver of a handoff under Tables 5.7 and 5.8. -/
  | ledgerAnswer (n : Notice)
  /-- LEDGER_ERASE (R139). 1,000 ms after FINISH commits, the head issues ERASE for the entry. -/
  | ledgerErase (h : Nat)
  /-- REPAIR_COPY_ARRIVAL (R131). A new chain member receives an entry's copy and applies or answers the steps it held. -/
  | repairCopyArrival (copy : Nat) (r : ReqRec) (log : List Nat)
  /-- END_OF_REPAIR (R131). After an end-of-repair notice, a step for a missing handle is answered REQUEST_UNKNOWN. -/
  | endOfRepair (epoch : Nat) (src : Nat)
  /-- HEAD_FREEZE_END (R131). The old head passes headship on once the entry is copied to the new chain members. -/
  | headFreezeEnd (h : Nat)
  /-- OFFER (R145). A receiver checks an OFFER, reserves space, and sends PLACED or REFUSE. -/
  | offer (o : Offer)
  /-- PLACED (R144). The sender receives PLACED and sends each page whose bit is clear. -/
  | placed (h : Nat) (sender : Nat) (body : TongsBody)
  /-- HANDOFF_REFUSE (R144). The sender receives REFUSE and issues ABORT_HANDOFF. -/
  | handoffRefuse (h : Nat) (sender : Nat) (body : TongsBody)
  /-- LAST_PAGE_SENT (R144). When the last page packet leaves, the sender starts its orphan timer. -/
  | lastPageSent (h : Nat)
  /-- HANDOFF_PAGE_PLACED (R145). A receiver places a page, forwards its replicas and restarts its orphan timer. -/
  | handoffPagePlaced (h : Nat) (p : PageData)
  /-- REPLICA_ARRIVAL (R143). A chain member places a forwarded replica, or refuses it with RECEIVER_NO_ROOM. -/
  | replicaArrival (h : Nat) (p : ReplicaData)
  /-- ALL_PAGES_PLACED (R143). Once all pages are placed, the receiver flushes to the replica members and issues CLAIM when the flushes complete. -/
  | allPagesPlaced (r : FlushReport)
  /-- ORPHAN_TIMER_EXPIRY (R146). A sender's or receiver's orphan timer expires and it queries the tail. -/
  | orphanTimerExpiry (h : Nat)
  /-- RECOVERY_CLAIM (R150). After START_RECOVERY commits, the head surveys survivors, copies them and issues the recovery CLAIM, or FINISH with FAILED past the limit. -/
  | recoveryClaim (h : Nat) (survivors : List PageData)
  /-- PAGE_PROMOTE (R206). PAGE_PROMOTE moves the pages in range to the named higher tier. -/
  | pagePromote (c : Cmd)
  /-- PAGE_DEMOTE (R206). PAGE_DEMOTE moves the unpinned pages in range to the named lower tier. -/
  | pageDemote (c : Cmd)
  /-- PAGE_PIN (R208). PAGE_PIN sets PERSIST and PIN on the pages in range, within the 50 % limit. -/
  | pagePin (c : Cmd)
  /-- PAGE_UNPIN (R206). PAGE_UNPIN clears PERSIST and PIN on the pages in range. -/
  | pageUnpin (c : Cmd)
  /-- PAGE_DROP (R603). PAGE_DROP drops pages from FROM onward in every layer and records FIRST_MISSING. -/
  | pageDrop (c : Cmd)
  /-- PREFIX_LOOKUP (R198). PREFIX_LOOKUP matches leading blocks against prefix sets and refers the request to them. -/
  | prefixLookup (c : Cmd)
  /-- PREFIX_PUBLISH (R199). PREFIX_PUBLISH makes the request's blocks prefix sets or merges them into existing sets. -/
  | prefixPublish (c : Cmd)
  /-- PREFIX_RELEASE (R200). PREFIX_RELEASE removes the tenant's prefix sets whose REFS is 0. -/
  | prefixRelease (c : Cmd)
  /-- WINDOW_OPEN (R203). WINDOW_OPEN reserves d + 1 slots and begins filling the stream's layers. -/
  | windowOpen (c : Cmd)
  /-- WINDOW_ADVANCE (R205). WINDOW_ADVANCE moves the cursor by one layer and releases the slot left behind. -/
  | windowAdvance (c : Cmd)
  /-- WINDOW_CLOSE (R205). WINDOW_CLOSE frees the stream's slots once commands naming it have completed. -/
  | windowClose (c : Cmd)
  /-- WINDOW_SLOT_FILL (R205). A released slot is refilled with layer cursor + d once every command naming its old layer has completed. -/
  | windowSlotFill (stream : Nat)
  /-- T3_ATTACH (R173). T3_ATTACH adds one host-memory extent to T3. -/
  | t3Attach (c : Cmd)
  /-- TIER_QUERY (R206). TIER_QUERY returns tier occupancies and grant counts. -/
  | tierQuery (c : Cmd)
  /-- MODEL_DEFINE (R602). MODEL_DEFINE records a model's geometry from an attention descriptor tensor. -/
  | modelDefine (c : Cmd)
  /-- LOAN_ASK_ARRIVAL (R191). A lender answers an ASK with GRANT or DECLINE. -/
  | loanAskArrival (m : LoanMsg)
  /-- LOAN_GRANT_ARRIVAL (R191). A borrower receives a GRANT and may place objects in it. -/
  | loanGrantArrival (m : LoanMsg)
  /-- LOAN_OFFER_ARRIVAL (R191). A module records a neighbour's offered grant count. -/
  | loanOfferArrival (m : LoanMsg)
  /-- LOAN_DECLINE_ARRIVAL (R191). A borrower receives DECLINE for its ASK. -/
  | loanDeclineArrival (m : LoanMsg)
  /-- RECALL (R193). A borrower receiving RECALL reserves room, moves the grant's weight runs and pages, and drops what has no room. -/
  | recall (m : LoanMsg)
  /-- RECALL_EMPTY (R193). When the recalled grant is empty, the borrower sends RETURN. -/
  | recallEmpty (lender : Nat) (id : Nat)
  /-- RETURN (R194). On RETURN the lender revokes the key, frees the grant and sends REVOKED. -/
  | returnGrant (m : LoanMsg)
  /-- RECALL_DEADLINE_EXPIRY (R194). At DEADLINE the lender revokes and frees the grant; unmoved pages are dropped. -/
  | recallDeadlineExpiry (id : Nat)
  /-- REVOKED (R194). A borrower receiving REVOKED drops pages still in the grant. -/
  | revoked (m : LoanMsg)
  /-- GEMM (R238). GEMM computes C = A × W^T over the participating Ladles. -/
  | gemm (c : Cmd)
  /-- GEMV (R241). GEMV computes C = A × W^T for up to 16 rows, streaming W through the MAC arrays. -/
  | gemv (c : Cmd)
  /-- GATHER_ROWS (R242). GATHER_ROWS copies indexed table rows into a destination. -/
  | gatherRows (c : Cmd)
  /-- VECTOR (R243). VECTOR applies an elementwise or row function to ROWS rows. -/
  | vector (c : Cmd)
  /-- TENSOR_ALLOC (R245). TENSOR_ALLOC places a striped tensor and returns its ID. -/
  | tensorAlloc (c : Cmd)
  /-- TENSOR_FREE (R245). TENSOR_FREE frees a tensor once every earlier command naming it has completed. -/
  | tensorFree (c : Cmd)
  /-- LADLE_ENTRY_START (R225). A Ladle's arbiter grants an eligible lane and begins its head entry, or restores a saved one. -/
  | ladleEntryStart (l : Nat)
  /-- LADLE_ENTRY_COMPLETE (R233). A running Ladle command completes, returns its credits and sends a data-ready token. -/
  | ladleEntryComplete (l : Nat)
  /-- LADLE_PREEMPT (R229). A budget or urgency cause, once the command reaches its cycle threshold, stops it at group boundaries and starts a save. -/
  | ladlePreempt (l : Nat)
  /-- LADLE_SAVE_COMPLETE (R233). The save completes and the Ladle goes IDLE with the command kept at its lane head. -/
  | ladleSaveComplete (l : Nat)
  /-- LADLE_RESTORE_COMPLETE (R233). The restore completes, its save area is freed and the command runs on. -/
  | ladleRestoreComplete (l : Nat)
  /-- ATTEND_DECODE (R267). ATTEND_DECODE writes new KV entries and computes each member's attention outputs. -/
  | attendDecode (c : Cmd)
  /-- ATTEND_PREFILL (R268). ATTEND_PREFILL writes the entries of a position range and computes causal outputs. -/
  | attendPrefill (c : Cmd)
  /-- SOFTMAX_COMBINE (R269). SOFTMAX_COMBINE folds partial records over parts for each row. -/
  | softmaxCombine (c : Cmd)
  /-- ATTEND_BWD (R270). ATTEND_BWD computes dQ, dK and dV from saved statistics. -/
  | attendBwd (c : Cmd)
  /-- ADAPTER_LOAD (R288). ADAPTER_LOAD checks a header and loads or queues an adapter version. -/
  | adapterLoad (c : Cmd)
  /-- ADAPTER_ROOM_AVAILABLE (R283). A waiting load finds room at an age epoch or a free and begins reading and placing slices. -/
  | adapterRoomAvailable (tenant : Nat) (adapter : Nat) (version : Nat)
  /-- ADAPTER_LOAD_COMPLETE (R282). All slices are placed and the CRC checked; the version becomes CURRENT or HELD, or is freed. -/
  | adapterLoadComplete (tenant : Nat) (adapter : Nat) (version : Nat)
  /-- ADAPTER_RETIRE (R282). ADAPTER_RETIRE makes versions RETIRING or ends a waiting load. -/
  | adapterRetire (c : Cmd)
  /-- ADAPTER_VERSION_FREE (R282). A RETIRING version with REFS 0 and no stream frees its runs. -/
  | adapterVersionFree (tenant : Nat) (adapter : Nat) (version : Nat)
  /-- ADAPTER_QUERY (R287). ADAPTER_QUERY returns a version's state, references and slabs. -/
  | adapterQuery (c : Cmd)
  /-- EXPERT_APPLY (R290). EXPERT_APPLY computes private-expert rows for each member's bound version. -/
  | expertApply (c : Cmd)
  /-- SAMPLE (R319). SAMPLE decides tokens, verifies drafts, logs them by LOG_APPEND and writes output records. -/
  | sample (c : Cmd)
  /-- DRAFT_RESET (R316). DRAFT_RESET restores the draft state in the working copy. -/
  | draftReset (c : Cmd)
  /-- CONSTRAINT_LOAD (R310). CONSTRAINT_LOAD checks and installs a token list or grammar. -/
  | constraintLoad (c : Cmd)
  /-- CONSTRAINT_RETIRE (R311). CONSTRAINT_RETIRE frees a constraint once commands reading it have completed. -/
  | constraintRetire (c : Cmd)
  /-- CAM_BANK_SETUP (R331). CAM_BANK_SETUP sets the width and use of an empty bank. -/
  | camBankSetup (c : Cmd)
  /-- CAM_WRITE (R334). CAM_WRITE writes an entry's key, mask and priority. -/
  | camWrite (c : Cmd)
  /-- CAM_INVALIDATE (R344). CAM_INVALIDATE invalidates a range of entries. -/
  | camInvalidate (c : Cmd)
  /-- CAM_SEARCH (R336). CAM_SEARCH returns the best match and may create a cursor. -/
  | camSearch (c : Cmd)
  /-- CAM_NEXT (R338). CAM_NEXT returns the next match after the cursor's position. -/
  | camNext (c : Cmd)
  /-- CAM_CURSOR_FREE (R338). CAM_CURSOR_FREE frees a cursor. -/
  | camCursorFree (c : Cmd)
  /-- CAM_READ (R345). CAM_READ writes an entry's record to the destination. -/
  | camRead (c : Cmd)
  /-- INDEX_CREATE (R353). INDEX_CREATE reads an index descriptor and reserves every partition. -/
  | indexCreate (c : Cmd)
  /-- INDEX_LOAD_PART (R357). INDEX_LOAD_PART copies and checks records of one partition. -/
  | indexLoadPart (c : Cmd)
  /-- INDEX_COMMIT (R356). INDEX_COMMIT checks partition CRCs and makes the version CURRENT or HELD. -/
  | indexCommit (c : Cmd)
  /-- INDEX_RETIRE (R356). INDEX_RETIRE makes a version RETIRING. -/
  | indexRetire (c : Cmd)
  /-- INDEX_VERSION_FREE (R356). A RETIRING version frees its runs once no started command reads it. -/
  | indexVersionFree (tenant : Nat) (index : Nat) (version : Nat)
  /-- VECTOR_SEARCH (R362). VECTOR_SEARCH walks all partitions, merges the lists and writes result blocks. -/
  | vectorSearch (c : Cmd)
  /-- VECTOR_DELETE (R359). VECTOR_DELETE tombstones vectors and raises DELETE_SEQ. -/
  | vectorDelete (c : Cmd)
  /-- INDEX_QUERY (R369). INDEX_QUERY returns a version's state, DELETE_SEQ and counts. -/
  | indexQuery (c : Cmd)
  /-- PRESS_STREAM_OPEN (R383). PRESS_STREAM_OPEN creates a stream with two empty table slots. -/
  | pressStreamOpen (c : Cmd)
  /-- PRESS_STREAM_CLOSE (R401). PRESS_STREAM_CLOSE ends waiting installs and closes the stream once commands naming it complete. -/
  | pressStreamClose (c : Cmd)
  /-- PRESS_ENCODE (R390). PRESS_ENCODE codes input blocks in ZERO, CODED or RAW mode, building a table first when asked. -/
  | pressEncode (c : Cmd)
  /-- PRESS_DECODE (R395). PRESS_DECODE decodes blocks, writing poisoned blocks as zeros. -/
  | pressDecode (c : Cmd)
  /-- PRESS_TABLE_INSTALL (R392). PRESS_TABLE_INSTALL checks a table image and installs it into a slot. -/
  | pressTableInstall (c : Cmd)
  /-- PRESS_INSTALL_COMMIT (R394). A waiting install commits once its slot's queued-block count is zero. -/
  | pressInstallCommit (tenant : Nat) (stream : Nat)
  /-- PRESS_INSTALL_WAIT (R394). An install waiting 10 ms writes an event record and goes on waiting. -/
  | pressInstallWait (tenant : Nat) (stream : Nat)
  /-- PRESS_TABLE_READ (R398). PRESS_TABLE_READ writes a held table image to host memory. -/
  | pressTableRead (c : Cmd)
  /-- EP_OPEN (R428). EP_OPEN opens a tenant endpoint with a new generation and memory key. -/
  | epOpen (c : Cmd)
  /-- EP_CLOSE (R429). EP_CLOSE fails sends, cancels receives and quarantines the endpoint number. -/
  | epClose (c : Cmd)
  /-- ENDPOINT_QUARANTINE_END (R429). An endpoint number or region index leaves quarantine after LIFETIME_US. -/
  | endpointQuarantineEnd (region : Bool) (index : Nat)
  /-- SEND (R455). SEND transmits a message in packets and completes when its last packet first leaves. -/
  | send (c : Cmd)
  /-- COUNTER_TRIGGER (R454). A counter change that brings it to THRESHOLD starts a waiting SEND. -/
  | counterTrigger (tenant : Nat) (counter : Nat)
  /-- RECV (R451). RECV posts a buffer to an endpoint's receive queue. -/
  | recv (c : Cmd)
  /-- FLUSH (R456). FLUSH completes when every covered message is acknowledged FINAL or has failed. -/
  | flush (c : Cmd)
  /-- MKEY_CREATE (R433). MKEY_CREATE creates a region entry and returns its memory key. -/
  | mkeyCreate (c : Cmd)
  /-- MKEY_DESTROY (R434). MKEY_DESTROY destroys a key once passed accesses have been performed. -/
  | mkeyDestroy (c : Cmd)
  /-- CTR_SET (R454). CTR_SET sets a counter and returns its old value. -/
  | ctrSet (c : Cmd)
  /-- XPORT_CTX_ATTACH (R430). XPORT_CTX_ATTACH names the host area for endpoint contexts. -/
  | xportCtxAttach (c : Cmd)
  /-- CONTEXT_FETCH_COMPLETE (R430). A fetched endpoint context arrives and packets waiting for it are processed. -/
  | contextFetchComplete (ep : Nat)
  /-- KEY_DERIVED (R436). A pair key derived on a cache miss arrives and waiting packets proceed. -/
  | keyDerived (peer : Nat) (epoch : Nat)
  /-- FRAME_RECEIVE (R410). A received frame is checked for FCS, type, version and destination and passed to its unit. -/
  | frameReceive (port : Nat) (sub : Nat) (f : Frame)
  /-- DATA (R443). A DATA packet opens or joins a receive record and is placed at its offset once. -/
  | data (p : XPacket)
  /-- ACK_COALESCE_TIMER (R444). An ACK is sent 2 µs after the oldest unacknowledged placement. -/
  | ackCoalesceTimer (src : Nat) (srcEp : Nat) (srcGen : Nat) (serial : Nat)
  /-- ACK (R446). The sender records acknowledged packets; a FINAL ACK frees the send record. -/
  | ack (p : XPacket)
  /-- NOT_READY (R447). The sender waits HINT_US before resending the refused packet. -/
  | notReady (p : XPacket)
  /-- NOT_READY_RETRY (R447). After the hint, the packet is sent again as a new first transmission. -/
  | notReadyRetry (send : Nat) (packet : Nat)
  /-- NOT_READY_TIMEOUT (R447). A packet unplaced 1,000 ms after its first refusal fails its message with RECEIVER_NOT_READY. -/
  | notReadyTimeout (send : Nat) (packet : Nat)
  /-- REFUSE (R448). A REFUSE fails the message with the code in REASON. -/
  | refuse (p : XPacket)
  /-- ABORT (R449). A receiver abandons the message's record, records it aborted and answers with a FINAL ACK. -/
  | abort (p : XPacket)
  /-- RETRANSMIT_TIMER (R446). A packet unacknowledged 16 µs after a transmission is sent again, with the interval doubling to 256 µs. -/
  | retransmitTimer (send : Nat) (packet : Nat)
  /-- DELIVERY_TIMEOUT (R448). A packet unacknowledged past STAMP plus LIFETIME_US plus 1 µs fails the message, which is then aborted. -/
  | deliveryTimeout (send : Nat) (packet : Nat)
  /-- COMPLETION_TABLE_EXPIRY (R445). A remembered message ID is dropped once fabric time passes its greatest STAMP plus LIFETIME_US. -/
  | completionTableExpiry (src : Nat) (srcEp : Nat) (srcGen : Nat) (serial : Nat)
  /-- TRAY_LOAD (R479). TRAY_LOAD reads bytes from a tray region into a destination. -/
  | trayLoad (c : Cmd)
  /-- TRAY_STORE (R479). TRAY_STORE writes bytes into a tray region. -/
  | trayStore (c : Cmd)
  /-- TRAY_ATOMIC (R467). TRAY_ATOMIC applies an atomic at the home and returns the old value. -/
  | trayAtomic (c : Cmd)
  /-- TRAY_REDUCE (R466). TRAY_REDUCE applies a reduction to stored elements at the home. -/
  | trayReduce (c : Cmd)
  /-- TRAY_MCAST_STORE (R481). TRAY_MCAST_STORE stores the same bytes at every member of a group. -/
  | trayMcastStore (c : Cmd)
  /-- TRAY_ALLOC (R462). TRAY_ALLOC places and zeroes a tray region and creates its key. -/
  | trayAlloc (c : Cmd)
  /-- TRAY_GROUP_SET (R481). TRAY_GROUP_SET sets or clears a multicast group. -/
  | trayGroupSet (c : Cmd)
  /-- TRAY_REQUEST (R469). A home takes a tray request through its checks and queues it at its first line. -/
  | trayRequest (p : TPacket)
  /-- TRAY_LINE_OPERATION (R470). The home performs one queued line operation in arrival order and replies after the last line. -/
  | trayLineOperation (line : Nat)
  /-- COMBINING_WRITEBACK (R471). A held line idle for 1 µs is written back to its stack. -/
  | combiningWriteback (line : Nat)
  /-- TRAY_REPLY (R476). An initiator receiving a reply regains a credit and completes or records the operation. -/
  | trayReply (p : TPacket)
  /-- TRAY_RETRANSMIT_TIMER (R476). A request without a reply is sent again at 10 µs and 30 µs after its first transmission. -/
  | trayRetransmitTimer (home : Nat) (opId : Nat)
  /-- TRAY_TARGET_LOST (R476). An operation without a reply after 50 µs of running clock, or 1,000 ms stopped, ends with TRAY_TARGET_LOST. -/
  | trayTargetLost (home : Nat) (opId : Nat)
  /-- REPLY_EXPIRY (R474). A HELD reply entry becomes EXPIRED 16 ms after its reply was first sent. -/
  | replyExpiry (src : Nat) (opId : Nat)
  /-- ANNOUNCEMENT_SEND (R414). A link sends an announcement when it becomes ON and every 100 ms. -/
  | announcementSend (port : Nat) (sub : Nat)
  /-- ANNOUNCEMENT (R415). An accepted announcement updates the link's neighbour and may detect a fabric-ID conflict. -/
  | announcement (port : Nat) (sub : Nat) (a : Announce)
  /-- ASSIGN (R416). ASSIGN gives an unassigned or conflicting module its fabric ID. -/
  | assign (serial : Nat) (id : Nat) (pfx : Nat)
  /-- ROUTE_UPDATE (R420). ROUTE_UPDATE writes whole route entries. -/
  | routeUpdate (slotTable : Bool) (first : Nat) (entries : List (List RoutePath))
  /-- MEMBERSHIP (R417). A MEMBERSHIP message with a newer epoch is adopted by every unit at once. -/
  | membership (epoch : Nat) (members : List (Nat × Nat))
  /-- FRAGMENT_DISCARD (R416). Fragments of an incomplete KIND 3 message are discarded after 100 ms. -/
  | fragmentDiscard (subtype : Nat)
  /-- HEARTBEAT (R524). Every 1 ms the module sends a HEARTBEAT to the fabric manager. -/
  | heartbeat
  /-- PTP_MESSAGE (R421). A received IEEE 1588 message updates the boundary clock and lock state. -/
  | ptpMessage (p : PtpInfo)
  /-- LOCK_LOSS_TIMEOUT (R422). Lock is lost when no sync arrives for 8 intervals. -/
  | lockLossTimeout
  /-- PFC_FRAME (R407). A priority flow control frame pauses or releases classes of a link. -/
  | pfcFrame (port : Nat) (sub : Nat) (classes : List (Nat × Bool))
  /-- NEIGHBOUR_SOLICITATION (R409). Under ENCAP 1, the module answers IPv6 neighbour solicitations for its link addresses. -/
  | neighbourSolicitation (port : Nat) (sub : Nat) (addr : Nat)
  /-- LINK_TRAINED (R406). A link finishes training and becomes ON. -/
  | linkTrained (port : Nat) (sub : Nat)
  /-- LINK_TRAINING_RETRY (R406). An untrained link starts another 500 ms training attempt. -/
  | linkTrainingRetry (port : Nat) (sub : Nat) (badLanes : List Nat)
  /-- LINK_FAILURE (R75). A link failure resets the port; queued frames are resent on other paths. -/
  | linkFailure (port : Nat) (sub : Nat)
  /-- PORT_CONTROL (R425). PORT_CONTROL enables or disables a link. -/
  | portControl (c : Cmd)
  /-- FRAME_TRANSMIT_SELECT (R489). A link picks its next frame by class and queue among those eligible for pause, gate, shaper and budget. -/
  | frameTransmitSelect (port : Nat) (sub : Nat)
  /-- GATE_ENTRY_CHANGE (R494). The gate schedule moves to its next entry, opening and closing class gates. -/
  | gateEntryChange (port : Nat)
  /-- DOMAIN_SECRET_ACTIVATION (R545). At the key epoch of ACTIVATE, a new domain secret comes into force. -/
  | domainSecretActivation
  /-- INJECT (R513). INJECT feeds the next COUNT detections of a detector instance. -/
  | inject (c : Cmd)
  /-- SHADOW_CONTROL (R530). SHADOW_CONTROL starts or stops mirroring to a shadow module. -/
  | shadowControl (c : Cmd)
  /-- MIRRORED_COMMAND (R531). A shadow executes a mirrored command and compares digests, raising or clearing its clean count. -/
  | mirroredCommand (seq : Nat) (c : Cmd) (inputs : List (Nat × BitVec 8)) (given : Nat) (digest : Nat)
  /-- GET_IDENTITY (R548). GET_IDENTITY returns the module's serial, public keys and a fresh nonce. -/
  | getIdentity (p : Path) (tag : Nat)
  /-- ATTEST (R551). ATTEST signs and returns an attestation report. -/
  | attest (p : Path) (tag : Nat) (nonce : BitVec 256)
  /-- PROVISION (R537). PROVISION fuses the owner key hash and moves BLANK to PROVISIONED. -/
  | provision (p : Path) (tag : Nat) (nonce : BitVec 256) (keyBlock : List (BitVec 8)) (rsa : List (BitVec 8)) (slh : List (BitVec 8))
  /-- ADVANCE (R537). ADVANCE moves the lifecycle to PRODUCTION or RETURNED. -/
  | advance (p : Path) (tag : Nat) (nonce : BitVec 256) (target : Nat) (rsa : List (BitVec 8)) (slh : List (BitVec 8))
  /-- SET_DOMAIN (R544). SET_DOMAIN unwraps and installs a domain secret with its activation epoch. -/
  | setDomain (p : Path) (tag : Nat) (serial : Nat) (activate : Nat) (kem : List (BitVec 8)) (oaep : List (BitVec 8)) (sealedSecret : List (BitVec 8)) (rsa : List (BitVec 8)) (slh : List (BitVec 8))
  /-- SESSION_OPEN (R558). SESSION_OPEN opens an authorised management session. -/
  | sessionOpen (p : Path) (tag : Nat) (nonce : BitVec 256) (rsa : List (BitVec 8)) (slh : List (BitVec 8))
  /-- SESSION_CLOSE (R558). SESSION_CLOSE ends the management session. -/
  | sessionClose (p : Path) (tag : Nat)
  /-- SESSION_TIMEOUT (R558). A session ends after 60 s without a request. -/
  | sessionTimeout
  /-- MEM_READ (R558). MEM_READ returns decrypted stack bytes within a session. -/
  | memRead (p : Path) (tag : Nat) (stack : Nat) (tenant : Nat) (off : Nat) (len : Nat)
  /-- FUNCTION_LEVEL_RESET (R75). A PCI Express function-level reset of a tenant's function performs that tenant's reset. -/
  | functionLevelReset (fn : Nat)
  /-- WINDOW_SLOT_FILLED (R204). A weight-window slot finishes filling, releasing commands that wait on its layer or completing them with ADAPTER_LOST when a run was lost. -/
  | windowSlotFilled (stream : Nat) (layer : Nat)
  /-- WAIT_RELEASE_REPORT (R263). The owner's report that a forwarded command waiting on WAIT_TAG has been released arrives at the accepting module, which lets later commands of the queue start. -/
  | waitReleaseReport (c : Cmd)
  /-- SYSTEM_ENDPOINT_RETRY (R457). A system-endpoint send refused for want of a fabric ID or of time is retried 1 ms later. -/
  | systemEndpointRetry
  /-- ATTEST_SIGNATURE_COMPLETE (R551). The signing of an attestation report completes, its response is sent and the next queued ATTEST request begins. -/
  | attestSignatureComplete
deriving DecidableEq, Repr

end Sys2Proof
end

