-- ==== Sys2Proof/Decode.lean ====
section
/-!
DEFINITION. The words of commands. spec/opcode_table.json gives no row any bits: a command of this block is an event at one of its
interfaces, not a word, and so no word spells one.
-/
namespace Sys2Proof

/-- The command that a word spells by the table's bits: the table gives bits to no row. DESIGN CHOICE, log entry 1. -/
def decodeTableWord (_nbits _w : Nat) : Option Instr := none

end Sys2Proof
end

