-- ==== Sys2Proof/Config.lean ====
section
/-!
DEFINITION. What an implementation or an outside standard fixes and the manual does not: constants with no body.
No proof can see their values; a statement about them holds whatever they are.
-/
namespace Sys2Proof.Config

/-- Byte `a` of the `n`-th allocation whose content the manual does not give (07_ladle_engines.md R222). DESIGN CHOICE, log entry 6. -/
opaque freeByte (n a : Nat) : BitVec 8

/-- The `n`-th value that the manual leaves open, where no operand determines it. DESIGN CHOICE, log entry 6. -/
opaque freeWord (n : Nat) : BitVec 64

/-- Silicon revision and Ranique's manufacturer code of IDCODE, which the BSDL file gives (21_power_pins_package.md R592). DESIGN CHOICE, log entry 139. -/
opaque revision : BitVec 4
/-- DESIGN CHOICE, log entry 139. -/
opaque manufacturer : BitVec 11

/-- SHA-384 of FIPS 180-4 (named, not defined, by 03_configuration_image_and_startup.md R59). PRESUMED, log entry 11. -/
opaque sha384 (m : List (BitVec 8)) : BitVec 384

/-- Clock of the PHY islands in MHz: it derives from the SerDes, and 02_module_organisation.md Table 2.3 gives no figure. DESIGN CHOICE, log entry 15. -/
opaque phyMhz : Nat

/-- By how many ns an island's copy of fabric time runs ahead of the least one (02_module_organisation.md R31: any two differ by at most 2 ns): fabric time,
island. DESIGN CHOICE, log entry 123. -/
opaque islandSkew (time island : Nat) : Fin 3

/-- Stack addresses that the module gives to what it keeps of a request (05_request_state_and_ownership.md Table 5.2 PAGE_LIST, LOG_LOCATOR): 0 the token
log, 1 the page list; the handle; the ledger copy, or 0 for the owner's working copy. DESIGN CHOICE, log entry 128. -/
opaque stackAddr (kind handle copy : Nat) : BitVec 64

/-- RSASSA-PSS verification under the key block (03 Table 3.5): key block, digest, signature. PRESUMED, log entry 11. -/
opaque rsaPssVerify (key : List (BitVec 8)) (digest : BitVec 384) (sig : List (BitVec 8)) : Bool

/-- SLH-DSA-SHA2-192s verification (03 Table 3.5): key block, digest, signature. -/
opaque slhDsaVerify (key : List (BitVec 8)) (digest : BitVec 384) (sig : List (BitVec 8)) : Bool

/-- By how much the exponential (0), hyperbolic tangent (1) and reciprocal square root (2) of the vector unit (07 Table 7.1, Table 7.15) lie from the
correctly rounded value in the last place: 0 one below, 1 equal, 2 one above. The manual names the functions and gives no precision. DESIGN CHOICE, log
entry 14. DESIGN CHOICE, log entry 14. -/
opaque lastPlace (which : Nat) (x : BitVec 32) : Fin 3

/-- The first 64 bytes of the first tile of an operand as a Ladle lays it out in its working half (07 R223, R225): slot, Ladle, operand. DESIGN CHOICE, log
entry 131. DESIGN CHOICE, log entry 131. -/
opaque tile (slot ladle operand : Nat) : BitVec 512

/-- FP32 running sums that the accumulators of a Ladle hold when a command stops at a group boundary (07 R231, R232): the free number of the stop,
accumulator. DESIGN CHOICE, log entry 131. -/
opaque runningSum (n accumulator : Nat) : BitVec 32

/-- What an issue slot of a Ladle does in a cycle in which a command runs (07 R227): 0 it issues an operation, 1 front-starved, 2 back-starved: the number of
the cycle, Ladle, slot. DESIGN CHOICE, log entry 138. -/
opaque slotUse (cycle ladle slot : Nat) : Fin 3

/-- The value of a condition signal that depends on the timing inside an island (20_counters_and_metering.md Table 20.4): island, signal, time.
DESIGN CHOICE, log entry 13. DESIGN CHOICE, log entry 15. -/
opaque condition (island signal time : Nat) : Nat

/-- Ranique's IANA enterprise number (19_security.md R548 names it and gives no value). -/
opaque enterprise : Nat

/-- The device seed of a module (19 R540), by serial number, and HKDF-SHA-384 of a seed under a label: the bytes from which a key pair is generated, whose
number the manual does not give. PRESUMED, log entry 11. -/
opaque deviceSeed (serial : Nat) : BitVec 384
opaque seedKey (seed : BitVec 384) (label : List (BitVec 8)) : List (BitVec 8)

/-- Byte `i` of the public key that derived bytes give (19 R540): 0 identity RSA, 1 identity SLH-DSA, 2 wrap ML-KEM, 3 wrap RSA. -/
opaque publicKeyByte (derived : List (BitVec 8)) (which i : Nat) : BitVec 8

/-- Byte `i` of a signature with an identity key (19 R551): 0 RSASSA-PSS, 1 SLH-DSA-SHA2-192f. -/
opaque signatureByte (derived : List (BitVec 8)) (which : Nat) (digest : BitVec 384) (i : Nat) : BitVec 8

/-- The `n`-th output of the DRBG that serves as a nonce (19 R541). -/
opaque nonce (n : Nat) : BitVec 256

/-- ML-KEM-1024 decapsulation and RSA-OAEP decryption with a wrap key (19 R550). -/
opaque kemOpen (derived ct : List (BitVec 8)) : List (BitVec 8)
opaque oaepOpen (derived ct : List (BitVec 8)) : Option (List (BitVec 8))

/-- HKDF-Extract and HKDF-Expand to 32 bytes, with SHA-384 (19 R546): salt and secret; PRK and info. PRESUMED, log entry 11. -/
opaque hkdfExtract (salt secret : List (BitVec 8)) : BitVec 384
opaque hkdfExpand (prk : BitVec 384) (info : List (BitVec 8)) : BitVec 256

/-- AES-256-GCM (15 R437): key, nonce, additional authenticated data, plain text; the ciphertext and the tag. PRESUMED, log entry 11. -/
opaque gcm (key : BitVec 256) (nonce aad plain : List (BitVec 8)) : List (BitVec 8) × BitVec 128

/-- AES-256-GCM opening (19 R550): key, nonce, ciphertext with its tag. PRESUMED, log entry 11. -/
opaque gcmOpen (key : BitVec 256) (nonce box : List (BitVec 8)) : Option (BitVec 256)

/-- A memory key of a module (19 R539): serial number, owner (0–15 the tenants, 16 the system key, 17 the loan key), and how often it has been made afresh.
PRESUMED, log entry 11. -/
opaque memoryKey (serial owner made : Nat) : BitVec 512

/-- AES-256-XTS of a 64-byte line, and its inverse (19 R542): key, tweak, line. PRESUMED, log entry 11. -/
opaque xtsEncrypt (key : BitVec 512) (tweak : Nat) (line : List (BitVec 8)) : List (BitVec 8)
opaque xtsDecrypt (key : BitVec 512) (tweak : Nat) (line : List (BitVec 8)) : List (BitVec 8)

end Sys2Proof.Config
end

