-- ==== Sys2Proof/Machine/Tab.lean ====
section
/-!
DEFINITION. Finite tables and byte memories: the two shapes in which State holds what is addressed.
A table is a list of key and value pairs, one pair for each key; a memory is a list of address and byte pairs
in one canonical form.
-/
namespace Sys2Proof.Machine

/-- A table from keys to values. -/
abbrev Tab (κ : Type) (α : Type) := List (κ × α)

/-- The value at a key, if the table has the key. -/
def tget {κ α : Type} [DecidableEq κ] (t : Tab κ α) (k : κ) : Option α :=
  match t with
  | [] => none
  | (k', v) :: r => if k' = k then some v else tget r k

/-- The value at a key, or `d` where the table has no entry for it. -/
def tgetD {κ α : Type} [DecidableEq κ] (t : Tab κ α) (k : κ) (d : α) : α := (tget t k).getD d

/-- The table with the value at one key set; an existing entry keeps its place. -/
def tset {κ α : Type} [DecidableEq κ] (t : Tab κ α) (k : κ) (v : α) : Tab κ α :=
  match t with
  | [] => [(k, v)]
  | (k', v') :: r => if k' = k then (k, v) :: r else (k', v') :: tset r k v

/-- The table without one key. -/
def tdel {κ α : Type} [DecidableEq κ] (t : Tab κ α) (k : κ) : Tab κ α :=
  match t with
  | [] => []
  | (k', v') :: r => if k' = k then tdel r k else (k', v') :: tdel r k

/-- Does the table have the key? -/
def thas {κ α : Type} [DecidableEq κ] (t : Tab κ α) (k : κ) : Bool := (tget t k).isSome

/-- Change the value at a key that the table has. -/
def tmod {κ α : Type} [DecidableEq κ] (t : Tab κ α) (k : κ) (f : α → α) : Tab κ α :=
  match tget t k with
  | some v => tset t k (f v)
  | none => t

/-- Change the value at a key, starting from `d` where the table has none. -/
def tupd {κ α : Type} [DecidableEq κ] (t : Tab κ α) (k : κ) (d : α) (f : α → α) : Tab κ α :=
  tset t k (f (tgetD t k d))

/-- A byte memory: address and byte pairs, addresses strictly rising, and no pair whose byte is 0, which is what an
unlisted address reads as. -/
abbrev Memory := List Host.Cell

namespace Memory

/-- The byte at an address. -/
def read (m : Memory) (a : Nat) : Byte :=
  match m with
  | [] => 0
  | (a', b) :: r => if a' = a then b else read r a

/-- Store a byte, keeping the canonical form. -/
def write (m : Memory) (a : Nat) (b : Byte) : Memory :=
  match m with
  | [] => if b = 0 then [] else [(a, b)]
  | (a', b') :: r =>
    if a < a' then (if b = 0 then (a', b') :: r else (a, b) :: (a', b') :: r)
    else if a = a' then (if b = 0 then r else (a, b) :: r)
    else (a', b') :: write r a b

/-- Store bytes at consecutive addresses. -/
def writeBytes (m : Memory) (a : Nat) : List Byte → Memory
  | [] => m
  | b :: bs => writeBytes (m.write a b) (a + 1) bs

/-- Read `n` bytes at consecutive addresses. -/
def readBytes (m : Memory) (a : Nat) : Nat → List Byte
  | 0 => []
  | n + 1 => m.read a :: readBytes m (a + 1) n

/-- Read an `n`-byte little-endian number (00_scope.md R2). -/
def readNat (m : Memory) (a n : Nat) : Nat := leNat (m.readBytes a n)

/-- Read a little-endian doubleword. -/
def readWord (m : Memory) (a : Nat) : Word := BitVec.ofNat 64 (m.readNat a 8)

/-- Read `n` consecutive doublewords. -/
def readWords (m : Memory) (a n : Nat) : List Word := bytesToWords n (m.readBytes a (8 * n))

/-- Set `n` bytes to zero: drop every entry in the range. -/
def clear (m : Memory) (a n : Nat) : Memory := m.filter fun c => !(a ≤ c.1 && c.1 < a + n)

/-- Place a list of cells. -/
def place (m : Memory) : List Host.Cell → Memory
  | [] => m
  | (a, b) :: r => place (m.write a b) r

/-- The canonical form of a list of cells from an address on: a cell that holds 0, or that does not lie above the one before it, is left out. -/
def canonFrom (lo : Nat) : Memory → Memory
  | [] => []
  | (a, b) :: r => if a < lo || b = 0 then canonFrom lo r else (a, b) :: canonFrom (a + 1) r

/-- The canonical form of a list of cells; a memory in canonical form is its own. -/
def canon (m : Memory) : Memory := canonFrom 0 m

/-- Every address of the memory is at least `lo`, they rise strictly, and no byte is 0. -/
def wfFrom (lo : Nat) : Memory → Bool
  | [] => true
  | (a, b) :: r => decide (lo ≤ a) && decide (b ≠ 0) && wfFrom (a + 1) r

/-- The canonical form. -/
def wf (m : Memory) : Bool := wfFrom 0 m

end Memory

end Sys2Proof.Machine
end

