-- ==== Sys2Proof/Machine/Num.lean ====
section
/-!
DEFINITION. Number formats (13_formats_quantisation_compression.md R374–R381) and exact arithmetic with one rounding
(07_ladle_engines.md R216, R218; 08_attention.md R256, R257).
-/
namespace Sys2Proof.Machine

/-- A number: a NaN, an infinity, or (−1)^neg × m × 2^e. -/
inductive Num where
  | nan
  | inf (neg : Bool)
  | fin (neg : Bool) (m : Nat) (e : Int)
deriving DecidableEq, Repr

namespace Num

/-- +0.0. -/
def zero : Num := .fin false 0 0

/-- An integer. -/
def ofInt (z : Int) : Num := .fin (decide (z < 0)) z.natAbs 0

def ofNat (n : Nat) : Num := .fin false n 0

/-- 1.0. -/
def one : Num := .fin false 1 0

def isNeg : Num → Bool
  | .fin n _ _ => n
  | .inf n => n
  | .nan => false

/-- Finite? -/
def finite : Num → Bool
  | .fin _ _ _ => true
  | _ => false

/-- Finite and zero? -/
def isZero : Num → Bool
  | .fin _ m _ => m = 0
  | _ => false

def neg : Num → Num
  | .nan => .nan
  | .inf n => .inf (!n)
  | .fin n m e => .fin (!n) m e

def abs : Num → Num
  | .nan => .nan
  | .inf _ => .inf false
  | .fin _ m e => .fin false m e

/-- The signed mantissa of a finite number at exponent `q`, not above its own. -/
def mantAt (n : Bool) (m : Nat) (e q : Int) : Int :=
  let v : Nat := m <<< (e - q).toNat
  if n then -(v : Int) else v

/-- Exact product. -/
def mul : Num → Num → Num
  | .nan, _ => .nan
  | _, .nan => .nan
  | .inf a, .inf b => .inf (a != b)
  | .inf a, .fin b m _ => if m = 0 then .nan else .inf (a != b)
  | .fin a m _, .inf b => if m = 0 then .nan else .inf (a != b)
  | .fin a m e, .fin b n f => .fin (a != b) (m * n) (e + f)

/-- Exact sum. A sum of zero is +0.0 unless both terms are −0.0 (IEEE 754-2019, R376). -/
def add : Num → Num → Num
  | .nan, _ => .nan
  | _, .nan => .nan
  | .inf a, .inf b => if a = b then .inf a else .nan
  | .inf a, .fin _ _ _ => .inf a
  | .fin _ _ _, .inf b => .inf b
  | .fin a m e, .fin b n f =>
    if m = 0 && n = 0 then .fin (a && b) 0 0
    else
      let q := min e f
      let z := mantAt a m e q + mantAt b n f q
      .fin (decide (z < 0)) z.natAbs q

def sub (x y : Num) : Num := add x (neg y)

/-- Compare finite or infinite numbers: is `x` below `y`? A NaN compares with nothing. -/
def lt : Num → Num → Bool
  | .nan, _ => false
  | _, .nan => false
  | .inf a, .inf b => a && !b
  | .inf a, .fin _ _ _ => a
  | .fin _ _ _, .inf b => !b
  | .fin a m e, .fin b n f => decide (mantAt a m e (min e f) < mantAt b n f (min e f))

def le (x y : Num) : Bool := match x, y with
  | .nan, _ => false
  | _, .nan => false
  | _, _ => !(lt y x)

/-- The greater of two; the first where they are equal. -/
def max (x y : Num) : Num := if lt x y then y else x

/-- Equal as values (−0.0 equals +0.0). -/
def eqv (x y : Num) : Bool := le x y && le y x

end Num

/-! ### Rounding -/

/-- Nearest integer to m / 2^sh, ties to even. -/
def rneShift (m sh : Nat) : Nat :=
  let q := m >>> sh
  let r := m % 2 ^ sh
  if sh = 0 then m
  else if 2 ^ (sh - 1) < r || (r = 2 ^ (sh - 1) && q % 2 = 1) then q + 1 else q

/-- m × 2^e rounded to `p` significant bits, no bit below 2^lo (R377): mantissa and exponent. -/
def roundMag (p : Nat) (lo : Int) (m : Nat) (e : Int) : Nat × Int :=
  if m = 0 then (0, lo)
  else
    let q := Max.max (((Nat.log2 m : Nat) : Int) + e - ((p : Int) - 1)) lo
    if q ≤ e then (m, e) else (rneShift m (q - e).toNat, q)

/-- Is m × 2^e above M × 2^E? -/
def magAbove (m : Nat) (e : Int) (M : Nat) (E : Int) : Bool :=
  let q := min e E
  decide (M <<< (E - q).toNat < m <<< (e - q).toNat)

/-- A floating-point format: significant bits, exponent of the smallest subnormal, largest finite value (13 Table 13.2). -/
structure Fp where
  p : Nat
  lo : Int
  maxM : Nat
  maxE : Int
  /-- Width of the fraction and of the exponent, and the bias. -/
  frac : Nat
  expBits : Nat
  bias : Int
  nan : Nat
deriving DecidableEq, Repr

def Fp.f32 : Fp := { p := 24, lo := -149, maxM := 0xFFFFFF, maxE := 104, frac := 23, expBits := 8, bias := 127, nan := 0x7FC00000 }
def Fp.f16 : Fp := { p := 11, lo := -24, maxM := 0x7FF, maxE := 5, frac := 10, expBits := 5, bias := 15, nan := 0x7E00 }
def Fp.b16 : Fp := { p := 8, lo := -133, maxM := 0xFF, maxE := 120, frac := 7, expBits := 8, bias := 127, nan := 0x7FC0 }
def Fp.e4m3 : Fp := { p := 4, lo := -9, maxM := 14, maxE := 5, frac := 3, expBits := 4, bias := 7, nan := 0x7F }
def Fp.e5m2 : Fp := { p := 3, lo := -16, maxM := 7, maxE := 13, frac := 2, expBits := 5, bias := 15, nan := 0x7E }

/-- Round to a format: to nearest, ties to even; beyond the largest finite value, infinity (R377, R218). -/
def Fp.round (f : Fp) : Num → Num
  | .nan => .nan
  | .inf n => .inf n
  | .fin n m e =>
    let (m', e') := roundMag f.p f.lo m e
    if magAbove m' e' f.maxM f.maxE then .inf n else .fin n m' e'

/-- round_fp32. -/
def r32 (x : Num) : Num := Fp.f32.round x

/-- The bits of a number that the format holds. -/
def Fp.encode (f : Fp) (x : Num) : Nat :=
  let top := 2 ^ (f.frac + f.expBits)
  match x with
  | .nan => f.nan
  | .inf n => b2n n * top + (2 ^ f.expBits - 1) * 2 ^ f.frac
  | .fin n m e =>
    if m = 0 then b2n n * top
    else
      let l := Nat.log2 m
      let E := (l : Int) + e
      if E < 1 - f.bias then b2n n * top + (m <<< (e - f.lo).toNat) % 2 ^ f.frac
      else
        let mant := if l ≤ f.frac then m <<< (f.frac - l) else m >>> (l - f.frac)
        b2n n * top + (E + f.bias).toNat * 2 ^ f.frac + mant % 2 ^ f.frac

/-- The number that bits stand for (13 Table 13.2 Note 1). E4M3 has no infinity and one NaN encoding. -/
def Fp.decode (f : Fp) (b : Nat) : Num :=
  let n := bit b (f.frac + f.expBits)
  let ex := bits b (f.frac + f.expBits - 1) f.frac
  let mant := b % 2 ^ f.frac
  let ones := 2 ^ f.expBits - 1
  if f = Fp.e4m3 then
    if ex = ones && mant = 7 then .nan
    else if ex = 0 then .fin n mant f.lo
    else .fin n (mant + 8) ((ex : Int) - 7 - 3)
  else if ex = ones then (if mant = 0 then .inf n else .nan)
  else if ex = 0 then .fin n mant f.lo
  else .fin n (mant + 2 ^ f.frac) ((ex : Int) - f.bias - f.frac)

/-- Division, rounded once: the quotient carries a sticky bit below 70 exact ones. -/
def quotient (m n : Nat) (e : Int) : Nat × Int :=
  let k := 70 + Nat.log2 n
  let q := (m <<< k) / n
  let s := if (m <<< k) % n = 0 then 0 else 1
  (2 * q + s, e - (k : Int) - 1)

/-- A quotient as a number that rounds as the exact one does, in any format of at most 60 bits. -/
def Num.div : Num → Num → Num
  | .nan, _ => .nan
  | _, .nan => .nan
  | .inf _, .inf _ => .nan
  | .inf a, .fin b _ _ => .inf (a != b)
  | .fin a _ _, .inf b => .fin (a != b) 0 0
  | .fin a m e, .fin b n f =>
    if n = 0 then (if m = 0 then .nan else .inf (a != b))
    else
      let (q, x) := quotient m n (e - f)
      .fin (a != b) q x

/-! ### Elements and scales -/

/-- Element formats by code (07 Table 7.3). -/
inductive Fmt where
  | int4 | int8 | e4m3 | e5m2 | bf16 | fp16 | fp32
deriving DecidableEq, Repr

def Fmt.ofCode : Nat → Option Fmt
  | 0 => some .int4
  | 1 => some .int8
  | 2 => some .e4m3
  | 3 => some .e5m2
  | 4 => some .bf16
  | 5 => some .fp16
  | 6 => some .fp32
  | _ => none

/-- Width in bits. -/
def Fmt.width : Fmt → Nat
  | .int4 => 4
  | .int8 => 8
  | .e4m3 => 8
  | .e5m2 => 8
  | .bf16 => 16
  | .fp16 => 16
  | .fp32 => 32

/-- The floating-point layout of a format, if it is one. -/
def Fmt.fp : Fmt → Option Fp
  | .int4 => none
  | .int8 => none
  | .e4m3 => some Fp.e4m3
  | .e5m2 => some Fp.e5m2
  | .bf16 => some Fp.b16
  | .fp16 => some Fp.f16
  | .fp32 => some Fp.f32

/-- The formats that the output stage quantises to (R218), with qmax. -/
def Fmt.qmax : Fmt → Option Nat
  | .int8 => some 127
  | .int4 => some 7
  | .e4m3 => some 448
  | .e5m2 => some 57344
  | _ => none

/-- The value of an element (R374). -/
def Fmt.decode (f : Fmt) (b : Nat) : Num :=
  match f.fp with
  | some p => p.decode b
  | none => .ofInt (signed f.width b)

/-- The bits of a value that the format holds; an integer format holds integers, and −0.0 becomes 0 (R376). -/
def Fmt.encode (f : Fmt) (x : Num) : Nat :=
  match f.fp with
  | some p => p.encode x
  | none => match x with
    | .fin n m e => unsignedOf f.width (Num.mantAt n m e 0)
    | _ => 0

/-- Scale formats (07 Table 7.3): bytes of one scale. -/
def scaleBytes : Nat → Nat
  | 1 => 2
  | 2 => 1
  | _ => 0

/-- The value of a scale (R380; 13 Table 13.2). -/
def scaleValue (fmt b : Nat) : Num :=
  match fmt with
  | 1 => Fp.f16.decode b
  | 2 => if b = 0xFF then .nan else .fin false 1 ((b : Int) - 127)
  | _ => .one

/-- Group sizes (07 Table 7.3). -/
def groupOf : Nat → Option Nat
  | 0 => some 32
  | 1 => some 64
  | 2 => some 128
  | _ => none

/-- Round to the nearest integer, ties to even. -/
def Num.toInteger : Num → Num
  | .fin n m e =>
    if 0 ≤ e then .fin n m e
    else .fin n (rneShift m (-e).toNat) 0
  | x => x

/-- Round to an element format before saturation (R218, R253). -/
def Fmt.roundTo (f : Fmt) (x : Num) : Num :=
  match f.fp with
  | some p =>
    match x with
    | .fin n m e => let (m', e') := roundMag p.p p.lo m e; .fin n m' e'
    | y => y
  | none => x.toInteger

/-- An element of a quantised group: c / scale rounded once, saturated to ±qmax, a NaN as zero (R218, R219). Whether it saturated or was a NaN. -/
def quantise (f : Fmt) (q : Nat) (scale x : Num) : Nat × Bool :=
  match Num.div x scale with
  | .nan => (0, true)
  | .inf n => (f.encode (.fin n q 0), true)
  | .fin n m e =>
    match f.roundTo (.fin n m e) with
    | .fin n' m' e' => if magAbove m' e' q 0 then (f.encode (.fin n' q 0), true) else (f.encode (.fin n' m' e'), false)
    | _ => (0, true)

/-- The largest absolute value over the finite elements. -/
def amax (l : List Num) : Num := l.foldl (fun a x => if x.finite then Num.max a x.abs else a) .zero

/-- Least power of two not below a positive number, as an exponent. -/
def ceilLog2 (m : Nat) (e : Int) : Int :=
  let l := Nat.log2 m
  if m = 2 ^ l then (l : Int) + e else (l : Int) + 1 + e

/-- The scale that the output stage gives a group (R218): its bits. -/
def groupScale (sfmt q : Nat) (a : Num) : Nat :=
  match a with
  | .fin _ m e =>
    if sfmt = 2 then
      if m = 0 then 127
      else
        let (qm, qe) := quotient m q e
        let x := ceilLog2 qm qe
        ((Max.max (-127) (min 127 x)) + 127).toNat
    else if m = 0 then Fp.f16.encode .one
    else
      match Fp.f16.round (Num.div a (.ofNat q)) with
      | .fin n m' e' => if m' = 0 then 1 else Fp.f16.encode (.fin n m' e')
      | _ => Fp.f16.encode (.ofNat 65504)
  | _ => 0

/-! ### Sums -/

/-- Pairwise tree of R216: results 2i and 2i + 1 are added at each level, each rounded to FP32. An odd last one moves up. -/
def pairLevel : List Num → List Num
  | a :: b :: r => r32 (Num.add a b) :: pairLevel r
  | l => l

/-- All levels of the tree; `n` bounds them. -/
def pairTree : Nat → List Num → Num
  | _, [] => .zero
  | _, [x] => x
  | 0, x :: _ => x
  | n + 1, l => pairTree n (pairLevel l)

def pairwise (l : List Num) : Num := pairTree l.length l

/-- Arithmetic modes (07 Table 7.4): integers and FP8 sum a group exactly, BF16 and FP16 by the tree. -/
inductive Mode where
  | exact | tree
deriving DecidableEq, Repr

/-- The mode of a pair of formats (R215). -/
def modeOf : Fmt → Fmt → Option Mode
  | .int8, .int8 => some .exact
  | .int8, .int4 => some .exact
  | .e4m3, .e4m3 => some .exact
  | .e4m3, .e5m2 => some .exact
  | .e5m2, .e4m3 => some .exact
  | .e5m2, .e5m2 => some .exact
  | .bf16, .bf16 => some .tree
  | .fp16, .fp16 => some .tree
  | _, _ => none

/-- The number of the mode in which a weight or key format is multiplied (Table 7.4); 5 for FP32, which no mode takes. -/
def modeCode : Fmt → Nat
  | .int8 => 0
  | .int4 => 1
  | .e4m3 => 2
  | .e5m2 => 2
  | .bf16 => 3
  | .fp16 => 4
  | _ => 5

/-- The sum of one group's products (R216). -/
def groupSum (md : Mode) (a w : List Num) : Num :=
  let p := List.zipWith Num.mul a w
  match md with
  | .exact => r32 (p.foldl Num.add .zero)
  | .tree => pairwise (p.map r32)

/-- One output element (R216): groups in ascending order. -/
def dotGroups (md : Mode) (g : Nat) : Num → List Num → List Num → List Num → List Num → Num
  | acc, _, _, [], _ => acc
  | acc, _, _, _, [] => acc
  | acc, a, w, sa :: ra, sw :: rw =>
    let t := groupSum md (a.take g) (w.take g)
    let acc' := r32 (Num.add acc (r32 (Num.mul t (r32 (Num.mul sa sw)))))
    dotGroups md g acc' (a.drop g) (w.drop g) ra rw

/-- The dot product of R216. -/
def dot (md : Mode) (g : Nat) (a w sa sw : List Num) : Num := dotGroups md g .zero a w sa sw

/-! ### The exponential, correctly rounded to FP32 (08 R256) -/

/-- ln 2 × 2^256, rounded down. -/
def ln2Fix : Nat := 80260960185991308862233904206310070533990667611589946606122867505419956976171

/-- 2^256. -/
def fixOne : Nat := 2 ^ 256

/-- The Taylor series of exp(r) at 256 fractional bits, `n` further terms from term `i`. -/
def expSeries (r : Nat) : Nat → Nat → Nat → Nat
  | 0, _, _ => 0
  | n + 1, i, t => t + expSeries r n (i + 1) (t * r / fixOne / i)

/-- The exponential of an argument of magnitude at most 104: reduced by ln 2 and evaluated to 2^−240 of its value. -/
def expFix : Num → Num
  | .nan => .nan
  | .inf n => if n then .zero else .inf false
  | .fin n m e =>
    if m = 0 then .one
    else if magAbove m e 104 0 then (if n then .zero else .inf false)
    else
      let x := if 0 ≤ e + 256 then m <<< (e + 256).toNat else m >>> (-(e + 256)).toNat
      let k := x / ln2Fix
      let r := x - k * ln2Fix
      if n then
        if r = 0 then .fin false 1 (-(k : Int))
        else .fin false (expSeries (ln2Fix - r) 70 1 fixOne) (-(k : Int) - 1 - 256)
      else .fin false (expSeries r 70 1 fixOne) ((k : Int) - 256)

/-- exp_cr: below −104 the result rounds to +0.0, above 89 to infinity. The rounding is that of the exact value, since no FP32 argument but 0 has an
exponential so near a rounding boundary. -/
def expCr (x : Num) : Num := r32 (expFix x)

/-- The hyperbolic tangent, correctly rounded to FP32: (1 − E) / (1 + E) with E = exp(−2|x|), and ±1 from 20 on. -/
def tanhCr : Num → Num
  | .nan => .nan
  | .inf n => .fin n 1 0
  | .fin n m e =>
    if m = 0 then .fin n 0 0
    else if magAbove m e 20 0 then .fin n 1 0
    else
      let E := expFix (.fin true m (e + 1))
      match r32 (Num.div (Num.sub .one E) (Num.add .one E)) with
      | .fin _ a b => .fin n a b
      | x => x

/-- The integer square root from its high bits: the greatest r with r² ≤ x, below 2^n. -/
def isqrtBits (x : Nat) : Nat → Nat → Nat
  | 0, r => r
  | n + 1, r => if (r + 2 ^ n) * (r + 2 ^ n) ≤ x then isqrtBits x n (r + 2 ^ n) else isqrtBits x n r

/-- 1/√x, correctly rounded to FP32. -/
def recipSqrt : Num → Num
  | .nan => .nan
  | .inf n => if n then .nan else .zero
  | .fin n m e =>
    if m = 0 then .inf n
    else if n then .nan
    else
      let odd := e % 2 ≠ 0
      let m1 := if odd then 2 * m else m
      let e1 := if odd then e - 1 else e
      let y := 2 ^ 640 / m1
      let r := isqrtBits y 321 0
      if r * r * m1 = 2 ^ 640 then r32 (.fin false r (-320 - e1 / 2)) else r32 (.fin false (2 * r + 1) (-321 - e1 / 2))

/-- A function of the vector unit: the correctly rounded value `v` of the argument `x`, moved by what is open in its last place (07 Table 7.15). DESIGN CHOICE,
log entry 14. DESIGN CHOICE, log entry 14. -/
def unitFn (which : Nat) (x v : Num) : Num :=
  match v with
  | .fin n m e =>
    if m = 0 then v
    else
      let k := (Config.lastPlace which (BitVec.ofNat 32 (Fp.f32.encode x))).val
      Fp.f32.decode (Fp.f32.encode (.fin n m e) + k - 1)
  | _ => v

end Sys2Proof.Machine
end

