-- ==== Sys2Proof/Machine/StImage.lean ====
section
/-!
DEFINITION. The configuration image as the module holds it after start-up (03_configuration_image_and_startup.md,
Tables 3.3–3.13), the fuses, and the figures of the ordering code (00_scope.md Table 0.1).
-/
namespace Sys2Proof.Machine

/-- Ordering codes (00_scope.md Table 0.1). -/
inductive OrderCode where
  | p64x4 | p64x2 | p48x4
deriving DecidableEq, Repr

/-- Active memory dies of one stack. -/
def OrderCode.dies : OrderCode → Nat
  | .p64x4 => 16
  | .p64x2 => 16
  | .p48x4 => 12

/-- Port dies. -/
def OrderCode.portDies : OrderCode → Nat
  | .p64x4 => 4
  | .p64x2 => 2
  | .p48x4 => 4

/-- Ports of 800 Gb/s. -/
def OrderCode.ports (o : OrderCode) : Nat := 4 * o.portDies

/-- Usable bytes of one stack. -/
def OrderCode.stackBytes (o : OrderCode) : Nat := o.dies * 2 ^ 32

/-- Roles (01_serving_roles.md Table 1.1, 03 R60). -/
inductive Role where
  | p | g | c | s
deriving DecidableEq, Repr

/-- The role that an encoding names (03 R60). -/
def Role.ofCode : Nat → Option Role
  | 0 => some .p
  | 1 => some .g
  | 2 => some .c
  | 3 => some .s
  | _ => none

/-- The encoding of a role (03 R60). -/
def Role.code : Role → Nat
  | .p => 0
  | .g => 1
  | .c => 2
  | .s => 3

/-- A member of the cache pool (01 R9). -/
def Role.cachePool : Role → Bool
  | .c => true
  | .s => true
  | _ => false

/-- TENANT record (03 Table 3.7). -/
structure TenantRec where
  tenant : Nat
  queuePairs : Nat
  function : Nat
  priority : Nat
  jobLimit : Nat
  camBanks : Nat
  grammarSlots : Nat
  counterRead : Bool
  endpointBase : Nat
  endpointCount : Nat
deriving DecidableEq, Repr

/-- KNOB record (03 Table 3.13). -/
structure KnobRec where
  knob : Nat
  max : Nat
  min : Nat
deriving DecidableEq, Repr

/-- WEIGHT_WINDOW record (03 Table 3.8). -/
structure WindowRec where
  tier : Nat
  distance : Nat
  slots : Nat
  slotBytes : Nat
deriving DecidableEq, Repr

/-- FABRIC record (03 Table 3.8). -/
structure FabricRec where
  ethertype : Nat
  udpPort : Nat
  encap : Nat
  contextStore : Nat
  lifetimeUs : Nat
deriving DecidableEq, Repr

/-- PORT record (03 Table 3.8). -/
structure PortRec where
  port : Nat
  breakout : Nat
  enable : Bool
deriving DecidableEq, Repr

/-- SHAPER_CLASS record (03 Table 3.8). -/
structure ShaperRec where
  port : Nat
  cls : Nat
  overhead : Nat
  rateMbps : Nat
  burst : Nat
deriving DecidableEq, Repr

/-- GATE_SCHEDULE record: pairs of duration in ns and open classes (03 Table 3.8). -/
structure GateRec where
  port : Nat
  base : Nat
  entries : List (Nat × Nat)
deriving DecidableEq, Repr

/-- BUDGET record (03 Table 3.8). -/
structure BudgetRec where
  tenant : Nat
  resource : Nat
  cls : Nat
  amount : Nat
deriving DecidableEq, Repr

/-- HEALTH record (03 Table 3.9). -/
structure HealthRec where
  part : Nat
  windowMs : Nat
  suspect : Nat
  retire : Nat
deriving DecidableEq, Repr

/-- DUMP record (03 Table 3.9). -/
structure DumpRec where
  periodUs : Nat
  dest : Nat
  base : Nat
  bytes : Nat
deriving DecidableEq, Repr

/-- What the module keeps of a verified section for attestation (19_security.md Table 19.5). -/
structure SectionRec where
  svn : Nat
  commit : Bool
  buildId : Nat
  digest : BitVec 384
  keyBlock : List Byte
deriving DecidableEq, Repr

/-- The structure that the image gives the module. An absent optional record has the effect of 03 Table 3.2. -/
structure Image where
  role : Role
  tenantCount : Nat
  molril : Bool
  fabricId : Nat
  installationId : Nat
  recoveryLimit : Nat
  orphanUs : Nat
  tenants : List TenantRec
  knobs : List KnobRec
  recallDeadlineUs : Nat
  loanOffer : Nat
  t3Bytes : Nat
  quotas : List (Nat × Nat × Nat)
  window : Option WindowRec
  fabric : FabricRec
  ports : List PortRec
  shapers : List ShaperRec
  gates : List GateRec
  budgets : List BudgetRec
  sustainedW : Nat
  diDt : Nat
  sensors : List (Nat × Nat)
  injectSensors : Bool
  injectDetectors : Bool
  health : List HealthRec
  vendorHealth : List HealthRec
  cleanSteps : Nat
  dump : Option DumpRec
  vendor : Option SectionRec
  owner : Option SectionRec
deriving DecidableEq, Repr

/-- No image: what the module runs on before start-up has checked the owner records. -/
def Image.none : Image :=
  { role := .s, tenantCount := 0, molril := false, fabricId := 0x3FFFF, installationId := 0, recoveryLimit := 1,
    orphanUs := 2000, tenants := [], knobs := [], recallDeadlineUs := 10000, loanOffer := 250, t3Bytes := 0,
    quotas := [], window := .none,
    fabric := { ethertype := 0, udpPort := 0, encap := 0, contextStore := 0, lifetimeUs := 2000 },
    ports := [], shapers := [], gates := [], budgets := [], sustainedW := 300, diDt := 1, sensors := [],
    injectSensors := false, injectDetectors := false, health := [], vendorHealth := [], cleanSteps := 1000,
    dump := .none, vendor := .none, owner := .none }

/-- One owner-hash bank (19 R538). `blown` says that some hash fuse is blown. -/
structure OwnerBank where
  hash : BitVec 384
  blown : Bool
  complete : Bool
  spoiled : Bool
deriving DecidableEq, Repr

/-- A retirement recorded in fuses (18_reliability_and_spares.md R521): part kind, retired index, spare's index. -/
structure FusedMove where
  part : Nat
  index : Nat
  spare : Nat
deriving DecidableEq, Repr

/-- The one-time fuses (03 R63, 18 R521, 19 R536–R540). -/
structure Fuses where
  serial : Nat
  vendorKeyHash : BitVec 384
  banks : List OwnerBank
  lifecycle : Nat
  vendorSvn : Nat
  ownerSvn : Nat
  tamperCount : Nat
  moves : List FusedMove
deriving DecidableEq, Repr

/-- The fused owner key hash: that of the completed bank (19 R538). -/
def Fuses.ownerKeyHash (f : Fuses) : Option (BitVec 384) := (f.banks.find? (·.complete)).map (·.hash)

end Sys2Proof.Machine
end

