-- ==== Sys2Proof/Machine/StBase.lean ====
section
/-!
DEFINITION. State of the host interface, start-up, the governor, telemetry, reliability and security
(02, 03, 04, 17 governor, 18, 19, 20, 21).
-/
namespace Sys2Proof.Machine

/-- Function status (02_module_organisation.md Table 2.10). -/
inductive FnStatus where
  | off | starting | on | stopping | absent
deriving DecidableEq, Repr

/-- The encoding of a status (02 Table 2.10). -/
def FnStatus.code : FnStatus → Nat
  | .off => 0
  | .starting => 1
  | .on => 2
  | .stopping => 3
  | .absent => 4

/-- A status with its LATCH (02 R48). -/
structure FnState where
  st : FnStatus
  latch : Bool
deriving DecidableEq, Repr

/-- The clean reset state of a function. -/
def FnState.clean : FnState := { st := .off, latch := false }

/-- One queue pair (04_host_queues.md Table 4.4, R89). -/
structure QueuePair where
  fn : FnState
  sqTail : Nat
  cqHead : Nat
  sqHead : Nat
  cqTail : Nat
  phase : Bool
  sqBase : Nat
  cqBase : Nat
  sqLog : Nat
  cqLog : Nat
  code : Nat
  stoppedAt : Nat
  unreadSince : Option Nat
deriving DecidableEq, Repr

/-- A queue pair at its reset values (04 Table 4.4). -/
def QueuePair.reset : QueuePair :=
  { fn := .clean, sqTail := 0, cqHead := 0, sqHead := 0, cqTail := 0, phase := true, sqBase := 0, cqBase := 0,
    sqLog := 0, cqLog := 0, code := 0, stoppedAt := 0, unreadSince := none }

/-- A closed word in the staging buffer (04 R115): its eight slots and how many hold records. -/
structure KettleWord where
  slots : List Word
  valid : Nat
deriving DecidableEq, Repr

/-- A Kettle ring (04 Table 4.10, R113–R118). -/
structure Kettle where
  fn : FnState
  base : Nat
  sizeLog : Nat
  code : Nat
  tail : Nat
  head : Nat
  lost : Nat
  poison : Nat
  opened : List Word
  openedAt : Nat
  counts : Tab Nat Nat
deriving DecidableEq, Repr

/-- A Kettle ring at its reset values (04 Table 4.10). -/
def Kettle.reset : Kettle :=
  { fn := .clean, base := 0, sizeLog := 0, code := 0, tail := 0, head := 0, lost := 0, poison := 0, opened := [],
    openedAt := 0, counts := [] }

/-- The registers of one function (04 Table 4.3, 20_counters_and_metering.md R575) and its MSI-X state (04 R84, R110, R111): the message address and data of
each vector, which vectors are masked, and the pending-bit array. -/
structure FuncRegs where
  dropped : Nat
  maskLo : Nat
  maskHi : Nat
  maskKettle : Bool
  maskFunc : Bool
  ctrSel : Nat
  ctrHi : Nat
  vecAddr : Tab Nat Nat
  vecData : Tab Nat Nat
  vecMasked : List Nat
  vecPending : List Nat
  lastSignal : Tab Nat Nat
deriving DecidableEq, Repr

/-- Function registers at reset (04 Table 4.3). -/
def FuncRegs.reset : FuncRegs :=
  { dropped := 0, maskLo := 0xFFFFFFFF, maskHi := 0xFFFFFFFF, maskKettle := true, maskFunc := true, ctrSel := 0,
    ctrHi := 0, vecAddr := [], vecData := [], vecMasked := [], vecPending := [], lastSignal := [] }

/-- Why a started command has not completed. -/
inductive Wait where
  /-- Earlier commands must complete first (fences, releases). -/
  | earlier
  /-- A tag that WAIT_TAG names must arrive (08_attention.md R263). -/
  | tag
  /-- The tag has arrived; the command may start (08 R263). -/
  | released
  /-- Resident room or a window slot (06 R205, 09 R283). -/
  | room
  /-- The tail is being asked who owns the requests that it names (01 R601). -/
  | route
  /-- A ledger step must commit (05 R129). -/
  | ledger
  /-- Held while ownership is decided (01 R13, 05 R151). -/
  | held
  /-- Forwarded: the completion comes from the owner (01 R12). -/
  | remote
  /-- Entries on Ladles, Sieve, Press or Skimmers are running. -/
  | engine
  /-- Replies or acknowledgements from the fabric. -/
  | fabric
  /-- Its Whisk finds no room for its first entry (07_ladle_engines.md R224, R226). -/
  | whisk
deriving DecidableEq, Repr

/-- Where a command stands in its slot (04 R92). -/
inductive Phase where
  | fetched
  | waiting (w : Wait)
  | finished
deriving DecidableEq, Repr

/-- A command slot: taken at fetch, released when the completion is written (04 R92). -/
structure Slot where
  id : Nat
  cmd : Cmd
  /-- Its place in the order in which commands started, from 1; 0 where it has not started (02 R36). -/
  order : Nat
  /-- Its place in the order in which commands that name requests arrived at their owner, this module; 0 where it has not (08 R254, 10 R319). -/
  arrived : Nat
  /-- The members of its batch as it stood when the command started, or the request it names (04 R107). -/
  members : List Nat
  phase : Phase
  /-- Time of the first forwarding (01 R601), and the owner it was sent to. -/
  sentAt : Nat
  sentTo : Option Nat
  /-- When the tail was last asked who owns its requests (01 R601). -/
  askedAt : Nat
  /-- Value kept between the start of the command and its completion. -/
  aux : Nat
  /-- The KV length of each member as it stood when an attention command started at the owner (08 R254). -/
  lens : List Nat := []
  /-- An injected detection caused its status (20 R562). -/
  injected : Bool
  /-- Its queue pair has left STOPPING, or the link was lost: its completion is dropped and counted (04 R82, R90). -/
  dead : Bool
deriving DecidableEq, Repr

/-- A completion that is due and not yet written (04 Table 4.8). -/
structure Completion where
  slot : Nat
  fn : Nat
  q : Nat
  cid : Nat
  status : Nat
  handle : Nat
  result0 : Nat
  result1 : Nat
  forwarded : Bool
  notify : Bool
  injected : Bool
  tenant : Nat
deriving DecidableEq, Repr

/-- What a covered operation writes to (02 R40, R41). -/
inductive OpKind where
  | hostWrite (addr : Nat)
  | stackWrite
  | remote (peer ep : Nat)
  | tray
deriving DecidableEq, Repr

/-- An operation that fences cover: the command that made it, its queue and whence it was forwarded, and how it ended (02 R38, R41). -/
structure CovOp where
  id : Nat
  slot : Nat
  fn : Nat
  q : Nat
  src : Option (Nat × Nat)
  kind : OpKind
  ended : Option Bool
deriving DecidableEq, Repr

/-- An open job (04 R105). -/
structure Job where
  closing : Bool
  /-- Keys of the job's tray regions that its JOB_CLOSE has still to free (16 R463). -/
  keys : List Nat
  handles : List Nat
  cancels : List Nat
  okCount : Nat
  waiters : List Nat
deriving DecidableEq, Repr

/-- The host link (04 R78, R79). -/
structure HostLink where
  up : Bool
  width : Nat
  rate : Nat
  flit : Bool
deriving DecidableEq, Repr

/-- The host interface. -/
structure HostIf where
  link : HostLink
  /-- NumVFs of the SR-IOV capability, and the base addresses of BAR0/BAR1 and of VF BAR0/VF BAR1 (04 R83, R84). -/
  numVFs : Nat
  bar : Nat
  vfBar : Nat
  tenants : Tab Nat FnState
  funcs : Tab Nat FuncRegs
  queues : Tab (Nat × Nat) QueuePair
  kettles : Tab Nat Kettle
  fetchPtr : Nat
  slots : List Slot
  nextSlot : Nat
  /-- The number that the next command to start takes in the order of starting. -/
  nextStart : Nat
  due : List Completion
  ops : List CovOp
  nextOp : Nat
  /-- The staging buffer of island 31: the function of each closed word, oldest first (04 R115). -/
  staging : List (Nat × KettleWord)
  jobs : Tab (Nat × Nat) Job
  jobHigh : Tab Nat Nat
  batches : Tab (Nat × Nat) (List Nat)
  /-- Lines of host memory whose reads fail or return poison, by 64-byte line number (04 R101). -/
  badLines : List Nat
  /-- Message-signalled interrupts sent: function and vector, newest first. -/
  signals : List (Nat × Nat)
  /-- The data of the last register read that has an effect (20 R574, R575, 18 R532, 21 R594). -/
  readData : Nat
deriving DecidableEq, Repr

/-- Boot states (03 Table 3.11). -/
inductive BootState where
  | reset | loading | verifying | configuring | training | ready | held
deriving DecidableEq, Repr

/-- The encoding of a boot state (03 Table 3.11). -/
def BootState.code : BootState → Nat
  | .reset => 0
  | .loading => 1
  | .verifying => 2
  | .configuring => 3
  | .training => 4
  | .ready => 5
  | .held => 6

/-- Start-up, pins and holds (03 Table 3.11, 17 R508, 21 R583, R590, R593). -/
structure Boot where
  state : BootState
  step : Nat
  reason : Nat
  detail : Nat
  /-- Fabric training of step 8: when it began, and whether it has ended. -/
  trainStart : Nat
  trainEnded : Bool
  readyAt : Nat
  resetN : Bool
  pwrOk : Bool
  /-- The module drives NVM_CS_N, NVM_RESET_N and the other NVM pins; it leaves them high-impedance otherwise (03 R54). -/
  nvmPins : Bool
  /-- The monotonic time before which step 1 does not begin (21 R590). -/
  startFrom : Nat
  perstN : Bool
  ppsIn : Bool
  /-- PPS_OUT (14 R424, 21 Table 21.7). -/
  ppsOut : Bool
  /-- An emergency stop is under way. -/
  stop : Option StopCause
  thermalHold : Bool
  scanHold : Bool
  /-- The TAP has passed Test-Logic-Reset since the last EXTEST-class instruction (21 R593). -/
  tapReset : Bool
  /-- The last IDCODE that the TAP has captured, if any (21 R592). -/
  tapData : Option Nat
  /-- An internal test instruction holds every island but 30 in reset (19 R557). -/
  testHold : Bool
  /-- MGMT_ADDR strap, sampled in step 1 (21 Table 21.5). -/
  mgmtAddr : Nat
deriving DecidableEq, Repr

/-- The selectors of which each path has its own copy (03 R71, 18 R534, 20 R574, 21 R594). -/
structure PathRegs where
  knob : Nat
  knobIndex : Nat
  knobResult : Nat
  ctrIsland : Nat
  ctrItem : Nat
  pctrIsland : Nat
  pctrIndex : Nat
  healthPart : Nat
  healthIndex : Nat
  timeSel : Nat
  railSel : Nat
deriving DecidableEq, Repr

/-- Selectors at reset. -/
def PathRegs.reset : PathRegs :=
  { knob := 0, knobIndex := 0, knobResult := 0, ctrIsland := 0, ctrItem := 0, pctrIsland := 0, pctrIndex := 0,
    healthPart := 0, healthIndex := 0, timeSel := 0, railSel := 0 }

/-- The MGMT block's selectors, latches and knobs (03 R73, R74, 20 Table 20.7, 18 Table 18.11, 21 Table 21.9). -/
structure Mgmt where
  mgmt : PathRegs
  phys : PathRegs
  ctrLo : Nat
  ctrHi : Nat
  timeHi : Nat
  railI : Nat
  /-- Knob values in force, by knob and index, where they differ from the image. -/
  knobs : Tab (Nat × Nat) Nat
  /-- Accepted knob writes that wait for their boundary (03 R74). -/
  knobsDue : Tab (Nat × Nat) Nat
deriving DecidableEq, Repr

/-- One rail reading (21 R577): time, millivolts, units of 0.1 A. -/
structure RailReading where
  at' : Nat
  mv : Nat
  deciAmp : Nat
deriving DecidableEq, Repr

/-- The governor and thermal state (17 Table 17.2, R503–R510; 21 Table 21.9). Currents are in mA. -/
structure Gov where
  state : Nat
  duty : Nat
  current : Nat
  averageW : Nat
  /-- Watts taken off the limit by R507. -/
  lowered : Nat
  ceiling : Nat
  ballast : Nat
  /-- Corrections made to the coefficients (17 R503), a count. -/
  calibrations : Nat
  tj : Int
  tjSensor : Nat
  rails : Tab Nat (List RailReading)
  /-- Balance of each budget gate, by tenant, resource, class and gate (17 R498, R499). -/
  balance : Tab (Nat × Nat × Nat × Nat) Nat
  /-- When the gates last received their grants. -/
  refillAt : Nat
deriving DecidableEq, Repr

/-- A programmable counter (20 Table 20.7, R564–R566). -/
structure Pctr where
  enable : Bool
  edge : Bool
  filter : Bool
  tenant : Nat
  signal : Nat
  threshold : Nat
  count : Nat
  last : Nat
deriving DecidableEq, Repr

/-- A programmable counter at reset. -/
def Pctr.reset : Pctr :=
  { enable := false, edge := false, filter := false, tenant := 0, signal := 0, threshold := 0, count := 0, last := 0 }

/-- A meter set (20 R572): its pair and its counts by class. -/
structure MeterSet where
  tenant : Nat
  composition : Nat
  counts : Tab Nat Nat
deriving DecidableEq, Repr

/-- Telemetry (20). -/
structure Tele where
  events : Tab (Nat × Nat) Nat
  injected : Tab (Nat × Nat) Nat
  tenants : Tab (Nat × Nat) Nat
  pctrs : Tab (Nat × Nat) Pctr
  configSeq : Tab Nat Nat
  resets : Tab Nat Nat
  /-- Time, on the clock that never steps, since which the island's cycle counter runs (20 R564). -/
  cycleFrom : Tab Nat Nat
  /-- Top-down counters by Ladle and word (20 R567, Table 20.5), but for PEND and ACTIVE's parts of it. -/
  topdown : Tab (Nat × Nat) Nat
  /-- Slot-cycles that PEND holds (20 R567), by Ladle, command slot, and 0–3 the issue slot of an entry that runs, 4–7 that of one that has completed,
  8–12 the mode of its slot-0 cycles. -/
  pend : Tab (Nat × Nat × Nat) Nat
  /-- Slot-cycles of draft positions whose command has not completed (20 R568): command slot, handle, position × 4 + issue slot. -/
  draftHeld : Tab (Nat × Nat × Nat) Nat
  draftWasted : Tab Nat Nat
  /-- Slot-cycles kept for a request's undecided positions (20 R568): by handle and position × 4 + issue slot. -/
  draftKept : Tab (Nat × Nat) Nat
  meters : List MeterSet
  overflow : Tab Nat (Tab Nat Nat)
  overflowSeen : List (Nat × Nat)
  dumpTail : Nat
  dumpHead : Nat
  dumpSkipped : Nat
  dumpSkipEventAt : Option Nat
  /-- Periods skipped since the last DUMP_SKIPPED record. -/
  dumpSkipNew : Nat
  /-- Stack memory of the dump ring where DEST is 1. -/
  dumpRing : Memory
deriving DecidableEq, Repr

/-- Health states (18_reliability_and_spares.md Table 18.11). -/
inductive HealthState where
  | ok | suspect | retiring | retired | exhausted
deriving DecidableEq, Repr

/-- The encoding of a health state (18 Table 18.11). -/
def HealthState.code : HealthState → Nat
  | .ok => 0
  | .suspect => 1
  | .retiring => 2
  | .retired => 3
  | .exhausted => 4

/-- A part's health (18 R520–R522): weights of the last 16 sub-windows, newest first; the spare reserved for its move;
whether the move has begun. -/
structure Health where
  windows : List Nat
  state : HealthState
  spare : Option Nat
  moving : Bool
deriving DecidableEq, Repr

/-- Health of a part that has shown no fault. -/
def Health.fresh : Health := { windows := [], state := .ok, spare := none, moving := false }

/-- An injection in progress (18 R513). -/
structure Injection where
  detector : Nat
  index : Nat
  kind : Nat
  left : Nat
  total : Nat
  score : Bool
  slot : Nat
deriving DecidableEq, Repr

/-- A mirrored command in hand (18 R530, R531), by its slot: the other module, the mirror sequence number, on the shadow the primary's digest and the ID
that it returned, and the output bytes so far in the order in which they were written. -/
structure Mirror where
  peer : Nat
  seq : Nat
  expect : Option Nat
  given : Nat
  out : List Byte
deriving DecidableEq, Repr

/-- Reliability (18). Times are ns accumulated since READY (R532). -/
structure Rel where
  /-- Status of islands, links, Ladles and CAM banks (02 R47). -/
  fns : Tab FnId FnState
  /-- Islands held in reset by the reliability manager, with the time of the reset (18 R518). -/
  inReset : Tab Nat Nat
  /-- Physical position of each logical Ladle that is not at its own place (07_ladle_engines.md R211). -/
  ladleAt : Tab Nat Nat
  health : Tab (Nat × Nat) Health
  spares : List (Nat × Nat)
  injections : List Injection
  whiskFails : Tab Nat Nat
  /-- Times of the retries of a die-to-die lane in the last 1 ms (18 Table 18.1), and the stacks whose link runs at half width (18 Table 18.6). -/
  retries : Tab Nat (List Nat)
  halfWidth : List Nat
  subwindow : Tab Nat Nat
  scrubbed : Tab Nat Nat
  quarantined : Bool
  heartbeats : Nat
  /-- Time of the first authenticated KIND 3 packet, and of the last heartbeat (18 R524). -/
  kind3At : Option Nat
  lastBeat : Nat
  primaryTo : Option Nat
  mirrorSeq : Nat
  mirrors : Tab Nat Mirror
  shadowOf : Option Nat
  shadowSeq : Nat
  clean : Nat
  admitted : Bool
  tReady : Nat
  tLost : Nat
  tRecovery : Nat
  tIsland : Nat
  tSpare : Nat
  tLink : Nat
deriving DecidableEq, Repr

/-- A held domain secret (19_security.md R544). -/
structure DomainSecret where
  activate : Nat
  secret : BitVec 256
deriving DecidableEq, Repr

/-- An ATTEST request that waits or is being signed (19 R551): path, tag, verifier nonce, and the report once its signing has begun. -/
structure AttestReq where
  path : Path
  tag : Nat
  nonce : BitVec 256
  report : List Byte
deriving DecidableEq, Repr

/-- A response to a security request (19 R548). -/
structure SecResponse where
  path : Path
  code : Nat
  status : Nat
  tag : Nat
  body : List Byte
deriving DecidableEq, Repr

/-- Security (19). `keyGen` counts the replacements of each tenant's memory key (index 16 the system key, 17 the loan key):
two lines under different counts are under different keys. -/
structure Sec where
  /-- The lifecycle read at the last start (19 R536). -/
  lifecycle : Nat
  /-- The key store holds the device seed, and from step 5 the keys of Table 19.3. -/
  keys : Bool
  keyGen : Tab Nat Nat
  domain : List DomainSecret
  session : Option Nat
  nonce : Option (BitVec 256 × Nat)
  drbg : Nat
  attest : List AttestReq
  responses : List SecResponse
  lastTrip : Option (Nat × Nat)
  alarmN : Bool
  eraseDue : Bool
  /-- The strongest response under way (19 R554): 0 LOG, 1 RESET, 2 ERASE. -/
  response : Option Nat
deriving DecidableEq, Repr

end Sys2Proof.Machine
end

