-- ==== Sys2Proof/Machine/StRequest.lean ====
section
/-!
DEFINITION. State of requests, the ledger and handoff (05), and of pages, tiers, loans, prefixes and windows (06).
-/
namespace Sys2Proof.Machine

/-! ### Tiers -/

/-- A slab run (06_kv_pages_and_tiers.md Table 6.1): the module whose memory holds it, its location (0–19 a stack, 20 T3, 40 T0, higher numbers
a held grant), its first slab there, the handle's SLAB of the location's first slab, its slabs, and the generation when it was allocated. -/
structure Run where
  fabric : Nat
  loc : Nat
  first : Nat
  base : Nat
  slabs : Nat
  gen : Nat
deriving DecidableEq, Repr

/-- States of a directory entry (06 Table 6.6). FREE entries are not listed. -/
inductive DirState where
  | resident | demoting | promoting
deriving DecidableEq, Repr

/-- Who holds a transient pin (06 R179): a handoff of a request, a promotion, or a command in a slot. -/
inductive Pin where
  | handoff (h : Nat)
  | promotion
  | command (slot : Nat)
deriving DecidableEq, Repr

/-- A directory entry (06 Table 6.5). PINS is the number of `pins`. -/
structure DirEntry where
  run : Run
  seq : Nat
  age : Nat
  pins : List Pin
  refs : Nat
  tenant : Nat
  st : DirState
  kind : Nat
  persist : Bool
  tier : Nat
  layer : Nat
  page : Nat
  back : Nat
deriving DecidableEq, Repr

/-- A move of an object between tiers that is under way (06 Table 6.6): the new run, its tier, and the commands that asked for it. -/
structure Move where
  run : Run
  tier : Nat
  slot : Option Nat
deriving DecidableEq, Repr

/-- An old run that drains (06 R181): directory index, tier and run, and the pins taken before the move that are not released. -/
structure Drain where
  dir : Nat
  run : Run
  tier : Nat
  pins : List Pin
deriving DecidableEq, Repr

/-- A page entry (06 Table 6.2), with the number of its positions that are written. -/
structure PageEntry where
  dir : Nat
  present : Bool
  full : Bool
  shared : Bool
  pin : Bool
  upto : Nat
deriving DecidableEq, Repr

/-- A tensor (07_ladle_engines.md R222). -/
structure Tensor where
  bytes : Nat
  blob : Blob
  dirs : List Nat
  /-- A TENSOR_FREE has started: commands that start from now on find no such tensor (07 R245). -/
  freeing : Bool
deriving DecidableEq, Repr

/-- A model's geometry (06 R602). -/
structure ModelDef where
  tenant : Nat
  model : Nat
  layers : Nat
  kvHeads : Nat
  qpk : Nat
  headDim : Nat
  kvFmt : Nat
  kvScale : Nat
  kvGroup : Nat
  pageBytes : Nat
deriving DecidableEq, Repr

/-- A grant lent (06 R189–R194). -/
structure Lent where
  id : Nat
  borrower : Nat
  stack : Nat
  slab : Nat
  key : Nat
  deadline : Option Nat
  dirs : List Nat
deriving DecidableEq, Repr

/-- A grant borrowed. -/
structure Held where
  lender : Nat
  id : Nat
  stack : Nat
  key : Nat
  addr : Nat
  idle : Nat
  deadline : Option Nat
deriving DecidableEq, Repr

/-- A prefix set (06 Table 6.8): `dirs` by layer. -/
structure PrefixSet where
  refs : Nat
  tenant : Nat
  model : Nat
  adapter : Nat
  version : Nat
  block : Nat
  hash : Nat
  dirs : List Nat
deriving DecidableEq, Repr

/-- A slot of a window stream: the layer it holds or is being filled with, its bytes once filled, and whether its source was lost. -/
structure WinSlot where
  slot : Nat
  layer : Nat
  filled : Bool
  lost : Bool
  blob : Blob
deriving DecidableEq, Repr

/-- A window stream (06 R203–R205, 09_experts_and_weight_streaming.md R294). `source` 0 is an adapter version, 1 host memory. -/
structure Stream where
  tenant : Nat
  source : Nat
  adapter : Nat
  version : Nat
  addr : Nat
  stride : Nat
  layerBytes : Nat
  layers : Nat
  cursor : Nat
  distance : Nat
  reserved : List Nat
  slots : List WinSlot
  sourceLost : Bool
  /-- A command has been turned away for a layer that the lost source had not filled (09 R295). -/
  cut : Bool
  closing : Bool
deriving DecidableEq, Repr

/-- Pages, tiers, loans, prefixes and windows. `used` lists allocated spans of slabs as (location, first, count): locations 0–19 are the stacks
and 20 is T3. `freed` lists spans that were freed, each of which raised the generation of its slabs (06 R167). -/
structure Tier where
  dir : Tab Nat DirEntry
  /-- SEQ of entries that are FREE and have been used (06 R178). -/
  freeSeq : Tab Nat Nat
  /-- Pins that wait until a demotion of their entry has ended (06 Table 6.6). -/
  waitPins : List (Nat × Pin)
  /-- Slabs of T2 and T3, by location and number, whose stored bytes no longer match their integrity tag (06 R174). -/
  spoiled : List (Nat × Nat)
  data : Tab Nat Blob
  used : List (Nat × Nat × Nat)
  freed : List (Nat × Nat × Nat)
  moves : Tab Nat Move
  drains : List Drain
  tensors : Tab (Nat × Nat) Tensor
  models : List ModelDef
  t3 : List (Nat × Nat)
  lent : List Lent
  nextGrant : Nat
  held : List Held
  offered : Tab Nat Nat
  lastOffer : Option Nat
  ask : Option Nat
  prefixes : Tab Nat PrefixSet
  streams : Tab Nat Stream
  parking : Bool
deriving DecidableEq, Repr

/-! ### Requests -/

/-- One copy of a ledger entry (05_request_state_and_ownership.md R124, R134). -/
structure LEntry where
  record : ReqRec
  log : List Nat
  frozen : Option Nat
deriving DecidableEq, Repr

/-- Why a step was issued: what the issuer does when its notice arrives. -/
inductive Why where
  | none
  /-- ADMIT: completes with the handle. -/
  | admitting (slot : Nat)
  /-- The step belongs to a command, which the row of that command takes up again. -/
  | command (slot : Nat)
  /-- The command completes with OK and these results when the step commits. -/
  | finish (slot r0 r1 : Nat)
  /-- A handoff's BEGIN_HANDOFF, ABORT_HANDOFF or CLAIM. -/
  | handoff
  /-- Recovery: START_RECOVERY, CLAIM, FINISH. -/
  | recovery
deriving DecidableEq, Repr

/-- An outstanding step (05 R129, R132). `before` is the working copy's record before the step, for a step of an owned request (R125). -/
structure Issued where
  step : LStep
  before : Option ReqRec
  head : Nat
  sentAt : Nat
  why : Why
  /-- The epoch that must be adopted before the step is sent again (R132). -/
  after : Option Nat
deriving DecidableEq, Repr

/-- Why the tail was asked. -/
inductive Asker where
  | forward (slot : Nat)
  | sender | receiver
  /-- The owner brings its working copy to the committed record (R125). -/
  | refresh
  /-- LOG_READ or RECORD_READ (R156). -/
  | read (slot : Nat)
deriving DecidableEq, Repr

/-- A query without an answer (05 R147). -/
structure Ask where
  handle : Nat
  asker : Asker
  sentAt : Nat
deriving DecidableEq, Repr

/-- What the tail has answered of a request that a command names (01 R601, 04 R108). -/
inductive Located where
  | unknown
  | final (phase : Nat)
  | owner (m phase : Nat)
deriving DecidableEq, Repr

/-- States of the sending owner (05 Table 5.7). -/
inductive SendSt where
  | owning | draining | offered | sending | waiting | querying | aborting
deriving DecidableEq, Repr

/-- States of the receiver (05 Table 5.8). -/
inductive RecvSt where
  | receiving | claiming | rquery
deriving DecidableEq, Repr

/-- A handoff at its sender. `draining` is the wait of R140 before BEGIN_HANDOFF. -/
structure Handoff where
  st : SendSt
  peer : Nat
  target : Nat
  slot : Option Nat
  step : Nat
  epoch : Nat
  retries : Nat
  timer : Option Nat
  /-- ORPHAN_TIMER as it stood when the timer started, in µs (03 Table 3.12). -/
  orphanUs : Nat
  refused : Bool
  /-- Pages still to send. -/
  toSend : List (Nat × Nat)
  pinned : List Nat
  /-- A handoff that tier pressure or DECODE_TARGET started. -/
  cause : Nat
deriving DecidableEq, Repr

/-- An owned request (05 R125): the working copy, the log, the page list and the block hashes. -/
structure Owned where
  record : ReqRec
  log : List Nat
  pages : Tab (Nat × Nat) PageEntry
  blocks : Tab Nat Nat
  handoff : Option Handoff
  /-- The chunk marked LAST has completed (R158). -/
  lastDone : Bool
  /-- When a command of the request last started (06 R186). -/
  lastStart : Nat
  /-- The request holds a reference on its adapter version (09 R285). -/
  adapterRef : Bool
  /-- Prefix sets that the request refers to, by record index. -/
  refs : List Nat
deriving DecidableEq, Repr

/-- A request being received (05 R145). -/
structure Recving where
  st : RecvSt
  offer : Offer
  pages : Tab (Nat × Nat) PageEntry
  timer : Nat
  orphanUs : Nat
  flushing : List Nat
  flushed : Bool
  refs : List Nat
deriving DecidableEq, Repr

/-- A recovery at the head (05 R150). -/
structure Recovery where
  started : Bool
  claiming : Bool
  limit : Bool
  since : Nat
deriving DecidableEq, Repr

/-- A step or a query that a copy holds (05 R131, R132). -/
inductive HeldMsg where
  | step (copy : Nat) (x : LStep)
  | query (handle src : Nat) (whole : Bool) (membership : Nat)
deriving DecidableEq, Repr

/-- Requests, the ledger and the messages of the system endpoints. -/
structure Req where
  admits : Tab Nat Nat
  ledger : Tab (Nat × Nat) LEntry
  kept : List LStep
  /-- Steps and queries that are held, in order of arrival. -/
  heldMsgs : List HeldMsg
  /-- End-of-repair notices of epochs that have not been adopted yet: epoch, sender (05 R131). -/
  earlyEnds : List (Nat × Nat)
  /-- Members whose end-of-repair notice for the current epoch has not come (05 R131). -/
  repairing : List Nat
  issued : List Issued
  asks : List Ask
  /-- Answers that commands wait on or have used: slot, handle, answer. -/
  known : List (Nat × Nat × Located)
  owned : Tab Nat Owned
  recving : Tab Nat Recving
  recovering : Tab Nat Recovery
  /-- Pages that a recovery has gathered, until its CLAIM commits. -/
  recovered : Tab Nat (Tab (Nat × Nat) PageEntry)
  /-- Replica pages held for other owners: (handle, layer, page) to directory index. -/
  replicas : Tab (Nat × Nat × Nat) Nat
  /-- Messages of the system endpoints that the module has sent, oldest first; one to the module itself stays until its row takes it. -/
  outbox : List (Nat × SysMsg)
  /-- Messages that wait for a fabric ID or for time, with the time of the attempt (15 R435). -/
  retry : List (Nat × SysMsg × Nat)
deriving DecidableEq, Repr

end Sys2Proof.Machine
end

