-- ==== Sys2Proof/Machine/StCompute.lean ====
section
/-!
DEFINITION. State of the Ladles, adapters, the Sieve's constraints, the associative search unit, vector indices and the Press (07–13).
-/
namespace Sys2Proof.Machine

/-! ### Ladles (07) -/

/-- Execution states of a Ladle (07_ladle_engines.md Table 7.8). -/
inductive LadleSt where
  | idle | restoring | running | saving
deriving DecidableEq, Repr

/-- An entry of a Ladle's queue: its command's slot, and its lane, tenant × 8 + CLASS (07 R224). -/
structure QEntry where
  slot : Nat
  lane : Nat
  /-- Compositions of the requests that the entry serves, in batch order (20 R573). -/
  comps : List Nat
  /-- Operands of the command, and operand credits that the entry holds (07 R225). -/
  operands : Nat
  credits : Nat
  /-- Its place among the entries of its command. -/
  index : Nat
deriving DecidableEq, Repr

/-- What a save area holds of the scratchpad and the accumulators (07 R231): the lines of the working half whose valid bits are set, and the accumulators, by
the number that names their contents. -/
structure Scratch where
  lines : Tab Nat (BitVec 512)
  accs : Option Nat
deriving DecidableEq, Repr

/-- One Ladle (07 Table 7.8, R224–R233). `cause` is the cause of the save under way: `true` urgency. `since` is the time at which the running
command last started or resumed. `work` is the working half of the scratchpad by 64-byte line, an unlisted line having its valid bit clear (R223), and the
accumulators; the save areas hold an entry and what was saved of it. -/
structure Ladle where
  st : LadleSt
  queue : List QEntry
  ptr : Nat
  running : Option QEntry
  since : Nat
  cause : Bool
  budgetArea : Option QEntry
  urgencyArea : Option QEntry
  work : Scratch
  budgetSave : Scratch
  urgencySave : Scratch
deriving DecidableEq, Repr

/-- A Ladle at reset. -/
def Ladle.fresh : Ladle :=
  { st := .idle, queue := [], ptr := 0, running := none, since := 0, cause := false, budgetArea := none, urgencyArea := none,
    work := { lines := [], accs := none }, budgetSave := { lines := [], accs := none }, urgencySave := { lines := [], accs := none } }

/-- A command whose entries run: how many remain, and the completion that follows the last. `charged` says that RESULT0 reports pre-emptions
and cycles (07 Table 7.12), which the counts then give; `counter` is the tenant's DONE_COUNTER. -/
structure Running where
  left : Nat
  status : Nat
  r0 : Nat
  r1 : Nat
  charged : Bool
  preempts : Nat
  cycles : Nat
  counter : Nat
  /-- Tensors that the command names (07 R245). -/
  names : List Nat
  /-- Its entries are queued and wait for an operand credit: its outputs are not written (07 R225). -/
  waits : Bool
  /-- The arithmetic mode of its products (07 Table 7.4): 5 where it issues none. -/
  mode : Nat
  /-- Of each entry whose mode differs or which serves a decode member: its mode, and the member's handle and T (20 R567, R568). -/
  parts : List (Nat × Nat × Nat)
deriving DecidableEq, Repr

/-! ### Adapters (09) -/

/-- States of an adapter version (09_experts_and_weight_streaming.md Table 9.2). -/
inductive AdSt where
  | waitRoom | loading | current | held | retiring | lost
deriving DecidableEq, Repr

/-- The encoding of a version's state (09 Table 9.3). -/
def AdSt.code : AdSt → Nat
  | .waitRoom => 1
  | .loading => 2
  | .current => 3
  | .held => 4
  | .retiring => 5
  | .lost => 6

/-- An adapter version (09 Table 9.1, R278–R286). -/
structure AdVer where
  tenant : Nat
  adapter : Nat
  version : Nat
  model : Nat
  hidden : Nat
  ffn : Nat
  firstLayer : Nat
  layers : Nat
  fmt : Nat
  scale : Nat
  group : Nat
  partBytes : Nat
  crc : Nat
  headerOnly : Bool
  resident : Bool
  makeCurrent : Bool
  st : AdSt
  prior : AdSt
  refs : Nat
  dirs : List Nat
  /-- Runs that a reload of a LOST version has placed and not yet put in force. -/
  fresh : List Nat
  content : Blob
  addr : Nat
  slot : Option Nat
  reload : Bool
  /-- A run was lost while the version, or its reload, was being loaded: once loaded it is LOST again (R286). -/
  short : Bool
deriving DecidableEq, Repr

/-! ### Sieve (10) -/

/-- A resident constraint (10_sieve_sampler.md R305–R308). `masks` is the mask area. -/
structure Constraint where
  tenant : Nat
  id : Nat
  slot : Nat
  kind : Nat
  vocab : Nat
  tokens : List Nat
  states : List (Nat × Nat × Nat)
  masks : Memory
  entries : List (Nat × Nat)
  dirs : List Nat
  retiring : Option Nat
deriving DecidableEq, Repr

/-- A SAMPLE under way (10 R319, R322): how many members' steps have run, their records, and what the completion reports. -/
structure Sampling where
  next : Nat
  out : List Byte
  fallbacks : Nat
  tokens : Nat
  first : Option (Nat × Nat)
  failed : Nat
deriving DecidableEq, Repr

/-- A SAMPLE whose first member is to run. -/
def Sampling.fresh : Sampling := { next := 0, out := [], fallbacks := 0, tokens := 0, first := none, failed := 0 }

/-! ### Associative search (11) -/

/-- One entry of a bank (11_associative_search.md R325, R327): key, mask, priority and flags, for the bank's width. -/
structure CamEntry where
  key : Nat
  mask : Nat
  priority : Nat
  masked : Bool
  poison : Bool
deriving DecidableEq, Repr

/-- One logical bank (11 R330). `entries` lists the valid or poisoned entries by index; a poisoned entry is not valid. -/
structure Bank where
  width : Nat
  use : Nat
  entries : Tab Nat CamEntry
deriving DecidableEq, Repr

/-- A bank after reset (11 R330). -/
def Bank.fresh : Bank := { width := 1, use := 0, entries := [] }

/-- A cursor (11 R337). -/
structure Cursor where
  tenant : Nat
  key : Nat
  banks : List Nat
  width : Nat
  pos : Nat × Nat × Nat
deriving DecidableEq, Repr

/-! ### Vector search (12) -/

/-- States of an index version (12_vector_search.md Table 12.3). -/
inductive IxSt where
  | loading | held | current | retiring
deriving DecidableEq, Repr

/-- The encoding of an index version's state (12 Table 12.4). -/
def IxSt.code : IxSt → Nat
  | .loading => 1
  | .held => 2
  | .current => 3
  | .retiring => 4

/-- A partition of an index version (12 Table 12.1, R354, R355). -/
structure Part where
  count : Nat
  entry : Nat
  crc : Nat
  loaded : Nat
  records : Blob
  tomb : List Nat
deriving DecidableEq, Repr

/-- An index version. -/
structure IxVer where
  tenant : Nat
  index : Nat
  version : Nat
  dim : Nat
  elem : Nat
  metric : Nat
  degreeMax : Nat
  st : IxSt
  deleteSeq : Nat
  parts : List Part
  dirs : List Nat
deriving DecidableEq, Repr

/-! ### The Press (13) -/

/-- A table slot of a stream (13_formats_quantisation_compression.md R387, R393): the code lengths, the generation, the queued blocks. -/
structure PressSlot where
  lengths : List Nat
  gen : Nat
  queued : Nat
deriving DecidableEq, Repr

/-- An install that waits (13 R394): its command slot, table, and since when; `build` says that an encode goes on after it. -/
structure Install where
  slot : Nat
  lengths : List Nat
  gen : Option Nat
  since : Nat
  recorded : Bool
  build : Bool
deriving DecidableEq, Repr

/-- A stream (13 R383). -/
structure Press where
  slotA : Option PressSlot
  slotB : Option PressSlot
  newestB : Bool
  installs : List Install
  closing : Option Nat
deriving DecidableEq, Repr

/-- The compute units. -/
structure Comp where
  ladles : Tab Nat Ladle
  running : Tab Nat Running
  /-- Entries whose Whisk waits for room, by Ladle (07 R224). -/
  whisk : List (Nat × QEntry)
  adapters : List AdVer
  constraints : List Constraint
  /-- Next states of grammar entries, by tenant and index bank × 4,096 + row (10 R308). -/
  transitions : Tab (Nat × Nat) Nat
  banks : Tab Nat Bank
  cursors : Tab Nat Cursor
  indices : List IxVer
  press : Tab (Nat × Nat) Press
  /-- Trigger tags that arrived and were not consumed (15 R453), and commands that wait on a tag, in order of arrival. -/
  waitTags : List (Nat × Nat × Nat)
  /-- Row that the next integrity check of the banks reads (11 R340). -/
  checkRow : Nat
  /-- SAMPLE commands under way, by slot. -/
  sampling : Tab Nat Sampling
  /-- Results kept for Press commands until they complete: by slot, status, results, counter and table generations. -/
  samples : Tab Nat (Nat × Nat × Nat × Nat × Nat)
deriving DecidableEq, Repr

end Sys2Proof.Machine
end

