-- ==== Sys2Proof/Machine/StFabric.lean ====
section
/-!
DEFINITION. State of the fabric ports, the transport engine, the tray port and the shaper (14–17).
-/
namespace Sys2Proof.Machine

/-- What FRAME_RECEIVE has passed to a unit and the unit has not yet taken. -/
inductive Inbound where
  | xport (p : XPacket)
  | tray (p : TPacket)
  | announce (port sub : Nat) (a : Announce)
  | control (c : Control)
  | pfc (port sub : Nat) (classes : List (Nat × Bool))
  | solicitation (port sub : Nat) (addr : Nat)
  | ptp
deriving DecidableEq, Repr

/-- An item in a receive buffer: the link it came by, its class and bytes (14 R407). A packet from the module itself came by no link: port 16. -/
structure InFrame where
  port : Nat
  sub : Nat
  cls : Nat
  bytes : Nat
  item : Inbound
deriving DecidableEq, Repr

/-- A frame that waits in the miss buffer (15 R431), with the link it came by. -/
structure MissFrame where
  port : Nat
  sub : Nat
  frame : Frame
deriving DecidableEq, Repr

/-- Fragments of a KIND 3 message that are held (14 R416). -/
structure Fragments where
  subtype : Nat
  count : Nat
  held : List Nat
  since : Nat
deriving DecidableEq, Repr

/-- What a port die's MAC island has seen of its master (14 R422): consecutive sync messages within ±10 ns, the time of the last, and whether it holds lock. -/
structure DieSync where
  good : Nat
  last : Nat
  locked : Bool
deriving DecidableEq, Repr

def DieSync.fresh : DieSync := { good := 0, last := 0, locked := false }

/-- Fabric identity, links, routes and time (14). -/
structure Fab where
  id : Option Nat
  /-- Links whose partner announces the module's own ID with another serial number (14 R415). -/
  conflict : List (Nat × Nat)
  /-- Does some port die hold IEEE 1588 lock (02 R31)? -/
  locked : Bool
  grandmaster : Bool
  elected : Bool
  epoch : Nat
  /-- Members of the current membership: fabric ID and role code, in ascending ID. -/
  members : List (Nat × Nat)
  /-- The epoch in which the module last entered the membership (05 Table 5.1). -/
  entered : Nat
  trayRoutes : Tab Nat (List RoutePath)
  slotRoutes : Tab Nat (List RoutePath)
  neighbours : Tab (Nat × Nat) Announce
  /-- Logical lane on a spare, by die and physical lane 16 or 17 (14 R405). -/
  spareLane : Tab (Nat × Nat) Nat
  /-- Consecutive failed training attempts of a logical lane, by die and lane. -/
  laneFails : Tab (Nat × Nat) Nat
  trainSince : Tab (Nat × Nat) Nat
  /-- Links that have been ON since the module reset (18_reliability_and_spares.md R532). -/
  everOn : List (Nat × Nat)
  paused : Tab (Nat × Nat) (List Nat)
  /-- Receive buffer use by link and class, and classes that the module has paused at its partner (14 R407). -/
  rxFill : Tab (Nat × Nat × Nat) Nat
  rxPaused : List (Nat × Nat × Nat)
  fragments : List Fragments
  pfx : Nat
  /-- The link by which the most recent authenticated KIND 3 packet came (14 R416). -/
  fmAt : Option (Nat × Nat)
  requestAt : Option Nat
  /-- The last announcement sent on each link, and when (14 R414). -/
  announced : Tab (Nat × Nat) (Nat × Announce)
  dieSync : Tab Nat DieSync
  lastSync : Nat
  /-- By how much the module's time is ahead of its master's, as far as it has not been slewed away, and when it last slewed (14 R422). -/
  offset : Int
  slewAt : Nat
  /-- Next-hop addresses that neighbour discovery has answered (14 R408, R409). -/
  hops : List Nat
  ppsAt : Option Nat
  dropped : Tab Nat Nat
  inbox : List InFrame
  /-- Frames that have left the module: link and frame, newest first. -/
  sent : List (Nat × Nat × Frame)
deriving DecidableEq, Repr

/-- A region entry (15 Table 15.2), with the job that owns a tray region (16 R462). -/
structure Region where
  space : Nat
  location : Nat
  length : Nat
  tenant : Nat
  reduce : Bool
  atomic : Bool
  write : Bool
  read : Bool
  system : Bool
  kind : Nat
  endpoint : Nat
  job : Nat
deriving DecidableEq, Repr

/-- A posted receive (15 R451). -/
structure PostedRecv where
  slot : Nat
  ref : Word
  capacity : Nat
  done : Nat
deriving DecidableEq, Repr

/-- A tenant endpoint (15 R427–R429). -/
structure Endpoint where
  opened : Bool
  gen : Nat
  tOpen : Nat
  tenant : Nat
  mkey : Nat
  keyedCounter : Nat
  nextSerial : Nat
  recvs : List PostedRecv
  quarantine : Option Nat
  /-- The EP_CLOSE that waits for its send records, and its two results. -/
  closer : Option Nat
  sendsFailed : Nat
  recvsCancelled : Nat
deriving DecidableEq, Repr

/-- One packet of a message at its sender (15 R446, R447). -/
structure TxPacket where
  queued : Bool
  sent : Bool
  stamp : Nat
  attempt : Nat
  lastTx : Nat
  interval : Nat
  acked : Bool
  refusedAt : Option Nat
  holdUntil : Option Nat
deriving DecidableEq, Repr

/-- A packet that has not been sent. -/
def TxPacket.fresh : TxPacket :=
  { queued := false, sent := false, stamp := 0, attempt := 0, lastTx := 0, interval := 16000, acked := false, refusedAt := none,
    holdUntil := none }

/-- A send record (15 R446). `slot` is the SEND's command slot, which may be gone once it has completed. -/
structure SendRec where
  id : Nat
  slot : Nat
  tenant : Nat
  cls : Nat
  ep : Nat
  gen : Nat
  serial : Nat
  dest : Nat
  dstEp : Nat
  dstGen : Nat
  mode : Nat
  mkey : Nat
  off64 : Nat
  tag : Nat
  length : Nat
  ref : Word
  doneCounter : Nat
  /-- The lowest packet not acknowledged, and the state of packets from it on. -/
  low : Nat
  packets : Tab Nat TxPacket
  completed : Bool
  /-- The code with which the message failed, once it has; its ABORT is then sent until a FINAL ACK. -/
  failed : Option Nat
  abortPkt : TxPacket
  op : Nat
deriving DecidableEq, Repr

/-- A receive record (15 R443). -/
structure RecvRec where
  src : Nat
  srcEp : Nat
  srcGen : Nat
  serial : Nat
  dstEp : Nat
  mode : Nat
  mkey : Nat
  off64 : Nat
  tag : Nat
  length : Nat
  placed : List Nat
  placedBytes : Nat
  recv : Option PostedRecv
  newly : Nat
  oldest : Option Nat
  maxStamp : Nat
  cls : Nat
deriving DecidableEq, Repr

/-- A remembered message ID (15 R445, R449). -/
structure Remembered where
  src : Nat
  srcEp : Nat
  srcGen : Nat
  serial : Nat
  maxStamp : Nat
  aborted : Bool
deriving DecidableEq, Repr

/-- The transport engine (15). -/
structure Xport where
  eps : Tab Nat Endpoint
  ctxArea : Option Nat
  /-- Tenant endpoints whose contexts are resident, least recently used first (15 R430). -/
  resident : List Nat
  regions : Tab Nat Region
  gens : Tab Nat Nat
  regionQuarantine : Tab Nat Nat
  tags : Tab (Nat × Nat) (Nat × Nat)
  counters : Tab (Nat × Nat) Nat
  sends : List SendRec
  nextSend : Nat
  recvs : List RecvRec
  remembered : List Remembered
  keys : List (Nat × Nat)
  miss : List MissFrame
  lastSeq : Tab Nat Nat
deriving DecidableEq, Repr

/-- State of one operation ID at a home (16 R474). -/
inductive OpState where
  | empty
  | waiting
  | held (reply : TPacket) (sentAt : Nat)
  | released
  | expired
deriving DecidableEq, Repr

/-- A source as a home sees it (16 R474): H and the states of its IDs, and the requests of it that are queued. -/
structure TraySource where
  highest : Nat
  ids : Tab Nat OpState
  queued : Nat
deriving DecidableEq, Repr

/-- A source that has sent nothing: H is 0xFFFF and every entry EMPTY (16 R474). -/
def TraySource.fresh : TraySource := { highest := 0xFFFF, ids := [], queued := 0 }

/-- A request at the home, at the line whose turn it waits for (16 R470). -/
structure TrayWork where
  pkt : TPacket
  region : Nat
  nextLine : Nat
  gathered : List Byte
  poison : Bool
deriving DecidableEq, Repr

/-- An operation of the initiator side toward one home (16 R476) that has neither a reply nor ended. Its 50 µs clock has run for `ran` ns, and stands
since `stopped` ns. `credit` says that it holds a credit. -/
structure TrayOp where
  opId : Nat
  slot : Nat
  tenant : Nat
  job : Nat
  cmdOp : Nat
  req : TPacket
  ref : Word
  credit : Bool
  queued : Bool
  sent : Bool
  attempt : Nat
  firstTx : Nat
  lastTx : Nat
  ran : Nat
  stopped : Nat
  covOp : Option Nat
  doneCounter : Nat
deriving DecidableEq, Repr

/-- The initiator side toward one home. Operations stand in the order of their IDs; `lost` lists those that ended without a reply and hold a credit. -/
structure TrayPeer where
  nextOp : Nat
  credits : Nat
  ops : List TrayOp
  lost : List Nat
deriving DecidableEq, Repr

/-- A home toward which nothing was sent: 16 credits (16 R472). -/
def TrayPeer.fresh : TrayPeer := { nextOp := 0, credits := 16, ops := [], lost := [] }

/-- A line held in the combining buffer (16 R471). `payer` is the tenant and class of the request that last used it, to which its write-back is charged
(17 R500). -/
structure HeldLine where
  line : Nat
  payer : Option (Nat × Nat)
  bytes : List Byte
  poison : Bool
  usedAt : Nat
deriving DecidableEq, Repr

/-- A multicast group (16 R481). -/
structure TrayGroup where
  tenant : Nat
  job : Nat
  members : List (Nat × Nat)
deriving DecidableEq, Repr

/-- The tray port (16). -/
structure Tray where
  sources : Tab Nat TraySource
  peers : Tab Nat TrayPeer
  work : List TrayWork
  /-- Pointer of the arbiter of line-operation slots, over source slots (16 R472). -/
  linePtr : Nat
  buffer : List HeldLine
  /-- Tray regions' bytes: by 64-byte line of the module's stacks, as the address [40:0]. -/
  mem : Memory
  bad : List Nat
  hotLines : Nat
  hotAt : Tab Nat Nat
  groups : Tab Nat TrayGroup
  masks : Tab (Nat × Nat) Nat
  frozen : List (Nat × Nat)
deriving DecidableEq, Repr

/-- A frame that waits on a link (17 R488): its charged tenant, bytes without OVERHEAD, whether it is exempt (R501), and the frame. -/
structure Queued where
  tenant : Option Nat
  bytes : Nat
  exempt : Bool
  frame : Frame
deriving DecidableEq, Repr

/-- The shaper (17). Credit is in units of 2^−24 byte; a link is busy until a time in units of 0.01 ns. -/
structure Shape where
  /-- Egress queues by link, class (8 for link control) and queue. -/
  queues : Tab (Nat × Nat × Nat × Nat) (List Queued)
  classPtr : Tab (Nat × Nat) Nat
  queuePtr : Tab (Nat × Nat × Nat) Nat
  credit : Tab (Nat × Nat) Nat
  creditAt : Tab (Nat × Nat) Nat
  gateEntry : Tab Nat Nat
  busyUntil : Tab (Nat × Nat) Nat
deriving DecidableEq, Repr

end Sys2Proof.Machine
end

