-- ==== Sys2Proof/Machine/State.lean ====
section
/-!
DEFINITION. The state of the module, the reasons a step can stop, and the state after reset.
-/
namespace Sys2Proof.Machine

/-- Faults. -/
inductive Fault where
  /-- No command of this model raises it: every error that the manual describes is a completion status, a register code or
  an event (00_scope.md R8), and so a next state. Safe. -/
  | stuck
deriving DecidableEq, Repr

/-- Refusals. -/
inductive Refusal where
  /-- Raised by the arm of a command that has no meaning yet. Safe: nothing is claimed of the command. -/
  | notModelled (mnemonic : String)
deriving DecidableEq, Repr

/-- The module. -/
structure State where
  /-- Commands that wait, first in, first out. -/
  pending : List Instr
  /-- The ordering code, fixed at manufacture (00 R1). -/
  order : OrderCode
  fuses : Fuses
  /-- The image in force, read once after each module reset (03). -/
  image : Image
  /-- The NVM: whether it answers, and its bytes (03 R52). -/
  nvmFitted : Bool
  nvm : Memory
  /-- Host memory (04). -/
  hostMem : Memory
  /-- Fabric time in ns (02 R31), and a clock that never steps. -/
  time : Nat
  mono : Nat
  /-- The number of the next free value. -/
  free : Nat
  boot : Boot
  host : HostIf
  mgmt : Mgmt
  gov : Gov
  tele : Tele
  rel : Rel
  sec : Sec
  tier : Tier
  req : Req
  comp : Comp
  fab : Fab
  xport : Xport
  tray : Tray
  shape : Shape
deriving DecidableEq, Repr

/-- Fuses as the model takes them at first: a blank module (19 R536). DESIGN CHOICE, log entry 4. -/
def Fuses.blank : Fuses :=
  { serial := 0, vendorKeyHash := 0,
    banks := [{ hash := 0, blown := false, complete := false, spoiled := false },
              { hash := 0, blown := false, complete := false, spoiled := false }],
    lifecycle := 0, vendorSvn := 0, ownerSvn := 0, tamperCount := 0, moves := [] }

/-- Start-up state right after reset (03 Table 3.11). DESIGN CHOICE, log entry 3. -/
def Boot.reset : Boot :=
  { state := .reset, step := 1, reason := 0, detail := 0, trainStart := 0, trainEnded := false, readyAt := 0,
    resetN := false, pwrOk := false, nvmPins := false, startFrom := 0, perstN := true, ppsIn := false, ppsOut := false, stop := none,
    thermalHold := false, scanHold := false, tapReset := true, tapData := none, testHold := false, mgmtAddr := 0 }

/-- The host interface at reset (04 Tables 4.3, 4.4, 4.10). -/
def HostIf.reset : HostIf :=
  { link := { up := false, width := 0, rate := 0, flit := false }, numVFs := 0, bar := 0, vfBar := 0, tenants := [], funcs := [], queues := [], kettles := [],
    fetchPtr := 0, slots := [], nextSlot := 0, nextStart := 1, due := [], ops := [], nextOp := 0, staging := [], jobs := [], jobHigh := [], batches := [],
    badLines := [], signals := [], readData := 0 }

/-- The MGMT block at reset (03 Table 3.11, 18 Table 18.11, 20 Table 20.7, 21 Table 21.9). -/
def Mgmt.reset : Mgmt :=
  { mgmt := .reset, phys := .reset, ctrLo := 0, ctrHi := 0, timeHi := 0, railI := 0, knobs := [], knobsDue := [] }

/-- The governor at reset (17 Table 17.2, R506). -/
def Gov.reset : Gov :=
  { state := 0, duty := 0x40, current := 0, averageW := 0, lowered := 0, ceiling := 800000, ballast := 0,
    calibrations := 0, tj := 0, tjSensor := 0, rails := [], balance := [], refillAt := 0 }

/-- Telemetry at module reset: every counter is clear (20 R563). -/
def Tele.reset : Tele :=
  { events := [], injected := [], tenants := [], pctrs := [], configSeq := [], resets := [], cycleFrom := [],
    topdown := [], pend := [], draftHeld := [], draftWasted := [], draftKept := [], meters := [], overflow := [], overflowSeen := [], dumpTail := 0, dumpHead := 0,
    dumpSkipped := 0, dumpSkipEventAt := none, dumpSkipNew := 0, dumpRing := [] }

/-- Reliability at reset (18 Table 18.11). -/
def Rel.reset : Rel :=
  { fns := [], inReset := [], ladleAt := [], health := [], spares := [], injections := [], whiskFails := [], retries := [], halfWidth := [], subwindow := [], scrubbed := [],
    quarantined := false, heartbeats := 0, kind3At := none, lastBeat := 0, primaryTo := none, mirrorSeq := 0,
    mirrors := [], shadowOf := none, shadowSeq := 0, clean := 0, admitted := false, tReady := 0, tLost := 0,
    tRecovery := 0, tIsland := 0, tSpare := 0, tLink := 0 }

/-- Security at reset (19 Table 19.8). -/
def Sec.reset : Sec :=
  { lifecycle := 0, keys := false, keyGen := [], domain := [], session := none, nonce := none, drbg := 0, attest := [],
    responses := [], lastTrip := none, alarmN := true, eraseDue := false, response := none }

/-- Pages and tiers at reset (06): nothing is allocated. -/
def Tier.reset : Tier :=
  { dir := [], freeSeq := [], waitPins := [], spoiled := [], data := [], used := [], freed := [], moves := [], drains := [], tensors := [], models := [], t3 := [], lent := [],
    nextGrant := 1, held := [], offered := [], lastOffer := none, ask := none, prefixes := [], streams := [], parking := false }

/-- Requests at reset (05 R121). -/
def Req.reset : Req :=
  { admits := [], ledger := [], kept := [], heldMsgs := [], earlyEnds := [], repairing := [], issued := [], asks := [], known := [], owned := [],
    recving := [], recovering := [], recovered := [], replicas := [], outbox := [], retry := [] }

/-- The compute units at reset (07–13). -/
def Comp.reset : Comp :=
  { ladles := [], running := [], whisk := [], adapters := [], constraints := [], transitions := [], banks := [], cursors := [],
    indices := [], press := [], waitTags := [], checkRow := 0, sampling := [], samples := [] }

/-- The fabric at reset (14 Table 14.7): no fabric ID, no lock, no route, membership of epoch 0 (05 R128). -/
def Fab.reset : Fab :=
  { id := none, conflict := [], locked := false, grandmaster := false, elected := false, epoch := 0, members := [], entered := 0,
    trayRoutes := [], slotRoutes := [], neighbours := [], spareLane := [], laneFails := [], trainSince := [], everOn := [], paused := [], rxFill := [],
    rxPaused := [], fragments := [], pfx := 0, fmAt := none, requestAt := none, announced := [], dieSync := [], lastSync := 0,
    offset := 0, slewAt := 0, hops := [], ppsAt := none, dropped := [], inbox := [], sent := [] }

/-- The transport engine at reset (15). -/
def Xport.reset : Xport :=
  { eps := [], ctxArea := none, resident := [], regions := [], gens := [], regionQuarantine := [], tags := [], counters := [],
    sends := [], nextSend := 0, recvs := [], remembered := [], keys := [], miss := [], lastSeq := [] }

/-- The tray port at reset (16). -/
def Tray.reset : Tray :=
  { sources := [], peers := [], work := [], linePtr := 0, buffer := [], mem := [], bad := [], hotLines := 0, hotAt := [], groups := [], masks := [],
    frozen := [] }

/-- The shaper at reset (17 R491). -/
def Shape.reset : Shape :=
  { queues := [], classPtr := [], queuePtr := [], credit := [], creditAt := [], gateEntry := [], busyUntil := [] }

/-- The module right after reset. DESIGN CHOICE, log entry 3. DESIGN CHOICE, log entry 4. -/
def State.reset : State :=
  { pending := [], order := .p64x4, fuses := .blank, image := .none, nvmFitted := true, nvm := [], hostMem := [],
    time := 0, mono := 0, free := 0, boot := .reset, host := .reset, mgmt := .reset, gov := .reset, tele := .reset,
    rel := .reset, sec := .reset, tier := .reset, req := .reset, comp := .reset, fab := .reset, xport := .reset,
    tray := .reset, shape := .reset }

end Sys2Proof.Machine
end

