-- ==== Sys2Proof/Machine/Status.lean ====
section
/-!
DEFINITION. Status codes (04 Table 4.11, 03 Table 3.14 and the status tables of the other chapters).
-/
namespace Sys2Proof.Machine.Status

abbrev ok : Nat := 0x0000
abbrev fenceUnplaced : Nat := 0x0010
abbrev functionStopping : Nat := 0x0011
abbrev adapterWaitRoom : Nat := 0x0020
abbrev adapterAbsent : Nat := 0x0021
abbrev adapterLost : Nat := 0x0022
abbrev adapterNone : Nat := 0x0023
abbrev adapterLayer : Nat := 0x0024
abbrev adapterExists : Nat := 0x0025
abbrev adapterFormat : Nat := 0x0026
abbrev adapterIntegrity : Nat := 0x0027
abbrev adapterLimit : Nat := 0x0028
abbrev adapterRetired : Nat := 0x0029
abbrev streamMismatch : Nat := 0x002A
abbrev streamSourceLost : Nat := 0x002B
abbrev requestUnknown : Nat := 0x0101
abbrev requestFinal : Nat := 0x0102
abbrev phaseInvalid : Nat := 0x0103
abbrev epochStale : Nat := 0x0104
abbrev stepConflict : Nat := 0x0105
abbrev stepGap : Nat := 0x0106
abbrev stepRefused : Nat := 0x0107
abbrev ledgerMoved : Nat := 0x0108
abbrev ledgerFull : Nat := 0x0109
abbrev handoffTargetInvalid : Nat := 0x010A
abbrev handoffRefused : Nat := 0x010B
abbrev handoffAborted : Nat := 0x010C
abbrev recomputeRequired : Nat := 0x010D
abbrev recoveryLimit : Nat := 0x010E
abbrev promptInvalid : Nat := 0x0110
abbrev epochExhausted : Nat := 0x0111
abbrev logRange : Nat := 0x0112
abbrev noCachePool : Nat := 0x0113
abbrev admitParam : Nat := 0x0114
abbrev tierExhausted : Nat := 0x0201
abbrev pageRange : Nat := 0x0202
abbrev pinLimit : Nat := 0x0203
abbrev pageStale : Nat := 0x0204
abbrev prefixNoBanks : Nat := 0x0205
abbrev prefixIndexFull : Nat := 0x0206
abbrev prefixRange : Nat := 0x0207
abbrev windowUnavailable : Nat := 0x0208
abbrev windowFull : Nat := 0x0209
abbrev windowUnknown : Nat := 0x020A
abbrev windowRange : Nat := 0x020B
abbrev windowSliceSize : Nat := 0x020C
abbrev directoryFull : Nat := 0x020D
abbrev t3Config : Nat := 0x020E
abbrev modelUnknown : Nat := 0x020F
abbrev modelConflict : Nat := 0x0210
abbrev modelLimit : Nat := 0x0211
abbrev operatorInvalid : Nat := 0x0301
abbrev formatUnsupported : Nat := 0x0302
abbrev shapeInvalid : Nat := 0x0303
abbrev operandRange : Nat := 0x0304
abbrev nonfinite : Nat := 0x0305
abbrev tensorUnknown : Nat := 0x0306
abbrev tensorLimit : Nat := 0x0307
abbrev commandAborted : Nat := 0x0308
abbrev operandPoison : Nat := 0x0309
abbrev constraintDeadEnd : Nat := 0x0401
abbrev samplerParam : Nat := 0x0402
abbrev intakeInvalid : Nat := 0x0403
abbrev positionPast : Nat := 0x0404
abbrev positionAhead : Nat := 0x0405
abbrev constraintAbsent : Nat := 0x0406
abbrev constraintExists : Nat := 0x0407
abbrev constraintFormat : Nat := 0x0408
abbrev constraintIntegrity : Nat := 0x0409
abbrev constraintLimit : Nat := 0x040A
abbrev constraintNoRoom : Nat := 0x040B
abbrev grammarNoTransition : Nat := 0x040C
abbrev draftInvalid : Nat := 0x040D
abbrev camBankDenied : Nat := 0x0501
abbrev camBankUse : Nat := 0x0502
abbrev camWidthMismatch : Nat := 0x0503
abbrev camBankBusy : Nat := 0x0504
abbrev camEntryRange : Nat := 0x0505
abbrev camCursorUnknown : Nat := 0x0506
abbrev camCursorLimit : Nat := 0x0507
abbrev camBankAbsent : Nat := 0x0508
abbrev camEntryPoison : Nat := 0x0509
abbrev camFormat : Nat := 0x050A
abbrev vindexUnknown : Nat := 0x0520
abbrev vindexExists : Nat := 0x0521
abbrev vindexFormat : Nat := 0x0522
abbrev vindexNoRoom : Nat := 0x0523
abbrev vindexLimit : Nat := 0x0524
abbrev vindexState : Nat := 0x0525
abbrev vindexIntegrity : Nat := 0x0526
abbrev vsearchParam : Nat := 0x0527
abbrev vectorIdRange : Nat := 0x0529
abbrev vsearchTarget : Nat := 0x052A
abbrev vsearchPoison : Nat := 0x052B
abbrev vsearchPartitionDown : Nat := 0x052C
abbrev pressStreamUnknown : Nat := 0x0601
abbrev pressStreamLimit : Nat := 0x0602
abbrev pressTableFormat : Nat := 0x0603
abbrev pressGenHeld : Nat := 0x0604
abbrev pressNoTable : Nat := 0x0605
abbrev pressBlockPoison : Nat := 0x0606
abbrev pressLength : Nat := 0x0607
abbrev pressGenAbsent : Nat := 0x0608
abbrev pressInstallEnded : Nat := 0x0609
abbrev portUnavailable : Nat := 0x0701
abbrev fabricNotReady : Nat := 0x0702
abbrev endpointUnknown : Nat := 0x0703
abbrev endpointLimit : Nat := 0x0704
abbrev endpointBusy : Nat := 0x0705
abbrev peerUnreachable : Nat := 0x0706
abbrev deliveryTimeout : Nat := 0x0707
abbrev receiverNotReady : Nat := 0x0708
abbrev recvTooSmall : Nat := 0x0709
abbrev mkeyInvalid : Nat := 0x070A
abbrev mkeyRights : Nat := 0x070B
abbrev mkeyRange : Nat := 0x070C
abbrev messageAborted : Nat := 0x070D
abbrev recvCancelled : Nat := 0x070E
abbrev mkeyLimit : Nat := 0x070F
abbrev tagInvalid : Nat := 0x0710
abbrev xportParam : Nat := 0x0711
abbrev receiverNoRoom : Nat := 0x0712
abbrev trayFormat : Nat := 0x0801
abbrev trayAlign : Nat := 0x0802
abbrev trayNotMember : Nat := 0x0803
abbrev staleOp : Nat := 0x0804
abbrev trayTargetLost : Nat := 0x0805
abbrev trayJobFrozen : Nat := 0x0806
abbrev trayGroupUnknown : Nat := 0x0807
abbrev trayNoJob : Nat := 0x0808
abbrev identityDerivation : Nat := 0x0901
abbrev entropyFailure : Nat := 0x0902
abbrev secRequestFormat : Nat := 0x0903
abbrev lifecycleState : Nat := 0x0904
abbrev provisionExhausted : Nat := 0x0905
abbrev signatureInvalid : Nat := 0x0906
abbrev nonceStale : Nat := 0x0907
abbrev domainEpoch : Nat := 0x0908
abbrev secBusy : Nat := 0x0909
abbrev sessionRequired : Nat := 0x090A
abbrev injectForbidden : Nat := 0x0A01
abbrev injectTarget : Nat := 0x0A02
abbrev islandReset : Nat := 0x0A03
abbrev quarantined : Nat := 0x0A04
abbrev shadowState : Nat := 0x0A05
abbrev imageNvm : Nat := 0x0B01
abbrev imageHeader : Nat := 0x0B02
abbrev imageFormat : Nat := 0x0B03
abbrev vendorKey : Nat := 0x0B04
abbrev vendorSigRsa : Nat := 0x0B05
abbrev vendorSigSlh : Nat := 0x0B06
abbrev vendorRollback : Nat := 0x0B07
abbrev ownerKey : Nat := 0x0B08
abbrev ownerSigRsa : Nat := 0x0B09
abbrev ownerSigSlh : Nat := 0x0B0A
abbrev ownerRollback : Nat := 0x0B0B
abbrev imageConfig : Nat := 0x0B0C
abbrev lifecycleHold : Nat := 0x0B0D
abbrev stackTraining : Nat := 0x0B0E
abbrev knobNotListed : Nat := 0x0B10
abbrev knobOutOfBounds : Nat := 0x0B11
abbrev knobNoTarget : Nat := 0x0B12
abbrev opcodeInvalid : Nat := 0x0B20
abbrev opcodeNotPermitted : Nat := 0x0B21
abbrev tenantMismatch : Nat := 0x0B22
abbrev jobLimit : Nat := 0x0B24
abbrev jobUnknown : Nat := 0x0B25
abbrev jobClosing : Nat := 0x0B26
abbrev batchUnknown : Nat := 0x0B27
abbrev batchSize : Nat := 0x0B28
abbrev batchSplitOwner : Nat := 0x0B29
abbrev batchLimit : Nat := 0x0B2A
abbrev batchDuplicate : Nat := 0x0B2B
abbrev queueAborted : Nat := 0x0B2C
abbrev hostReadError : Nat := 0x0B2D
abbrev doorbellInvalid : Nat := 0x0B2E
abbrev ringBusy : Nat := 0x0B2F
abbrev queueConfig : Nat := 0x0B30
abbrev tenantNotOn : Nat := 0x0B31
abbrev tenantUnknown : Nat := 0x0B32

end Sys2Proof.Machine.Status
end

