-- ==== Sys2Proof/Machine/Ops.lean ====
section
/-!
DEFINITION. Operations that many commands share: the fields of a command, the tables of the host interface, event records
and counters, the function status machine, completions, and the frame in which every host command runs.
-/
namespace Sys2Proof.Machine

/-! ### The fields of a command (04 Table 4.5) -/

def opcodeOf (c : Cmd) : Nat := fld c.w0 7 0
def cidOf (c : Cmd) : Nat := fld c.w0 63 48
def jobOf (c : Cmd) : Nat := fld c.w0 47 32
def classOf (c : Cmd) : Nat := fld c.w0 18 16
def isBatch (c : Cmd) : Bool := flag c.w0 9
def isNotify (c : Cmd) : Bool := flag c.w0 8
def handleOf (c : Cmd) : Nat := c.w1.toNat
def batchIdOf (c : Cmd) : Nat := fld c.w1 31 0

/-- The tenant that a handle names (01 R16, handle layout). -/
def handleTenant (h : Nat) : Nat := bits h 63 60

/-! ### Who is who -/

def tenantRec (s : State) (t : Nat) : Option TenantRec := s.image.tenants.find? (·.tenant = t)

/-- The tenant bound to a function (04 R83). -/
def tenantOfFn (s : State) (fn : Nat) : Option TenantRec := s.image.tenants.find? (·.function = fn)

/-- The tenant of the queue that carries a command, or the one a forwarded command brings. -/
def cmdTenant (s : State) (c : Cmd) : Nat :=
  match c.src with
  | some (_, t) => t
  | none => match tenantOfFn s c.fn with
    | some r => r.tenant
    | none => 0

def tenantFn (s : State) (t : Nat) : FnState := tgetD s.host.tenants t .clean
def queueOf (s : State) (fn q : Nat) : QueuePair := tgetD s.host.queues (fn, q) .reset
def kettleOf (s : State) (fn : Nat) : Kettle := tgetD s.host.kettles fn .reset
def funcOf (s : State) (fn : Nat) : FuncRegs := tgetD s.host.funcs fn .reset

def setTenantFn (s : State) (t : Nat) (f : FnState) : State :=
  { s with host := { s.host with tenants := tset s.host.tenants t f } }
def setQueue (s : State) (fn q : Nat) (p : QueuePair) : State :=
  { s with host := { s.host with queues := tset s.host.queues (fn, q) p } }
def setKettle (s : State) (fn : Nat) (k : Kettle) : State :=
  { s with host := { s.host with kettles := tset s.host.kettles fn k } }
def setFunc (s : State) (fn : Nat) (f : FuncRegs) : State :=
  { s with host := { s.host with funcs := tset s.host.funcs fn f } }
def setSlots (s : State) (l : List Slot) : State := { s with host := { s.host with slots := l } }

/-- The status of a function (02 R47). -/
def fnState (s : State) (f : FnId) : FnState :=
  match f with
  | .tenant t => tenantFn s t
  | .queue fn q => (queueOf s fn q).fn
  | .kettle fn => (kettleOf s fn).fn
  | _ => tgetD s.rel.fns f .clean

/-- Set the status of a function. -/
def setFnState (s : State) (f : FnId) (x : FnState) : State :=
  match f with
  | .tenant t => setTenantFn s t x
  | .queue fn q => setQueue s fn q { queueOf s fn q with fn := x }
  | .kettle fn => setKettle s fn { kettleOf s fn with fn := x }
  | _ => { s with rel := { s.rel with fns := tset s.rel.fns f x } }

/-- Has the module reached READY (03 R67)? -/
def isReady (s : State) : Bool := s.boot.state = .ready

/-! ### Event records and counters (04 R113–R118, 20 R560–R566) -/

/-- An event record (04, Kettle event rings). -/
def eventWord (island code hi time : Nat) : Word :=
  BitVec.ofNat 64 (island % 256 * 2 ^ 56 + code % 256 * 2 ^ 48 + hi % 65536 * 2 ^ 32 + time % 2 ^ 32)

/-- An island's own copy of fabric time (02 R31). DESIGN CHOICE, log entry 123. -/
def islandTime (s : State) (island : Nat) : Nat := s.time + (Config.islandSkew s.time island).val

/-- Count records of a ring lost (04 R118). -/
def loseRecords (s : State) (fn n : Nat) : State :=
  let k := kettleOf s fn
  setKettle s fn { k with lost := satAdd 32 k.lost n }

/-- Put a closed word of a ring into the staging buffer of island 31; a full buffer loses its oldest word, whichever ring's it is (04 R115, R118).
DEDUCED, log entry 124. -/
def stageWord (s : State) (fn : Nat) (w : KettleWord) : State :=
  match s.host.staging with
  | [] => { s with host := { s.host with staging := [(fn, w)] } }
  | o :: r =>
    if (o :: r).length < 64 then { s with host := { s.host with staging := o :: r ++ [(fn, w)] } }
    else loseRecords { s with host := { s.host with staging := r ++ [(fn, w)] } } o.1 o.2.valid

/-- Pack one record into the open word; the eighth slot closes it, and gives the closed word (04 R113). A ring that is not ON counts the record
lost (R118). -/
def Kettle.put (k : Kettle) (w : Word) (now : Nat) : Kettle × Option KettleWord :=
  if k.fn.st = .on then
    let opened := k.opened ++ [w]
    let k1 := { k with opened := opened, openedAt := if k.opened = [] then now else k.openedAt }
    if opened.length < 8 then (k1, none)
    else ({ k1 with opened := [] }, some { slots := opened, valid := 8 })
  else ({ k with lost := satAdd 32 k.lost 1 }, none)

/-- Give one record to a ring; a word that it closes goes to the staging buffer (04 R113, R115). DEDUCED, log entry 124. -/
def putRecord (s : State) (fn : Nat) (w : Word) : State :=
  let p := (kettleOf s fn).put w s.mono
  let s1 := setKettle s fn p.1
  match p.2 with
  | none => s1
  | some x => stageWord s1 fn x

/-- What a programmable counter adds for one occurrence of an event (20 R564, R565). In LEVEL mode a THRESHOLD of 0 counts every cycle, which `tick` does.
DESIGN CHOICE, log entry 115. -/
def Pctr.onEvent (p : Pctr) (code : Nat) (tenant : Option Nat) : Pctr :=
  if p.enable && p.signal = code && (!p.filter || tenant = some p.tenant) && (p.threshold = 1 || (p.threshold = 0 && p.edge)) then
    { p with count := wrapAdd 48 p.count 1 }
  else p

/-- Which programmable counters of an island see an event. DESIGN CHOICE, log entry 115. -/
def pctrEvent (t : Tab (Nat × Nat) Pctr) (island code : Nat) (tenant : Option Nat) : Tab (Nat × Nat) Pctr :=
  t.map fun e => if e.1.1 = island then (e.1, e.2.onEvent code tenant) else e

/-- Give a record to the rings that receive it (20 R560): function 0 always, a virtual function for its own tenant. -/
def toRings (s : State) (w : Word) (tenant : Option Nat) : State :=
  let s0 := putRecord s 0 w
  match tenant.bind (tenantRec s0) with
  | none => s0
  | some r => if r.function = 0 then s0 else putRecord s0 r.function w

/-- Count one occurrence (20 R563). An injected one raises only the injected counter. -/
def countEvent (s : State) (island code : Nat) (inj : Bool) (tenant : Option Nat) : State :=
  let t := s.tele
  if inj then { s with tele := { t with injected := tupd t.injected (island, code) 0 (wrapAdd 48 · 1) } }
  else
    { s with tele :=
      { t with
        events := tupd t.events (island, code) 0 (wrapAdd 48 · 1)
        tenants := match tenant with
          | none => t.tenants
          | some k => tupd t.tenants (k, code) 0 (wrapAdd 48 · 1)
        pctrs := pctrEvent t.pctrs island code tenant } }

/-- An occurrence in form T: INJ, tenant if valid, and the ten bits of ARG and INDEX (20 Table 20.1). DEDUCED, log entry 116. -/
def eventT (s : State) (island code : Nat) (inj : Bool) (tenant : Option Nat) (detail : Nat) : State :=
  let hi := b2n inj * 2 ^ 15 + (match tenant with | none => 0 | some t => 2 ^ 14 + t % 16 * 2 ^ 10) + detail % 1024
  toRings (countEvent s island code inj tenant) (eventWord island code hi (islandTime s island)) tenant

/-- An occurrence in form A: a 16-bit value (20 Table 20.1). It goes to the ring of function 0 alone. DEDUCED, log entry 116. -/
def eventA (s : State) (island code aux : Nat) : State :=
  toRings (countEvent s island code false none) (eventWord island code aux (islandTime s island)) none

/-- ARG and INDEX as DETAIL (20 Table 20.1). -/
def argIndex (arg index : Nat) : Nat := arg % 8 * 128 + index % 128

/-! ### Function status (02 R48–R51) -/

/-- Enable (02 Table 2.11). -/
def FnState.enable (f : FnState) : FnState :=
  match f.st with
  | .off => { st := .starting, latch := false }
  | .stopping => { f with latch := true }
  | _ => f

/-- Disable (02 Table 2.11). -/
def FnState.disable (f : FnState) : FnState :=
  match f.st with
  | .starting => { f with st := .stopping }
  | .on => { f with st := .stopping }
  | .stopping => { f with latch := false }
  | _ => f

/-- Initialisation complete (02 Table 2.11). -/
def FnState.initDone (f : FnState) : FnState :=
  match f.st with
  | .starting => { f with st := .on }
  | _ => f

/-- Shut-down complete (02 Table 2.11). -/
def FnState.shutDone (f : FnState) : FnState :=
  match f.st with
  | .stopping => if f.latch then { st := .starting, latch := false } else .clean
  | _ => f

/-- Retirement onto a spare (02 Table 2.11). -/
def FnState.retire (f : FnState) : FnState :=
  match f.st with
  | .absent => f
  | _ => { st := .absent, latch := false }

/-- Island, event code, index and tenant of a function's status record (02 R51, 20 Table 20.2). -/
def statusSource (s : State) : FnId → Nat × Nat × Nat × Option Nat
  | .island i => (i, 0x01, 0, none)
  | .link p sub => (36 + p / 4, 0x02, p % 4 * 4 + sub, none)
  | .tenant t => (29, 0x03, 0, some t)
  | .ladle l => (l / 8, 0x04, tgetD s.rel.ladleAt l (l % 8), none)
  | .queue fn q => (29, 0x05, q, (tenantOfFn s fn).map (·.tenant))
  | .kettle fn => (31, 0x06, fn, (tenantOfFn s fn).map (·.tenant))
  | .bank b => (24, 0x07, b, none)

/-- Move a function to a status, with the event record of a change (02 R48, R51). A tenant's change is a function event too
(04 R110), which `Interrupts` signals. -/
def moveFn (s : State) (f : FnId) (x : FnState) : State :=
  let before := fnState s f
  let s1 := setFnState s f x
  if before.st = x.st then s1
  else
    let (island, code, index, tenant) := statusSource s1 f
    eventT s1 island code false tenant (argIndex x.st.code index)

/-! ### Interrupts (04 R110, R111) -/

/-- Is the vector masked, by HOST_IRQ_MASK or by the MSI-X table? -/
def vecMasked (f : FuncRegs) (v : Nat) : Bool :=
  f.vecMasked.contains v ||
  (if v = 0 then f.maskFunc else if v = 1 then f.maskKettle
   else if v < 34 then bit f.maskLo (v - 2) else bit f.maskHi (v - 34))

/-- Signal a vector: held pending while it is masked or within 2 µs of its last message (04 R111). DEDUCED, log entry 42. -/
def signal (s : State) (fn v : Nat) : State :=
  let f := funcOf s fn
  let recent := match tget f.lastSignal v with
    | none => false
    | some t => s.mono < t + 2000
  if vecMasked f v || recent then
    setFunc s fn { f with vecPending := if f.vecPending.contains v then f.vecPending else f.vecPending ++ [v] }
  else
    let s1 := setFunc s fn { f with vecPending := f.vecPending.erase v, lastSignal := tset f.lastSignal v s.mono }
    { s1 with host := { s1.host with signals := (fn, v) :: s1.host.signals } }

/-! ### Messages of the system endpoints (15 R427, R435, R457) -/

/-- The fabric ID that the module uses as its own (05 R128). -/
def selfId (s : State) : Nat := s.fab.id.getD 0x3FFFF

/-- The key epoch of a fabric time (15 R436). -/
def epochOf (t : Nat) : Nat := t / 2 ^ 40

/-- The secret that packets of a key epoch use: the greatest ACTIVATE not above it (19 R545). -/
def secretFor (s : State) (e : Nat) : Option DomainSecret :=
  s.sec.domain.foldl (fun b d => if d.activate ≤ e && b.all (fun x => x.activate ≤ d.activate) then some d else b) none

/-- Does the module hold time (15 R435): lock, grandmaster or elected, with a secret for the current key epoch (19 R545)? -/
def holdsTime (s : State) : Bool :=
  (s.fab.locked || s.fab.grandmaster || s.fab.elected) && (secretFor s (epochOf s.time)).isSome

/-- May a message leave for another module: a fabric ID and time are held, and the module is not quarantined (15 R457, 18 R527)? -/
def canSend (s : State) : Bool := s.fab.id.isSome && holdsTime s && !s.rel.quarantined

/-- Send a message of a system endpoint. One to the module itself waits in the outbox until its row takes it; one that cannot leave for want
of a fabric ID or of time is tried again 1 ms later (15 R457). DESIGN CHOICE, log entry 10. -/
def sysSend (s : State) (dest : Nat) (m : SysMsg) : State :=
  if dest = selfId s || canSend s then { s with req := { s.req with outbox := s.req.outbox ++ [(dest, m)] } }
  else if s.rel.quarantined then s
  else { s with req := { s.req with retry := s.req.retry ++ [(dest, m, s.mono)] } }

/-! ### Command slots and completions (04 R92, R100–R102) -/

def slotById (s : State) (id : Nat) : Option Slot := s.host.slots.find? (·.id = id)

/-- Change one slot. -/
def modSlot (s : State) (id : Nat) (f : Slot → Slot) : State :=
  setSlots s (s.host.slots.map fun x => if x.id = id then f x else x)

def dropSlot (s : State) (id : Nat) : State := setSlots s (s.host.slots.filter fun x => x.id ≠ id)

def setPhase (s : State) (id : Nat) (p : Phase) : State := modSlot s id fun x => { x with phase := p }

/-- Take a slot for a command (04 R92). -/
def takeSlot (s : State) (c : Cmd) : Nat × State :=
  let id := s.host.nextSlot
  (id, { s with host := { s.host with
    nextSlot := id + 1
    slots := s.host.slots ++ [{ id := id, cmd := c, order := 0, arrived := 0, members := [], phase := .fetched, sentAt := 0,
                                sentTo := none, askedAt := 0, aux := 0, injected := false, dead := false }] } })

/-- Slots held by a queue pair. -/
def heldSlots (s : State) (fn q : Nat) : Nat :=
  (s.host.slots.filter fun x => x.cmd.fn = fn && x.cmd.q = q && x.cmd.src = none).length

/-- Has the queue pair a free slot under both limits (04 R92)? -/
def slotFree (s : State) (fn q : Nat) : Bool := heldSlots s fn q < 256 && s.host.slots.length < 16384

/-- Count a dropped completion (04 R82, R90). -/
def countDropped (s : State) (fn : Nat) : State :=
  let f := funcOf s fn
  setFunc s fn { f with dropped := satAdd 32 f.dropped 1 }

/-- A command as it travels to its owner: the accepting module, the tenant, and the accepting module's slot (01 R11, R14). DEDUCED, log entry 40. -/
def asForwarded (s : State) (id : Nat) (c : Cmd) : Cmd :=
  match c.src with
  | some _ => c
  | none => { c with src := some (selfId s, cmdTenant s c), tag := id }

/-! ### Mirrored commands (18 R530, R531) -/

/-- Does a word refer to SPACE 1, a weight window (07_ladle_engines.md Table 7.5)? -/
def namesWindow (w : Word) : Bool := fld w 63 62 = 1

/-- Is the command one that a primary mirrors (18 Table 18.10)? -/
def mirrorable (s : State) (c : Cmd) : Bool :=
  let o := opcodeOf c
  c.src.isNone && handleOf c = 0 && !isBatch c &&
    ((0x30 ≤ o && o ≤ 0x33 && !namesWindow c.w2 && !namesWindow c.w3 && !namesWindow c.w4) || o = 0x34 || o = 0x35 || o = 0x3A ||
      (0x60 ≤ o && o ≤ 0x64) || (o = 0x5C && (fld c.w2 63 46 = 0x3FFFF || fld c.w2 63 46 = selfId s)))

/-- The primary sends a command that starts to its shadow, with the bytes of host memory that its inputs may read (18 R530). -/
def mirrorStart (s : State) (id : Nat) (c : Cmd) : State :=
  match s.rel.primaryTo with
  | none => s
  | some m =>
    if mirrorable s c then
      let x : Mirror := { peer := m, seq := s.rel.mirrorSeq, expect := none, given := 0, out := [] }
      let s1 := { s with rel := { s.rel with mirrorSeq := wrapAdd 32 s.rel.mirrorSeq 1, mirrors := tset s.rel.mirrors id x } }
      sysSend s1 m (.mirror x.seq (asForwarded s id c) s.hostMem)
    else s

/-- The digest of a mirrored command (18 R530): the first 64 bits of SHA-384 over its status, results and outputs. -/
def mirrorDigest (status r0 r1 : Nat) (out : List Byte) : Nat :=
  (Config.sha384 (leBytes 8 status ++ leBytes 8 r0 ++ leBytes 8 r1 ++ out)).toNat / 2 ^ 320

/-- The shadow compares its digest with the primary's (18 R531): a match raises the clean count, at CLEAN_STEPS the shadow is admitted; a mismatch
clears it. -/
def compareDigest (s : State) (cid mine theirs : Nat) : State :=
  if mine = theirs then
    let n := satAdd 28 s.rel.clean 1
    let s1 := { s with rel := { s.rel with clean := n } }
    if s.image.cleanSteps ≤ n && !s.rel.admitted then eventA { s1 with rel := { s1.rel with admitted := true } } 21 0xB1 0 else s1
  else eventA { s with rel := { s.rel with clean := 0 } } 21 0xB0 cid

/-- A mirrored command completes: the primary sends its digest, the shadow compares. -/
def mirrorEnd (s : State) (id cid status r0 r1 : Nat) : State :=
  match tget s.rel.mirrors id with
  | none => s
  | some x =>
    let s1 := { s with rel := { s.rel with mirrors := tdel s.rel.mirrors id } }
    let d := mirrorDigest status r0 r1 x.out
    match x.expect with
    | none => sysSend s1 x.peer (.mirrorDone x.seq d r0)
    | some e => compareDigest s1 cid d e

/-- Does the slot hold a command that the module runs as a shadow? -/
def shadowed (s : State) (id : Nat) : Bool := (tget s.rel.mirrors id).elim false fun x => x.expect.isSome

/-- The ID that TENSOR_ALLOC or PRESS_STREAM_OPEN gives: on a shadow the one that the primary returned (18 R531), where it is free. -/
def idFor (s : State) (id lowest : Nat) (taken : List Nat) : Nat :=
  match tget s.rel.mirrors id with
  | none => lowest
  | some x => if x.expect.isSome && x.given ≠ 0 && !taken.contains x.given then x.given else lowest

/-- Keep output bytes of a mirrored command for its digest. -/
def mirrorOut (s : State) (id : Nat) (bs : List Byte) : State :=
  if thas s.rel.mirrors id then
    { s with rel := { s.rel with mirrors := tmod s.rel.mirrors id fun x => { x with out := x.out ++ bs } } }
  else s

/-- The transient pins of a command are released when it ends (06 R179, R181). -/
def releasePins (s : State) (id : Nat) : State :=
  let p := Pin.command id
  { s with tier := { s.tier with
    dir := s.tier.dir.map fun e =>
      if e.2.pins.contains p then (e.1, { e.2 with pins := e.2.pins.filter fun q => !decide (q = p), seq := wrapAdd 32 e.2.seq 1 }) else e
    waitPins := s.tier.waitPins.filter fun w => !decide (w.2 = p)
    drains := s.tier.drains.map fun d => { d with pins := d.pins.filter fun q => !decide (q = p) } } }

/-- A command has finished: its completion is due (04 R102), or dropped and counted where its queue pair has left STOPPING or
the link is down (R82, R90). The completion of a command forwarded here goes to its accepting module (01 R12). `fwd` marks
one that ran on another module. -/
def finishWith (s : State) (id status r0 r1 : Nat) (fwd : Bool) : State :=
  match slotById s id with
  | none => s
  | some x =>
    let shadow := shadowed s id
    let s := releasePins s id
    let s := { s with
      req := { s.req with
        known := s.req.known.filter fun k => k.1 ≠ id
        asks := s.req.asks.filter fun a => !decide (a.asker = .forward id) }
      comp := { s.comp with waitTags := s.comp.waitTags.filter (fun w => w.2.2 ≠ id), sampling := tdel s.comp.sampling id } }
    let s := if x.phase = .finished then s else mirrorEnd s id (cidOf x.cmd) status r0 r1
    if x.phase = .finished then s
    else if shadow then dropSlot s id
    else match x.cmd.src with
      | some (m, _) => sysSend (dropSlot s id) m (.completion { x.cmd with src := none } status r0 r1)
      | none =>
        if x.dead then countDropped (dropSlot s id) x.cmd.fn
        else
          let s1 := setPhase s id .finished
          { s1 with host := { s1.host with
            due := s1.host.due ++ [{ slot := id, fn := x.cmd.fn, q := x.cmd.q, cid := cidOf x.cmd, status := status,
                                     handle := handleOf x.cmd, result0 := r0, result1 := r1, forwarded := fwd,
                                     notify := isNotify x.cmd, injected := x.injected, tenant := cmdTenant s x.cmd }] } }

/-- A command that ran here has finished. -/
def finish (s : State) (id status r0 r1 : Nat) : State := finishWith s id status r0 r1 false

/-- Finish with a status and no result. -/
def fail (s : State) (id status : Nat) : State := finish s id status 0 0

/-- Do two commands share a queue (of one accepting module)? DESIGN CHOICE, log entry 119. -/
def sameQueue (a b : Cmd) : Bool := a.fn = b.fn && a.q = b.q && decide (a.src = b.src)

/-- Has the slot's command started and not finished? DEDUCED, log entry 32. -/
def Slot.inHand (x : Slot) : Bool :=
  match x.phase with
  | .waiting _ => true
  | _ => false

/-- Has the slot's command not started: it was fetched; its owner is being asked for (01 R601); it waits on WAIT_TAG (08 R263) or TRIG_COUNTER (15 R454), is a
SEND that waits for a send record (15 R447), or has no room for its first entry (07 R226)? DEDUCED, log entry 18. -/
def Slot.notStarted (x : Slot) : Bool :=
  match x.phase with
  | .fetched => true
  | .waiting .route => true
  | .waiting .tag => true
  | .waiting .released => true
  | .waiting .whisk => true
  | .waiting .room => opcodeOf x.cmd = 0x72
  | _ => false

/-- Opcodes of the fences that hold later commands (02 Table 2.7). DEDUCED, log entry 18. -/
def holdsQueue (c : Cmd) : Bool :=
  opcodeOf c = 0x9D || ((opcodeOf c = 0x9E || opcodeOf c = 0x9F) && flag c.w2 0)

/-- The fences of Table 2.7 (02 R38), FLUSH among them. -/
def isFence (c : Cmd) : Bool := opcodeOf c = 0x9D || opcodeOf c = 0x9E || opcodeOf c = 0x9F || opcodeOf c = 0x74

/-- The earlier commands of a queue, in its present life: what its queue pair left behind at the end of an earlier one counts no more (02 R49). DEDUCED,
log entry 32. DEDUCED, log entry 32. -/
def earlier (s : State) (id : Nat) (c : Cmd) : List Slot :=
  s.host.slots.filter fun x => x.id < id && sameQueue x.cmd c && !x.dead

/-- An earlier command of the queue holds slot `id` back: a fence that holds later commands (02 R38), or one that has not started (R36) and is in
hand. DEDUCED, log entry 18. -/
def heldBack (s : State) (id : Nat) (c : Cmd) : Bool :=
  (earlier s id c).any fun x => x.inHand && (holdsQueue x.cmd || x.notStarted)

/-- Has a fence that the queue carried earlier not completed? Fences never pass one another (02 R42). -/
def fenceAhead (s : State) (id : Nat) (c : Cmd) : Bool := (earlier s id c).any fun x => isFence x.cmd && x.inHand

/-- The commands in hand that are equal to one presented, by slot. -/
def inHandSlots (s : State) (c : Cmd) : List Nat := (s.host.slots.filter fun x => decide (x.cmd = c) && x.inHand).map (·.id)

/-- May a command that no fetch has brought take a slot: its queue pair is not OFF, and both limits of R92 leave one? -/
def mayEnter (s : State) (c : Cmd) : Bool :=
  c.src.isSome ||
    (s.host.link.up && (tenantOfFn s c.fn).isSome && !((queueOf s c.fn c.q).fn.st = .off) && slotFree s c.fn c.q)

/-- The islands that a command's work needs, beside the base dies, whose Ladles and Skimmers have a status of their own (02 Table 2.3): the sequencer starts
every command, and the others are those of the unit that runs it. DESIGN CHOICE, log entry 29. DESIGN CHOICE, log entry 29. -/
def commandIslands (o : Nat) : List Nat :=
  21 :: (if 0x40 ≤ o && o ≤ 0x43 then [22] else if 0x60 ≤ o && o ≤ 0x65 then [23] else if 0x50 ≤ o && o ≤ 0x56 then [24]
    else if 0x70 ≤ o && o ≤ 0x78 then [25] else if 0x80 ≤ o && o ≤ 0x86 then [26] else if 0x20 ≤ o && o ≤ 0x2D then [20] else [])

/-- Has an island left ON? -/
def islandDown (s : State) (i : Nat) : Bool := (tget s.rel.fns (.island i)).any fun f => !(f.st = .on)

/-- Has an island that the command needs left ON? Such an island accepts no new work (02 R50): the command waits, not started. DESIGN CHOICE, log entry
29. DESIGN CHOICE, log entry 29. -/
def islandShut (s : State) (c : Cmd) : Bool :=
  (commandIslands (opcodeOf c)).any (islandDown s)

/-- The slot in which a presented command starts: it must be the first of its queue that has not started (02 R36). A command that is neither fetched
nor in hand takes a slot. DESIGN CHOICE, log entry 17. -/
def claim (s : State) (c : Cmd) : Option (Nat × State) :=
  if islandShut s c then none
  else match s.host.slots.find? (fun x => sameQueue x.cmd c && decide (x.phase = .fetched)) with
  | some x => if x.cmd = c && !heldBack s x.id c then some (x.id, s) else none
  | none =>
    if inHandSlots s c = [] && mayEnter s c && !heldBack s s.host.nextSlot c then some (takeSlot s c) else none

/-! ### The checks of the accepting module (04 R599) -/

/-- Opcodes that some chapter defines (04 Table 4.6 and the command tables). -/
def opcodeDefined (o : Nat) : Bool :=
  o ≤ 0x02 || (0x10 ≤ o && o ≤ 0x18) || (0x20 ≤ o && o ≤ 0x2D) || (0x30 ≤ o && o ≤ 0x35) || (0x38 ≤ o && o ≤ 0x3B) ||
  (0x40 ≤ o && o ≤ 0x43) || (0x50 ≤ o && o ≤ 0x56) || (0x58 ≤ o && o ≤ 0x5E) || (0x60 ≤ o && o ≤ 0x65) ||
  (0x70 ≤ o && o ≤ 0x78) || (0x80 ≤ o && o ≤ 0x86) || o = 0x90 || o = 0x91 || (0x9D ≤ o && o ≤ 0x9F) ||
  (0xA0 ≤ o && o ≤ 0xA3) || (0xB0 ≤ o && o ≤ 0xB3)

/-- The members of a command: its batch, or the one request it names (04 R107). -/
def membersOf (s : State) (c : Cmd) : List Nat :=
  if isBatch c then tgetD s.host.batches (cmdTenant s c, batchIdOf c) []
  else if handleOf c = 0 then [] else [handleOf c]

/-- STARTING or STOPPING (02 R50). -/
def inTransition (f : FnState) : Bool := f.st = .starting || f.st = .stopping

/-- Checks 1 to 4 of R599 in order, before them that of 18 R527: the code of the first that fails. A command forwarded here was checked by the module
that accepted it. -/
def entryChecks (s : State) (c : Cmd) : Option Nat :=
  let t := cmdTenant s c
  if s.rel.quarantined then some Status.quarantined
  else if c.src.isSome then none
  else if inTransition (queueOf s c.fn c.q).fn || inTransition (tenantFn s t) then some Status.functionStopping
  else if !opcodeDefined (opcodeOf c) then some Status.opcodeInvalid
  else if 0xB0 ≤ opcodeOf c && opcodeOf c ≤ 0xBF && c.fn ≠ 0 then some Status.opcodeNotPermitted
  else
    let job := match tget s.host.jobs (t, jobOf c) with
      | none => some Status.jobUnknown
      | some j => if j.closing && opcodeOf c ≠ 0x02 then some Status.jobClosing else none
    if jobOf c = 0 then none else job

/-- Checks 5 and 6 of R599. The lookup of a batch happens when its command starts (R107). -/
def memberChecks (s : State) (c : Cmd) : Option Nat :=
  let t := cmdTenant s c
  if c.src.isSome then none
  else if isBatch c && !thas s.host.batches (t, batchIdOf c) then some Status.batchUnknown
  else if (membersOf s c).any (fun h => handleTenant h ≠ t) then some Status.tenantMismatch
  else none

/-- The checks of R599 in order. -/
def hostChecks (s : State) (c : Cmd) : Option Nat :=
  match entryChecks s c with
  | some e => some e
  | none => memberChecks s c

/-- Number a command in the order of starting: when it starts, and again when it passes a gate at which it had not (`Slot.notStarted`). -/
def noteOrder (s : State) (id : Nat) : State :=
  modSlot { s with host := { s.host with nextStart := s.host.nextStart + 1 } } id fun x => { x with order := s.host.nextStart }

/-- Number a command in the order of arrival at the owner of its requests. -/
def noteArrival (s : State) (id : Nat) : State :=
  modSlot (noteOrder s id) id fun x => { x with arrived := x.order, sentTo := none }

/-- Did the command of slot `x` arrive at the owner, this module, before that of slot `id`? -/
def arrivedBefore (s : State) (id : Nat) (x : Slot) : Bool :=
  !(x.id = id) && !(x.arrived = 0) && x.arrived < (slotById s id).elim 0 (·.arrived)

/-- Did the command of slot `x` start before that of slot `id`? -/
def startedBefore (s : State) (id : Nat) (x : Slot) : Bool :=
  !(x.id = id) && !x.notStarted && x.order < (slotById s id).elim 0 (·.order)

/-- Keep the members of a command that starts (04 R107), and its place in the order of starting. A forwarded command brings its own members. -/
def noteMembers (s : State) (id : Nat) (c : Cmd) : State :=
  modSlot (noteOrder s id) id fun x => { x with members := if c.src.isSome then x.members else membersOf s c }

/-- The members of a started command. -/
def slotMembers (s : State) (id : Nat) : List Nat := (slotById s id).elim [] (·.members)

/-- Take up again each of some slots in which a command is in hand. -/
def resumeEach (c : Cmd) (body : Bool → Nat → State → State) (s : State) : List Nat → State
  | [] => s
  | id :: r =>
    resumeEach c body (if (inHandSlots s c).contains id then body true id s else s) r

/-- How a host command runs: it claims its slot, passes the checks of R599 when it starts, and then `body` finishes the slot or leaves it waiting.
A command that is in hand is taken up again, which `body` is told; equal commands in hand are taken up together. DESIGN CHOICE, log entry 17. -/
def runCmd (op : Nat) (c : Cmd) (s : State) (body : Bool → Nat → State → State) : State :=
  if opcodeOf c ≠ op then s
  else match claim s c with
    | none => resumeEach c body s (inHandSlots s c)
    | some (id, s1) =>
      match hostChecks s1 c with
      | some e => fail s1 id e
      | none => body false id (mirrorStart (noteMembers s1 id c) id c)

/-! ### What a command leaves alone -/

/-- What no command but its own row may change is put back: ordering code, fuses, image, NVM and the lifecycle state in force, which only start-up, resets and
the rows that blow fuses change (01 R7, 03 intro; 19 R536); fabric time, which only time, a step of R422 or R424 and start-up change; and the clock that
never steps. The queue of commands is not a command's to change. Host memory is held in canonical form. DESIGN CHOICE, log entry 9. -/
def State.keep (s t : State) : State :=
  { t with pending := s.pending, order := s.order, fuses := s.fuses, image := s.image, nvmFitted := s.nvmFitted, nvm := s.nvm,
           time := s.time, mono := s.mono, hostMem := t.hostMem.canon, sec := { t.sec with lifecycle := s.sec.lifecycle } }

/-- As `keep`, for commands that write nothing to host memory. DESIGN CHOICE, log entry 9. -/
def State.keepHost (s t : State) : State :=
  { s.keep t with hostMem := s.hostMem }

/-- The outcome of a command that changes neither structure nor host memory. DEDUCED, log entry 7. -/
def quiet (s t : State) : Host.Outcome State Fault Refusal := .next (s.keepHost t)

/-- The outcome of a command that may write host memory. DEDUCED, log entry 7. -/
def ordinary (s t : State) : Host.Outcome State Fault Refusal := .next (s.keep t)

/-- The outcome of a command that may write host memory and step fabric time (14 R422, R424). -/
def clocked (s t : State) : Host.Outcome State Fault Refusal := .next { s.keep t with time := t.time }

/-! ### Fuses -/

/-- Fuses of a bank blown on top of those that are blown. -/
def OwnerBank.blow (a b : OwnerBank) : OwnerBank :=
  { hash := a.hash ||| b.hash, blown := a.blown || b.blown, complete := a.complete || b.complete, spoiled := a.spoiled || b.spoiled }

/-- Banks of fuses blown, bank by bank. -/
def blowBanks : List OwnerBank → List OwnerBank → List OwnerBank
  | a :: r, b :: l => a.blow b :: blowBanks r l
  | r, [] => r
  | [], _ => []

/-- What the fuses show after a row that asks for `t`: a blown fuse stays blown, a count never falls, and a recorded retirement stays (03 R63; 18 R521;
19 R536, R538). Serial number and vendor key hash are fixed at manufacture. -/
def Fuses.blow (s t : Fuses) : Fuses :=
  { serial := s.serial, vendorKeyHash := s.vendorKeyHash
    banks := blowBanks s.banks t.banks
    lifecycle := max s.lifecycle t.lifecycle
    vendorSvn := max s.vendorSvn t.vendorSvn
    ownerSvn := max s.ownerSvn t.ownerSvn
    tamperCount := max s.tamperCount t.tamperCount
    moves := s.moves ++ t.moves.drop s.moves.length }

/-- The outcome of a row that may blow fuses. -/
def fusing (s t : State) : Host.Outcome State Fault Refusal := .next { s.keepHost t with fuses := s.fuses.blow t.fuses }

/-- The state after a row that ends in a module reset (03 R75): what the board, the host and manufacture hold stays, and so do the clocks. -/
def State.afterReset (s t : State) : State :=
  { t with pending := s.pending, order := s.order, fuses := s.fuses.blow t.fuses, nvmFitted := s.nvmFitted, nvm := s.nvm,
           hostMem := s.hostMem, time := s.time, mono := s.mono, sec := { t.sec with lifecycle := s.sec.lifecycle } }

end Sys2Proof.Machine
end

