-- ==== Sys2Proof/Machine/Image.lean ====
section
/-!
DEFINITION. Reading and checking the configuration image (03_configuration_image_and_startup.md R56–R63, R72;
17_shaping_and_budgets.md R497).
-/
namespace Sys2Proof.Machine

/-- One TLV record of a section: NVM offset, type, and its value as doublewords (03 R56). -/
structure Tlv where
  off : Nat
  type : Nat
  len : Nat
  words : List Word
deriving DecidableEq, Repr

def Tlv.w (t : Tlv) (i : Nat) : Word := t.words.getD i 0

/-- IMAGE_HEADER (03 Table 3.3). -/
structure ImageHeader where
  length : Nat
  vendorOff : Nat
  vendorLen : Nat
  ownerOff : Nat
  ownerLen : Nat
deriving DecidableEq, Repr

/-- The checks on the image header (03 R57, first list). -/
def readHeader (m : Memory) : Option ImageHeader :=
  let tl := m.readWord 0
  let w0 := m.readWord 8
  let w1 := m.readWord 16
  let w2 := m.readWord 24
  let w3 := m.readWord 32
  let h : ImageHeader :=
    { length := fld w1 63 32, vendorOff := fld w2 31 0, vendorLen := fld w3 31 0, ownerOff := fld w2 63 32,
      ownerLen := fld w3 63 32 }
  let apart := h.vendorOff + h.vendorLen ≤ h.ownerOff || h.ownerOff + h.ownerLen ≤ h.vendorOff
  if fld tl 15 0 = 0x0001 && fld tl 63 32 = 32 && w0 = 0x314547414D494E53 && fld w1 31 16 = 0x0001 &&
     h.vendorOff % 4096 = 0 && h.ownerOff % 4096 = 0 && apart &&
     h.vendorOff + h.vendorLen ≤ h.length && h.ownerOff + h.ownerLen ≤ h.length && h.length ≤ 67108864 then some h
  else none

/-- How many records of a type a section may hold (03 Table 3.2); `vendor` tells the sections apart. -/
def maxCount (vendor : Bool) (type : Nat) : Nat :=
  match type with
  | 0x0002 => 1
  | 0x0003 => 1
  | 0x0004 => 1
  | 0x0010 => if vendor then 1 else 0
  | 0x0011 => if vendor then 1 else 0
  | 0x0012 => if vendor then 1 else 0
  | 0x0100 => if vendor then 0 else 1
  | 0x0101 => if vendor then 0 else 32
  | 0x0200 => if vendor then 0 else 16
  | 0x0300 => if vendor then 0 else 1
  | 0x0301 => if vendor then 0 else 64
  | 0x0302 => if vendor then 0 else 1
  | 0x0400 => if vendor then 0 else 1
  | 0x0401 => if vendor then 0 else 16
  | 0x0500 => if vendor then 0 else 128
  | 0x0501 => if vendor then 0 else 16
  | 0x0502 => if vendor then 0 else 640
  | 0x0503 => if vendor then 0 else 1
  | 0x0600 => if vendor then 0 else 5
  | 0x0601 => if vendor then 0 else 1
  | 0x0700 => if vendor then 0 else 8
  | 0x0701 => if vendor then 0 else 1
  | 0x0800 => if vendor then 0 else 1
  | _ => 0

/-- Types a section must hold, with the least count (03 Table 3.2). -/
def required (vendor : Bool) : List (Nat × Nat) :=
  if vendor then [(0x0002, 1), (0x0003, 1), (0x0004, 1), (0x0010, 1), (0x0011, 1), (0x0012, 1)]
  else [(0x0002, 1), (0x0003, 1), (0x0004, 1), (0x0100, 1), (0x0200, 1), (0x0400, 1), (0x0503, 1), (0x0600, 5)]

def countType (l : List Tlv) (t : Nat) : Nat := (l.filter (·.type = t)).length

/-- Walk the records of a section: the records, or the offset of the first that breaks a rule of R57; of SENSOR_RESPONSE, Table 3.2 allows
one per sensor class. Values of the records that are opaque to the owner are not kept. DEDUCED, log entry 19. DESIGN CHOICE, log entry 140. -/
def walk (m : Memory) (vendor : Bool) (fin : Nat) : Nat → Nat → List Tlv → Except Nat (List Tlv)
  | 0, pos, _ => .error pos
  | n + 1, pos, acc =>
    if pos = fin then .ok acc
    else
      let h := m.readWord pos
      let type := fld h 15 0
      let len := fld h 63 32
      if fin < pos + 8 + len then .error pos
      else if acc = [] && type ≠ 0x0002 then .error pos
      else if maxCount vendor type ≤ countType acc type then .error pos
      else
        let opaqueRec := type = 0x0010 || type = 0x0011
        let ws := if opaqueRec then [] else m.readWords (pos + 8) (len / 8)
        if type = 0x0600 && acc.any (fun x => x.type = 0x0600 && fld (x.w 0) 63 56 = fld (ws.getD 0 0) 63 56) then .error pos
        else walk m vendor fin n (pos + 8 + len) (acc ++ [{ off := pos, type := type, len := len, words := ws }])

/-- Does a sensor class lack its SENSOR_RESPONSE (Table 3.2: one per sensor class)? -/
def lacksSensor (l : List Tlv) : Bool := !(List.range 5).all fun k => l.any fun x => x.type = 0x0600 && fld (x.w 0) 63 56 = k

/-- A section's structure under R57. An error carries the offset for MGMT_BOOT_DETAIL. DEDUCED, log entry 19. -/
def readSection (m : Memory) (vendor : Bool) (off len : Nat) : Except Nat (List Tlv) :=
  match walk m vendor (off + len) 1000 off [] with
  | .error e => .error e
  | .ok l =>
    let lacks := (required vendor).any (fun r => countType l r.1 < r.2) || (!vendor && lacksSensor l)
    let tailOk := match l.reverse with
      | s :: k :: _ => s.type = 0x0003 && k.type = 0x0004
      | _ => false
    if lacks || !tailOk then .error off else .ok l

def firstOf (l : List Tlv) (type : Nat) : Option Tlv := l.find? (·.type = type)
def allOf (l : List Tlv) (type : Nat) : List Tlv := l.filter (·.type = type)

/-! ### The records -/

def tenantOfTlv (t : Tlv) : TenantRec :=
  { tenant := fld (t.w 0) 63 60, queuePairs := fld (t.w 0) 55 48, function := fld (t.w 0) 47 40,
    priority := fld (t.w 0) 39 32, jobLimit := fld (t.w 0) 31 0, camBanks := fld (t.w 1) 63 32,
    grammarSlots := fld (t.w 1) 31 16, counterRead := flag (t.w 2) 0, endpointBase := fld (t.w 3) 63 48,
    endpointCount := fld (t.w 3) 47 32 }

def knobOfTlv (t : Tlv) : KnobRec := { knob := fld (t.w 0) 63 48, max := fld (t.w 1) 63 32, min := fld (t.w 1) 31 0 }

def windowOfTlv (t : Tlv) : WindowRec :=
  { tier := fld (t.w 0) 63 56, distance := fld (t.w 0) 55 48, slots := fld (t.w 0) 47 32, slotBytes := (t.w 1).toNat }

def portOfTlv (t : Tlv) : PortRec :=
  { port := fld (t.w 0) 63 60, breakout := fld (t.w 0) 59 56, enable := flag (t.w 0) 55 }

def shaperOfTlv (t : Tlv) : ShaperRec :=
  { port := fld (t.w 0) 63 60, cls := fld (t.w 0) 59 56, overhead := fld (t.w 0) 53 48, rateMbps := fld (t.w 0) 31 0,
    burst := fld (t.w 1) 31 0 }

def gateOfTlv (t : Tlv) : GateRec :=
  { port := fld (t.w 0) 63 60, base := (t.w 1).toNat,
    entries := (t.words.drop 2).map fun w => (fld w 63 32, fld w 7 0) }

def budgetOfTlv (t : Tlv) : BudgetRec :=
  { tenant := fld (t.w 0) 63 60, resource := fld (t.w 0) 59 56, cls := fld (t.w 0) 55 48, amount := fld (t.w 0) 31 0 }

def healthOfWord (w : Word) : HealthRec :=
  { part := fld w 63 56, windowMs := fld w 47 32, suspect := fld w 31 16, retire := fld w 15 0 }

def dumpOfTlv (t : Tlv) : DumpRec :=
  { periodUs := fld (t.w 0) 63 32, dest := fld (t.w 0) 0 0, base := (t.w 1).toNat, bytes := (t.w 2).toNat }

/-- DESIGN CHOICE, log entry 140. -/
def sectionOf (m : Memory) (l : List Tlv) : SectionRec :=
  let h := (firstOf l 0x0002).getD { off := 0, type := 2, len := 0, words := [] }
  let k := (firstOf l 0x0004).getD { off := 0, type := 4, len := 0, words := [] }
  { svn := fld (h.w 0) 7 0, commit := flag (h.w 1) 0, buildId := (h.w 2).toNat,
    digest := Config.sha384 (m.readBytes h.off (fld (h.w 0) 63 32)),
    keyBlock := m.readBytes (k.off + 8) 440 }

/-- HEALTH_DEFAULTS carries HEALTH records, each with its TLV header (03 R59): every second word is a value. -/
def healthDefaults : List Word → List HealthRec
  | _ :: v :: r => healthOfWord v :: healthDefaults r
  | _ => []

/-- The image that the records of the two sections give (03 Tables 3.6–3.13; absent records as Table 3.2 says). -/
def imageOf (m : Memory) (v o : List Tlv) : Image :=
  let z : Tlv := { off := 0, type := 0, len := 0, words := [] }
  let md := (firstOf o 0x0100).getD z
  let fb := (firstOf o 0x0400).getD z
  let pw := (firstOf o 0x0503).getD z
  { role := (Role.ofCode (fld (md.w 0) 63 56)).getD .s
    tenantCount := fld (md.w 0) 55 48
    molril := fld (md.w 0) 47 40 = 1
    fabricId := fld (md.w 0) 17 0
    installationId := (md.w 1).toNat
    recoveryLimit := fld (md.w 2) 47 32
    orphanUs := fld (md.w 2) 31 0
    tenants := (allOf o 0x0200).map tenantOfTlv
    knobs := (allOf o 0x0101).map knobOfTlv
    recallDeadlineUs := match firstOf o 0x0300 with
      | some t => fld (t.w 0) 63 32
      | none => 10000
    loanOffer := match firstOf o 0x0300 with
      | some t => fld (t.w 0) 31 16
      | none => 250
    t3Bytes := match firstOf o 0x0300 with
      | some t => (t.w 1).toNat
      | none => 0
    quotas := (allOf o 0x0301).map fun t => (fld (t.w 0) 63 60, fld (t.w 0) 59 56, (t.w 1).toNat)
    window := (firstOf o 0x0302).map windowOfTlv
    fabric := { ethertype := fld (fb.w 0) 63 48, udpPort := fld (fb.w 0) 47 32, encap := fld (fb.w 0) 31 24,
                contextStore := fld (fb.w 0) 23 16, lifetimeUs := fld (fb.w 0) 15 0 }
    ports := (allOf o 0x0401).map portOfTlv
    shapers := (allOf o 0x0500).map shaperOfTlv
    gates := (allOf o 0x0501).map gateOfTlv
    budgets := (allOf o 0x0502).map budgetOfTlv
    sustainedW := fld (pw.w 0) 63 48
    diDt := fld (pw.w 0) 47 32
    sensors := (allOf o 0x0600).map fun t => (fld (t.w 0) 63 56, fld (t.w 0) 55 48)
    injectSensors := match firstOf o 0x0601 with
      | some t => flag (t.w 0) 1
      | none => false
    injectDetectors := match firstOf o 0x0601 with
      | some t => flag (t.w 0) 0
      | none => false
    health := (allOf o 0x0700).map fun t => healthOfWord (t.w 0)
    vendorHealth := match firstOf v 0x0012 with
      | some t => healthDefaults t.words
      | none => []
    cleanSteps := match firstOf o 0x0701 with
      | some t => fld (t.w 0) 31 0
      | none => 1000
    dump := (firstOf o 0x0800).map dumpOfTlv
    vendor := some (sectionOf m v)
    owner := some (sectionOf m o) }

/-! ### Knobs (03 Table 3.12, R72, R73) -/

/-- The absolute range of a knob (03 Table 3.12). -/
def knobRange (i : Image) (k : Nat) : Option (Nat × Nat) :=
  match k with
  | 1 => some (300, 600)
  | 2 => some (1, 40)
  | 3 => some (0, 0xFFFFFFFF)
  | 4 => some (1, 800000)
  | 5 => some (0, 1000)
  | 6 => some (1000, 100000)
  | 7 => some (500, 20000)
  | 8 => some (1, match i.window with
      | some w => min 16 (w.slots - 1)
      | none => 16)
  | 9 => some (1, 1000000)
  | _ => none

/-- The structural values that a knob adjusts, by instance (03 R73, Table 3.12). -/
def knobInstances (i : Image) (k : Nat) : Tab Nat Nat :=
  match k with
  | 1 => [(0, i.sustainedW)]
  | 2 => [(0, i.diDt)]
  | 3 => i.budgets.map fun b => (b.tenant * 64 + b.resource * 8 + b.cls, b.amount)
  | 4 => i.shapers.map fun x => (x.port * 8 + x.cls, x.rateMbps)
  | 5 => [(0, i.loanOffer)]
  | 6 => [(0, i.recallDeadlineUs)]
  | 7 => [(0, i.orphanUs)]
  | 8 => match i.window with
    | some w => [(0, w.distance)]
    | none => []
  | 9 => match i.dump with
    | some d => [(0, d.periodUs)]
    | none => []
  | _ => []

def knobRecOk (i : Image) (k : KnobRec) : Bool :=
  match knobRange i k.knob with
  | none => false
  | some (lo, hi) =>
    lo ≤ k.min && k.max ≤ hi && k.min ≤ k.max &&
      (knobInstances i k.knob).all fun e => k.min ≤ e.2 && e.2 ≤ k.max

/-! ### Consistency of the owner records (03 R61, 06 R173, R202, 09 R293, 17 R497) -/

/-- Is one owner record in range, and free of conflict with the records before it? DEDUCED, log entry 19. -/
def recordOk (i : Image) (ports : Nat) (before : List Tlv) (t : Tlv) : Bool :=
  match t.type with
  | 0x0002 => fld (t.w 0) 31 24 = 0x02 && fld (t.w 0) 7 0 ≤ 64
  | 0x0100 =>
    fld (t.w 0) 63 56 ≤ 3 && 1 ≤ i.tenantCount && i.tenantCount ≤ 16 && fld (t.w 0) 47 40 ≤ 1 &&
      1 ≤ i.recoveryLimit && i.recoveryLimit ≤ 255 && 500 ≤ i.orphanUs && i.orphanUs ≤ 20000
  | 0x0101 => knobRecOk i (knobOfTlv t) && (allOf before 0x0101).all fun x => (knobOfTlv x).knob ≠ (knobOfTlv t).knob
  | 0x0200 =>
    let r := tenantOfTlv t
    let b := (allOf before 0x0200).map tenantOfTlv
    r.tenant < i.tenantCount && 1 ≤ r.queuePairs && r.queuePairs ≤ 64 && r.function ≤ 16 && r.priority ≤ 7 &&
      1 ≤ r.jobLimit && r.grammarSlots ≤ 256 && 0x100 ≤ r.endpointBase && 1 ≤ r.endpointCount &&
      r.endpointBase + r.endpointCount ≤ 65536 &&
      b.all (fun x => x.tenant ≠ r.tenant && x.function ≠ r.function && x.camBanks &&& r.camBanks = 0 &&
        (x.endpointBase + x.endpointCount ≤ r.endpointBase || r.endpointBase + r.endpointCount ≤ x.endpointBase)) &&
      (b.map (·.grammarSlots)).sum + r.grammarSlots ≤ 256
  | 0x0300 =>
    1000 ≤ i.recallDeadlineUs && i.recallDeadlineUs ≤ 100000 && i.loanOffer ≤ 1000 && i.t3Bytes % 65536 = 0 &&
      i.t3Bytes ≤ 824633720832
  | 0x0301 =>
    i.molril && fld (t.w 0) 63 60 < i.tenantCount && fld (t.w 0) 59 56 ≤ 3 && (t.w 1).toNat % 65536 = 0 &&
      (allOf before 0x0301).all fun x => fld (x.w 0) 63 56 ≠ fld (t.w 0) 63 56
  | 0x0302 =>
    let w := windowOfTlv t
    w.tier ≤ 1 && 1 ≤ w.distance && w.distance ≤ 16 && 2 ≤ w.slots && w.slots ≤ 256 && w.distance < w.slots &&
      w.slotBytes % 65536 = 0 &&
      (if w.tier = 0 then w.slots * w.slotBytes ≤ 167772160 && w.slotBytes % 327680 = 0
       else w.slots * w.slotBytes ≤ 274877906944 && w.slotBytes % 1310720 = 0)
  | 0x0400 => i.fabric.encap ≤ 1 && i.fabric.contextStore ≤ 1 && 500 ≤ i.fabric.lifetimeUs && i.fabric.lifetimeUs ≤ 8000
  | 0x0401 =>
    let p := portOfTlv t
    p.port < ports && p.breakout ≤ 2 && (allOf before 0x0401).all fun x => (portOfTlv x).port ≠ p.port
  | 0x0500 =>
    let x := shaperOfTlv t
    x.port < ports && x.cls ≤ 7 && 1 ≤ x.rateMbps && x.rateMbps ≤ 800000 && 9216 ≤ x.burst &&
      (allOf before 0x0500).all fun y => !((shaperOfTlv y).port = x.port && (shaperOfTlv y).cls = x.cls)
  | 0x0501 =>
    let g := gateOfTlv t
    g.port < ports && fld (t.w 0) 59 48 = g.entries.length && 1 ≤ g.entries.length && g.entries.length ≤ 1024 &&
      g.entries.all (fun e => e.1 ≠ 0) && (g.entries.map (·.1)).sum ≤ 1000000000 &&
      (allOf before 0x0501).all fun y => (gateOfTlv y).port ≠ g.port
  | 0x0502 =>
    let b := budgetOfTlv t
    b.tenant < i.tenantCount && b.resource ≤ 4 && b.cls ≤ 7 &&
      (allOf before 0x0502).all fun y =>
        !((budgetOfTlv y).tenant = b.tenant && (budgetOfTlv y).resource = b.resource && (budgetOfTlv y).cls = b.cls)
  | 0x0503 => 300 ≤ i.sustainedW && i.sustainedW ≤ 600 && 1 ≤ i.diDt && i.diDt ≤ 40
  | 0x0600 =>
    fld (t.w 0) 63 56 ≤ 4 && fld (t.w 0) 55 48 ≤ 2
  | 0x0700 =>
    let h := healthOfWord (t.w 0)
    h.part ≤ 7 && 1 ≤ h.windowMs && h.suspect < h.retire &&
      (allOf before 0x0700).all fun x => (healthOfWord (x.w 0)).part ≠ h.part
  | 0x0701 => 1 ≤ i.cleanSteps
  | 0x0800 =>
    let d := dumpOfTlv t
    1 ≤ d.periodUs && d.periodUs ≤ 1000000 && d.base % 64 = 0 && d.bytes % 4096 = 0
  | _ => true

/-- Does a record lack that the MODULE record calls for (03 R61): a TENANT, or in the Molril mode a QUOTA? -/
def lacksRecord (i : Image) : Bool :=
  (List.range i.tenantCount).any fun t =>
    i.tenants.all (fun r => r.tenant ≠ t) ||
      (i.molril && (List.range 4).any fun tier => i.quotas.all fun q => !(q.1 = t && q.2.1 = tier))

/-- Offending records in NVM order. -/
def offenders (i : Image) (ports : Nat) (before : List Tlv) : List Tlv → List Nat
  | [] => []
  | t :: r =>
    let bad := !(t.len % 8 = 0) || !recordOk i ports before t || (t.type = 0x0100 && lacksRecord i)
    (if bad then [t.off] else []) ++ offenders i ports (before ++ [t]) r

/-- Verification of one section (03 R62): the code of the first failure. -/
def verifySection (m : Memory) (l : List Tlv) (keyHash : Option (BitVec 384)) (fusedSvn base : Nat) : Option Nat :=
  let c := sectionOf m l
  let sg := (firstOf l 0x0003).map (·.off)
  let rsa := m.readBytes (sg.getD 0 + 8) 384
  let slh := m.readBytes (sg.getD 0 + 392) 16224
  if some (Config.sha384 c.keyBlock) ≠ keyHash then some base
  else if !Config.rsaPssVerify c.keyBlock c.digest rsa then some (base + 1)
  else if !Config.slhDsaVerify c.keyBlock c.digest slh then some (base + 2)
  else if c.svn < fusedSvn then some (base + 3)
  else none

/-- Where verification stands: a held step with its reason and detail, or the image. -/
inductive Verdict where
  | held (step reason detail : Nat) (partialImage : Image)
  | good (i : Image)
deriving DecidableEq, Repr

/-- Steps 2–5 of start-up on an NVM whose reads complete (03 R62): the first failure, or the image. -/
def verifyImage (m : Memory) (f : Fuses) (lifecycle ports : Nat) : Verdict :=
  match readHeader m with
  | none => .held 2 Status.imageHeader 0 .none
  | some h =>
    match readSection m true h.vendorOff h.vendorLen with
    | .error d => .held 4 Status.imageFormat d .none
    | .ok v =>
      match verifySection m v (some f.vendorKeyHash) f.vendorSvn Status.vendorKey with
      | some c => .held 4 c 0 .none
      | none =>
        let part : Image := { Image.none with vendor := some (sectionOf m v) }
        if lifecycle ≠ 1 && lifecycle ≠ 2 then .held 4 Status.lifecycleHold 0 part
        else match readSection m false h.ownerOff h.ownerLen with
          | .error d => .held 4 Status.imageFormat d part
          | .ok o =>
            match verifySection m o f.ownerKeyHash f.ownerSvn Status.ownerKey with
            | some c => .held 4 c 0 part
            | none =>
              let i := imageOf m v o
              match offenders i ports [] o with
              | d :: _ => .held 5 Status.imageConfig d { part with owner := some (sectionOf m o) }
              | [] => .good i

end Sys2Proof.Machine
end

