-- ==== Sys2Proof/Machine/Knobs.lean ====
section
/-!
DEFINITION. The knobs' values in force, the figures that they adjust, and the budget gates
(03 R73, R74; 17 R498, R499; 07 R228; 10 R322).
-/
namespace Sys2Proof.Machine

/-- The value of a knob's instance in force (03 Table 3.12): the last one that took effect, else the structural value. -/
def knobValue (s : State) (k i : Nat) : Option Nat :=
  match tget (knobInstances s.image k) i with
  | none => none
  | some v => some (tgetD s.mgmt.knobs (k, i) v)

/-- Before step 5 has checked the POWER record, DI_DT is 1 A/µs and P is 300 W (17 R510). -/
def imageInForce (s : State) : Bool :=
  match s.boot.state with
  | .training => true
  | .ready => true
  | _ => false

def diDtNow (s : State) : Nat := if imageInForce s then (knobValue s 2 0).getD 1 else 1

/-- P in force, in W (17 R506, R507, R510). -/
def limitW (s : State) : Nat := (if imageInForce s then (knobValue s 1 0).getD 300 else 300) - s.gov.lowered

def loanOfferNow (s : State) : Nat := (knobValue s 5 0).getD 250
def recallDeadlineNow (s : State) : Nat := (knobValue s 6 0).getD 10000
def orphanUsNow (s : State) : Nat := (knobValue s 7 0).getD 2000
def prefetchNow (s : State) : Nat := (knobValue s 8 0).getD 1
def dumpPeriodNow (s : State) : Nat := (knobValue s 9 0).getD 1000

/-- AMOUNT of a tenant, resource and class, if a BUDGET record gives one (03 Table 3.8, knob BUDGET_AMOUNT). -/
def budgetAmount (s : State) (t r c : Nat) : Option Nat := knobValue s 3 (t * 64 + r * 8 + c)

/-- How many gates a resource has (17 Table 17.1). DEDUCED, log entry 117. -/
def gateCount (r : Nat) : Nat :=
  match r with
  | 0 => 160
  | 1 => 20
  | _ => 1

/-- The grant of gate `g` of `n`: floor(AMOUNT / n), plus 1 below AMOUNT mod n (07 R228, 17 Table 17.1). DEDUCED, log entry 117. -/
def gateGrant (amount n g : Nat) : Nat := amount / n + (if g < amount % n then 1 else 0)

/-- The gates of one BUDGET record, at their grants. -/
def grantsOf (s : State) (b : BudgetRec) : Tab (Nat × Nat × Nat × Nat) Nat :=
  let a := (budgetAmount s b.tenant b.resource b.cls).getD b.amount
  (List.range (gateCount b.resource)).map fun g =>
    ((b.tenant, b.resource, b.cls, g), gateGrant a (gateCount b.resource) g)

/-- Every gate receives its grant and the balance that remains is discarded (17 R499). -/
def refillBudgets (s : State) : State :=
  { s with gov := { s.gov with balance := s.image.budgets.flatMap (grantsOf s), refillAt := s.mono } }

/-- The gates of one tenant receive their grants, when it enters STARTING (17 R499). -/
def refillTenant (s : State) (t : Nat) : State :=
  let mine := (s.image.budgets.filter (·.tenant = t)).flatMap (grantsOf s)
  { s with gov := { s.gov with balance := s.gov.balance.filter (fun e => e.1.1 ≠ t) ++ mine } }

/-- The balance of a gate: none where the tenant, resource and class have no BUDGET record. -/
def gateBalance (s : State) (t r c g : Nat) : Option Nat := tget s.gov.balance (t, r, c, g)

/-- Does an operation pass its gate (17 R499)? -/
def gateOpen (s : State) (t r c g : Nat) : Bool :=
  match gateBalance s t r c g with
  | none => true
  | some b => 0 < b

/-- Charge a gate in full; the balance does not fall below zero (17 R499). -/
def charge (s : State) (t r c g n : Nat) : State :=
  match gateBalance s t r c g with
  | none => s
  | some b => { s with gov := { s.gov with balance := tset s.gov.balance (t, r, c, g) (b - n) } }

/-- Does a transfer of a tenant and class pass the crossbar's gate, and those of the stacks that it reads or writes (17 R499)? -/
def mayMove (s : State) (t cls : Nat) (ks : List Nat) : Bool := gateOpen s t 2 cls 0 && ks.all fun k => gateOpen s t 1 cls k

/-- A transfer of `n` bytes is charged to the crossbar on entry, once (02 R33), and to each of the stacks that it reads or writes (17 Table 17.1).
DESIGN CHOICE, log entry 134. -/
def chargeMove (s : State) (t cls : Nat) (ks : List Nat) (n : Nat) : State :=
  ks.foldl (fun st k => charge st t 1 cls k n) (charge s t 2 cls 0 n)

/-- Charge a gate with bytes whose number is not stated: a free value. DESIGN CHOICE, log entry 134. -/
def chargeFree (s : State) (t r c g : Nat) : State :=
  match gateBalance s t r c g with
  | none => s
  | some _ => { charge s t r c g (Config.freeWord s.free).toNat with free := s.free + 1 }

/-- Accesses whose number is not stated are charged to each of some stacks. DESIGN CHOICE, log entry 134. -/
def chargeStacks (s : State) (t cls : Nat) (ks : List Nat) : State := ks.foldl (fun st k => chargeFree st t 1 cls k) s

/-- The traffic of an engine's work on the named stacks and the crossbar. DESIGN CHOICE, log entry 134. -/
def chargeTraffic (s : State) (t cls : Nat) (ks : List Nat) : State := chargeStacks (chargeFree s t 2 cls 0) t cls ks

/-- Accepted knob writes of the named knobs take effect (03 R74). -/
def applyKnobs (s : State) (ks : List Nat) : State :=
  let due := s.mgmt.knobsDue.filter fun e => ks.contains e.1.1
  let rest := s.mgmt.knobsDue.filter fun e => !ks.contains e.1.1
  { s with mgmt := { s.mgmt with knobs := due.foldl (fun t e => tset t e.1 e.2) s.mgmt.knobs, knobsDue := rest } }

end Sys2Proof.Machine
end

