-- ==== Sys2Proof/Machine/Chain.lean ====
section
/-!
DEFINITION. Where a request's ledger entry lives, and the bytes of records and steps
(05_request_state_and_ownership.md R126–R128, Tables 5.2, 5.3).
-/
namespace Sys2Proof.Machine

/-- mix of R126: 64-bit wrapping arithmetic, a 32-bit result. -/
def mix (x : Nat) : Nat :=
  let m := 2 ^ 64
  let x0 := x % m
  let x1 := x0 ^^^ (x0 >>> 33)
  let x2 := x1 * 0xFF51AFD7ED558CCD % m
  let x3 := x2 ^^^ (x2 >>> 33)
  let x4 := x3 * 0xC4CEB9FE1A85EC53 % m
  let x5 := x4 ^^^ (x4 >>> 33)
  x5 >>> 32

/-- One bit of CRC-32C, least significant bit first. PRESUMED, log entry 12. -/
def crcBit (c : Nat) : Nat := if c % 2 = 1 then (c / 2) ^^^ 0x82F63B78 else c / 2

/-- PRESUMED, log entry 12. -/
def crcByte (c : Nat) (b : Byte) : Nat :=
  let x := c ^^^ b.toNat
  crcBit (crcBit (crcBit (crcBit (crcBit (crcBit (crcBit (crcBit x)))))))

/-- CRC-32C (Castagnoli) of a list of bytes. The manual names it and leaves its definition to the standard. -/
def crc32c (bs : List Byte) : Nat := (bs.foldl crcByte 0xFFFFFFFF) ^^^ 0xFFFFFFFF

/-! ### Membership (05 R128, 14 R417) -/

/-- The members of the current membership, as (fabric ID, role code): until an epoch is adopted, the module itself (05 R128). -/
def membersNow (s : State) : List (Nat × Nat) :=
  if s.fab.epoch = 0 then [(selfId s, s.image.role.code)] else s.fab.members

/-- Is a fabric ID a live member? -/
def isMember (s : State) (f : Nat) : Bool := (membersNow s).any fun m => m.1 = f

/-- The role code of a member. -/
def roleOf (s : State) (f : Nat) : Option Nat := ((membersNow s).find? fun m => m.1 = f).map (·.2)

/-- Role codes of the cache pool: C and S (01 R9). -/
def poolRole (r : Nat) : Bool := r = 2 || r = 3

/-- The cache-pool members. -/
def poolNow (s : State) : List Nat := ((membersNow s).filter fun m => poolRole m.2).map (·.1)

/-- Ring order: by (mix, fabric ID) (05 R126). -/
def ringBefore (a b : Nat) : Bool := mix a < mix b || (mix a = mix b && a ≤ b)

def ringInsert (a : Nat) : List Nat → List Nat
  | [] => [a]
  | b :: r => if ringBefore a b then a :: b :: r else b :: ringInsert a r

def ringOf (l : List Nat) : List Nat := l.foldr ringInsert []

/-- The member at a place of the ring, counted around. -/
def ringAt (ring : List Nat) (k : Nat) : Nat := ring.getD (k % ring.length) 0x3FFFF

/-- The first index of the ring whose position is not below the handle's, else 0 (05 R126). -/
def ringStart (ring : List Nat) (h : Nat) : Nat :=
  let k := ring.findIdx fun f => mix h ≤ mix f
  if k < ring.length then k else 0

/-- The three copies of a handle over a cache pool (05 R126, R127): with one member all three are its own, with two the third is the first's. -/
def chainOver (pool : List Nat) (h : Nat) : List Nat :=
  let ring := ringOf pool
  if ring = [] then []
  else
    let k := ringStart ring h
    [ringAt ring k, ringAt ring (k + 1), ringAt ring (k + 2)]

/-- The chain of a handle in the current membership. -/
def chainOf (s : State) (h : Nat) : List Nat := chainOver (poolNow s) h

/-- The home (01 R17): the head of the chain. -/
def headOf (s : State) (h : Nat) : Nat := (chainOf s h).getD 0 0x3FFFF

/-- The tail of the chain (05 R130). -/
def tailOf (s : State) (h : Nat) : Nat := (chainOf s h).getD 2 0x3FFFF

/-- The stacks of the three copies (05 R126, R127). -/
def copyStacks (s : State) (h : Nat) : List Nat :=
  let p := mix h % 20
  match (poolNow s).length with
  | 1 => [p, (p + 7) % 20, (p + 14) % 20]
  | 2 => [p, p, (p + 10) % 20]
  | _ => [p, p, p]

/-- Is a membership epoch, by its low 32 bits, newer than another (05 R132)? DEDUCED, log entry 127. -/
def epochNewer (a b : Nat) : Bool :=
  let d := (a % 2 ^ 32 + 2 ^ 32 - b % 2 ^ 32) % 2 ^ 32
  !(d = 0) && d < 2 ^ 31

/-! ### Bytes of records and steps -/

def word (x : Nat) : Word := BitVec.ofNat 64 x

/-- The doublewords of a request record (05 Table 5.2). -/
def recordWords (r : ReqRec) : List Word :=
  [word r.handle, word (r.epoch * 2 ^ 32 + r.step % 2 ^ 32),
   word (r.phase % 16 * 2 ^ 60 + r.prior % 16 * 2 ^ 56 + r.target % 16 * 2 ^ 52 + r.replicas % 4 * 2 ^ 50 +
     r.recoveries % 1024 * 2 ^ 38 + r.peer % 2 ^ 18 * 2 ^ 18 + r.owner % 2 ^ 18),
   word (r.origin % 2 ^ 18 * 2 ^ 46 + r.decodeTarget % 2 ^ 18 * 2 ^ 28 + r.job % 2 ^ 16 * 2 ^ 12),
   word (r.model % 2 ^ 16 * 2 ^ 48 + r.composition % 256 * 2 ^ 40 + r.adapter % 2 ^ 16 * 2 ^ 16 + r.adapterVersion % 2 ^ 16),
   word (r.promptTokens * 2 ^ 32 + r.tokenLimit % 2 ^ 32), word (r.logged * 2 ^ 32 + r.firstMissing % 2 ^ 32),
   word (r.placed * 2 ^ 32), word r.pageList, word r.admitTime, word r.seed] ++
  (List.range 8).map (fun i => r.sampler.getD i 0) ++
  [word r.stepTime, word (r.stepDigest * 2 ^ 32 + r.createDigest % 2 ^ 32), word r.logLocator] ++ List.replicate 10 0

def recordBytes (r : ReqRec) : List Byte := (recordWords r).flatMap wordBytes

/-- The bytes of a payload: the record and then four bytes for each prompt token; four bytes for each token and then the sampler state; or the record of
the new owner. The manual gives no packing: DESIGN CHOICE, log entry 126. -/
def payloadBytes : LPayload → List Byte
  | .none => []
  | .create r p => recordBytes r ++ p.flatMap (leBytes 4)
  | .append ts sm => ts.flatMap (leBytes 4) ++ sm.flatMap wordBytes
  | .claim r => recordBytes r

/-- W0–W2 and W4–W7 of a step header with a given issuer (05 Table 5.3). -/
def coveredWords (x : LStep) (issuer : Nat) : List Word :=
  [word x.handle, word (x.epoch * 2 ^ 32 + x.step % 2 ^ 32),
   word (x.kind % 16 * 2 ^ 60 + x.newPhase % 16 * 2 ^ 56 + x.target % 16 * 2 ^ 52 + x.peer % 2 ^ 18 * 2 ^ 18 + issuer % 2 ^ 18),
   word (x.firstMissing * 2 ^ 32 + x.logged % 2 ^ 32),
   word ((payloadBytes x.payload).length * 2 ^ 32 + x.adapterVersion % 2 ^ 16 * 2 ^ 16), 0, 0]

/-- DIGEST: CRC-32C over W0–W2, W4–W7 and the payload; ISSUER counts as zero for START_RECOVERY (05 Table 5.3). -/
def digestOf (x : LStep) : Nat :=
  crc32c (((coveredWords x (if x.kind = 6 then 0 else x.issuer)).flatMap wordBytes) ++ (payloadBytes x.payload))

end Sys2Proof.Machine
end

