-- ==== Sys2Proof/Machine/Sys.lean ====
section
/-!
DEFINITION. Messages of the system endpoints, the issue of ledger steps and the queries of the tail
(05 R129, R130, R147; 15_message_transport.md R427, R435, R457).
-/
namespace Sys2Proof.Machine

/-- A message that the module had sent to itself has arrived: it leaves the outbox. DESIGN CHOICE, log entry 10. -/
def sysTaken (s : State) (m : SysMsg) : State :=
  { s with req := { s.req with outbox := s.req.outbox.erase (selfId s, m) } }

/-- SYSTEM_ENDPOINT_RETRY (15 R457): what was refused 1 ms ago or more is sent again. -/
def retryAll (s : State) : List (Nat × SysMsg × Nat) → State
  | [] => s
  | (d, m, t) :: r =>
    if t + 1000000 ≤ s.mono then retryAll (sysSend s d m) r
    else retryAll { s with req := { s.req with retry := s.req.retry ++ [(d, m, t)] } } r

/-- SYSTEM_ENDPOINT_RETRY. -/
def execSystemEndpointRetry (s : State) : Host.Outcome State Fault Refusal :=
  quiet s (retryAll { s with req := { s.req with retry := [] } } s.req.retry)

/-! ### Ledger steps (05 R129) -/

/-- A step of an owned or headed request, with the record's FIRST_MISSING and LOGGED_TOKENS, and ADAPTER_VERSION zero as in every kind but RECORD
(05 Table 5.3). DEDUCED, log entry 43. -/
def stepOf (s : State) (r : ReqRec) (kind : Nat) : LStep :=
  { handle := r.handle, epoch := r.epoch, step := r.step + 1, kind := kind, newPhase := 0, target := 0, peer := 0x3FFFF,
    issuer := selfId s, digest := 0, membership := s.fab.epoch % 2 ^ 32, firstMissing := r.firstMissing, logged := r.logged,
    adapterVersion := 0, payload := .none }

/-- Issue a step: it goes to the head of the chain and is kept until a notice or reply has arrived (05 R129). DEDUCED, log entry 43. -/
def issueFrom (s : State) (before : Option ReqRec) (x : LStep) (why : Why) : State :=
  let y := { x with digest := digestOf x }
  let head := headOf s x.handle
  let s1 := { s with req := { s.req with
    issued := s.req.issued ++ [{ step := y, before := before, head := head, sentAt := s.mono, why := why, after := none }] } }
  sysSend s1 head (.step 1 y)

/-- Issue a step that changes no working copy. DEDUCED, log entry 43. -/
def issue (s : State) (x : LStep) (why : Why) : State := issueFrom s none x why

/-- Send an outstanding step again, to the head under the newest membership (05 R129). A step that waits for an epoch (R132) waits on. -/
def reissue (s : State) (i : Issued) : State :=
  match i.after with
  | some e => if epochNewer e s.fab.epoch then s else
      let y := { i.step with membership := s.fab.epoch % 2 ^ 32 }
      let head := headOf s y.handle
      sysSend { s with req := { s.req with issued := s.req.issued.map fun j =>
        if j.step.handle = y.handle && j.step.step = y.step then { j with step := y, head := head, sentAt := s.mono, after := none } else j } }
        head (.step 1 y)
  | none =>
    let y := { i.step with membership := s.fab.epoch % 2 ^ 32 }
    let head := headOf s y.handle
    sysSend { s with req := { s.req with issued := s.req.issued.map fun j =>
      if j.step.handle = y.handle && j.step.step = y.step then { j with step := y, head := head, sentAt := s.mono } else j } }
      head (.step 1 y)

/-- Send again each of a list of outstanding steps, in ascending order (05 R129). -/
def reissueAll (s : State) : List Issued → State
  | [] => s
  | i :: r => reissueAll (reissue s i) r

/-- LEDGER_STEP_RESEND_TIMER (05 R129): the outstanding steps of a handle that were last sent 100 µs ago or more. -/
def execLedgerStepResendTimer (h : Nat) (s : State) : Host.Outcome State Fault Refusal :=
  quiet s (reissueAll s (s.req.issued.filter fun i => i.step.handle = h && i.sentAt + 100000 ≤ s.mono))

/-! ### Queries (05 R130, R147) -/

/-- Does the asker want the record and the log whole? -/
def Asker.whole : Asker → Bool
  | .refresh => true
  | .read _ => true
  | _ => false

/-- Ask the tail (05 R130). -/
def askTail (s : State) (h : Nat) (a : Asker) : State :=
  let s1 := { s with req := { s.req with asks := s.req.asks ++ [{ handle := h, asker := a, sentAt := s.mono }] } }
  sysSend s1 (tailOf s h) (.query h (selfId s) a.whole (s.fab.epoch % 2 ^ 32))

/-- Ask again each of a list of queries (05 R147). -/
def queryAgain (s : State) : List Ask → State
  | [] => s
  | a :: r =>
    let s1 := { s with req := { s.req with asks := s.req.asks.map fun b =>
      if b.handle = a.handle && b.asker = a.asker then { b with sentAt := s.mono } else b } }
    queryAgain (sysSend s1 (tailOf s a.handle) (.query a.handle (selfId s) a.asker.whole (s.fab.epoch % 2 ^ 32))) r

/-- LEDGER_QUERY_RETRY_TIMER (05 R147): a query without an answer for 100 µs goes again to the tail under the newest membership. -/
def execLedgerQueryRetryTimer (h : Nat) (s : State) : Host.Outcome State Fault Refusal :=
  quiet s (queryAgain s (s.req.asks.filter fun a => a.handle = h && a.sentAt + 100000 ≤ s.mono))

/-- The answered queries of a handle leave the list. -/
def dropAsks (s : State) (h : Nat) : State :=
  { s with req := { s.req with asks := s.req.asks.filter fun a => a.handle ≠ h } }

/-! ### Owned requests -/

def ownedOf (s : State) (h : Nat) : Option Owned := tget s.req.owned h

def setOwned (s : State) (h : Nat) (o : Owned) : State := { s with req := { s.req with owned := tset s.req.owned h o } }

/-- Issue a step for an owned request: the working copy takes the step number, and the effect that `f` gives, at once (05 R125). -/
def ownStep (s : State) (o : Owned) (x : LStep) (why : Why) (f : ReqRec → ReqRec) : State :=
  issueFrom (setOwned s o.record.handle { o with record := f { o.record with step := x.step } }) (some o.record) x why

/-- A RECORD step with given FIRST_MISSING and ADAPTER_VERSION (05 Table 5.4). -/
def recordStep (s : State) (o : Owned) (fm av : Nat) (why : Why) : State :=
  ownStep s o { stepOf s o.record 9 with firstMissing := fm, adapterVersion := av } why
    fun r => { r with firstMissing := fm, adapterVersion := av }

/-- A PHASE step (05 Table 5.4). -/
def phaseStep (s : State) (o : Owned) (ph : Nat) (why : Why) : State :=
  ownStep s o { stepOf s o.record 1 with newPhase := ph } why fun r => { r with phase := ph }

/-- Final phases (01 R21). -/
def finalPhase (p : Nat) : Bool := p = 7 || p = 8

end Sys2Proof.Machine
end

