-- ==== Sys2Proof/Machine/Tiers.lean ====
section
/-!
DEFINITION. Slabs, the directory, placement and dropping (06_kv_pages_and_tiers.md R163–R188).
-/
namespace Sys2Proof.Machine

/-- Insert into a list that `before` orders. -/
def insertBy {α : Type} (before : α → α → Bool) (a : α) : List α → List α
  | [] => [a]
  | b :: r => if before b a then b :: insertBy before a r else a :: b :: r

/-- Stable sort by `before` (strict). -/
def sortBy {α : Type} (before : α → α → Bool) : List α → List α
  | [] => []
  | a :: r => insertBy (fun x y => before x y) a (sortBy before r)

/-- The least of a list of numbers. -/
def leastOf : List Nat → Option Nat
  | [] => none
  | a :: r => match leastOf r with
    | none => some a
    | some b => some (min a b)

/-- The least number from `lo` on that a list lacks, among its first candidates. DESIGN CHOICE, log entry 34. -/
def freeNumber (lo : Nat) (l : List Nat) : Nat :=
  (((List.range (l.length + 1)).map (· + lo)).find? fun x => !l.contains x).getD lo

/-! ### Slabs (R163–R167) -/

def setTier (s : State) (t : Tier) : State := { s with tier := t }

/-! ### System objects (R171, R177) -/

/-- Slabs of every stack that the system objects take at start-up (06_kv_pages_and_tiers.md R171, R177, R202; 05_request_state_and_ownership.md R133;
07_ladle_engines.md Table 7.1; 15_message_transport.md R430, R445): 16 save areas of 37 slabs, a twentieth of the directory's 512 MiB, of the completion
table's 128 MiB, of the context store's 32 MiB where it lies in T1 and, in a cache-pool role, of the ledger's 1 GiB, each rounded up, and the stack's share
of a T1 window. DESIGN CHOICE, log entry 21. -/
def systemSlabs (i : Image) : Nat :=
  let ledger := if i.role.cachePool then 820 else 0
  let window := match i.window with
    | some w => if w.tier = 1 then w.slots * w.slotBytes / 1310720 else 0
    | none => 0
  592 + 410 + 103 + (if i.fabric.contextStore = 0 then 26 else 0) + ledger + window

/-- Slabs of a dump ring that lies in stack memory (20_counters_and_metering.md R570): it follows the system objects of stack 0. DESIGN CHOICE, log entry 21. -/
def ringSlabs (i : Image) : Nat :=
  match i.dump with
  | some d => if d.dest = 1 then ceilDiv d.bytes 65536 else 0
  | none => 0

/-- Bytes of a token log: 4 KiB blocks of 20-bit token IDs, 1,638 in each (05 R134). DESIGN CHOICE, log entry 21. -/
def logBytes (tokens : Nat) : Nat := ceilDiv tokens 1638 * 4096

/-- Bytes of a page list of `p` page indices (R168): four for each page entry, sixteen for each block entry. -/
def pageListBytes (layers p : Nat) : Nat := 4 * layers * p + 16 * p

/-- The layers of a request's model, 1 where it is not defined. -/
def layersOf (s : State) (h model : Nat) : Nat :=
  ((s.tier.models.find? fun m => m.tenant = handleTenant h && m.model = model).map (·.layers)).getD 1

/-- Bytes of the system objects of a stack that come and go (R171): token logs on the stacks of their ledger copies, page lists on the stack of the handle,
prefix-set records on that of their index, and batch copies and the handles of open jobs (04 R105) on stack 0. DESIGN CHOICE, log entry 21. -/
def growingBytes (s : State) (k : Nat) : Nat :=
  ((s.req.ledger.filter fun e => (copyStacks s e.1.1).getD (e.1.2 - 1) 0 = k).map fun e => logBytes e.2.log.length).sum +
  ((s.req.owned.filter fun e => mix e.1 % 20 = k).map fun e =>
    pageListBytes (layersOf s e.1 e.2.record.model) (ceilDiv e.2.record.logged 256)).sum +
  ((s.tier.prefixes.filter fun p => p.1 % 20 = k).map fun p => 32 + 4 * p.2.dirs.length).sum +
  (if k = 0 then (s.host.batches.map fun b => 8 + 8 * b.2.length).sum + (s.host.jobs.map fun j => 8 * j.2.handles.length).sum else 0)

/-- Slabs of a stack that system objects which come and go take. DESIGN CHOICE, log entry 21. -/
def growingSlabs (s : State) (k : Nat) : Nat := ceilDiv (growingBytes s k) 65536

/-- Slabs of a stack that system objects took at start-up. -/
def fixedSlabs (s : State) (k : Nat) : Nat := systemSlabs s.image + if k = 0 then ringSlabs s.image else 0

/-- Slabs of one stack (06 R166). -/
def stackSlabs (s : State) : Nat := s.order.stackBytes / 65536

/-- Location of a held grant's slabs. -/
def grantLoc (lender id : Nat) : Nat := 2 ^ 20 + lender * 2 ^ 32 + id

/-- Slabs of the T0 partitions left by a T0 window (06 R170, R202). -/
def t0Slabs (s : State) : Nat :=
  match s.image.window with
  | some w => if w.tier = 0 then 2560 - w.slots * w.slotBytes / 65536 else 2560
  | none => 2560

/-- Slabs of a location. -/
def locSlabs (s : State) (loc : Nat) : Nat :=
  if loc < 20 then stackSlabs s
  else if loc = 20 then (s.tier.t3.map (·.2)).sum / 65536
  else if loc = 40 then t0Slabs s
  else 16384

/-- Allocated spans of a location: first slab and count. -/
def spansAt (t : Tier) (loc : Nat) : List (Nat × Nat) := (t.used.filter (·.1 = loc)).map (·.2)

/-- Is a span of `n` slabs free? -/
def spanFree (t : Tier) (loc first n limit : Nat) : Bool :=
  first + n ≤ limit && (spansAt t loc).all fun u => u.1 + u.2 ≤ first || first + n ≤ u.1

/-- First T3 slab of each attached extent, in order of attachment, and one past the last (R166). -/
def extentStarts : List (Nat × Nat) → Nat → List Nat
  | [], n => [n]
  | e :: r, n => n :: extentStarts r (n + e.2 / 65536)

/-- A run of T3 lies within one extent (R163). -/
def inExtent (s : State) (loc first n : Nat) : Bool :=
  !(loc = 20) || (extentStarts s.tier.t3 0).all fun b => b ≤ first || first + n ≤ b

/-- The lowest free run of `n` slabs of a location. -/
def freeRun (s : State) (loc n : Nat) : Option Nat :=
  let c := 0 :: ((if loc = 20 then extentStarts s.tier.t3 0 else []) ++ (spansAt s.tier loc).map fun u => u.1 + u.2)
  leastOf (c.filter fun f => spanFree s.tier loc f n (locSlabs s loc) && inExtent s loc f n)

/-- Generation of a slab: how often it was freed, in 15 bits (R167). -/
def slabGen (t : Tier) (loc slab : Nat) : Nat :=
  (t.freed.filter fun u => u.1 = loc && u.2.1 ≤ slab && slab < u.2.1 + u.2.2).length % 32768

/-- SLAB of the first slab of a location (R166). A grant's is the lender's. -/
def locBase (s : State) (loc : Nat) : Nat :=
  if loc ≤ 20 then loc * 2 ^ 20
  else if loc = 40 then 0
  else ((s.tier.held.find? fun g => grantLoc g.lender g.id = loc).map fun g => g.addr % 2 ^ 41 / 65536).getD 0

/-- The module whose memory a location is (R165). -/
def locFabric (s : State) (loc : Nat) : Nat :=
  if loc ≤ 40 then selfId s
  else ((s.tier.held.find? fun g => grantLoc g.lender g.id = loc).map (·.lender)).getD (selfId s)

/-- Slabs in use at a location. -/
def usedAt (s : State) (loc : Nat) : Nat := ((spansAt s.tier loc).map (·.2)).sum + if loc < 20 then growingSlabs s loc else 0

/-- Does a location hold `n` more slabs? -/
def roomAt (s : State) (loc n : Nat) : Bool := usedAt s loc + n ≤ locSlabs s loc

/-- Take the lowest free run of `n` slabs of a location. -/
def takeRun (s : State) (loc n : Nat) : Option (Run × State) :=
  match freeRun s loc n with
  | none => none
  | some f =>
    if !roomAt s loc n then none
    else some ({ fabric := locFabric s loc, loc := loc, first := f, base := locBase s loc, slabs := n, gen := slabGen s.tier loc f },
      setTier s { s.tier with used := s.tier.used ++ [(loc, f, n)] })

/-- Free a run: each of its slabs moves to the next generation (R167). -/
def freeRunOf (s : State) (r : Run) : State :=
  setTier s { s.tier with
    used := s.tier.used.erase (r.loc, r.first, r.slabs)
    freed := (r.loc, r.first, r.slabs) :: s.tier.freed
    spoiled := s.tier.spoiled.filter fun b => !(b.1 = r.loc && r.first ≤ b.2 && b.2 < r.first + r.slabs) }

/-- Does a slab of the run fail its integrity tag (R174)? DEDUCED, log entry 100. -/
def runSpoiled (s : State) (r : Run) : Bool :=
  s.tier.spoiled.any fun b => b.1 = r.loc && r.first ≤ b.2 && b.2 < r.first + r.slabs

/-- Does the run lie in a grant that is past its deadline, so that its key is revoked (R194)? -/
def runRevoked (s : State) (r : Run) : Bool :=
  s.tier.held.any fun g => grantLoc g.lender g.id = r.loc && g.deadline.elim false (· ≤ s.time)

/-- The slab of T3 in which a host address lies, among extents that follow slab `n`. -/
def t3SlabOf (a : Nat) : List (Nat × Nat) → Nat → Option Nat
  | [], _ => none
  | e :: r, n => if e.1 ≤ a && a < e.1 + e.2 then some (n + (a - e.1) / 65536) else t3SlabOf a r (n + e.2 / 65536)

/-- Bytes that the host writes into an attached extent, which it must not (R174), spoil the slabs that they hit. DEDUCED, log entry 100. -/
def spoilT3 (s : State) (l : List Host.Cell) : State :=
  let hit := l.filterMap fun c => t3SlabOf c.1 s.tier.t3 0
  setTier s { s.tier with spoiled := (s.tier.spoiled ++ hit.map fun n => (20, n)).eraseDups }

/-- The page handle of a run (R165, Table 6.1). -/
def runHandle (r : Run) : Nat :=
  r.fabric % 2 ^ 18 * 2 ^ 46 + (r.base + r.first) % 2 ^ 25 * 2 ^ 21 + (r.slabs - 1) % 64 * 2 ^ 15 + r.gen % 2 ^ 15

/-- Take a run in the first location of a list that has one. -/
def takeFirst (s : State) (n : Nat) : List Nat → Option (Run × State)
  | [] => none
  | l :: r => match takeRun s l n with
    | some x => some x
    | none => takeFirst s n r

/-- Occupancy of T1 in per mille, rounded down (R171). -/
def occupancy (s : State) : Nat := 1000 * ((List.range 20).map (usedAt s)).sum / (20 * stackSlabs s)

/-- Stacks from the preferred one upward (R184). -/
def stacksFrom (p : Nat) : List Nat := (List.range 20).map fun i => (p + i) % 20

/-- Stacks by most free slabs, the lower index on a tie (R184). -/
def stacksByFree (s : State) : List Nat := sortBy (fun a b => usedAt s a < usedAt s b || (usedAt s a = usedAt s b && a < b)) (List.range 20)

/-- The preferred stack of a KV page (R184), and the class of a page index (08_attention.md R255). -/
def pageClass (h layer k : Nat) : Nat := (mix h + layer + k) % 20

/-! ### The directory (R177–R180) -/

/-- Tiers of a run's location. -/
def tierOfLoc (loc : Nat) : Nat := if loc < 20 then 1 else if loc = 20 then 3 else if loc = 40 then 0 else 2

/-- A write to an entry raises SEQ (R178). -/
def setEntry (s : State) (i : Nat) (e : DirEntry) : State := setTier s { s.tier with dir := tset s.tier.dir i { e with seq := wrapAdd 32 e.seq 1 } }

/-- A pin, a read or a write of the object sets AGE to 0 (R179). -/
def touch (s : State) (i : Nat) : State := setTier s { s.tier with dir := tmod s.tier.dir i fun e => { e with age := 0 } }

/-- Pin an object (R179). A pin that meets a demotion waits for its end (Table 6.6). DEDUCED, log entry 53. -/
def pinEntry (s : State) (p : Pin) (i : Nat) : State :=
  match tget s.tier.dir i with
  | some e =>
    if e.st = .demoting then setTier s { s.tier with waitPins := s.tier.waitPins ++ [(i, p)] }
    else setEntry s i { e with pins := e.pins ++ [p], age := 0 }
  | none => s

/-- Release a pin: from the entry, and from the old runs that it holds (R181). DEDUCED, log entry 53. -/
def unpinEntry (s : State) (p : Pin) (i : Nat) : State :=
  match tget s.tier.dir i with
  | some e =>
    if e.pins.contains p then
      let s1 := setEntry s i { e with pins := e.pins.erase p }
      setTier s1 { s1.tier with drains := s1.tier.drains.map fun d => if d.dir = i then { d with pins := d.pins.erase p } else d }
    else setTier s { s.tier with waitPins := s.tier.waitPins.erase (i, p) }
  | none => s

/-- A demotion has ended: the pins that waited for it are taken (Table 6.6). -/
def takeWaiting (s : State) (i : Nat) : State :=
  let l := s.tier.waitPins.filter fun w => w.1 = i
  l.foldl (fun st w => pinEntry st w.2 i) (setTier s { s.tier with waitPins := s.tier.waitPins.filter fun w => w.1 ≠ i })

/-- Directory entries of the system objects of a stack (R171, R177): KIND 4, in runs of at most 64 slabs, pinned. DESIGN CHOICE, log entry 21. -/
def systemEntries (s : State) (k : Nat) : List DirEntry :=
  let n := fixedSlabs s k
  (List.range (ceilDiv n 64)).map fun i =>
    { run := { fabric := selfId s, loc := k, first := 64 * i, base := locBase s k, slabs := min 64 (n - 64 * i), gen := 0 }
      seq := 1, age := 0, pins := [], refs := 1, tenant := 0, st := .resident, kind := 4, persist := true, tier := 1, layer := 0, page := 0, back := 0 }

/-- How many directory entries the system objects hold. DESIGN CHOICE, log entry 21. -/
def systemCount (s : State) : Nat :=
  ((List.range 20).map fun k => ceilDiv (fixedSlabs s k) 64 + ceilDiv (growingSlabs s k) 64).sum

/-- Install an entry for a run (Table 6.6, Allocate). The lowest free index is taken, and its SEQ goes on from where it stood (R178). System objects hold
the highest indices. -/
def newEntry (s : State) (r : Run) (kind tenant layer page back : Nat) (persist : Bool) : Option (Nat × State) :=
  let i := freeNumber 0 (s.tier.dir.map (·.1))
  let e : DirEntry :=
    { run := r, seq := wrapAdd 32 (tgetD s.tier.freeSeq i 0) 1, age := 0, pins := [], refs := 1, tenant := tenant, st := .resident, kind := kind,
      persist := persist, tier := tierOfLoc r.loc, layer := layer, page := page, back := back }
  if 16777216 ≤ i + systemCount s then none
  else some (i, setTier s { s.tier with dir := tset s.tier.dir i e, freeSeq := tdel s.tier.freeSeq i })

/-- Is the T0 partition of some Ladle frozen (07 R231)? Promotions into T0, window fills there and releases of its objects wait. Objects lie over the
partitions of all Ladles. DESIGN CHOICE, log entry 132. -/
def t0Frozen (s : State) : Bool := s.comp.ladles.any fun e => e.2.budgetArea.isSome || e.2.urgencyArea.isSome

/-- The run of an object that is freed; one in T0 is released once no partition is frozen (07 R231). DESIGN CHOICE, log entry 132. -/
def releaseRun (s : State) (i : Nat) (r : Run) : State :=
  if r.loc = 40 && t0Frozen s then setTier s { s.tier with drains := s.tier.drains ++ [{ dir := i, run := r, tier := 0, pins := [] }] }
  else freeRunOf s r

/-- Free an object: its run, the run that a move has reserved, its entry, whose SEQ rises (R178), and its bytes. -/
def freeEntry (s : State) (i : Nat) : State :=
  match tget s.tier.dir i with
  | none => s
  | some e =>
    let s1 := releaseRun s i e.run
    let s2 := match tget s.tier.moves i with
      | some m => freeRunOf s1 m.run
      | none => s1
    setTier s2 { s2.tier with
      dir := tdel s2.tier.dir i
      freeSeq := tset s2.tier.freeSeq i (wrapAdd 32 e.seq 1)
      waitPins := s2.tier.waitPins.filter fun w => w.1 ≠ i
      data := tdel s2.tier.data i
      moves := tdel s2.tier.moves i }

def freeEntries (s : State) : List Nat → State
  | [] => s
  | i :: r => freeEntries (freeEntry s i) r

/-! ### Models and page lists -/

def modelOf (s : State) (tenant model : Nat) : Option ModelDef := s.tier.models.find? fun m => m.tenant = tenant && m.model = model

/-- Slabs of a page of a model (R164). -/
def pageSlabs (m : ModelDef) : Nat := m.pageBytes / 65536

/-- Page indices of a request, ceil(LOGGED_TOKENS / 256) (R169). -/
def pageCount (o : Owned) : Nat := ceilDiv o.record.logged 256

/-- Positions from 0 on that are written without a gap in a layer. -/
def coverage (pages : Tab (Nat × Nat) PageEntry) (layer : Nat) : Nat → Nat → Nat
  | 0, k => 256 * k
  | n + 1, k =>
    match tget pages (layer, k) with
    | some p => if p.present then (if p.upto = 256 then coverage pages layer n (k + 1) else 256 * k + p.upto) else 256 * k
    | none => 256 * k

/-- PLACED_TOKENS: the unbroken run of positions that every layer holds (05 Table 5.2). -/
def placedTokens (o : Owned) (layers : Nat) : Nat :=
  (leastOf ((List.range layers).map fun l => coverage o.pages l 4096 0)).getD 0

/-- The lowest position below `limit` that some layer lacks, or 0xFFFF_FFFF (05 W6). -/
def lowestMissing (o : Owned) (layers limit : Nat) : Nat :=
  let p := placedTokens o layers
  if p < limit then p else 0xFFFFFFFF

/-- An unsealed page counts as pinned while its request is in PREFILL or DECODE (R179). -/
def unsealedPinned (s : State) (i : Nat) : Bool :=
  s.req.owned.any fun e => (e.2.record.phase = 1 || e.2.record.phase = 4) &&
    e.2.pages.any fun p => p.2.present && !p.2.full && !p.2.shared && p.2.dir = i

/-- May pressure move or drop the object: resident, PINS 0, PERSIST 0 (Table 6.6)? -/
def movable (s : State) (i : Nat) (e : DirEntry) : Bool :=
  e.st = .resident && e.pins = [] && !e.persist && !unsealedPinned s i

/-! ### Quotas of the Molril mode (R188) -/

/-- Bytes that a tenant holds in a tier. -/
def tenantBytes (s : State) (t tier : Nat) : Nat :=
  ((s.tier.dir.filter fun e => e.2.tenant = t && e.2.tier = tier && !(e.2.kind = 4)).map fun e => e.2.run.slabs * 65536).sum

def quotaOf (s : State) (t tier : Nat) : Nat := ((s.image.quotas.find? fun q => q.1 = t && q.2.1 = tier).map (·.2.2)).getD 0

/-- Does the Molril mode refuse a placement of `n` slabs? -/
def overQuota (s : State) (t tier n : Nat) : Bool :=
  s.image.molril && quotaOf s t tier < tenantBytes s t tier + n * 65536

/-! ### Placement (R182) -/

/-- Held grants that take new objects: not under recall. -/
def openGrants (s : State) : List Nat := (s.tier.held.filter fun g => g.deadline = none).map fun g => grantLoc g.lender g.id

/-- A free run in a held grant, then in T3, for a tenant. -/
def takeLower (s : State) (t n : Nat) (from2 : Bool) : Option (Run × State) :=
  let inT2 := if from2 && !overQuota s t 2 n then takeFirst s n (openGrants s) else none
  match inT2 with
  | some x => some x
  | none => if overQuota s t 3 n then none else takeRun s 20 n

/-- T1 objects that may be demoted, oldest first, lower directory index on a tie (R182). -/
def demotable (s : State) (t : Nat) : List Nat :=
  let c := s.tier.dir.filter fun e =>
    e.2.tier = 1 && e.2.kind ≤ 3 && 1 ≤ e.2.age && movable s e.1 e.2 && (!s.image.molril || e.2.tenant = t)
  (sortBy (fun a b => a.2.age > b.2.age || (a.2.age = b.2.age && a.1 < b.1)) c).map (·.1)

/-- Take a run in T1 for a tenant, where the Molril mode does not refuse it (R188). -/
def takeT1 (s : State) (t n : Nat) (among : List Nat) : Option (Run × State) := if overQuota s t 1 n then none else takeFirst s n among

/-- Demote objects in turn until T1 takes the object (R182). A demotion within a placement commits and is placed at once: SEQ rises twice. DEDUCED, log entry 52. -/
def demoteFor (s : State) (t n : Nat) (among : List Nat) : List Nat → Option (Run × State)
  | [] => none
  | i :: r =>
    match tget s.tier.dir i with
    | none => demoteFor s t n among r
    | some e =>
      match takeLower s e.tenant e.run.slabs true with
      | none => demoteFor s t n among r
      | some (run, s1) =>
        let s2 := freeRunOf s1 e.run
        let s3 := setEntry s2 i { e with run := run, tier := tierOfLoc run.loc, seq := wrapAdd 32 e.seq 1 }
        match takeT1 s3 t n among with
        | some x => some x
        | none => demoteFor s3 t n among r

/-! ### Dropping (R183, R185) -/

/-- The page entry of a dropped page. -/
def PageEntry.gone (p : PageEntry) : PageEntry := { p with present := false, full := false, shared := false, pin := false, upto := 0, dir := 0 }

/-- The pages of a request at one page index: keys of the list. -/
def pagesAt (o : Owned) (k : Nat) : List ((Nat × Nat) × PageEntry) := o.pages.filter fun p => p.1.2 = k && p.2.present

/-- May every page at the index be dropped under pressure? -/
def indexDroppable (s : State) (o : Owned) (k : Nat) : Bool :=
  (pagesAt o k).all fun p => !p.2.shared && !p.2.pin &&
    match tget s.tier.dir p.2.dir with
    | some e => movable s p.2.dir e
    | none => true

/-- FIRST_MISSING falls to the lowest position absent in some layer at once, and a RECORD step follows (R185). -/
def lowerMissing (s : State) (h : Nat) : State :=
  match ownedOf s h with
  | none => s
  | some o =>
    let layers := layersOf s h o.record.model
    let o1 := { o with record := { o.record with placed := placedTokens o layers } }
    recordStep s o1 (lowestMissing o layers o.record.logged) o.record.adapterVersion .none

/-- Drop the pages of a request at one index, in every layer. -/
def dropIndex (s : State) (h k : Nat) : State :=
  match ownedOf s h with
  | none => s
  | some o =>
    let s1 := freeEntries s ((pagesAt o k).map fun p => p.2.dir)
    let o1 := { o with pages := o.pages.map fun p => if p.1.2 = k then (p.1, p.2.gone) else p }
    lowerMissing (setOwned s1 h o1) h

/-- Rows of all banks. A set whose row was poisoned while its pages were referenced (11_associative_search.md R341) keeps its record under a number from here on. -/
def indexRows : Nat := 131072

/-- Remove a prefix set from the index, with the bank entry that finds it. -/
def unindexSet (s : State) (ix : Nat) : State :=
  let b := ix / 4096
  let bank := tgetD s.comp.banks b .fresh
  let s1 := { s with tier := { s.tier with prefixes := tdel s.tier.prefixes ix } }
  if ix < indexRows then { s1 with comp := { s1.comp with banks := tset s1.comp.banks b { bank with entries := tdel bank.entries (ix % 4096) } } } else s1

/-- Drop a prefix set whole. -/
def dropSet (s : State) (ix : Nat) : State :=
  match tget s.tier.prefixes ix with
  | none => s
  | some p => unindexSet (freeEntries s p.dirs) ix

/-- Age of a set: the least AGE of its pages. -/
def setAge (s : State) (p : PrefixSet) : Nat := (leastOf (p.dirs.map fun i => (tget s.tier.dir i).elim 0 (·.age))).getD 0

/-- Age of a request (R183): the AGE of its unsealed page where it has one, else the least among its resident pages. -/
def requestAge (s : State) (o : Owned) : Nat :=
  let age := fun i => (tget s.tier.dir i).elim 0 (·.age)
  match o.pages.filter fun p => p.2.present && !p.2.full && !p.2.shared with
  | p :: _ => if o.record.phase = 1 || o.record.phase = 4 then 0 else age p.2.dir
  | [] => (leastOf ((o.pages.filter fun p => p.2.present).map fun p => age p.2.dir)).getD 0

/-- One act of dropping. -/
inductive Victim where
  | set (ix : Nat)
  | replica (key : Nat × Nat × Nat) (dir : Nat)
  | index (h k : Nat)
deriving DecidableEq, Repr

def priorityOf (s : State) (t : Nat) : Nat := ((tenantRec s t).map (·.priority)).getD 0

/-- The requests from which pressure takes pages, in order (R183). -/
def victimRequests (s : State) (t : Option Nat) : List (Nat × Owned) :=
  let c := s.req.owned.filter fun e => !(e.2.record.phase = 3) && !(e.2.record.phase = 6) && !finalPhase e.2.record.phase &&
    (match t with | none => true | some k => handleTenant e.1 = k)
  let parked := fun (e : Nat × Owned) => e.2.record.phase = 5
  sortBy (fun a b =>
    if parked a ≠ parked b then parked a
    else
      let pa := priorityOf s (handleTenant a.1)
      let pb := priorityOf s (handleTenant b.1)
      if pa ≠ pb then pa < pb
      else
        let ga := requestAge s a.2
        let gb := requestAge s b.2
        if ga ≠ gb then ga > gb else a.1 < b.1) c

/-- The indices that a request gives up, from its tail back, up to one that must stay (R183). -/
def tailIndices (s : State) (o : Owned) : Nat → List Nat
  | 0 => []
  | k + 1 =>
    if (pagesAt o k).isEmpty then tailIndices s o k
    else if indexDroppable s o k then k :: tailIndices s o k else []

/-- All victims in order (R183). In the Molril mode only the placing tenant's objects (R188). DESIGN CHOICE, log entry 56. -/
def victims (s : State) (t : Nat) : List Victim :=
  let own := fun (k : Nat) => !s.image.molril || k = t
  let sets := s.tier.prefixes.filter fun p => p.2.refs = 0 && own p.2.tenant && p.2.dirs.all fun i =>
    (tget s.tier.dir i).elim true (movable s i)
  let reps := s.req.replicas.filter fun r => own (handleTenant r.1.1) && (tget s.tier.dir r.2).elim true (movable s r.2)
  let age := fun i => (tget s.tier.dir i).elim 0 (·.age)
  (sortBy (fun a b => setAge s a.2 > setAge s b.2 || (setAge s a.2 = setAge s b.2 && a.1 < b.1)) sets).map (fun p => .set p.1) ++
  (sortBy (fun a b => age a.2 > age b.2 || (age a.2 = age b.2 && a.2 < b.2)) reps).map (fun r => .replica r.1 r.2) ++
  (victimRequests s (if s.image.molril then some t else none)).flatMap fun e => (tailIndices s e.2 4096).map (.index e.1)

def dropVictim (s : State) : Victim → State
  | .set ix => dropSet s ix
  | .replica key dir =>
    let s1 := freeEntry s dir
    { s1 with req := { s1.req with replicas := tdel s1.req.replicas key } }
  | .index h k => dropIndex s h k

/-- Drop victims in turn until T1 takes the object. -/
def dropFor (s : State) (t n : Nat) (among : List Nat) : List Victim → Option (Run × State)
  | [] => none
  | v :: r =>
    let s1 := dropVictim s v
    match takeT1 s1 t n among with
    | some x => some x
    | none => dropFor s1 t n among r

/-- Tray address of a byte of the module's own stacks (16_tray_memory_fabric.md R464). -/
def trayAddr (s : State) (stack slab : Nat) : Nat := (selfId s % 32) * 2 ^ 41 + stack * 2 ^ 36 + slab * 65536

/-- RECALL of the most recently granted grant that is not under recall (R192). -/
def recallNewest (s : State) : State :=
  match (s.tier.lent.filter fun g => g.deadline = none).reverse with
  | [] => s
  | g :: _ =>
    let d := s.time + recallDeadlineNow s * 1000
    let s1 := setTier s { s.tier with lent := s.tier.lent.map fun x => if x.id = g.id then { x with deadline := some d } else x }
    sysSend (eventT s1 21 0x42 false none 0) g.borrower
      (.loan { type := 4, grants := 1, stack := g.stack, sender := selfId s, grantId := g.id, key := 0, addr := trayAddr s g.stack g.slab, deadline := d })

/-- An allocation that fails: its code, and whether T1 had no free run for it, so that a lent grant is recalled (R192). -/
structure Short where
  code : Nat
  noRun : Bool
deriving DecidableEq, Repr

/-- Placement of an object of `n` slabs by the fall-back order (R182). `drop` allows its last step; `lower` allows T2 and T3; `confine` is where a
class of object may lie in T1. A placement for which T1 has no free run recalls a lent grant and goes on (R192); a quota that refuses T1 leaves the
steps that may bring the tenant below it (R188). DEDUCED, log entry 52. -/
def place (s : State) (t n : Nat) (among : List Nat) (lower drop : Bool) : Option (Run × State) :=
  match takeT1 s t n among with
  | some x => some x
  | none =>
    let s0 := if (takeFirst s n among).isNone then recallNewest s else s
    match demoteFor s0 t n among (demotable s0 t) with
    | some x => some x
    | none =>
      match (if lower then takeLower s0 t n true else none) with
      | some x => some x
      | none => if drop then dropFor s0 t n among (victims s0 t) else none

/-- A placement that fails for want of a run in T1 has recalled a lent grant all the same (R192). -/
def unplaced (s : State) (e : Short) : State := if e.noRun then recallNewest s else s

/-- Place an object and install its entry: TIER_EXHAUSTED or DIRECTORY_FULL where that fails (R177, R182). -/
def placeEntry (s : State) (t n : Nat) (among : List Nat) (lower drop : Bool) (kind layer page back : Nat) (persist : Bool) :
    Except Short (Nat × State) :=
  match place s t n among lower drop with
  | none => .error { code := Status.tierExhausted, noRun := (takeFirst s n among).isNone }
  | some (r, s1) => match newEntry s1 r kind t layer page back persist with
    | none => .error { code := Status.directoryFull, noRun := false }
    | some x => .ok x

/-- Stacks in the order that an object prefers (R184): a KV page has its own stack; any other object takes the stack with most free slabs. -/
def stacksFor (s : State) (kind h layer k : Nat) : List Nat := if kind = 0 then stacksFrom (pageClass h layer k) else stacksByFree s

/-- Place a page of a request (R182, R184) and install its entry. -/
def placePage (s : State) (h layer k kind : Nat) (m : ModelDef) (lower drop : Bool) : Except Short (Nat × State) :=
  placeEntry s (handleTenant h) (pageSlabs m) (stacksFor s kind h layer k) lower drop kind layer k h false

/-! ### Reads of pages (R172, R179) -/

/-- A command pins what it reads while it runs (R179). -/
def pinRead (s : State) (id : Nat) (l : List Nat) : State := l.foldl (fun st i => pinEntry st (.command id) i) s

end Sys2Proof.Machine
end

