-- ==== Sys2Proof/Machine/Operands.lean ====
section
/-!
DEFINITION. Operand references, grouped operands and the output stage (07_ladle_engines.md R218–R222, R246), trigger tags and
counters (08_attention.md R263; 15_message_transport.md R453, R454), and covered writes (02 R40, R41).
-/
namespace Sys2Proof.Machine

/-! ### Bytes of objects -/

/-- Put a byte into a list of cells that may hold zeros: addresses stay rising. DESIGN CHOICE, log entry 54. -/
def putCell (m : List Host.Cell) (a : Nat) (b : Byte) : List Host.Cell :=
  match m with
  | [] => [(a, b)]
  | (a', b') :: r => if a < a' then (a, b) :: (a', b') :: r else if a = a' then (a, b) :: r else (a', b') :: putCell r a b

/-- The byte that a list of cells gives at an address. -/
def cellAt (m : List Host.Cell) (a : Nat) : Option Byte := tget m a

/-- A byte of an object: written, or what its allocation left (R222). -/
def blobByte (b : Blob) (a : Nat) : Byte :=
  match cellAt b.cells a with
  | some x => x
  | none => match b.fill with
    | none => 0
    | some n => Config.freeByte n a

/-- Write one byte of an object. DESIGN CHOICE, log entry 54. -/
def blobPut (b : Blob) (a : Nat) (x : Byte) : Blob :=
  match b.fill with
  | none => { b with cells := Memory.write b.cells a x }
  | some _ => { b with cells := putCell b.cells a x }

/-- An object of zeros, and one whose content its allocation leaves open (R222). -/
def Blob.zeros : Blob := { cells := [], fill := none, bad := [] }
def Blob.free (n : Nat) : Blob := { cells := [], fill := some n, bad := [] }

/-- `n` bytes of an object. -/
def blobBytes (b : Blob) (a n : Nat) : List Byte := (List.range n).map fun i => blobByte b (a + i)

/-- Does any 64-byte line of the range carry poison? -/
def blobBad (b : Blob) (a n : Nat) : Bool := !(n = 0) && b.bad.any fun l => a / 64 ≤ l && l ≤ (a + n - 1) / 64

def blobPutAll (b : Blob) (a : Nat) : List (Byte × Bool) → Blob
  | [] => b
  | (x, _) :: r => blobPutAll (blobPut b a x) (a + 1) r

/-- Poisoned lines after a write: lines that hold a byte written poisoned, and earlier ones that the write does not cover whole (R246). -/
def badAfter (bad : List Nat) (a : Nat) (bs : List (Byte × Bool)) : List Nat :=
  let n := bs.length
  let mine := ((List.range n).filterMap fun i => if (bs.getD i (0, false)).2 then some ((a + i) / 64) else none).eraseDups
  (bad.filter fun l => !(a ≤ 64 * l && 64 * l + 64 ≤ a + n) && !mine.contains l) ++ mine

/-- Write bytes, each with its poison. -/
def blobWrite (b : Blob) (a : Nat) (bs : List (Byte × Bool)) : Blob := { blobPutAll b a bs with bad := badAfter b.bad a bs }

/-- Clean bytes. -/
def clean (bs : List Byte) : List (Byte × Bool) := bs.map fun x => (x, false)

/-! ### References (R220, Table 7.5) -/

/-- A decoded reference. -/
inductive Ref where
  | tensor (id off : Nat)
  | window (stream layer off : Nat)
  | host (addr : Nat)
  | reserved
deriving DecidableEq, Repr

def refOf (w : Word) : Ref :=
  match fld w 63 62 with
  | 0 => .tensor (fld w 61 46) (fld w 39 0)
  | 1 => .window (fld w 61 54) (fld w 53 38) (fld w 37 0)
  | 2 => .host (fld w 61 0)
  | _ => .reserved

/-- What the check of a reference finds. -/
inductive RefRes where
  | ok
  | bad (code : Nat)
  /-- The stream's host source was lost (09 R295). -/
  | lost (stream : Nat)
  | wait
deriving DecidableEq, Repr

/-- The slot of a stream that holds a layer. -/
def slotOfLayer (x : Stream) (layer : Nat) : Option WinSlot := x.slots.find? (·.layer = layer)

/-- Has the command of a slot started, so that it waits in the midst of its work? -/
def slotStarted (s : State) (id : Nat) : Bool := (slotById s id).elim false fun x => x.inHand && !x.notStarted

/-- What a command that may use a layer of a stream finds in its slot (06 R204, 09 R294, R295). -/
def layerState (x : Stream) (stream layer : Nat) : RefRes :=
  match slotOfLayer x layer with
  | some w =>
    if w.filled then .ok
    else if w.lost then .bad Status.adapterLost
    else if x.sourceLost then .lost stream
    else .wait
  | none => if x.sourceLost then .lost stream else .wait

/-- Does a command that names a layer of a stream find it (06 R204, 09 R294, R295)? One that has started (`old`) waits for its slot, wherever the cursor has
moved since (06 R205). DEDUCED, log entry 59. -/
def windowCheck (s : State) (t stream layer : Nat) (old : Bool) : RefRes :=
  match tget s.tier.streams stream with
  | none => .bad Status.windowUnknown
  | some x =>
    if old then layerState x stream layer
    else if x.tenant ≠ t || x.closing then .bad Status.windowUnknown
    else if x.cut then .lost stream
    else if x.layers ≤ layer || x.distance < (layer + x.layers - x.cursor) % x.layers then .bad Status.windowRange
    else layerState x stream layer

/-- The check of a reference to `n` bytes, for a tenant (R220, R245, R600). `window` says that SPACE 1 is allowed; `old` that the command has started, so
that a TENSOR_FREE or WINDOW_CLOSE that started since waits for it. -/
def refCheck (s : State) (t : Nat) (r : Ref) (n : Nat) (window : Bool) (old : Bool := false) : RefRes :=
  match r with
  | .tensor id off =>
    if !(off % 64 = 0) then .bad Status.operandRange
    else match tget s.tier.tensors (t, id) with
      | none => .bad Status.tensorUnknown
      | some x => if x.freeing && !old then .bad Status.tensorUnknown else if x.bytes < off + n then .bad Status.operandRange else .ok
  | .window stream layer off =>
    if !window || !(off % 64 = 0) then .bad Status.operandRange
    else match windowCheck s t stream layer old with
      | .ok =>
        match tget s.tier.streams stream with
        | some x => if x.layerBytes < off + n then .bad Status.operandRange else .ok
        | none => .ok
      | x => x
  | .host addr => if addr % 64 = 0 then .ok else .bad Status.operandRange
  | .reserved => .bad Status.operandRange

/-- The first check of a list that does not pass: a refusal before a wait. -/
def firstBad : List RefRes → RefRes
  | [] => .ok
  | .bad c :: _ => .bad c
  | .lost n :: _ => .lost n
  | .ok :: r => firstBad r
  | .wait :: r => match firstBad r with
    | .bad c => .bad c
    | .lost n => .lost n
    | _ => .wait

/-- The object that a reference to `n` bytes names, and the offset in it. A failed host read gives poisoned lines (07 R246): those that the host
has said fail, and every line while the link is down. -/
def refView (s : State) (t : Nat) (r : Ref) (n : Nat) : Blob × Nat :=
  match r with
  | .tensor id off => ((tget s.tier.tensors (t, id)).elim Blob.zeros (·.blob), off)
  | .window stream layer off => ((tget s.tier.streams stream).elim Blob.zeros fun x => (slotOfLayer x layer).elim Blob.zeros (·.blob), off)
  | .host addr =>
    let bad := if s.host.link.up then s.host.badLines else (List.range (n / 64 + 2)).map (addr / 64 + ·)
    ({ cells := s.hostMem, fill := none, bad := bad }, addr)
  | .reserved => (Blob.zeros, 0)

/-- DEDUCED, log entry 38. -/
def refBytes (s : State) (t : Nat) (r : Ref) (off n : Nat) : List Byte :=
  let v := refView s t r (off + n)
  blobBytes v.1 (v.2 + off) n

/-- DEDUCED, log entry 38. -/
def refBad (s : State) (t : Nat) (r : Ref) (off n : Nat) : Bool :=
  let v := refView s t r (off + n)
  blobBad v.1 (v.2 + off) n

/-- Directory entries of a tensor are touched by every access (06 R179). -/
def touchAll (s : State) : List Nat → State
  | [] => s
  | i :: r => touchAll (touch s i) r

/-- A read or write of the object that a reference names sets its AGE to 0. -/
def touchRef (s : State) (t : Nat) (r : Ref) : State :=
  match r with
  | .tensor id _ => touchAll s ((tget s.tier.tensors (t, id)).elim [] (·.dirs))
  | _ => s

/-- Put a covered operation of a command on the list of R41. A write to host memory is placed at once where the link is up. DEDUCED, log entry 37. -/
def cover (s : State) (slot : Nat) (k : OpKind) (ended : Option Bool) : State :=
  match slotById s slot with
  | none => s
  | some x =>
    { s with host := { s.host with
      nextOp := s.host.nextOp + 1
      ops := s.host.ops ++ [{ id := s.host.nextOp, slot := slot, fn := x.cmd.fn, q := x.cmd.q, src := x.cmd.src, kind := k, ended := ended }] } }

/-- Write to where a reference points (R237). A write to host memory is an operation that a PLACE_FENCE covers (02 R40); a shadow
discards it once it is in the digest (18 R531). DEDUCED, log entry 37. -/
def refWrite (s0 : State) (slot t : Nat) (r : Ref) (off : Nat) (bs : List (Byte × Bool)) : State :=
  let s := mirrorOut s0 slot (bs.map (·.1))
  match r with
  | .tensor id o =>
    match tget s.tier.tensors (t, id) with
    | none => s
    | some x =>
      touchRef (setTier s { s.tier with tensors := tset s.tier.tensors (t, id) { x with blob := blobWrite x.blob (o + off) bs } }) t r
  | .host a =>
    if shadowed s slot then s
    else if s.host.link.up then
      cover { s with
        hostMem := s.hostMem.writeBytes (a + off) (bs.map (·.1))
        host := { s.host with badLines := badAfter s.host.badLines (a + off) bs } } slot (.hostWrite (a + off)) (some true)
    else cover s slot (.hostWrite (a + off)) (some false)
  | _ => s

/-! ### Grouped operands (R221) -/

/-- Bytes of a row of `l` elements (R378). -/
def rowBytes (f : Fmt) (l : Nat) : Nat := ceilDiv (l * f.width) 8

/-- Offset of the scale region (R221). -/
def scaleOffset (f : Fmt) (rows l : Nat) : Nat := roundUp (rows * rowBytes f l) 64

/-- Bytes of a grouped operand: data, and scales where the format has them. -/
def groupedBytes (f : Fmt) (sc g rows l : Nat) : Nat :=
  if sc = 0 then rows * rowBytes f l else scaleOffset f rows l + rows * ceilDiv l g * scaleBytes sc

/-- Element `i` of the row whose bytes begin at offset `o` of an object. -/
def elemAt (b : Blob) (f : Fmt) (o i : Nat) : Num × Bool :=
  let bitOff := i * f.width
  let a := o + bitOff / 8
  let raw := leNat (blobBytes b a (ceilDiv f.width 8))
  (f.decode ((raw >>> (bitOff % 8)) % 2 ^ f.width), blobBad b a (ceilDiv f.width 8))

/-- One row of a grouped operand: its elements and its group scales, each with its poison. -/
structure Row where
  elems : List (Num × Bool)
  scales : List (Num × Bool)
deriving DecidableEq, Repr

def Row.nums (r : Row) : List Num := r.elems.map (·.1)
def Row.scaleNums (r : Row) : List Num := r.scales.map (·.1)

/-- Does any line of the row carry poison? -/
def Row.bad (r : Row) : Bool := r.elems.any (·.2) || r.scales.any (·.2)

/-- Row `m` of an operand of `rows` × `l`; with no scale format each group's scale is 1.0. -/
def rowAt (b : Blob) (base : Nat) (f : Fmt) (sc g rows l m : Nat) : Row :=
  { elems := (List.range l).map fun i => elemAt b f (base + m * rowBytes f l) i
    scales := (List.range (ceilDiv l g)).map fun j =>
      if sc = 0 then (.one, false)
      else
        let a := base + scaleOffset f rows l + (m * ceilDiv l g + j) * scaleBytes sc
        (scaleValue sc (leNat (blobBytes b a (scaleBytes sc))), blobBad b a (scaleBytes sc)) }

/-- The values of a row: element times scale, rounded to FP32 (13 R379), with the poison of both. -/
def Row.values (r : Row) (g : Nat) : List (Num × Bool) :=
  (List.range r.elems.length).map fun i =>
    let e := r.elems.getD i (.zero, false)
    let s := r.scales.getD (i / g) (.one, false)
    (r32 (Num.mul e.1 s.1), e.2 || s.2)

/-! ### The output stage (R218, R219) -/

/-- The destination format and its scales: does the pair serve as a destination (R218)? -/
def destOk (f : Fmt) (sc : Nat) : Bool := f.qmax = none || sc = 1 || sc = 2

/-- A converted row: bits of each element, bits of each scale, and the poison of each. -/
structure OutRow where
  elems : List (Nat × Bool)
  scales : List (Nat × Bool)
deriving DecidableEq, Repr

/-- Split a list into parts of `g`; `n` bounds their number. -/
def groupsOf {α : Type} (g : Nat) : Nat → List α → List (List α)
  | 0, _ => []
  | _, [] => []
  | n + 1, l => l.take g :: groupsOf g n (l.drop g)

/-- Convert a row of results (R218): floating formats element by element, quantised ones by groups of `g`. -/
def outRow (f : Fmt) (sc g : Nat) (row : List (Num × Bool)) : OutRow :=
  match f.qmax with
  | none =>
    let fp := (f.fp).getD Fp.f32
    { elems := row.map fun x => (fp.encode (fp.round x.1), x.2), scales := [] }
  | some q =>
    let gs := groupsOf g row.length row
    let each := gs.map fun l =>
      let bad := l.any (·.2)
      let sb := groupScale sc q (amax (l.map (·.1)))
      let sv := scaleValue sc sb
      (l.map fun x => ((quantise f q sv x.1).1, bad), (sb, bad))
    { elems := each.flatMap (·.1), scales := each.map (·.2) }

/-- Pack the elements of a row into bytes. -/
def packRow (f : Fmt) (l : List (Nat × Bool)) : List (Byte × Bool) :=
  if f.width = 4 then
    (List.range (ceilDiv l.length 2)).map fun i =>
      let a := l.getD (2 * i) (0, false)
      let b := l.getD (2 * i + 1) (0, false)
      (BitVec.ofNat 8 (a.1 % 16 + b.1 % 16 * 16), a.2 || b.2)
  else l.flatMap fun x => (leBytes (f.width / 8) x.1).map fun y => (y, x.2)

/-- The bytes of a tensor of results in the layout of R221. -/
def outBytes (f : Fmt) (sc : Nat) (rows : List OutRow) : List (Byte × Bool) :=
  let data := rows.flatMap fun r => packRow f r.elems
  if sc = 0 || f.qmax = none then data
  else
    data ++ List.replicate (roundUp data.length 64 - data.length) (0, false) ++
      rows.flatMap fun r => r.scales.flatMap fun x => (leBytes (scaleBytes sc) x.1).map fun y => (y, x.2)

/-- The largest absolute value of the finite results, as FP32 bits (R219, RESULT1). -/
def tensorAmax (rows : List (List (Num × Bool))) : Nat := Fp.f32.encode (r32 (amax (rows.flatMap fun r => r.map (·.1))))

/-- Is any result not finite (R219)? -/
def anyNonfinite (rows : List (List (Num × Bool))) : Bool := rows.any fun r => r.any fun x => !x.1.finite

/-- Is any result poisoned (R246)? -/
def anyPoison (rows : List (List (Num × Bool))) : Bool := rows.any fun r => r.any (·.2)

/-- The status of a command that has written all its outputs: poison before non-finite (08 R274). -/
def outStatus (poison nonfinite : Bool) : Nat :=
  if poison then Status.operandPoison else if nonfinite then Status.nonfinite else Status.ok

/-! ### Trigger tags and counters (08 R263; 15 R453, R454) -/

/-- A change of a counter re-evaluates every SEND that waits on it: one whose THRESHOLD is reached may start (15 R454). -/
def trigger (s : State) (t c : Nat) : State :=
  let v := tgetD s.xport.counters (t, c) 0
  setSlots s (s.host.slots.map fun x =>
    if decide (x.phase = .waiting .tag) && opcodeOf x.cmd = 0x72 && fld x.cmd.w6 63 48 = c && cmdTenant s x.cmd = t && fld x.cmd.w6 47 0 ≤ v then
      { x with phase := .waiting .released } else x)

/-- Set a counter of a tenant. -/
def setCounter (s : State) (t c v : Nat) : State :=
  trigger { s with xport := { s.xport with counters := tset s.xport.counters (t, c) v } } t c

/-- Raise a counter of a tenant by one, with wrap-around; counter 0 is none. -/
def raiseCounter (s : State) (t c : Nat) : State :=
  if c = 0 then s else setCounter s t c (wrapAdd 64 (tgetD s.xport.counters (t, c) 0) 1)

/-- Arrivals and releases of a tag. -/
def tagCounts (s : State) (t tag : Nat) : Nat × Nat := tgetD s.xport.tags (t, tag) (0, 0)

def setTag (s : State) (t tag : Nat) (v : Nat × Nat) : State := { s with xport := { s.xport with tags := tset s.xport.tags (t, tag) v } }

/-- The owner's report that a forwarded command has been released (08 R263). -/
def reportRelease (s : State) (id : Nat) : State :=
  match slotById s id with
  | some x => match x.cmd.src with
    | some (m, _) => sysSend s m (.released { x.cmd with src := none })
    | none => s
  | none => s

/-- A message that carries a tag has completed: the arrivals rise, and the command that began to wait earliest is released (15 R453). -/
def tagArrives (s : State) (t tag : Nat) : State :=
  if tag = 0 then s
  else
    let c := tagCounts s t tag
    match s.comp.waitTags.find? fun w => w.1 = t && w.2.1 = tag with
    | none => setTag s t tag (c.1 + 1, c.2)
    | some w =>
      let s1 := setTag s t tag (c.1 + 1, c.2 + 1)
      let s2 := { s1 with comp := { s1.comp with waitTags := s1.comp.waitTags.erase w } }
      reportRelease (setPhase s2 w.2.2 (.waiting .released)) w.2.2

/-- A command that a gate has released starts: its place in the order of starting is that of its release, and the lookup of its batch happens
now (04 R107). -/
def startNow (s : State) (id : Nat) (c : Cmd) (k : State → State) : State :=
  match (if isBatch c then memberChecks s c else none) with
  | some e => fail s id e
  | none => k (noteMembers s id c)

/-- The gate of WAIT_TAG: the command goes on at once with no tag or an arrival kept for it, and otherwise waits (08 R263). DEDUCED, log entry 60. -/
def tagGate (s : State) (id : Nat) (c : Cmd) (tag : Nat) (again : Bool) (k : State → State) : State :=
  if tag = 0 then k s
  else if 4096 ≤ tag then fail s id Status.tagInvalid
  else if again then
    match (slotById s id).map Slot.phase with
    | some (Phase.waiting .tag) => s
    | some (Phase.waiting .released) => startNow s id c k
    | _ => k s
  else
    let t := cmdTenant s c
    let n := tagCounts s t tag
    if n.2 < n.1 then k (reportRelease (setTag s t tag (n.1, n.2 + 1)) id)
    else setPhase { s with comp := { s.comp with waitTags := s.comp.waitTags ++ [(t, tag, id)] } } id (.waiting .tag)

/-- Is a DONE_COUNTER field in range (15 R453)? -/
def counterOk (c : Nat) : Bool := c < 4096

end Sys2Proof.Machine
end

