-- ==== Sys2Proof/Machine/Routing.lean ====
section
/-!
DEFINITION. Where a command that names requests runs, and how it is forwarded (01_serving_roles.md R11–R14, R601; 04_host_queues.md R105, R108;
08_attention.md R263).
-/
namespace Sys2Proof.Machine

/-! ### Where a request is -/

/-- What the module knows of a request that a command in a slot names: its own working copy, a recovery that it heads (05 R151), or the tail's answer. -/
def locate (s : State) (id h : Nat) : Option Located :=
  match ownedOf s h with
  | some o => some (if finalPhase o.record.phase then .final o.record.phase else .owner (selfId s) o.record.phase)
  | none =>
    if thas s.req.recovering h then some (.owner (selfId s) 6)
    else (s.req.known.find? fun k => k.1 = id && k.2.1 = h).map (·.2.2)

/-- Are commands of the request held here: a handoff that has begun (01 R13, 05 R140), or a recovery (05 R151)? DEDUCED, log entry 41. -/
def heldHere (s : State) (h : Nat) : Bool :=
  match ownedOf s h with
  | some o => match o.handoff with
    | some x => !(x.st = .draining) && !(x.st = .owning)
    | none => false
  | none => thas s.req.recovering h

/-- Is a command held that arrived before slot `id`, or was one held that has not gone on yet, for one of the requests (01 R13: released in order of
arrival)? DEDUCED, log entry 41. -/
def heldAhead (s : State) (id : Nat) (ms : List Nat) : Bool :=
  let mine := (slotById s id).elim 0 (·.arrived)
  s.host.slots.any fun x => !(x.id = id) && (decide (x.phase = .waiting .held) || decide (x.phase = .waiting .route)) && !(x.arrived = 0) &&
    (mine = 0 || x.arrived < mine) && x.members.any ms.contains

/-- Where a command runs. -/
inductive Route where
  | here
  | done (status r0 : Nat)
  | send (m : Nat)
  | hold
  | ask (l : List Nat)
  | again
deriving DecidableEq, Repr

/-- Members with an entry that is not final: handle, owner (the head, while the ledger names none), in batch order. -/
def livingMembers (s : State) (id : Nat) (ms : List Nat) : List (Nat × Nat) :=
  ms.filterMap fun h => match locate s id h with
    | some (.owner m p) => some (h, if p = 6 then headOf s h else m)
    | _ => none

/-- The route of a command (01 R11, R13, R14, R601; 04 R108; 05 R139). -/
def routeOf (s : State) (id : Nat) (c : Cmd) : Route :=
  let ms := slotMembers s id
  let need := ms.filter fun h => locate s id h = none
  if ms.any (heldHere s) || heldAhead s id ms then .hold
  else if need ≠ [] then .ask need
  else
    let living := livingMembers s id ms
    match living with
    | [] =>
      if isBatch c then .here
      else match ms with
        | h :: _ => match locate s id h with
          | some (.final p) => .done Status.requestFinal p
          | _ => .done Status.requestUnknown 0
        | [] => .done Status.requestUnknown 0
    | (h, m) :: _ =>
      if m = selfId s then
        if (ownedOf s h).isNone then .again
        else if living.any fun x => !(x.2 = m) then .done Status.batchSplitOwner 0 else .here
      else if isMember s m then .send m else .again

/-- Ask the tail of each request, once. -/
def askFor (s : State) (id : Nat) : List Nat → State
  | [] => s
  | h :: r =>
    if s.req.asks.any fun a => a.handle = h && decide (a.asker = .forward id) then askFor s id r
    else askFor (askTail s h (.forward id)) id r

/-- What a slot had learnt is forgotten: the tail will be asked again. -/
def forget (s : State) (id : Nat) : State :=
  { s with req := { s.req with
    known := s.req.known.filter fun k => k.1 ≠ id
    asks := s.req.asks.filter fun a => !decide (a.asker = .forward id) } }

/-- What a command that starts keeps: which of its members are final or unknown (04 R108). -/
def keepGone (s : State) (id : Nat) : State :=
  let gone := fun (x : Located) => match x with
    | .owner _ _ => false
    | _ => true
  { s with req := { s.req with
    known := s.req.known.filter fun k => k.1 ≠ id || gone k.2.2
    asks := s.req.asks.filter fun a => !decide (a.asker = .forward id) } }

/-- The refusal of a member that the executing module does not own: its entry is final, or there is none (04 R108). -/
def goneStatus (s : State) (id h : Nat) : Nat :=
  match s.req.known.find? fun k => k.1 = id && k.2.1 = h with
  | some (_, _, Located.final _) => Status.requestFinal
  | _ => Status.requestUnknown

/-- WAIT_TAG of a command that may be forwarded (08 R263). -/
def forwardTag (c : Cmd) : Nat :=
  if (0x38 ≤ opcodeOf c && opcodeOf c ≤ 0x3B) || opcodeOf c = 0xA3 || opcodeOf c = 0x40 then fld c.w5 63 48 else 0

/-- Forward a command (01 R11, R14). The accepting module keeps its slot, behind which later commands wait while the command waits on a tag; a
module that forwards again keeps it until the send has succeeded (R601). DEDUCED, log entry 40. -/
def forward (s : State) (id : Nat) (c : Cmd) (m : Nat) : State :=
  let out := asForwarded s id c
  let s1 := sysSend (forget s id) m (.command out (slotMembers s id))
  match c.src with
  | some _ => modSlot s1 id fun x => { x with phase := .waiting .remote, sentTo := some m }
  | none => modSlot (noteOrder s1 id) id fun x =>
      { x with phase := .waiting (if forwardTag c = 0 then .remote else .tag)
               sentAt := if x.sentTo = none then s.mono else x.sentAt, sentTo := some m }

/-- When a command of a request starts, the request is idle no longer (06 R186). -/
def noteStart (s : State) (id : Nat) : State :=
  { s with req := { s.req with owned := s.req.owned.map fun e =>
                      if (slotMembers s id).contains e.1 then (e.1, { e.2 with lastStart := s.mono }) else e } }

/-- Hold a command (01 R13): it has arrived at the owner. -/
def holdSlot (s : State) (id : Nat) : State :=
  let s1 := if (slotById s id).elim true fun x => x.arrived = 0 then noteArrival s id else s
  setPhase s1 id (.waiting .held)

/-- Route a command and, where it runs here, go on with `k`. A command taken up again after it had passed this point goes on
at once, and `k` is told so. -/
def routed (s : State) (id : Nat) (c : Cmd) (again : Bool) (k : Bool → State → State) : State :=
  let phase := (slotById s id).map (·.phase)
  let sent := ((slotById s id).bind (·.sentTo)).isSome
  let passed := again && !(phase = some (.waiting .route)) && !(phase = some (.waiting .held))
  if passed then (if sent then s else k true s)
  else match routeOf s id c with
    | .here => k false (noteStart (noteArrival (keepGone s id) id) id)
    | .done st r0 => finish (forget s id) id st r0 0
    | .send m => forward s id c m
    | .hold => holdSlot s id
    | .ask l => setPhase (askFor s id l) id (.waiting .route)
    | .again => setPhase (forget s id) id (.waiting .route)

/-- One command that was held is released, with what is known now of one of its requests: it goes to the owner at once, or ends (01 R13, 05 R139, R144). -/
def releaseOne (h : Nat) (loc : Located) (s : State) (id : Nat) : State :=
  match slotById s id with
  | none => s
  | some x =>
    let s1 := { s with req := { s.req with known := (s.req.known.filter fun k => !(k.1 = id && k.2.1 = h)) ++ [(id, h, loc)] } }
    match routeOf s1 id x.cmd with
    | .send m => forward s1 id x.cmd m
    | .done st r0 => finish (forget s1 id) id st r0 0
    | .ask l => setPhase (askFor s1 id l) id (.waiting .route)
    | _ => s1

/-- The commands of a request that are held, in order of arrival. -/
def heldFor (s : State) (h : Nat) : List Nat :=
  (sortBy (fun (a b : Slot) => a.arrived < b.arrived)
    (s.host.slots.filter fun x => decide (x.phase = .waiting .held) && x.members.contains h)).map (·.id)

/-- Release the held commands of a request that the module owns no longer, in order of arrival (01 R13; 05 Table 5.7). -/
def releaseHeld (s : State) (h : Nat) (loc : Located) : State := (heldFor s h).foldl (releaseOne h loc) s

/-- The slot of a command in hand that meets a condition. -/
def slotWhere (s : State) (c : Cmd) (p : Slot → Bool) : Option Slot := s.host.slots.find? fun x => decide (x.cmd = c) && x.inHand && p x

/-- The slot of a command in hand. -/
def slotOf (s : State) (c : Cmd) : Option Slot := slotWhere s c fun _ => true

/-- Has a slot's forwarding failed: the send did, or the owner that it was sent to is no live member (01 R601)? -/
def forwardFailed (s : State) (x : Slot) (sendFailed : Bool) : Bool :=
  sendFailed || x.sentTo.elim false fun m => !(m = selfId s) && !isMember s m

/-- A command that waits for its owner asks the tail again, and forgets what it had been told. -/
def askAgain (s : State) (x : Slot) : State :=
  setPhase (modSlot (askFor (forget s x.id) x.id x.members) x.id fun y => { y with askedAt := s.mono }) x.id (.waiting .route)

/-- FORWARD_RETRY_TIMER (01 R601): a forwarded command whose send failed (`failed`), or whose owner is no live member, asks the tail again every
100 µs. A module that passed on a command of another's keeps nothing of it once the send has succeeded. DEDUCED, log entry 40. -/
def execForwardRetryTimer (r : SendReport) (s : State) : Host.Outcome State Fault Refusal :=
  match slotWhere s r.cmd fun x => decide (x.phase = .waiting .route) || x.sentTo.isSome with
  | none => .next s
  | some x =>
    if x.phase = .waiting .held then .next s
    else if x.phase = .waiting .route || forwardFailed s x r.failed then
      if x.askedAt = 0 || x.askedAt + 100000 ≤ s.mono then quiet s (askAgain s x) else .next s
    else if r.cmd.src.isSome then quiet s (dropSlot s x.id)
    else .next s

/-- FORWARD_TIMEOUT (01 R601): the accepting module completes a command that no module has accepted 1,000 ms after its first forwarding. `r.accepted` says
whether one has. DEDUCED, log entry 40. -/
def execForwardTimeout (r : OwnerReport) (s : State) : Host.Outcome State Fault Refusal :=
  match slotWhere s r.cmd fun x => r.cmd.src.isNone && x.sentTo.isSome && !(x.phase = .waiting .held) && x.sentAt + 1000000000 ≤ s.mono with
  | none => .next s
  | some x => if r.accepted then .next s else quiet s (fail (forget s x.id) x.id Status.peerUnreachable)

/-! ### The CANCELs of JOB_CLOSE (04 R105) -/

/-- The CANCEL that JOB_CLOSE issues for a request. It is no command of a queue: queue number 64, which no function has, marks it. DEDUCED, log entry 39. -/
def jobCancel (s : State) (t job h : Nat) : Cmd :=
  { fn := 0, q := 64, src := some (selfId s, t), tag := h, w0 := word (job % 65536 * 2 ^ 32 + 0x15), w1 := word h, w2 := 0, w3 := 0, w4 := 0,
    w5 := 0, w6 := 0, w7 := 0 }

/-- Is a command one that JOB_CLOSE issued? -/
def isJobCancel (c : Cmd) : Bool := c.q = 64 && opcodeOf c = 0x15

/-- Cancel a request of a closing job. -/
def cancelFor (s : State) (t job h : Nat) : State := sysSend s (selfId s) (.command (jobCancel s t job h) [h])

/-- Is an ADMIT of the job in hand (04 R105: it adds its handle when it completes)? -/
def admitInHand (s : State) (t job : Nat) : Bool :=
  s.host.slots.any fun x => x.inHand && opcodeOf x.cmd = 0x10 && x.cmd.src.isNone && jobOf x.cmd = job && cmdTenant s x.cmd = t

/-- A closing job with no CANCEL, no ADMIT in hand and no tray region left: its groups, masks and freeze go, every JOB_CLOSE of it completes, and the job count falls by
one (16 R463, R483). Every JOB_CLOSE reports the same count: DESIGN CHOICE, log entry 141. -/
def settleJob (s : State) (t job : Nat) : State :=
  match tget s.host.jobs (t, job) with
  | none => s
  | some j =>
    if j.closing && j.cancels = [] && j.keys = [] && !admitInHand s t job then
      let s1 := { s with
        host := { s.host with jobs := tdel s.host.jobs (t, job) }
        tray := { s.tray with
          groups := s.tray.groups.filter fun (g : Nat × TrayGroup) => !(g.2.tenant = t && g.2.job = job)
          masks := tdel s.tray.masks (t, job)
          frozen := s.tray.frozen.filter fun (f : Nat × Nat) => !(f = (t, job)) } }
      j.waiters.foldl (fun st id => finish st id Status.ok j.okCount 0) s1
    else s

/-- A CANCEL of JOB_CLOSE has completed: OK, REQUEST_FINAL and REQUEST_UNKNOWN are final for its request; any other is issued again. -/
def cancelDone (s : State) (t job h status : Nat) : State :=
  match tget s.host.jobs (t, job) with
  | none => s
  | some j =>
    if status = Status.ok || status = Status.requestFinal || status = Status.requestUnknown then
      let j1 := { j with cancels := j.cancels.erase h, okCount := j.okCount + (if status = Status.ok then 1 else 0) }
      settleJob { s with host := { s.host with jobs := tset s.host.jobs (t, job) j1 } } t job
    else cancelFor s t job h

/-- The slot from which a command went to its owner: the tag names it, and the command in it is the one that went. -/
def forwardedSlot (s : State) (c : Cmd) : Option Slot :=
  match slotById s c.tag with
  | some x => if x.inHand && x.sentTo.isSome && x.cmd.src.isNone && decide (x.cmd = { c with tag := 0 }) then some x else none
  | none => none

/-- FORWARDED_COMPLETION_ARRIVAL (01 R12, R601): posted on the accepting module, or discarded where the command has been completed. The results of
a VECTOR_SEARCH that ran on its TARGET are written to OUT_REF first (12_vector_search.md R369). -/
def execForwardedCompletionArrival (c : Cmd) (status r0 r1 : Nat) (data : List (Byte × Bool)) (s : State) : Host.Outcome State Fault Refusal :=
  let s0 := sysTaken (sysTaken s (.completion c status r0 r1)) (.found c status r0 r1 data)
  match forwardedSlot s0 c with
  | some x =>
    let s1 := if data = [] || !(opcodeOf c = 0x5C) then s0 else refWrite s0 x.id (cmdTenant s0 c) (refOf c.w3) 0 data
    ordinary s (finishWith (forget s1 x.id) x.id status r0 r1 true)
  | none =>
    if isJobCancel c then quiet s (cancelDone s0 (handleTenant (handleOf c)) (jobOf c) (handleOf c) status)
    else quiet s s0

/-- WAIT_RELEASE_REPORT (08 R263): the owner has released the forwarded command, so later commands of its queue may start. -/
def execWaitReleaseReport (c : Cmd) (s : State) : Host.Outcome State Fault Refusal :=
  let s0 := sysTaken s (.released c)
  match forwardedSlot s0 c with
  | some x => if x.phase = .waiting .tag then quiet s (setPhase (noteOrder s0 x.id) x.id (.waiting .remote)) else quiet s s0
  | none => quiet s s0

end Sys2Proof.Machine
end

