-- ==== Sys2Proof/Machine/Egress.lean ====
section
/-!
DEFINITION. What the units put on the fabric: routes, egress queues, headers and the receive buffers
(14_fabric_ports_and_addressing.md R407, R408, R411, R418, R419; 15_message_transport.md R438; 17_shaping_and_budgets.md R488, R493).
-/
namespace Sys2Proof.Machine

def setFab (s : State) (f : Fab) : State := { s with fab := f }

/-! ### Links (R403, R404) -/

/-- PORT.BREAKOUT of a port. -/
def breakoutOf (s : State) (p : Nat) : Nat := ((s.image.ports.find? (·.port = p)).map (·.breakout)).getD 0

/-- Links of a port (Table 14.1). -/
def linksOf (s : State) (p : Nat) : Nat :=
  match breakoutOf s p with
  | 0 => 1
  | 1 => 2
  | _ => 4

/-- Rate of the links of a port in Gb/s (Table 14.1). -/
def linkRate (s : State) (p : Nat) : Nat := 800 / linksOf s p

/-- Is the link within the breakout of a fitted port? -/
def linkExists (s : State) (p sub : Nat) : Bool := p < s.order.ports && sub < linksOf s p

def linkOn (s : State) (p sub : Nat) : Bool := (fnState s (.link p sub)).st = .on

/-- All links of the fitted ports. -/
def allLinks (s : State) : List (Nat × Nat) :=
  (List.range s.order.ports).flatMap fun p => (List.range (linksOf s p)).map fun k => (p, k)

/-- Links that are ON. -/
def linksOn (s : State) : List (Nat × Nat) := (allLinks s).filter fun l => linkOn s l.1 l.2

/-! ### Routes (R412, R419) -/

/-- The paths of a destination: a slot entry within the module's tray, else a tray entry. -/
def routeTo (s : State) (dest : Nat) : List RoutePath :=
  if dest / 32 = selfId s / 32 then tgetD s.fab.slotRoutes (dest % 32) [] else tgetD s.fab.trayRoutes (dest / 32) []

/-- The usable paths, in ascending path index. -/
def usablePaths (s : State) (dest : Nat) : List RoutePath := (routeTo s dest).filter fun p => linkOn s p.port p.sub

/-- Usable path number ENTROPY mod U (R419). -/
def pathOf (s : State) (dest entropy : Nat) : Option RoutePath :=
  let l := usablePaths s dest
  l[entropy % l.length]?

/-! ### Headers (R408, R411, 15 R436, R438) -/

def setSeq (s : State) (e n : Nat) : State :=
  let keep := s.xport.lastSeq.filter fun x => epochOf s.time ≤ x.1 + 1
  { s with xport := { s.xport with lastSeq := tset keep e n } }

/-- SEQ of a transmission now whose STAMP lies in epoch `e` (15 R438). -/
def nextSeq (s : State) (e : Nat) : Nat :=
  max (match tget s.xport.lastSeq e with | some n => n + 1 | none => 0) (32 * (s.time - 2 ^ 40 * e))

/-- Complete a base header as its packet leaves. -/
def stampBase (s : State) (b : BaseHdr) (stamp : Nat) : BaseHdr × State :=
  let e := epochOf stamp
  let n := nextSeq s e
  ({ b with version := 1, locked := holdsTime s, membership := s.fab.epoch % 2 ^ 32, src := selfId s, stamp := stamp, keyEpoch := e % 256, seq := n },
   setSeq s e n)

/-- A base header before it leaves. -/
def baseHdr (kind cls dest entropy len : Nat) : BaseHdr :=
  { version := 1, kind := kind, cls := cls, locked := false, entropy := entropy, membership := 0, dest := dest, src := 0x3FFFF, length := len,
    stamp := 0, keyEpoch := 0, seq := 0 }

/-- Bytes of a frame around a packet (Table 14.2): Ethernet header, tag and frame check sequence, and under ENCAP 1 the IPv6 and UDP headers. -/
def encapBytes (s : State) : Nat := if s.image.fabric.encap = 0 then 22 else 70

/-- Bytes of a frame with a payload of `n` bytes: base header, payload, authentication tag. -/
def frameBytes (s : State) (n : Nat) : Nat := encapBytes s + 32 + n + 16

/-- A frame of the module. -/
def frameOf (s : State) (link bytes : Nat) (p : Payload) : Frame :=
  { checkOk := true, etype := if s.image.fabric.encap = 0 then s.image.fabric.ethertype else s.image.fabric.udpPort, link := link,
    authentic := true, bytes := bytes, payload := p }

/-! ### Egress queues (17 R488, R493) -/

def enqueue (s : State) (port sub cls q : Nat) (x : Queued) : State :=
  { s with shape := { s.shape with queues := tupd s.shape.queues (port, sub, cls, q) [] (· ++ [x]) } }

/-- A frame of the link-control queue, requester 8 (17 R493). -/
def enqueueControl (s : State) (port sub bytes : Nat) (p : Payload) : State :=
  enqueue s port sub 8 0 { tenant := none, bytes := bytes, exempt := true, frame := frameOf s 0 bytes p }

/-- A packet of KIND 0 or 1: it takes the path that ENTROPY selects, and a queue of its tenant. False where no path is usable. -/
def enqueuePacket (s : State) (dest entropy cls : Nat) (tenant : Option Nat) (exempt : Bool) (bytes : Nat) (p : Payload) : Option State :=
  match pathOf s dest entropy with
  | none => none
  | some r =>
    some (enqueue s r.port r.sub cls (tenant.getD 16)
      { tenant := tenant, bytes := bytes, exempt := exempt, frame := frameOf s (r.farPort * 4 + r.farSub) bytes p })

/-! ### Messages to the fabric manager (R416, R418) -/

/-- Send a KIND 3 message to the source of the most recent authenticated KIND 3 packet, by the link it came by (R416), while a secret is in
force (19 R545). DEDUCED, log entry 87. -/
def sendControlMessage (s : State) (c : Control) (bytes : Nat) : State :=
  match s.fab.fmAt with
  | none => s
  | some (p, k) =>
    if linkOn s p k && (secretFor s (epochOf s.time)).isSome && !s.rel.quarantined then
      enqueueControl s p k (frameBytes s (16 + bytes)) (.control (baseHdr 3 7 0x3FFFF 0 (16 + bytes)) 0 1 c)
    else s

/-- Send MEMBERSHIP_REQUEST, at most once per millisecond (R418). DEDUCED, log entry 87. -/
def requestMembership (s : State) : State :=
  let recent := match s.fab.requestAt with
    | some t => s.mono < t + 1000000
    | none => false
  if recent || s.fab.fmAt.isNone then s
  else sendControlMessage { s with fab := { s.fab with requestAt := some s.mono } } (.membershipRequest s.fab.epoch) 8

/-! ### Receive buffers (R407) -/

/-- Reasons for which a packet is dropped and counted. -/
abbrev dropCheck : Nat := 0
abbrev dropType : Nat := 1
abbrev dropVersion : Nat := 2
abbrev dropDest : Nat := 3
abbrev dropTime : Nat := 4
abbrev dropExpired : Nat := 5
abbrev dropAuth : Nat := 6
abbrev dropMember : Nat := 7
abbrev dropFormat : Nat := 8
abbrev dropStale : Nat := 9
abbrev dropAnnounce : Nat := 10
abbrev dropAssign : Nat := 11
abbrev dropControl : Nat := 12
abbrev dropConflict : Nat := 13
abbrev dropCredit : Nat := 14
abbrev dropTray : Nat := 15
abbrev dropQuarantine : Nat := 16
abbrev dropRoom : Nat := 17
abbrev dropIsland : Nat := 19

/-- Drop and count. -/
def dropped (s : State) (why : Nat) : State := { s with fab := { s.fab with dropped := tupd s.fab.dropped why 0 (· + 1) } }

/-- Bytes that a class of a link holds in its receive buffer. DEDUCED, log entry 86. -/
def fillOf (s : State) (p k c : Nat) : Nat := tgetD s.fab.rxFill (p, k, c) 0

/-- Pause a class of the link partner at 48 KiB, release it below 24 KiB (R407). DEDUCED, log entry 98. -/
def flowControl (s : State) (p k c : Nat) : State :=
  let fill := fillOf s p k c
  let on := s.fab.rxPaused.contains (p, k, c)
  if !on && 49152 ≤ fill then
    enqueueControl { s with fab := { s.fab with rxPaused := (p, k, c) :: s.fab.rxPaused } } p k 64 (.pfc [(c, true)])
  else if on && fill < 24576 then
    enqueueControl { s with fab := { s.fab with rxPaused := s.fab.rxPaused.erase (p, k, c) } } p k 64 (.pfc [(c, false)])
  else s

/-- Put an item into the receive buffer of its link and class: 64 KiB, beyond which the frame is lost. DEDUCED, log entry 86. -/
def bufferItem (s : State) (x : InFrame) : State :=
  let s1 := { s with fab := { s.fab with inbox := s.fab.inbox ++ [x] } }
  if 16 ≤ x.port then s1
  else if 65536 < fillOf s x.port x.sub x.cls + x.bytes then dropped s dropRoom
  else flowControl { s1 with fab := { s1.fab with rxFill := tupd s1.fab.rxFill (x.port, x.sub, x.cls) 0 (· + x.bytes) } } x.port x.sub x.cls

/-- A unit takes an item: it leaves the receive buffer. -/
def takeItem (s : State) (i : Inbound) : State :=
  match s.fab.inbox.find? fun x => decide (x.item = i) with
  | none => s
  | some x =>
    let s1 := { s with fab := { s.fab with inbox := s.fab.inbox.erase x } }
    if x.port < 16 then
      flowControl { s1 with fab := { s1.fab with rxFill := tupd s1.fab.rxFill (x.port, x.sub, x.cls) 0 (· - x.bytes) } } x.port x.sub x.cls
    else s1

/-- The link by which an item came, if it waits in a receive buffer. -/
def itemFrom (s : State) (i : Inbound) : Option (Nat × Nat) :=
  (s.fab.inbox.find? fun x => decide (x.item = i)).map fun x => (x.port, x.sub)

end Sys2Proof.Machine
end

