-- ==== Sys2Proof/Machine/PrefixSets.lean ====
section
/-!
DEFINITION. Chain hashes and prefix sets (06_kv_pages_and_tiers.md R196–R201; 11_associative_search.md R332).
-/
namespace Sys2Proof.Machine

/-- The first 16 bytes of SHA-384 over the fields of R196, as the 128-bit number that they store. DEDUCED, log entry 47. -/
def chainHash (prev model adapter version tenant : Nat) (tokens : List Nat) : Nat :=
  let m := leBytes 16 prev ++ leBytes 2 model ++ leBytes 2 adapter ++ leBytes 2 version ++ leBytes 1 tenant ++ tokens.flatMap (leBytes 4)
  leNat ((beBytes 48 (Config.sha384 m).toNat).take 16)

/-- The chain hashes of the first `n` blocks of a request, in order. DEDUCED, log entry 47. -/
def chainHashes (r : ReqRec) (log : List Nat) : Nat → Nat → Nat → List Nat
  | 0, _, _ => []
  | n + 1, k, prev =>
    let x := chainHash prev r.model r.adapter r.adapterVersion (handleTenant r.handle) ((log.drop (256 * k)).take 256)
    x :: chainHashes r log n (k + 1) x

/-- The banks of a tenant with a use (11 R330), in ascending order; a bank that is ABSENT takes no part (11 R342). -/
def banksOf (s : State) (t use : Nat) : List Nat :=
  (List.range 32).filter fun b =>
    bit ((tenantRec s t).elim 0 (·.camBanks)) b && (tgetD s.comp.banks b Bank.fresh).use = use && !((fnState s (.bank b)).st = .absent)

/-- The lowest free entry of a list of banks of width 1, as bank × 4,096 + row (11 R332). -/
def lowestFree (s : State) : List Nat → Option Nat
  | [] => none
  | b :: r =>
    let used := (tgetD s.comp.banks b Bank.fresh).entries.map (·.1)
    let x := freeNumber 0 used
    if x < 4096 then some (b * 4096 + x) else lowestFree s r

/-- The set of a tenant with a chain hash. -/
def findSet (s : State) (t hash : Nat) : Option (Nat × PrefixSet) := s.tier.prefixes.find? fun p => p.1 < indexRows && p.2.tenant = t && p.2.hash = hash

/-- One reference of a prefix set goes (R200). A set that has left the index is freed with its last (11 R341). -/
def releaseSet (s : State) (ix : Nat) : State :=
  match tget s.tier.prefixes ix with
  | none => s
  | some p =>
    let s1 := setTier s { s.tier with prefixes := tset s.tier.prefixes ix { p with refs := p.refs - 1 } }
    let s2 := p.dirs.foldl (fun st i => match tget st.tier.dir i with
      | some e => setEntry st i { e with refs := e.refs - 1 }
      | none => st) s1
    if indexRows ≤ ix && p.refs ≤ 1 then dropSet s2 ix else s2

def releaseSets (s : State) (l : List Nat) : State := l.foldl releaseSet s

/-- Refer to a prefix set: REFS of the set and of its pages rise (R198). -/
def referSet (s : State) (ix : Nat) : State :=
  match tget s.tier.prefixes ix with
  | none => s
  | some p =>
    let s1 := setTier s { s.tier with prefixes := tset s.tier.prefixes ix { p with refs := p.refs + 1 } }
    p.dirs.foldl (fun st i => match tget st.tier.dir i with
      | some e => setEntry st i { e with refs := e.refs + 1, age := 0 }
      | none => st) s1

/-- A page entry of a set. -/
def sharedEntry (dir : Nat) : PageEntry := { dir := dir, present := true, full := true, shared := true, pin := false, upto := 256 }

/-- Page entries of a set, by layer. -/
def setEntries (p : PrefixSet) : Tab (Nat × Nat) PageEntry :=
  (List.range p.dirs.length).map fun l => ((l, p.block), sharedEntry (p.dirs.getD l 0))

/-- Enter page entries into a page list. -/
def enterPages (t : Tab (Nat × Nat) PageEntry) (l : Tab (Nat × Nat) PageEntry) : Tab (Nat × Nat) PageEntry := l.foldl (fun t e => tset t e.1 e.2) t

/-- The directory entries of a request's own pages become those of a set: KIND 1, BACK the set's index. -/
def makeSetPages (s : State) (ix : Nat) (dirs : List Nat) : State :=
  dirs.foldl (fun st i => match tget st.tier.dir i with
    | some e => setEntry st i { e with kind := 1, back := ix, refs := 1 }
    | none => st) s

/-- What publishing a block does (R199). -/
inductive Published where
  | none
  | new
  | merged
deriving DecidableEq, Repr

/-- Publish one block: a new set at the lowest free index entry, or the set that matches (R199, 11 R332). DEDUCED, log entry 48. -/
def publishBlock (s : State) (o : Owned) (k hash layers : Nat) : Published × State × Owned :=
  let t := handleTenant o.record.handle
  let dirs := (List.range layers).map fun l => (tget o.pages (l, k)).elim 0 (·.dir)
  match findSet s t hash with
  | some (ix, p) =>
    if o.refs.contains ix then (.merged, s, { o with blocks := tset o.blocks k hash })
    else
      let own := (o.pages.filter fun q => q.1.2 = k && q.2.present && !q.2.shared).map fun q => q.2.dir
      let s1 := referSet (freeEntries s own) ix
      (.merged, s1, { o with pages := enterPages o.pages (setEntries p), blocks := tset o.blocks k hash, refs := o.refs ++ [ix] })
  | none =>
    match lowestFree s (banksOf s t 1) with
    | none => (.none, s, o)
    | some ix =>
      let bank := tgetD s.comp.banks (ix / 4096) Bank.fresh
      let e : CamEntry := { key := hash, mask := 0, priority := 0, masked := false, poison := false }
      let p : PrefixSet := { refs := 1, tenant := t, model := o.record.model, adapter := o.record.adapter, version := o.record.adapterVersion,
                             block := k, hash := hash, dirs := dirs }
      let s1 := { s with
        comp := { s.comp with banks := tset s.comp.banks (ix / 4096) { bank with entries := tset bank.entries (ix % 4096) e } }
        tier := { s.tier with prefixes := tset s.tier.prefixes ix p } }
      (.new, makeSetPages s1 ix dirs, { o with pages := enterPages o.pages (setEntries p), blocks := tset o.blocks k hash, refs := o.refs ++ [ix] })

/-- Publish blocks in order: how many became sets, how many merged, and whether the index was full. DEDUCED, log entry 48. -/
def publishBlocks (s : State) (o : Owned) (layers : Nat) : List (Nat × Nat) → Nat × Nat → (Nat × Nat) × Bool × State × Owned
  | [], n => (n, false, s, o)
  | (k, hash) :: r, n => match publishBlock s o k hash layers with
    | (.none, s1, o1) => (n, true, s1, o1)
    | (.new, s1, o1) => publishBlocks s1 o1 layers r (n.1 + 1, n.2)
    | (.merged, s1, o1) => publishBlocks s1 o1 layers r (n.1, n.2 + 1)

end Sys2Proof.Machine
end

