-- ==== Sys2Proof/Machine/Owners.lean ====
section
/-!
DEFINITION. Owned requests and handoffs as the Tongs engine keeps them (05_request_state_and_ownership.md R140–R148, R158, R159).
-/
namespace Sys2Proof.Machine

/-! ### Freeing and adopting -/

/-- The request's hold on its adapter version goes (09_experts_and_weight_streaming.md R285). -/
def releaseAdapter (s : State) (o : Owned) : State :=
  let hit := fun (a : AdVer) => a.tenant = handleTenant o.record.handle && a.adapter = o.record.adapter && a.version = o.record.adapterVersion
  if o.adapterRef then
    { s with comp := { s.comp with adapters := s.comp.adapters.map fun a => if hit a then { a with refs := a.refs - 1 } else a } }
  else s

/-- A hold on an adapter version that the module has, taken by an owned request. -/
def holdAdapter (s : State) (o : Owned) : State × Owned :=
  let hit := fun (a : AdVer) => a.tenant = handleTenant o.record.handle && a.adapter = o.record.adapter && a.version = o.record.adapterVersion &&
    !(a.st = .waitRoom)
  if !(o.record.adapter = 0) && !(o.record.adapterVersion = 0) && !o.adapterRef && s.comp.adapters.any hit then
    ({ s with comp := { s.comp with adapters := s.comp.adapters.map fun a => if hit a then { a with refs := a.refs + 1 } else a } },
      { o with adapterRef := true })
  else (s, o)

/-- The request's own pages: directory indices of present pages that no prefix set holds. -/
def ownPages (pages : Tab (Nat × Nat) PageEntry) : List Nat :=
  (pages.filter fun p => p.2.present && !p.2.shared).map fun p => p.2.dir

/-- Free a request's copy: its pages, its references and its working copy (05 R148). -/
def freeOwned (s : State) (h : Nat) : State :=
  match ownedOf s h with
  | none => s
  | some o =>
    let s1 := releaseAdapter (releaseSets (freeEntries s (ownPages o.pages)) o.refs) o
    { s1 with
      req := { s1.req with owned := tdel s1.req.owned h }
      tele := { s1.tele with draftKept := s1.tele.draftKept.filter fun e => e.1.1 ≠ h } }

/-- The record as the owner keeps it: PAGE_LIST and LOG_LOCATOR are addresses of its own (05 Table 5.2). DESIGN CHOICE, log entry 128. -/
def ownedRecord (r : ReqRec) : ReqRec :=
  { r with pageList := (Config.stackAddr 1 r.handle 0).toNat, logLocator := (Config.stackAddr 0 r.handle 0).toNat }

/-- A working copy of a request that has no page yet. -/
def freshOwned (s : State) (r : ReqRec) (log : List Nat) : Owned :=
  { record := ownedRecord r, log := log, pages := [], blocks := [], handoff := none, lastDone := 2 ≤ r.phase, lastStart := s.mono,
    adapterRef := false, refs := [] }

/-- The module owns the request at epoch 1 (05 R157). DEDUCED, log entry 45. -/
def adoptCreate (s : State) (r : ReqRec) (log : List Nat) : State :=
  if (ownedOf s r.handle).isSome then s else setOwned s r.handle (freshOwned s r log)

/-! ### The sender (Table 5.7) -/

/-- A page entry as an OFFER lists it: an absent page has no flag. -/
def offerEntry (o : Owned) (l k : Nat) : OfferPage :=
  match tget o.pages (l, k) with
  | some p => if p.present then { present := true, full := p.full || p.shared, shared := p.shared, pin := p.pin }
      else { present := false, full := false, shared := false, pin := false }
  | none => { present := false, full := false, shared := false, pin := false }

/-- The page entries of an OFFER in layer-major order: page n is layer n / P, index n mod P (06 R169). -/
def offerPages (o : Owned) (layers : Nat) : List OfferPage :=
  (List.range layers).flatMap fun l => (List.range (pageCount o)).map fun k => offerEntry o l k

/-- Layer and index of page n among P page indices (06 R169). -/
def pageKey (p n : Nat) : Nat × Nat := (n / p, n % p)

def offerHashes (o : Owned) : List Nat := (List.range (pageCount o)).map fun k => tgetD o.blocks k 0

/-- The OFFER of a handoff (05 R141). -/
def offerOf (s : State) (o : Owned) (x : Handoff) : Offer :=
  { step := x.step, epoch := x.epoch, target := x.target, sender := selfId s, record := o.record, log := o.log,
    hashes := offerHashes o, pages := offerPages o (layersOf s o.record.handle o.record.model) }

def setHandoff (s : State) (h : Nat) (x : Option Handoff) : State :=
  match ownedOf s h with
  | some o => setOwned s h { o with handoff := x }
  | none => s

/-- Pins of a handoff are taken for its length (06 R179). DEDUCED, log entry 53. -/
def pinAll (s : State) (h : Nat) (l : List Nat) : State := l.foldl (fun st i => pinEntry st (.handoff h) i) s
/-- DEDUCED, log entry 53. -/
def unpinAll (s : State) (h : Nat) (l : List Nat) : State := l.foldl (fun st i => unpinEntry st (.handoff h) i) s

/-- Is it a command of the request that has started here and still runs? -/
def startedSlot (x : Slot) (h : Nat) : Bool :=
  x.members.contains h && x.sentTo.isNone && x.inHand && !x.notStarted && !(x.phase = .waiting .held)

/-- Is it a command of the request that has arrived at its owner, this module, and has not completed (08 R254, 10 R319)? -/
def arrivedSlot (x : Slot) (h : Nat) : Bool :=
  x.members.contains h && x.sentTo.isNone && x.inHand && !(x.phase = .waiting .route) && !(x.phase = .waiting .held)

/-- Started commands of a request that still run here, other than one (05 R140). -/
def startedFor (s : State) (h : Nat) (but : Option Nat) : Bool := s.host.slots.any fun x => startedSlot x h && !(some x.id = but)

/-- Is a decode step of the request in hand (01 R22; 08 Table 8.8 Note 1, 10 R320): an ATTEND_DECODE or a SAMPLE? -/
def decodeInHand (s : State) (h : Nat) : Bool :=
  s.host.slots.any fun x => startedSlot x h && (opcodeOf x.cmd = 0x38 || opcodeOf x.cmd = 0x40)

/-- Phases in which Table 5.11 accepts the command that starts a handoff, and Table 5.4 allows BEGIN_HANDOFF. -/
def handoffPhase (s : State) (slot : Option Nat) (phase : Nat) : Bool :=
  let op := (slot.bind (slotById s)).map fun x => opcodeOf x.cmd
  if op = some 0x13 then phase = 4
  else if op = some 0x14 then phase = 5
  else phase = 2 || phase = 4 || phase = 5

/-- Finish the command that started a handoff. -/
def finishStarter (s : State) (slot : Option Nat) (status r0 r1 : Nat) : State :=
  match slot with
  | some id => finish s id status r0 r1
  | none => s

/-- DECODE_HANDOFF_FAILED (05 R159). -/
def decodeFailed (s : State) (h cause : Nat) : State := if cause = 1 then eventT s 21 0x31 false (some (handleTenant h)) 0 else s

/-- The receiver as the wait of R140 ends: for a PARK the home of now (05 R140), none where it is no live member (R160). -/
def handoffPeer (s : State) (h : Nat) (x : Handoff) : Option Nat :=
  let m := if (x.slot.bind (slotById s)).any fun y => opcodeOf y.cmd = 0x13 then headOf s h else x.peer
  if isMember s m then some m else none

/-- BEGIN_HANDOFF and OFFER, once every started command of the request has completed (05 R140). A receiver that is no live member by then gets
neither (R160). DEDUCED, log entry 46. -/
def beginHandoff (s : State) (h : Nat) : State :=
  match ownedOf s h with
  | none => s
  | some o => match o.handoff with
    | none => s
    | some x =>
      if !(x.st = .draining) || startedFor s h x.slot then s
      else if finalPhase o.record.phase then
        finishStarter (setHandoff s h none) x.slot Status.requestFinal o.record.phase 0
      else if !handoffPhase s x.slot o.record.phase then
        finishStarter (setHandoff s h none) x.slot Status.phaseInvalid 0 0
      else match handoffPeer s h x with
      | none => finishStarter (decodeFailed (setHandoff s h none) h x.cause) x.slot Status.handoffTargetInvalid 0 0
      | some peer =>
        let pins := (o.pages.filter fun p => p.2.present).map fun p => p.2.dir
        let x1 := { x with st := .offered, peer := peer, step := o.record.step + 1, epoch := o.record.epoch, retries := 0, pinned := pins }
        let s1 := pinAll (setOwned s h { o with handoff := some x1 }) h pins
        let s2 := ownStep s1 { o with handoff := some x1 } { stepOf s1 o.record 3 with target := x.target, peer := peer } .handoff
          fun r => { r with prior := r.phase, phase := 3, target := x.target, peer := peer }
        match ownedOf s2 h with
        | some o2 => sysSend s2 peer (.offer (offerOf s2 o2 x1))
        | none => s2

/-- Start a handoff (05 R140). `cause` 1 is DECODE_TARGET, 2 tier pressure, 0 a command. DEDUCED, log entry 46. -/
def startHandoff (s : State) (h peer target : Nat) (slot : Option Nat) (cause : Nat) : State :=
  match ownedOf s h with
  | none => s
  | some o =>
    if o.handoff.isSome then s
    else
      let x : Handoff := { st := .draining, peer := peer, target := target, slot := slot, step := 0, epoch := 0, retries := 0, timer := none,
                           orphanUs := 0, refused := false, toSend := [], pinned := [], cause := cause }
      beginHandoff (setOwned s h { o with handoff := some x }) h

/-- Handoffs whose started commands have all completed begin. DEDUCED, log entry 46. -/
def beginDrained (s : State) : State := (s.req.owned.map (·.1)).foldl beginHandoff s

/-- The CLAIM has committed elsewhere: the sender frees its copy, the command that started the handoff completes, and the commands that are held go to
the receiver (Table 5.7). -/
def handedOver (s : State) (h epoch owner phase : Nat) : State :=
  match ownedOf s h with
  | none => s
  | some o => match o.handoff with
    | none => releaseHeld (freeOwned s h) h (.owner owner phase)
    | some x =>
      releaseHeld (finishStarter (freeOwned (unpinAll s h x.pinned) h) x.slot Status.ok epoch owner) h (.owner owner phase)

/-- The copy is freed because another owner or a later epoch stands in the ledger, or the request is gone; `loc` says which, and the commands that are
held go there or end (Table 5.7). -/
def lostOwnership (s : State) (h status r0 : Nat) (loc : Located) : State :=
  match ownedOf s h with
  | none => s
  | some o => match o.handoff with
    | none => releaseHeld (freeOwned s h) h loc
    | some x => releaseHeld (finishStarter (freeOwned (unpinAll s h x.pinned) h) x.slot status r0 0) h loc

/-- The sender owns the request again (Table 5.7): the phase is resumed, and the command completes under R160, with epoch and owner (Table 5.11). -/
def resumeOwner (s : State) (h phase step : Nat) : State :=
  match ownedOf s h with
  | none => s
  | some o => match o.handoff with
    | none => s
    | some x =>
      let o1 := { o with handoff := none, record := { o.record with phase := phase, peer := 0x3FFFF, step := step } }
      let s1 := decodeFailed (setOwned (unpinAll s h x.pinned) h o1) h x.cause
      finishStarter s1 x.slot (if x.refused then Status.handoffRefused else Status.handoffAborted) o.record.epoch (selfId s)

/-- Issue ABORT_HANDOFF at step s + 1 (Table 5.7). -/
def abortHandoff (s : State) (h : Nat) (refused : Bool) : State :=
  match ownedOf s h with
  | none => s
  | some o => match o.handoff with
    | none => s
    | some x =>
      let s1 := setHandoff s h (some { x with st := .aborting, refused := x.refused || refused, toSend := [], timer := none })
      issue s1 { stepOf s1 o.record 5 with step := x.step + 1, epoch := x.epoch } .handoff

/-- Query the tail (Table 5.7). -/
def querySender (s : State) (h : Nat) : State :=
  match ownedOf s h with
  | none => s
  | some o => match o.handoff with
    | none => s
    | some x => askTail (setHandoff s h (some { x with st := .querying, toSend := [], timer := none })) h .sender

/-- An answer settles the sender (Table 5.7, QUERYING). -/
def answerSender (s : State) (n : Notice) : State :=
  match ownedOf s n.handle with
  | none => s
  | some o => match o.handoff with
    | none => s
    | some x =>
      if !(x.st = .querying) then s
      else if n.status = Status.requestUnknown then lostOwnership s n.handle Status.requestUnknown 0 .unknown
      else if finalPhase n.phase then lostOwnership s n.handle Status.requestFinal n.phase (.final n.phase)
      else if n.epoch = x.epoch + 1 && n.owner = x.peer then handedOver s n.handle n.epoch n.owner n.phase
      else if n.epoch = x.epoch && n.owner = selfId s then
        if n.phase = 3 then
          if x.retries < 2 then
            let x1 := { x with st := .offered, retries := x.retries + 1 }
            sysSend (setHandoff s n.handle (some x1)) x.peer (.offer (offerOf s o x1))
          else abortHandoff s n.handle false
        else resumeOwner s n.handle n.phase n.step
      else lostOwnership s n.handle Status.handoffAborted 0 (.owner n.owner n.phase)

/-- LAST_PAGE_SENT (Table 5.7): the orphan timer starts. -/
def execLastPageSent (h : Nat) (s : State) : Host.Outcome State Fault Refusal :=
  match (ownedOf s h).bind (·.handoff) with
  | some x =>
    if x.st = .sending then quiet s (setHandoff s h (some { x with st := .waiting, toSend := [], timer := some s.mono, orphanUs := orphanUsNow s })) else .next s
  | none => .next s

/-! ### The receiver (Table 5.8) -/

/-- Free what a receiver has reserved and placed. -/
def discardRecving (s : State) (h : Nat) : State :=
  match tget s.req.recving h with
  | none => s
  | some v =>
    let s1 := releaseSets (freeEntries s (ownPages (v.pages.map fun p => (p.1, { p.2 with present := true })))) v.refs
    { s1 with req := { s1.req with recving := tdel s1.req.recving h } }

/-- Transfers of the copy engines end where they began; pins that waited for a demotion are taken (06 Table 6.6). -/
def endMoves (s : State) : State :=
  let s1 := setTier s { s.tier with moves := [] }
  s.tier.moves.foldl (fun st m => match tget st.tier.dir m.1 with
    | some e => takeWaiting (setEntry (freeRunOf st m.2.run) m.1 { e with st := .resident, pins := e.pins.erase .promotion }) m.1
    | none => freeRunOf st m.2.run) s1

/-! ### Loss of objects (06 R174, R185, R194) -/

/-- A page of an owned request is gone: FIRST_MISSING falls at once, and a RECORD step follows (06 R185). -/
def losePage (s : State) (h : Nat) (key : Nat × Nat) : State :=
  match ownedOf s h with
  | none => s
  | some o => lowerMissing (setOwned s h { o with pages := o.pages.map fun p => if p.1 = key then (p.1, p.2.gone) else p }) h

/-- A prefix set loses a page: the set goes whole, and the requests that refer to it lose its block. -/
def loseSet (s : State) (ix : Nat) : State :=
  match tget s.tier.prefixes ix with
  | none => s
  | some p =>
    let users := (s.req.owned.filter fun e => e.2.refs.contains ix).map (·.1)
    let s1 := dropSet s ix
    users.foldl (fun st h => match ownedOf st h with
      | none => st
      | some o =>
        let o1 := { o with refs := o.refs.filter (· ≠ ix), pages := o.pages.map fun q => if q.1.2 = p.block && q.2.shared then (q.1, q.2.gone) else q }
        lowerMissing (setOwned st h o1) h) s1

/-- The stripes of a tensor's run are lost: their lines read as poison until they are written (07_ladle_engines.md R222, R246). -/
def poisonRun (x : Tensor) (run : Nat) : Tensor :=
  let n := ceilDiv x.bytes 65536
  let q := min 20 n
  let lost := (List.range n).filter fun j => j % q = run
  { x with blob := { x.blob with bad := (x.blob.bad ++ lost.flatMap fun j => (List.range 1024).map (1024 * j + ·)).eraseDups } }

/-- A tensor loses a run. -/
def loseTensorRun (s : State) (i : Nat) (e : DirEntry) : State :=
  let s1 := freeEntry s i
  let hit := fun (t : (Nat × Nat) × Tensor) =>
    if t.2.dirs.contains i then (t.1, poisonRun { t.2 with dirs := t.2.dirs.filter (· ≠ i) } e.page) else t
  setTier s1 { s1.tier with tensors := s1.tier.tensors.map hit }

/-- An object other than a weight run of an adapter is lost. -/
def loseObject (s : State) (i : Nat) : State :=
  match tget s.tier.dir i with
  | none => s
  | some e =>
    match e.kind with
    | 0 =>
      if (tget s.req.recving e.back).isSome then discardRecving s e.back else losePage (freeEntry s i) e.back (e.layer, e.page)
    | 1 => loseSet s e.back
    | 2 =>
      let s1 := freeEntry s i
      { s1 with req := { s1.req with replicas := s1.req.replicas.filter fun r => r.2 ≠ i } }
    | _ => loseTensorRun s i e

def loseObjects (s : State) (l : List Nat) : State := l.foldl loseObject s

/-- Does a read of the object fail: a slab whose integrity tag does not match (06 R174), or a grant whose key is revoked (06 R194)? -/
def readFails (s : State) (e : DirEntry) : Bool := 2 ≤ e.tier && (runSpoiled s e.run || runRevoked s e.run)

/-- A read of objects in T2 and T3: one that fails drops the object, with TIER_INTEGRITY where its tag did not match (06 R174, R194). -/
def readObjects (s : State) : List Nat → State
  | [] => s
  | i :: r => match tget s.tier.dir i with
    | none => readObjects s r
    | some e =>
      if !readFails s e then readObjects s r
      else readObjects (loseObject (if runSpoiled s e.run then eventT s 21 0x40 false (some e.tenant) 0 else s) i) r

/-! ### Sending and receiving pages (05 R144, R145) -/

/-- One page as it travels. -/
def pageMessage (s : State) (o : Owned) (k : Nat × Nat) : Option PageData :=
  match tget o.pages k with
  | none => none
  | some p => if p.present then some { layer := k.1, index := k.2, upto := p.upto, blob := tgetD s.tier.data p.dir Blob.zeros } else none

/-- Send pages, in order. -/
def sendPages (s : State) (o : Owned) (dest : Nat) : List (Nat × Nat) → State
  | [] => s
  | k :: r => match pageMessage s o k with
    | some p => sendPages (sysSend s dest (.page o.record.handle p)) o dest r
    | none => sendPages s o dest r

/-- The offered pages whose bit is clear in a PLACED message (05 Table 5.7). -/
def toSendOf (o : Owned) (layers : Nat) (held : List Nat) : List (Nat × Nat) :=
  (List.range (layers * pageCount o)).filterMap fun n =>
    let k := pageKey (pageCount o) n
    if (offerEntry o k.1 k.2).present && !held.contains n then some k else none

/-- Is a Tongs message of this handoff and from its peer (05 Table 5.6)? -/
def Handoff.meets (x : Handoff) (hd : Tongs) : Bool := x.peer = hd.sender && x.epoch = hd.epoch && x.step = hd.step

/-- PLACED (05 R144): every page whose bit is clear is sent. -/
def execPlaced (h sender : Nat) (body : TongsBody) (s : State) : Host.Outcome State Fault Refusal :=
  let hd := body.header h sender
  let held := body.bits
  let s0 := sysTaken s (.placed hd held)
  match ownedOf s0 h with
  | none => quiet s s0
  | some o => match o.handoff with
    | none => quiet s s0
    | some x =>
      if x.st = .offered && x.meets hd then
        let layers := layersOf s0 h o.record.model
        let ask := toSendOf o layers held
        let s1 := readObjects s0 (ask.filterMap fun k => (tget o.pages k).map (·.dir))
        let o1 := (ownedOf s1 h).getD o
        let send := toSendOf o1 layers held
        quiet s (sendPages (setHandoff s1 h (some { x with st := .sending, toSend := send })) o1 hd.sender send)
      else quiet s s0

/-- The number of an offered page (06 R169). -/
def pageNo (o : Offer) (k : Nat × Nat) : Nat := k.1 * o.hashes.length + k.2

/-- The bits of PLACED: the pages that the receiver holds, as shared prefix pages or placed. -/
def heldPages (v : Recving) : List Nat := (v.pages.filter fun p => p.2.present).map fun p => pageNo v.offer p.1

/-- The offered pages that exist, by layer and index. -/
def offeredKeys (o : Offer) : List (Nat × Nat) :=
  (List.range o.pages.length).filterMap fun n => if (o.pages[n]?).elim false (·.present) then some (pageKey o.hashes.length n) else none

/-- Has every offered page been placed? -/
def allPlaced (v : Recving) : Bool := (offeredKeys v.offer).all fun k => (tget v.pages k).elim false (·.present)

/-- Is an offered page sealed? -/
def offeredSealed (o : Offer) (k : Nat × Nat) : Bool := k.2 < o.hashes.length && (o.pages[pageNo o k]?).elim false (·.full)

/-- The header of the receiver's answer to an OFFER (05 Table 5.6). -/
def tongsTo (s : State) (o : Offer) (type reason held : Nat) : Tongs :=
  { handle := o.record.handle, epoch := o.epoch, step := o.step, type := type, target := o.target, reason := reason, sender := selfId s,
    pages := o.pages.length, held := held }

/-- PLACED with the current bitmap. -/
def sendPlaced (s : State) (v : Recving) : State :=
  let l := heldPages v
  sysSend s v.offer.sender (.placed (tongsTo s v.offer 1 0 l.length) l)

/-- REFUSE with reason 0x0B (05 R142). -/
def sendRefuse (s : State) (o : Offer) : State := sysSend s o.sender (.refuse (tongsTo s o 2 0x0B 0))

def setRecving (s : State) (h : Nat) (v : Recving) : State := { s with req := { s.req with recving := tset s.req.recving h v } }

/-- The chain members that hold replicas of the request (05 R143): the first REPLICAS of the chain other than this module. -/
def replicaMembers (s : State) (h n : Nat) : List Nat := ((chainOf s h).eraseDups.filter fun m => m ≠ selfId s).take n

/-- The sets of the receiver's index that match blocks of an offer (06 R201). -/
def sharedSets (s : State) (o : Offer) : List Nat :=
  o.hashes.filterMap fun hash => if hash = 0 then none else (findSet s (handleTenant o.record.handle) hash).map (·.1)

/-- Page entries of shared sets. -/
def sharedEntries (s : State) (sets : List Nat) : Tab (Nat × Nat) PageEntry :=
  sets.flatMap fun ix => (tget s.tier.prefixes ix).elim [] setEntries

/-- Reserve room in T1 or T2 for the pages that the receiver lacks (05 R142). -/
def reservePages (s : State) (h : Nat) (m : ModelDef) : List (Nat × Nat) → Tab (Nat × Nat) PageEntry → Option (Tab (Nat × Nat) PageEntry × State)
  | [], acc => some (acc, s)
  | (l, k) :: r, acc =>
    if (tget acc (l, k)).isSome then reservePages s h m r acc
    else match placePage s h l k 0 m true true with
      | .error _ => none
      | .ok (i, s1) =>
        if ((tget s1.tier.dir i).map (·.tier)) = some 3 then none
        else reservePages s1 h m r (tset acc (l, k) { dir := i, present := false, full := false, shared := false, pin := false, upto := 0 })

/-- May a role serve a target phase (05 R142)? -/
def roleServes (role : Nat) (target : Nat) : Bool := if target = 4 then role = 1 || role = 2 || role = 3 else target = 5 && (role = 2 || role = 3)

/-- The checks of R142 but for room. -/
def offerOk (s : State) (o : Offer) : Bool :=
  roleServes s.image.role.code o.target && (tenantRec s (handleTenant o.record.handle)).isSome && (ownedOf s o.record.handle).isNone &&
    (modelOf s (handleTenant o.record.handle) o.record.model).isSome

/-- What the lack of room for a page tells of T1 (06 R192). -/
def shortFor (s : State) (h : Nat) (m : ModelDef) : Short :=
  { code := Status.tierExhausted, noRun := (takeFirst s (pageSlabs m) (stacksFor s 0 h 0 0)).isNone }

/-- An OFFER in state NONE (Table 5.8). -/
def freshOffer (s0 : State) (o : Offer) : State :=
  let h := o.record.handle
  if !offerOk s0 o then sendRefuse s0 o
  else match modelOf s0 (handleTenant h) o.record.model with
    | none => sendRefuse s0 o
    | some m =>
      let sets := sharedSets s0 o
      let keys := offeredKeys o
      let shared := (sharedEntries s0 sets).filter fun p => keys.contains p.1
      match reservePages (sets.foldl referSet s0) h m keys shared with
      | none => sendRefuse (unplaced s0 (shortFor s0 h m)) o
      | some (pages, s1) =>
        let v : Recving := { st := .receiving, offer := o, pages := pages, timer := s0.mono, orphanUs := orphanUsNow s0, flushing := [],
                             flushed := false, refs := sets }
        sendPlaced (setRecving s1 h v) v

/-- OFFER (Table 5.8). One of another handoff, by its epoch and step, takes the place of the one that the receiver had. DEDUCED, log entry 46. -/
def execOffer (o : Offer) (s : State) : Host.Outcome State Fault Refusal :=
  let s0 := sysTaken s (.offer o)
  let h := o.record.handle
  match tget s0.req.recving h with
  | some v =>
    if v.offer.epoch = o.epoch && v.offer.step = o.step then
      let v1 := { v with timer := s0.mono, orphanUs := orphanUsNow s0 }
      quiet s (sendPlaced (setRecving s0 h v1) v1)
    else quiet s (freshOffer (discardRecving s0 h) o)
  | none => quiet s (freshOffer s0 o)

/-- The content of a page arrives at its directory entry. -/
def putPage (s : State) (dir : Nat) (b : Blob) : State := touch (setTier s { s.tier with data := tset s.tier.data dir b }) dir

/-- Send a sealed page to the replica members (05 R143). -/
def sendReplicas (s : State) (h : Nat) (p : PageData) : List Nat → State
  | [] => s
  | m :: r => sendReplicas (sysSend s m (.replica h (selfId s) p)) h p r

/-- HANDOFF_PAGE_PLACED (Table 5.8). -/
def execHandoffPagePlaced (h : Nat) (p : PageData) (s : State) : Host.Outcome State Fault Refusal :=
  let s0 := sysTaken s (.page h p)
  match tget s0.req.recving h with
  | none => quiet s s0
  | some v => match tget v.pages (p.layer, p.index) with
    | none => quiet s s0
    | some e =>
      if e.present then quiet s s0
      else
        let sealed' := offeredSealed v.offer (p.layer, p.index)
        let v1 := { v with
          pages := tset v.pages (p.layer, p.index) { e with present := true, full := sealed', upto := if sealed' then 256 else p.upto }
          timer := if v.st = .receiving then s0.mono else v.timer
          orphanUs := if v.st = .receiving then orphanUsNow s0 else v.orphanUs }
        let s1 := putPage (setRecving s0 h v1) e.dir p.blob
        quiet s (if sealed' then sendReplicas s1 h p (replicaMembers s1 h v.offer.record.replicas) else s1)

/-- The record of the new owner, which CLAIM carries (Table 5.4) and which the receiver adopts. -/
def claimedRecord (s : State) (v : Recving) : ReqRec :=
  { v.offer.record with epoch := v.offer.epoch + 1, step := v.offer.step + 1, owner := selfId s, phase := v.offer.target, peer := 0x3FFFF, pageList := 0 }

/-- Issue CLAIM at step s + 1 (Table 5.8). -/
def claimHandoff (s : State) (h : Nat) (v : Recving) : State :=
  issue (setRecving s h { v with st := .claiming, timer := s.mono, orphanUs := orphanUsNow s })
    { stepOf s v.offer.record 4 with
      step := v.offer.step + 1, epoch := v.offer.epoch, newPhase := v.offer.target, payload := .claim (claimedRecord s v) } .handoff

/-- Send FLUSH to each of a list of members. -/
def sendFlush (s : State) (h : Nat) : List Nat → State
  | [] => s
  | m :: r => sendFlush (sysSend s m (.flush h (selfId s))) h r

/-- ALL_PAGES_PLACED (05 R143): the first time FLUSH goes to each replica member. `flushed` names members whose FLUSH has completed with OK; once every
one has, CLAIM is issued. -/
def execAllPagesPlaced (r : FlushReport) (s : State) : Host.Outcome State Fault Refusal :=
  let h := r.handle
  match tget s.req.recving h with
  | none => .next s
  | some v =>
    if v.st = .receiving && allPlaced v then
      let ms := replicaMembers s h v.offer.record.replicas
      if !v.flushed && ms ≠ [] then quiet s (sendFlush (setRecving s h { v with flushing := ms, flushed := true }) h ms)
      else
        let rest := v.flushing.filter fun m => !r.flushed.contains m
        if rest = [] then quiet s (claimHandoff s h { v with flushing := [], flushed := true })
        else quiet s (setRecving s h { v with flushing := rest })
    else .next s

/-- A copy of the request's record that this module holds in its ledger. -/
def localRecord (s : State) (h : Nat) : Option ReqRec :=
  match tget s.req.ledger (h, 1) with
  | some e => some e.record
  | none => match tget s.req.ledger (h, 2) with
    | some e => some e.record
    | none => (tget s.req.ledger (h, 3)).map (·.record)

/-- The REFUSE of a replica page, with reason 0x12 (05 R143): it names the epoch and step of the record that the member holds. DEDUCED, log entry 46. -/
def refuseReplica (s : State) (h dest : Nat) : State :=
  let r := localRecord s h
  sysSend s dest (.refuse { handle := h, epoch := (r.map (·.epoch)).getD 0, step := (r.map (·.step)).getD 0, type := 2, target := (r.map (·.target)).getD 0,
                            reason := 0x12, sender := selfId s, pages := 0, held := 0 })

/-- REPLICA_ARRIVAL (05 R143): placed by R182 without its drop step, or refused to the receiver that forwarded it with RECEIVER_NO_ROOM. -/
def execReplicaArrival (h : Nat) (p : ReplicaData) (s : State) : Host.Outcome State Fault Refusal :=
  let sender := p.sender
  let p := p.page
  let s0 := sysTaken s (.replica h sender p)
  match (localRecord s0 h).bind fun r => modelOf s0 (handleTenant h) r.model with
  | none => quiet s (refuseReplica s0 h sender)
  | some m =>
    match tget s0.req.replicas (h, p.layer, p.index) with
    | some i => quiet s (putPage s0 i p.blob)
    | none => match placePage s0 h p.layer p.index 2 m true false with
      | .error e => quiet s (refuseReplica (unplaced s0 e) h sender)
      | .ok (i, s1) =>
        quiet s (putPage { s1 with req := { s1.req with replicas := tset s1.req.replicas (h, p.layer, p.index) i } } i p.blob)

/-- HANDOFF_REFUSE: at the sender the receiver's REFUSE (Table 5.7); at a receiver a replica member's, with which its FLUSH ends
FENCE_UNPLACED (Table 5.8, R143). One of another handoff, by its epoch and step, changes nothing. -/
def execHandoffRefuse (h sender : Nat) (body : TongsBody) (s : State) : Host.Outcome State Fault Refusal :=
  let hd := body.header h sender
  let s0 := sysTaken s (.refuse hd)
  match (ownedOf s0 hd.handle).bind (·.handoff) with
  | some x =>
    if x.meets hd && (x.st = .offered || x.st = .sending || x.st = .waiting) then quiet s (abortHandoff s0 hd.handle true) else quiet s s0
  | none => match tget s0.req.recving hd.handle with
    | some v =>
      if v.st = .receiving && hd.reason = 0x12 && (replicaMembers s0 hd.handle v.offer.record.replicas).contains hd.sender then
        quiet s (sendRefuse (discardRecving s0 hd.handle) v.offer)
      else quiet s s0
    | none => quiet s s0

/-- Blocks of an offer with a chain hash, by index. -/
def offerBlocks (o : Offer) : List (Nat × Nat) :=
  ((List.range o.hashes.length).map fun k => (k, o.hashes.getD k 0)).filter fun e => !(e.2 = 0)

/-- The receiver publishes received blocks whose hash its index lacks, where the tenant has prefix banks (06 R201). -/
def publishReceived (s : State) (o : Owned) : State × Owned :=
  let layers := ((modelOf s (handleTenant o.record.handle) o.record.model).map (·.layers)).getD 0
  if banksOf s (handleTenant o.record.handle) 1 = [] then (s, o)
  else
    let p := publishBlocks s o layers (o.blocks.filter fun e => (List.range layers).all fun l => ((tget o.pages (l, e.1)).elim false (·.full))) (0, 0)
    p.2.2

/-- Adopt a request that was received (Table 5.8). -/
def adoptRecving (s : State) (h firstMissing : Nat) : State :=
  match tget s.req.recving h with
  | none => s
  | some v =>
    let r := ownedRecord { claimedRecord s v with firstMissing := firstMissing }
    let o : Owned := { record := r, log := v.offer.log, pages := v.pages.filter fun p => p.2.present,
                       blocks := offerBlocks v.offer, handoff := none, lastDone := true,
                       lastStart := s.mono, adapterRef := false, refs := v.refs }
    let s1 := { s with req := { s.req with recving := tdel s.req.recving h } }
    let p := holdAdapter s1 o
    let q := publishReceived p.1 p.2
    setOwned q.1 h q.2

/-- An answer settles the receiver (Table 5.8, RQUERY). The notice has no PEER: STEP shows that the handoff is still this one. The orphan timer starts
anew. DEDUCED, log entry 46. -/
def answerReceiver (s : State) (n : Notice) : State :=
  match tget s.req.recving n.handle with
  | none => s
  | some v =>
    if !(v.st = .rquery) then s
    else if n.status = Status.ok && n.epoch = v.offer.epoch + 1 && n.owner = selfId s then adoptRecving s n.handle n.firstMissing
    else if n.status = Status.ok && n.epoch = v.offer.epoch && n.phase = 3 && n.step = v.offer.step then
      if allPlaced v && v.flushed && v.flushing = [] then claimHandoff s n.handle v
      else setRecving s n.handle { v with st := .receiving, timer := s.mono, orphanUs := orphanUsNow s }
    else discardRecving s n.handle

/-- ORPHAN_TIMER_EXPIRY (05 R146): each timer runs for ORPHAN_TIMER as it stood when the timer started (03 Table 3.12). -/
def execOrphanTimerExpiry (h : Nat) (s : State) : Host.Outcome State Fault Refusal :=
  match (ownedOf s h).bind (·.handoff) with
  | some x => match x.timer with
    | some t => if x.st = .waiting && t + x.orphanUs * 1000 ≤ s.mono then quiet s (querySender s h) else .next s
    | none => .next s
  | none => match tget s.req.recving h with
    | some v =>
      if !(v.st = .rquery) && v.timer + v.orphanUs * 1000 ≤ s.mono then quiet s (askTail (setRecving s h { v with st := .rquery }) h .receiver) else .next s
    | none => .next s

/-! ### PREFILLED (05 R158, R159) -/

/-- A sealed page holds 256 positions that the KV length has passed (08_attention.md R252). -/
def sealPages (o : Owned) : Owned :=
  { o with pages := o.pages.map fun p =>
             if p.2.present && p.2.upto = 256 && 256 * (p.1.2 + 1) < o.record.logged then (p.1, { p.2 with full := true }) else p }

/-- The KV length of an owned request has risen: pages whose last position it has passed are sealed (08_attention.md R252). -/
def sealOwned (s : State) (h : Nat) : State :=
  match ownedOf s h with
  | none => s
  | some o => setOwned s h (sealPages o)

/-- The request reaches PREFILLED when its LAST chunk has completed and the append of its first sampled token has committed (05 R158). -/
def tryPrefilled (s : State) (h : Nat) : State :=
  match ownedOf s h with
  | none => s
  | some o =>
    let pending := s.req.issued.any fun i => i.step.handle = h && i.step.kind = 2
    if o.record.phase = 1 && o.lastDone && o.record.promptTokens < o.record.logged && !pending then phaseStep s o 2 .none else s

/-- At PREFILLED a request whose DECODE_TARGET names another module is handed on (05 R159). -/
def handOn (s : State) (h : Nat) : State :=
  match ownedOf s h with
  | none => s
  | some o =>
    if o.record.phase = 2 && !(o.record.decodeTarget = 0x3FFFF) && !(o.record.decodeTarget = selfId s) then
      startHandoff s h o.record.decodeTarget 4 none 1
    else s

end Sys2Proof.Machine
end

