-- ==== Sys2Proof/Machine/Ledger.lean ====
section
/-!
DEFINITION. The ledger: copies, steps, notices, queries, repair and recovery (05_request_state_and_ownership.md R123–R139, R149–R154).
-/
namespace Sys2Proof.Machine

/-! ### Applying a step (R136, R137) -/

/-- Moves of PHASE: those of 01 Table 1.3 that are no handoff, recovery or final move. -/
def phaseMove (a b : Nat) : Bool := (a = 0 && b = 1) || (a = 1 && b = 2) || (a = 2 && b = 4) || (a = 4 && b = 5) || (a = 5 && b = 4)

def appendCount : LPayload → Nat
  | .append ts _ => ts.length
  | _ => 0

/-- The condition of Table 5.4 at a copy: the code of a refusal. -/
def stepRefusal (s : State) (x : LStep) (r : ReqRec) : Option Nat :=
  let no := fun (b : Bool) => if b then none else some Status.stepRefused
  match x.kind with
  | 1 => no (phaseMove r.phase x.newPhase)
  | 2 =>
    let n := appendCount x.payload
    no (1 ≤ n && n ≤ 32 && (r.phase = 2 || r.phase = 4 || (r.phase = 1 && r.logged = r.promptTokens && n = 1)))
  | 3 => no (r.phase = 2 || r.phase = 4 || r.phase = 5)
  | 4 =>
    if 0xFFFFFFFF ≤ r.epoch then some Status.epochExhausted
    else no ((r.phase = 3 && r.peer = x.issuer) || (r.phase = 6 && x.issuer = headOf s x.handle))
  | 5 => no (r.phase = 3)
  | 6 => no (!isMember s r.owner && !finalPhase r.phase && !(r.phase = 6) && x.issuer = headOf s x.handle)
  | 7 => no (!finalPhase r.phase && finalPhase x.newPhase)
  | 8 => no (finalPhase r.phase && r.stepTime + 1000000000 ≤ s.time)
  | 9 => no (!finalPhase r.phase)
  | 10 => none
  | _ => some Status.stepRefused

/-- The effect of Table 5.4 on the record. -/
def stepEffect (x : LStep) (r : ReqRec) : ReqRec :=
  match x.kind with
  | 1 => { r with phase := x.newPhase }
  | 2 => match x.payload with
    | .append ts sm => { r with logged := r.logged + ts.length, sampler := sm }
    | _ => r
  | 3 => { r with prior := r.phase, phase := 3, target := x.target, peer := x.peer }
  | 4 => { r with epoch := r.epoch + 1, owner := x.issuer, phase := if r.phase = 3 then r.target else x.newPhase, peer := 0x3FFFF,
                  firstMissing := x.firstMissing }
  | 5 => { r with phase := r.prior, peer := 0x3FFFF }
  | 6 => { r with prior := if r.phase = 3 then r.prior else r.phase, phase := 6, recoveries := min (r.recoveries + 1) 1023 }
  | 7 => { r with phase := x.newPhase }
  | 9 => { r with firstMissing := x.firstMissing, adapterVersion := x.adapterVersion }
  | _ => r

/-- Tokens that a step appends to the log. -/
def stepTokens (x : LStep) : List Nat :=
  match x.payload with
  | .append ts _ => ts
  | _ => []

/-- What a copy answers: a status, whether the step was already recorded, and the entry after it. -/
structure Applied where
  status : Nat
  repeated : Bool
  entry : Option LEntry
deriving DecidableEq, Repr

/-- Has the member room for one more record and for a token log on the stack of the copy (R133)? DESIGN CHOICE, log entry 21. -/
def ledgerRoom (s : State) (h copy tokens : Nat) : Bool :=
  let k := (copyStacks s h).getD (copy - 1) 0
  s.req.ledger.length < 4194304 &&
    ((spansAt s.tier k).map (·.2)).sum + ceilDiv (growingBytes s k + logBytes tokens) 65536 ≤ stackSlabs s

/-- `apply` of R137 at a copy. STEP_TIME is the time of the copy, which at the tail is that of the commit. DEDUCED, log entry 44. -/
def applyStep (s : State) (copy : Nat) (x : LStep) (e : Option LEntry) : Applied :=
  match e with
  | none =>
    match x.kind, x.payload with
    | 0, .create r prompt =>
      if x.step ≠ 1 then { status := Status.requestUnknown, repeated := false, entry := none }
      else if !ledgerRoom s x.handle copy prompt.length then { status := Status.ledgerFull, repeated := false, entry := none }
      else
        let r1 := { r with epoch := 1, step := 1, stepDigest := x.digest, createDigest := x.digest, stepTime := s.time, pageList := 0,
                              logLocator := (Config.stackAddr 0 x.handle copy).toNat }
        { status := Status.ok, repeated := false, entry := some { record := r1, log := prompt, frozen := none } }
    | _, _ => { status := Status.requestUnknown, repeated := false, entry := none }
  | some v =>
    let r := v.record
    let bad := fun (c : Nat) => ({ status := c, repeated := false, entry := some v } : Applied)
    let same : Applied := { status := Status.ok, repeated := true, entry := some v }
    if x.kind = 0 then (if x.digest = r.createDigest then same else bad Status.stepConflict)
    else if x.epoch ≠ r.epoch then bad Status.epochStale
    else if x.step < r.step then same
    else if x.step = r.step then (if x.digest = r.stepDigest then same else bad Status.stepConflict)
    else if r.step + 1 < x.step then bad Status.stepGap
    else match stepRefusal s x r with
      | some c => bad c
      | none =>
        if x.kind = 8 then { status := Status.ok, repeated := false, entry := none }
        else
          let r1 := { stepEffect x r with step := x.step, stepDigest := x.digest, stepTime := s.time }
          { status := Status.ok, repeated := false, entry := some { v with record := r1, log := v.log ++ stepTokens x } }

/-- The notice that tells of a record (Table 5.5). DESIGN CHOICE, log entry 51. -/
def noticeOf (s : State) (r : ReqRec) (status : Nat) (rep : Bool) (x : LStep) : Notice :=
  { handle := r.handle, epoch := r.epoch, step := r.step, status := status, phase := r.phase, owner := r.owner, repeated := rep,
    firstMissing := r.firstMissing, logged := r.logged, ofStep := x.step, ofKind := x.kind, head := headOf s r.handle,
    membership := s.fab.epoch % 2 ^ 32, body := none }

/-- The reply where no entry holds the handle: the fields of a record are zero. DESIGN CHOICE, log entry 51. -/
def emptyNotice (s : State) (h status : Nat) (x : LStep) : Notice :=
  { handle := h, epoch := 0, step := 0, status := status, phase := 0, owner := 0, repeated := false, firstMissing := 0, logged := 0,
    ofStep := x.step, ofKind := x.kind, head := headOf s h, membership := s.fab.epoch % 2 ^ 32, body := none }

/-- DESIGN CHOICE, log entry 51. -/
def replyFor (s : State) (e : Option LEntry) (status : Nat) (rep : Bool) (x : LStep) : Notice :=
  match e with
  | some v => noticeOf s v.record status rep x
  | none => emptyNotice s x.handle status x

/-- Send a notice to each of a list of modules. -/
def sendNotice (s : State) (n : Notice) : List Nat → State
  | [] => s
  | m :: r => sendNotice (sysSend s m (.notice n)) n r

/-- Who hears of a commit (R129). -/
def noticeTo (s : State) (x : LStep) (before after : Option LEntry) : List Nat :=
  let own := match after with
    | some v => v.record.owner :: (if v.record.peer = 0x3FFFF then [] else [v.record.peer])
    | none => match before with
      | some v => [v.record.owner]
      | none => []
  let prior := match before with
    | some v => if x.kind = 4 then [v.record.owner] else []
    | none => []
  ([headOf s x.handle, x.issuer] ++ own ++ prior).eraseDups

/-- The entry at a copy takes its value after a step. -/
def setEntryAt (s : State) (h copy : Nat) (e : Option LEntry) : State :=
  { s with req := { s.req with ledger := match e with
    | some v => tset s.req.ledger (h, copy) v
    | none => tdel s.req.ledger (h, copy) } }

/-- The head keeps a step that it forwards until its notice comes back (R129). -/
def keepStep (s : State) (x : LStep) : State :=
  { s with req := { s.req with kept := if s.req.kept.contains x then s.req.kept else s.req.kept ++ [x] } }

/-- The head finishes as FAILED a request whose epoch is exhausted (R123). -/
def exhaust (s : State) (copy : Nat) (st : Nat) (e : Option LEntry) : State :=
  match e with
  | some v =>
    if copy = 1 && st = Status.epochExhausted then
      issue s { stepOf s v.record 7 with newPhase := 8, epoch := v.record.epoch } .none
    else s
  | none => s

/-- A copy applies a step, forwards it or commits it, and answers a refusal (R129, R137). DEDUCED, log entry 44. -/
def copyStep (s : State) (copy : Nat) (x : LStep) : State :=
  let before := tget s.req.ledger (x.handle, copy)
  let a := applyStep s copy x before
  if a.status = Status.ok then
    let s1 := setEntryAt s x.handle copy a.entry
    if copy < 3 then
      let s2 := if copy = 1 then keepStep s1 x else s1
      sysSend s2 ((chainOf s2 x.handle).getD copy 0x3FFFF) (.step (copy + 1) x)
    else
      let told := if a.entry.isNone then before else a.entry
      sendNotice s1 (replyFor s1 told Status.ok a.repeated x) (noticeTo s1 x before a.entry)
  else exhaust (sysSend s x.issuer (.notice (replyFor s a.entry a.status false x))) copy a.status a.entry

/-! ### Queries (R130) -/

/-- The tail's answer. -/
def answerOf (s : State) (h : Nat) (whole : Bool) : Notice :=
  let x : LStep := { handle := h, epoch := 0, step := 0, kind := 10, newPhase := 0, target := 0, peer := 0x3FFFF, issuer := 0, digest := 0,
                     membership := 0, firstMissing := 0, logged := 0, adapterVersion := 0, payload := .none }
  match tget s.req.ledger (h, 3) with
  | some e => { noticeOf s e.record Status.ok false x with body := if whole then some (e.record, e.log) else none }
  | none => emptyNotice s h Status.requestUnknown x

/-- Does the member still wait for copies of entries (R131)? -/
def awaitingRepair (s : State) : Bool := !(s.req.repairing = [])

/-- Hold a step or a query (R131, R132). -/
def holdMsg (s : State) (m : HeldMsg) : State := { s with req := { s.req with heldMsgs := s.req.heldMsgs ++ [m] } }

/-- A query under a membership epoch (R130–R132): held under a newer one, discarded from a fenced module, refused under an older one or where this
module is no tail, held while the entry's copy may still come, and otherwise answered. -/
def takeQuery (s : State) (h src : Nat) (whole : Bool) (membership : Nat) : State :=
  if epochNewer membership s.fab.epoch then holdMsg s (.query h src whole membership)
  else if !isMember s src then s
  else if epochNewer s.fab.epoch membership || tailOf s h ≠ selfId s then
    sysSend s src (.answer { answerOf s h false with status := Status.ledgerMoved, body := none })
  else if (tget s.req.ledger (h, 3)).isNone && awaitingRepair s then holdMsg s (.query h src whole membership)
  else sysSend s src (.answer (answerOf s h whole))

/-- LEDGER_QUERY (R130). -/
def execLedgerQuery (h src : Nat) (form : QueryForm) (s : State) : Host.Outcome State Fault Refusal :=
  quiet s (takeQuery (sysTaken s (.query h src form.whole form.membership)) h src form.whole form.membership)

/-! ### Arrival of steps (R131, R132) -/

/-- A step at a copy: held under a newer membership, discarded from a fenced issuer, refused under an older membership, held at a head that freezes the
entry, refused at a module that is not this copy, and held where a repair may still bring the entry. -/
def takeStep (s : State) (copy : Nat) (x : LStep) : State :=
  let e := tget s.req.ledger (x.handle, copy)
  let moved := sysSend s x.issuer (.notice (replyFor s e Status.ledgerMoved false x))
  if epochNewer x.membership s.fab.epoch then holdMsg s (.step copy x)
  else if !isMember s x.issuer then s
  else if epochNewer s.fab.epoch x.membership then moved
  else if e.elim false (·.frozen.isSome) then holdMsg s (.step copy x)
  else if copy = 0 || 3 < copy || !((chainOf s x.handle).getD (copy - 1) 0x3FFFF = selfId s) then moved
  else if e.isNone && awaitingRepair s then holdMsg s (.step copy x)
  else copyStep s copy x

/-- LEDGER_STEP_ARRIVAL (R137). -/
def execLedgerStepArrival (copy : Nat) (x : LStep) (s : State) : Host.Outcome State Fault Refusal :=
  quiet s (takeStep (sysTaken s (.step copy x)) copy x)

/-- Steps and queries that were held come up again, in order of arrival. -/
def replayHeld (s : State) : State :=
  s.req.heldMsgs.foldl (fun st m => match m with
    | .step copy x => takeStep st copy x
    | .query h src whole e => takeQuery st h src whole e) { s with req := { s.req with heldMsgs := [] } }

/-! ### ERASE (R139) -/

/-- LEDGER_ERASE (R139): the head issues ERASE 1,000 ms after FINISH, whose notice has come back. -/
def execLedgerErase (h : Nat) (s : State) : Host.Outcome State Fault Refusal :=
  match tget s.req.ledger (h, 1) with
  | some e =>
    if finalPhase e.record.phase && e.record.stepTime + 1000000000 ≤ s.time && headOf s h = selfId s &&
       s.req.kept.all (fun x => x.handle ≠ h) then
      quiet s (issue s (stepOf s e.record 8) .none)
    else .next s
  | none => .next s

/-! ### Recovery (R150–R152) -/

/-- Issue START_RECOVERY (R150): again, with the same number and digest, where the copy already shows RECOVERING. -/
def startRecovery (s : State) (h : Nat) : State :=
  match tget s.req.ledger (h, 1) with
  | none => s
  | some e =>
    let r := e.record
    if finalPhase r.phase then s
    else
      let x := stepOf s r 6
      let s1 := { s with req := { s.req with
        recovering := tset s.req.recovering h { started := false, claiming := false, limit := false, since := s.mono } } }
      let s2 := if r.phase = 6 then issue s1 { x with step := r.step } .recovery else issue s1 x .recovery
      eventT s2 21 0x32 false (some (handleTenant h)) 0

/-- Recover a request that this module heads and whose owner is fenced, or whose recovery another head has begun (R149, R150). -/
def recoverIfFenced (s : State) (h : Nat) : State :=
  match tget s.req.ledger (h, 1) with
  | none => s
  | some e =>
    if headOf s h = selfId s && !finalPhase e.record.phase && (!isMember s e.record.owner || e.record.phase = 6) &&
       !thas s.req.recovering h then startRecovery s h else s

/-- START_RECOVERY has committed (R150): past the limit the request is finished as FAILED. -/
def recoveryStarted (s : State) (h : Nat) : State :=
  match tget s.req.recovering h, tget s.req.ledger (h, 1) with
  | some v, some e =>
    if s.image.recoveryLimit < e.record.recoveries then
      let s1 := { s with req := { s.req with recovering := tset s.req.recovering h { v with started := true, limit := true } } }
      eventT (issue s1 { stepOf s1 e.record 7 with newPhase := 8 } .recovery) 21 0x33 false (some (handleTenant h)) 0
    else { s with req := { s.req with recovering := tset s.req.recovering h { v with started := true } } }
  | _, _ => s

/-- Replica pages of a request that this module holds, and pages that it received for a handoff: they survive (R150). -/
def survivingHere (s : State) (h : Nat) : Tab (Nat × Nat) PageEntry :=
  let reps := (s.req.replicas.filter fun r => r.1.1 = h).map fun r =>
    ((r.1.2.1, r.1.2.2), ({ dir := r.2, present := true, full := true, shared := false, pin := false, upto := 256 } : PageEntry))
  match tget s.req.recving h with
  | some v => reps ++ v.pages.filter fun p => p.2.present && p.2.full && !reps.any fun q => q.1 = p.1
  | none => reps

/-- Copy survivors from other members into T1 or T2 (R150). One without room there stays absent. -/
def copySurvivors (s : State) (h : Nat) (m : ModelDef) : List PageData → Tab (Nat × Nat) PageEntry → Tab (Nat × Nat) PageEntry × State
  | [], acc => (acc, s)
  | p :: r, acc =>
    if (tget acc (p.layer, p.index)).isSome || !(p.upto = 256) then copySurvivors s h m r acc
    else match placePage s h p.layer p.index 0 m true false with
      | .error e => copySurvivors (unplaced s e) h m r acc
      | .ok (i, s1) =>
        if (tget s1.tier.dir i).any fun e => e.tier = 3 then copySurvivors s h m r acc
        else copySurvivors (putPage s1 i p.blob) h m r (tset acc (p.layer, p.index)
          { dir := i, present := true, full := true, shared := false, pin := false, upto := 256 })

/-- The prefix sets whose pages a page list shares. DEDUCED, log entry 122. -/
def setsOf (s : State) (pages : Tab (Nat × Nat) PageEntry) : Tab Nat PrefixSet :=
  s.tier.prefixes.filter fun p => pages.any fun q => q.2.shared && p.2.dirs.contains q.2.dir

/-- The pending reception of a request that is recovered here ends: what did not survive is freed, and sets that no survivor shares are released.
DEDUCED, log entry 122. -/
def endReception (s : State) (h : Nat) (pages : Tab (Nat × Nat) PageEntry) : State :=
  match tget s.req.recving h with
  | none => s
  | some v =>
    let gone := (v.pages.filter fun p => !p.2.shared && !pages.any fun q => q.2.dir = p.2.dir).map fun p => p.2.dir
    let s1 := releaseSets (freeEntries s gone) (v.refs.filter fun ix => !((setsOf s pages).map (·.1)).contains ix)
    { s1 with req := { s1.req with recving := tdel s1.req.recving h } }

/-- A replica page becomes a KV page of the request that is owned here (06 Table 6.5). -/
def replicaToKv (s : State) (i : Nat) : State :=
  match tget s.tier.dir i with
  | some e => if e.kind = 2 then setEntry s i { e with kind := 0 } else s
  | none => s

/-- The phase in which the head places the request (R152). -/
def recoveredPhase (r : ReqRec) : Nat := r.prior

/-- RECOVERY_CLAIM (R150): the survey ends, survivors are copied and CLAIM is issued. `survivors` are the sealed pages that other live members
hold. -/
def execRecoveryClaim (h : Nat) (survivors : List PageData) (s : State) : Host.Outcome State Fault Refusal :=
  match tget s.req.recovering h, tget s.req.ledger (h, 1) with
  | some v, some e =>
    if !v.started || v.claiming || v.limit then .next s
    else
      let here := survivingHere s h
      let m := modelOf s (handleTenant h) e.record.model
      let got := match m with
        | some d => copySurvivors s h d survivors here
        | none => (here, s)
      let r := e.record
      let o0 := { freshOwned s r e.log with pages := got.1 }
      let layers := (m.map (·.layers)).getD 1
      let fm := lowestMissing o0 layers r.logged
      let s0 := endReception got.2 h got.1
      let s1 := { s0 with req := { s0.req with
        recovering := tset s0.req.recovering h { v with claiming := true }
        replicas := s0.req.replicas.filter fun q => q.1.1 ≠ h
        recovered := tset s0.req.recovered h got.1 } }
      let owner := { r with epoch := r.epoch + 1, step := r.step + 1, owner := selfId s, phase := recoveredPhase r, peer := 0x3FFFF, firstMissing := fm }
      quiet s (issue s1 { stepOf s1 r 4 with newPhase := recoveredPhase r, firstMissing := fm, payload := .claim owner } .recovery)
  | _, _ => .next s

/-- The recovery CLAIM has committed: the head adopts the request (R152). -/
def adoptRecovered (s : State) (h : Nat) : State :=
  match tget s.req.ledger (h, 1) with
  | none => s
  | some e =>
    let pages := tgetD s.req.recovered h []
    let sets := setsOf s pages
    let o := { freshOwned s e.record e.log with
      pages := pages, refs := sets.map (·.1), blocks := sets.foldl (fun t p => tset t p.2.block p.2.hash) [] }
    let s0 := (ownPages pages).foldl replicaToKv s
    let s1 := { s0 with req := { s0.req with recovering := tdel s0.req.recovering h, recovered := tdel s0.req.recovered h } }
    let p := holdAdapter s1 o
    let s2 := setOwned p.1 h p.2
    if isMember s2 o.record.decodeTarget then handOn s2 h else s2

/-- Commands held for a request that has ended complete, in order of arrival (R151, R161): those that name it alone, and with `all` its batches too. -/
def endHeld (s : State) (h status r0 : Nat) (all : Bool) : State :=
  (heldFor s h).foldl (fun st id => match slotById st id with
    | some x => if all || !isBatch x.cmd then finish st id status r0 0 else st
    | none => st) s

/-- A recovery ends without its CLAIM: the pages that it had gathered are freed. -/
def dropRecovery (s : State) (h : Nat) : State :=
  let pages := tgetD s.req.recovered h []
  let s1 := releaseSets (freeEntries s (ownPages pages)) ((setsOf s pages).map (·.1))
  { s1 with req := { s1.req with recovering := tdel s1.req.recovering h, recovered := tdel s1.req.recovered h } }

def recoveryFailed (s : State) (h : Nat) : State :=
  match tget s.req.recovering h with
  | none => s
  | some v =>
    let s1 := dropRecovery s h
    let s2 := if v.limit then endHeld s1 h Status.recoveryLimit 0 false else endHeld s1 h Status.requestFinal 8 false
    releaseHeld s2 h (.final 8)

/-! ### Notices (R125, R129) -/

/-- A request admitted with a job joins it; one whose job is closing is cancelled (04 R105). -/
def joinJob (s : State) (t job h : Nat) : State :=
  match tget s.host.jobs (t, job) with
  | none => s
  | some j =>
    if j.closing then
      let j1 := { j with handles := j.handles ++ [h], cancels := j.cancels ++ [h] }
      cancelFor { s with host := { s.host with jobs := tset s.host.jobs (t, job) j1 } } t job h
    else
      let j1 := { j with handles := j.handles ++ [h] }
      { s with host := { s.host with jobs := tset s.host.jobs (t, job) j1 } }

/-- The next admission count of a tenant (R121). -/
def takeCount (s : State) (t : Nat) : Nat × State :=
  let n := tgetD s.req.admits t 0
  (n, { s with req := { s.req with admits := tset s.req.admits t ((n + 1) % 2 ^ 30) } })

/-- A request handle (Table 5.1). -/
def newHandle (s : State) (t count : Nat) : Nat :=
  t % 16 * 2 ^ 60 + s.fab.entered % 4096 * 2 ^ 48 + selfId s % 2 ^ 18 * 2 ^ 30 + count % 2 ^ 30

/-- CREATE goes again with the next handle (R121). -/
def createAgain (s : State) (slot : Nat) (x : LStep) : State :=
  match x.payload with
  | .create r prompt =>
    let p := takeCount s (handleTenant x.handle)
    let h := newHandle p.2 (handleTenant x.handle) p.1
    issue p.2 { x with handle := h, payload := .create { r with handle := h } prompt } (.admitting slot)
  | _ => s

/-- ADMIT completes: its handle, the head and the owner (Table 5.11). -/
def admitted (s : State) (slot : Nat) (n : Notice) : State :=
  let s1 := match slotById s slot with
    | some x => if jobOf x.cmd = 0 then s else joinJob s (cmdTenant s x.cmd) (jobOf x.cmd) n.handle
    | none => s
  finish s1 slot Status.ok n.handle (headOf s n.handle % 2 ^ 18 * 2 ^ 46 + n.owner % 2 ^ 18 * 2 ^ 28)

/-- A command that waited for this step alone completes (Table 5.11). -/
def finishIssued (s : State) (mine : Option Issued) : State :=
  match mine with
  | some i => match i.why with
    | .finish slot r0 r1 => finish s slot Status.ok r0 r1
    | _ => s
  | none => s

/-- What a committed step means to the module that hears of it (Tables 5.7, 5.8; R150, R157–R159). -/
def committed (s : State) (n : Notice) (mine : Option Issued) : State :=
  let h := n.handle
  match n.ofKind with
  | 0 =>
    let s1 := if n.owner = selfId s then
        match mine with
        | some i => match i.step.payload with
          | .create r prompt => adoptCreate s { r with epoch := 1, step := 1, stepDigest := i.step.digest, createDigest := i.step.digest } prompt
          | _ => s
        | none => if (ownedOf s h).isSome then s else askTail s h .refresh
      else s
    match mine with
    | some i => match i.why with
      | .admitting slot => admitted s1 slot n
      | _ => s1
    | none => s1
  | 1 => if n.phase = 2 then handOn s h else s
  | 2 => tryPrefilled (sealOwned s h) h
  | 4 =>
    if n.owner = selfId s then
      match tget s.req.recving h, tget s.req.recovering h with
      | some v, _ =>
        if !(v.st = .receiving) && n.epoch = v.offer.epoch + 1 && n.ofStep = v.offer.step + 1 then adoptRecving s h n.firstMissing else s
      | none, some v => if v.claiming then adoptRecovered s h else s
      | none, none => s
    else match ownedOf s h with
      | none => s
      | some o => match o.handoff with
        | some x =>
          if !(x.st = .draining) && !(x.st = .owning) && n.epoch = x.epoch + 1 && n.owner = x.peer then handedOver s h n.epoch n.owner n.phase
          else if o.record.epoch < n.epoch then lostOwnership s h Status.handoffAborted 0 (.owner n.owner n.phase)
          else s
        | none => if o.record.epoch < n.epoch then lostOwnership s h Status.handoffAborted 0 (.owner n.owner n.phase) else s
  | 5 => match (ownedOf s h).bind (·.handoff) with
    | some x => if x.st = .aborting then resumeOwner s h n.phase n.step else s
    | none => s
  | 6 => match mine with
    | some i => if i.why = .recovery then recoveryStarted s h else s
    | none => s
  | 7 => lostOwnership (endHeld (recoveryFailed s h) h Status.requestFinal n.phase false) h Status.requestFinal n.phase (.final n.phase)
  | _ => s

/-- The effect of a refused step leaves the working copy, with that of every step after it (R125). -/
def rollBack (s : State) (h : Nat) (i : Issued) : State :=
  match ownedOf s h, i.before with
  | some o, some r => if r.step < o.record.step then setOwned s h { o with record := r, log := o.log.take r.logged } else s
  | _, _ => s

/-- A refused CREATE (R121), and other refused steps (R125, Tables 5.7, 5.8; R123). A handoff CLAIM that is refused for any reason leaves the receiver to
query the tail. DEDUCED, log entry 46. -/
def refusedStep (s0 : State) (n : Notice) (i : Issued) : State :=
  let h := n.handle
  let s := rollBack s0 h i
  match i.why with
  | .admitting slot => if n.status = Status.stepConflict then createAgain s slot i.step else fail s slot n.status
  | .command slot =>
    let s1 := { s with req := { s.req with issued := s.req.issued.filter fun j => !decide (j.why = .command slot) } }
    askTail (fail s1 slot n.status) h .refresh
  | .finish slot _ _ =>
    let s1 := { s with req := { s.req with issued := s.req.issued.filter fun j => !decide (j.why = .command slot) } }
    askTail (fail s1 slot n.status) h .refresh
  | .none => if (ownedOf s h).isSome then askTail s h .refresh else s
  | .recovery => dropRecovery s h
  | .handoff =>
    match i.step.kind with
    | 3 => querySender s h
    | 5 => match (ownedOf s h).bind (·.handoff) with
      | some x =>
        if (n.status = Status.epochStale || n.status = Status.stepConflict) && n.epoch = x.epoch + 1 && n.owner = x.peer then
          handedOver s h n.epoch n.owner n.phase
        else querySender s h
      | none => s
    | _ => match tget s.req.recving h with
      | some v => askTail (setRecving s h { v with st := .rquery }) h .receiver
      | none => s

/-- LEDGER_MOVED (R132): the step is sent again once the epoch of the reply has been adopted. -/
def movedStep (s : State) (n : Notice) (i : Issued) : State :=
  if !epochNewer n.membership s.fab.epoch then reissue s i
  else
    requestMembership { s with req := { s.req with issued := s.req.issued.map fun j =>
      if j.step.handle = i.step.handle && j.step.step = i.step.step then { j with after := some n.membership } else j } }

/-- The head hears of a commit (R129): it keeps the step no longer, and dates its record from now, which is no earlier than the commit (R139). DEDUCED,
log entry 44. -/
def headHears (s : State) (n : Notice) : State :=
  let mine := fun (x : LStep) => x.handle = n.handle && x.step = n.ofStep
  let s1 := { s with req := { s.req with kept := s.req.kept.filter fun x => !mine x } }
  if s.req.kept.any mine then
    { s1 with req := { s1.req with ledger := tmod s1.req.ledger (n.handle, 1) fun e =>
      if e.record.step = n.ofStep then { e with record := { e.record with stepTime := s.time } } else e } }
  else s1

/-- LEDGER_NOTICE (R129). -/
def takeNotice (s : State) (n : Notice) : State :=
  let s0 := if n.status = Status.ok then headHears s n else s
  match s0.req.issued.find? fun i => i.step.handle = n.handle && i.step.step = n.ofStep && i.step.kind = n.ofKind with
  | none => if n.status = Status.ok then committed s0 n none else s0
  | some i =>
    if n.status = Status.ledgerMoved then movedStep s0 n i
    else
      let s1 := { s0 with req := { s0.req with issued := s0.req.issued.erase i } }
      if n.status = Status.ok then finishIssued (committed s1 n (some i)) (some i) else refusedStep s1 n i

def execLedgerNotice (n : Notice) (s : State) : Host.Outcome State Fault Refusal := quiet s (takeNotice (sysTaken s (.notice n)) n)

/-! ### Answers (R130, R144, R145) -/

/-- The working copy is brought to the committed record (R125), or the request is adopted at epoch 1 (R157), or it is another's (Table 5.7). -/
def refreshed (s : State) (n : Notice) : State :=
  match n.body with
  | none => if n.status = Status.ok then s else lostOwnership s n.handle Status.requestUnknown 0 .unknown
  | some (r, log) =>
    match ownedOf s n.handle with
    | none => if r.owner = selfId s && r.epoch = 1 && !finalPhase r.phase && !(r.phase = 6) then adoptCreate s r log else s
    | some o =>
      if finalPhase r.phase then lostOwnership s n.handle Status.requestFinal r.phase (.final r.phase)
      else if r.owner ≠ selfId s || o.record.epoch < r.epoch then lostOwnership s n.handle Status.handoffAborted 0 (.owner r.owner r.phase)
      else setOwned s n.handle { o with record := { ownedRecord r with placed := o.record.placed }, log := log }

/-- The location that an answer gives. -/
def locatedOf (n : Notice) : Located :=
  if n.status ≠ Status.ok then .unknown else if finalPhase n.phase then .final n.phase else .owner n.owner n.phase

/-- LOG_READ and RECORD_READ write what the tail holds (R156). Writes to host memory are placed as R40 says. -/
def finishRead (s : State) (slot : Nat) (n : Notice) : State :=
  match slotById s slot with
  | none => s
  | some x =>
    let c := x.cmd
    match n.body with
    | none => if n.status = Status.ok then s else fail s slot n.status
    | some (r, log) =>
      if finalPhase r.phase then finish s slot Status.requestFinal r.phase 0
      else if opcodeOf c = 0x17 then
        let start := fld c.w3 63 32
        let count := fld c.w3 31 0
        if !(fld c.w2 1 0 = 0) then fail s slot Status.operandRange
        else if count = 0 || log.length < start + count then fail s slot Status.logRange
        else
          let bs := ((log.drop start).take count).flatMap (leBytes 4)
          finish (refWrite s slot (cmdTenant s c) (.host c.w2.toNat) 0 (clean bs)) slot Status.ok count 0
      else if !(fld c.w2 5 0 = 0) then fail s slot Status.operandRange
      else finish (refWrite s slot (cmdTenant s c) (.host c.w2.toNat) 0 (clean (recordBytes { r with pageList := 0 }))) slot Status.ok 0 0

/-- One query is answered. -/
def answerOne (n : Notice) (s : State) (a : Ask) : State :=
  match a.asker with
  | .forward slot => { s with req := { s.req with known := s.req.known ++ [(slot, n.handle, locatedOf n)] } }
  | .sender => answerSender s n
  | .receiver => answerReceiver s n
  | .refresh => refreshed s n
  | .read slot => finishRead s slot n

/-- LEDGER_ANSWER (R144): every query that the answer meets is settled; one that asked for the whole record waits for an answer that has it. LEDGER_MOVED
settles none, and the module asks for the membership (R132). -/
def takeAnswer (s : State) (n : Notice) : State :=
  if n.status = Status.ledgerMoved then requestMembership s else
  let meets := fun (a : Ask) => a.handle = n.handle && (!a.asker.whole || n.body.isSome || n.status ≠ Status.ok)
  let now := s.req.asks.filter meets
  let s1 := { s with req := { s.req with asks := s.req.asks.filter fun a => !meets a } }
  now.foldl (answerOne n) s1

def execLedgerAnswer (n : Notice) (s : State) : Host.Outcome State Fault Refusal := ordinary s (takeAnswer (sysTaken s (.answer n)) n)

/-! ### Repair (R131) -/

/-- The entry of a handle that this module holds, at its lowest copy. -/
def anyEntry (s : State) (h : Nat) : Option LEntry :=
  match tget s.req.ledger (h, 1) with
  | some e => some e
  | none => match tget s.req.ledger (h, 2) with
    | some e => some e
    | none => tget s.req.ledger (h, 3)

/-- Positions of a chain that are this module's. -/
def myCopies (s : State) (chain : List Nat) : List Nat := (List.range 3).filterMap fun k => if chain.getD k 0x3FFFF = selfId s then some (k + 1) else none

/-- An entry as a copy keeps it: LOG_LOCATOR is the address of the copy's own token log (Table 5.2). DESIGN CHOICE, log entry 128. -/
def atCopy (e : LEntry) (h k : Nat) : LEntry := { e with record := { e.record with logLocator := (Config.stackAddr 0 h k).toNat } }

/-- The module's copies of a handle are those of the chain. -/
def rekey (s : State) (h : Nat) (e : LEntry) (copies : List Nat) : State :=
  let base := s.req.ledger.filter fun x => x.1.1 ≠ h
  { s with req := { s.req with ledger := copies.foldl (fun t k => tset t (h, k) (atCopy e h k)) base } }

/-- Send repair copies to the members of the new chain that the old chain lacked. -/
def sendCopies (s : State) (h : Nat) (e : LEntry) (old new : List Nat) : Nat → State
  | 0 => s
  | k + 1 =>
    let s1 := sendCopies s h e old new k
    let m := new.getD k 0x3FFFF
    if old.contains m || m = selfId s then s1 else sysSend s1 m (.repair (k + 1) e.record e.log)

/-- Repair of one handle when the chain moves from `old` to `new` (R131). The old head copies, or the first survivor where it is fenced. Where a member has
joined the pool, an old head that lives freezes each entry whose chain has changed until the copies have been placed. -/
def repairOne (s : State) (h : Nat) (joined : Bool) (old new : List Nat) : State :=
  match anyEntry s h with
  | none => s
  | some e =>
    let live := old.filter (isMember s)
    let copier := live.head? = some (selfId s)
    let s1 := if copier then sendCopies s h e old new 3 else s
    let e1 := if old.head? = some (selfId s) && joined && !(old = new) then { e with frozen := some s.mono } else e
    let s2 := rekey s1 h e1 (if e1.frozen.isSome then 1 :: myCopies s new else myCopies s new)
    s2

/-- Handles of which the module holds a copy. -/
def heldHandles (s : State) : List Nat := (s.req.ledger.map fun x => x.1.1).eraseDups

/-- The head sends its unacknowledged steps down the chain again (R131). -/
def resendKept (s : State) : State :=
  s.req.kept.foldl (fun st x =>
    if headOf st x.handle = selfId st then
      let y := { x with membership := st.fab.epoch % 2 ^ 32 }
      sysSend st ((chainOf st x.handle).getD 1 0x3FFFF) (.step 2 y)
    else st) s

/-- Tell every other cache-pool member that no copy for this epoch will follow (R131). DEDUCED, log entry 45. -/
def sendEndOfRepair (s : State) : List Nat → State
  | [] => s
  | m :: r => sendEndOfRepair (sysSend s m (.endRepair s.fab.epoch (selfId s))) r

/-- Repair of every chain after a membership epoch: `oldPool` is the cache pool before it (R131, R128). -/
def repairAll (s : State) (oldPool : List Nat) : State :=
  let pool := poolNow s
  let joined := pool.any fun m => !oldPool.contains m
  let s1 := (heldHandles s).foldl (fun st h => repairOne st h joined (chainOver oldPool h) (chainOf st h)) s
  let ended := s1.req.earlyEnds.filter fun e => e.1 = s.fab.epoch
  let senders := (oldPool.filter fun m => pool.contains m && !(m = selfId s) && !ended.any fun e => e.2 = m)
  let s2 := { s1 with req := { s1.req with
    repairing := if pool.contains (selfId s) && !(oldPool = pool) then senders else []
    earlyEnds := s1.req.earlyEnds.filter fun e => s.fab.epoch < e.1 } }
  let s3 := if oldPool.contains (selfId s) && !(oldPool = pool) then sendEndOfRepair s2 (pool.filter fun m => !(m = selfId s)) else s2
  replayHeld (resendKept s3)

/-- REPAIR_COPY_ARRIVAL (R131): the member takes the copy, and then the steps and queries that it held. A new head whose owner is fenced recovers the
request. -/
def execRepairCopyArrival (copy : Nat) (r : ReqRec) (log : List Nat) (s : State) : Host.Outcome State Fault Refusal :=
  let s0 := sysTaken s (.repair copy r log)
  let s1 := match tget s0.req.ledger (r.handle, copy) with
    | some _ => s0
    | none => setEntryAt s0 r.handle copy (some (atCopy { record := r, log := log, frozen := none } r.handle copy))
  quiet s (recoverIfFenced (replayHeld s1) r.handle)

/-- END_OF_REPAIR (R131). -/
def execEndOfRepair (epoch src : Nat) (s : State) : Host.Outcome State Fault Refusal :=
  let s0 := sysTaken s (.endRepair epoch src)
  if epoch = s0.fab.epoch then
    quiet s (replayHeld { s0 with req := { s0.req with repairing := s0.req.repairing.erase src } })
  else if s0.fab.epoch < epoch then quiet s { s0 with req := { s0.req with earlyEnds := s0.req.earlyEnds ++ [(epoch, src)] } }
  else quiet s s0

/-- HEAD_FREEZE_END (R131): the old head passes headship on, with the steps that it held. -/
def execHeadFreezeEnd (h : Nat) (s : State) : Host.Outcome State Fault Refusal :=
  match tget s.req.ledger (h, 1) with
  | none => .next s
  | some e =>
    if e.frozen.isNone then .next s
    else
      let mine := s.req.heldMsgs.filterMap fun m => match m with
        | .step 1 x => if x.handle = h then some x else none
        | _ => none
      let rest := s.req.heldMsgs.filter fun m => match m with
        | .step 1 x => x.handle ≠ h
        | _ => true
      let s1 := rekey { s with req := { s.req with heldMsgs := rest } } h { e with frozen := none } (myCopies s (chainOf s h))
      quiet s (replayHeld (mine.foldl (fun st x => sysSend st (headOf st h) (.step 1 x)) s1))

/-- A head that is one no longer leaves the recovery to the new one (R150). -/
def leaveRecovery (s : State) (h : Nat) : State := if headOf s h = selfId s then s else dropRecovery s h

/-- After an adopted epoch: recoveries of the requests that this module heads, the abort of handoffs whose receiver is fenced, and outstanding steps
to heads that have changed (R129, R144, R149). -/
def afterMembership (s : State) : State :=
  let s0 := (s.req.recovering.map (·.1)).foldl leaveRecovery s
  let s1 := (heldHandles s0).foldl recoverIfFenced s0
  let s2 := (s1.req.owned.map (·.1)).foldl (fun st h => match (ownedOf st h).bind (·.handoff) with
    | some x =>
      if !isMember st x.peer && (x.st = .offered || x.st = .sending || x.st = .waiting) then abortHandoff st h false else st
    | none => st) s1
  reissueAll s2 (s2.req.issued.filter fun i => i.head ≠ headOf s2 i.step.handle || (match i.after with | some e => !epochNewer e s2.fab.epoch | none => false))

end Sys2Proof.Machine
end

