-- ==== Sys2Proof/Machine/LifeCycle.lean ====
section
/-!
DEFINITION. The request life-cycle commands (05_request_state_and_ownership.md R155–R160; 10_sieve_sampler.md R297, R298).
-/
namespace Sys2Proof.Machine

/-- Does a command still wait for a step that it issued? -/
def stepsPending (s : State) (id : Nat) : Bool := s.req.issued.any fun i => decide (i.why = .command id)

/-- Leave a command waiting. -/
def await (s : State) (id : Nat) (w : Wait) : State := setPhase s id (.waiting w)

/-- The stage that a command in hand has reached. -/
def stageOf (s : State) (id : Nat) : Nat := (slotById s id).elim 0 (·.aux)
def setStage (s : State) (id n : Nat) : State := modSlot s id fun x => { x with aux := n }

/-- Run on the one request that a command names, owned here. Where the request has ended, or has left the module since the command was routed, the
command does not run (05 R139; 01 R14). A batch ID names no request. DESIGN CHOICE, log entry 121. -/
def withOwned (s : State) (id : Nat) (c : Cmd) (k : Owned → State) : State :=
  if isBatch c then fail (forget s id) id Status.requestUnknown
  else match ownedOf s (handleOf c) with
    | some o => if finalPhase o.record.phase then finish (forget s id) id Status.requestFinal o.record.phase 0 else k o
    | none => await (forget s id) id .route

/-! ### ADMIT (R157) -/

/-- The default sampler block (10 Table 10.1). -/
def defaultSampler : List Word := [word 0x3F8000003F800000, word 0x000000003F800000, 0, 0, 0, 0, 0, 0]

/-- The sampler state that ADMIT makes of a parameter block (10 R298): DRAFT_LEN is DRAFT_MAX, the counts are zero. -/
def admitSampler (b : List Word) : List Word :=
  let w4 := (b.getD 4 0).toNat
  let max := bits w4 47 43
  [b.getD 0 0, b.getD 1 0, b.getD 2 0, b.getD 3 0, word (bits w4 63 43 * 2 ^ 43 + max * 2 ^ 38), 0, 0, 0]

/-- Does a read of host memory fail (04 R101)? -/
def hostBad (s : State) (a n : Nat) : Bool := refBad s 0 (.host a) 0 n

/-- The record that CREATE installs (Table 5.2). -/
def createRecord (s : State) (c : Cmd) (h owner : Nat) (sampler : List Word) : ReqRec :=
  { handle := h, epoch := 1, step := 1, phase := 0, prior := 0, target := 0, replicas := fld c.w6 27 26, recoveries := 0, peer := 0x3FFFF,
    owner := owner, origin := selfId s, decodeTarget := fld c.w6 45 28, job := jobOf c, model := fld c.w2 63 48, composition := fld c.w2 47 40,
    adapter := fld c.w2 31 16, adapterVersion := 0, promptTokens := fld c.w3 63 32, tokenLimit := fld c.w3 31 0, logged := fld c.w3 63 32,
    firstMissing := 0xFFFFFFFF, placed := 0, pageList := 0, admitTime := s.time, seed := c.w5.toNat, sampler := sampler, stepTime := 0,
    stepDigest := 0, createDigest := 0, logLocator := 0 }

/-- The first owner that ADMIT names (R157). -/
def admitOwner (s : State) (c : Cmd) : Nat := if fld c.w6 63 46 = 0x3FFFF then selfId s else fld c.w6 63 46

/-- The checks of ADMIT in order (R157). On a module in role P or G that no membership epoch has reached there is no cache pool, whatever OWNER names
(R128). DEDUCED, log entry 129. -/
def admitRefusal (s : State) (c : Cmd) : Option Nat :=
  let p := fld c.w3 63 32
  let l := fld c.w3 31 0
  let role := roleOf s (admitOwner s c)
  if p = 0 || 1048576 < p || 1048576 < p + l then some Status.promptInvalid
  else if s.fab.epoch = 0 && !s.image.role.cachePool then some Status.noCachePool
  else if !(role = some 0 || role = some 2 || role = some 3) then some Status.handoffTargetInvalid
  else if poolNow s = [] then some Status.noCachePool
  else if fld c.w6 27 26 = 3 then some Status.admitParam
  else if !(c.w4.toNat % 4 = 0) || !(c.w7.toNat % 64 = 0) then some Status.operandRange
  else if (modelOf s (cmdTenant s c) (fld c.w2 63 48)).isNone then some Status.modelUnknown
  else if hostBad s c.w4.toNat (4 * p) || (!(c.w7 = 0) && hostBad s c.w7.toNat 64) then some Status.hostReadError
  else if (List.range p).any fun i => !(s.hostMem.readNat (c.w4.toNat + 4 * i) 4 < 2 ^ 20) then some Status.promptInvalid
  else none

/-- Issue CREATE (R157). -/
def admitBody (s : State) (id : Nat) (c : Cmd) : State :=
  let n := takeCount s (cmdTenant s c)
  let h := newHandle n.2 (cmdTenant s c) n.1
  let prompt := (List.range (fld c.w3 63 32)).map fun i => s.hostMem.readNat (c.w4.toNat + 4 * i) 4
  let sampler := admitSampler (if c.w7 = 0 then defaultSampler else s.hostMem.readWords c.w7.toNat 8)
  let r := createRecord n.2 c h (admitOwner s c) sampler
  await (issue n.2 { stepOf n.2 r 0 with epoch := 0, step := 1, payload := .create r prompt } (.admitting id)) id .ledger

def runAdmitRequest (c : Cmd) (s : State) : State :=
  runCmd 0x10 c s fun again id s =>
    if again then s
    else match admitRefusal s c with
      | some e => fail s id e
      | none => admitBody s id c

/-- ADMIT (R157). -/
def execAdmitRequest (c : Cmd) (s : State) : Host.Outcome State Fault Refusal := quiet s (runAdmitRequest c s)

/-! ### PREFILL_CHUNK (R156, R158, R153) -/

/-- The CURRENT version of an adapter, LOST or not (09 R284). -/
def currentVersion (s : State) (t a : Nat) : Option AdVer :=
  s.comp.adapters.find? fun v => v.tenant = t && v.adapter = a && (v.st = .current || (v.st = .lost && v.prior = .current))

/-- The version that a binding takes: 0 without an adapter, none where the adapter has no CURRENT version (09 R284). -/
def bindVersion (s : State) (o : Owned) : Option Nat :=
  if o.record.adapter = 0 then some 0 else (currentVersion s (handleTenant o.record.handle) o.record.adapter).map (·.version)

/-- Bind the adapter version by a RECORD step and move to PREFILL by a PHASE step (R158). -/
def bindAndStart (s : State) (id h version : Nat) : State :=
  match ownedOf s h with
  | none => s
  | some o =>
    let s1 := recordStep s o o.record.firstMissing version (.command id)
    match ownedOf s1 h with
    | none => s1
    | some o1 =>
      let s2 := phaseStep s1 o1 1 (.command id)
      match ownedOf s2 h with
      | none => s2
      | some o2 => let p := holdAdapter s2 o2; setOwned p.1 h p.2

/-- A page for a layer and index of an owned request: the one it has, or a new one (06 R182, R184). -/
def ensurePage (s : State) (o : Owned) (m : ModelDef) (layer k : Nat) : Except Short (State × Owned × PageEntry) :=
  match tget o.pages (layer, k) with
  | some p => if p.present then .ok (s, o, p) else fresh
  | none => fresh
where
  fresh : Except Short (State × Owned × PageEntry) :=
    match placePage s o.record.handle layer k 0 m true true with
    | .error e => .error e
    | .ok (i, s1) =>
      let p : PageEntry := { dir := i, present := true, full := false, shared := false, pin := false, upto := 0 }
      let o1 := (ownedOf s1 o.record.handle).getD o
      let o2 := { o1 with pages := tset o1.pages (layer, k) p }
      let s2 := setTier s1 { s1.tier with data := tset s1.tier.data i (Blob.free s1.free) }
      .ok (setOwned { s2 with free := s2.free + 1 } o.record.handle o2, o2, p)

/-- Pages that the compute peers have delivered take their places; a sealed page is not written again (08 R268). DESIGN CHOICE, log entry 50. -/
def placeKv (s : State) (h : Nat) (m : ModelDef) : List PageData → Except Short State
  | [] => .ok s
  | p :: r =>
    match ownedOf s h with
    | none => .ok s
    | some o =>
      if m.layers ≤ p.layer || 4096 ≤ p.index || ((tget o.pages (p.layer, p.index)).elim false fun e => e.full || e.shared) then placeKv s h m r
      else match ensurePage s o m p.layer p.index with
        | .error e => .error e
        | .ok (s1, o1, e) =>
          let s2 := putPage s1 e.dir p.blob
          placeKv (setOwned s2 h { o1 with pages := tset o1.pages (p.layer, p.index) { e with upto := min 256 (max e.upto p.upto) } }) h m r

/-- Are positions `start` to `stop − 1` written in a layer? -/
def layerCovers (o : Owned) (layer start stop : Nat) : Bool :=
  (List.range (ceilDiv stop 256 - start / 256)).all fun i =>
    let k := start / 256 + i
    match tget o.pages (layer, k) with
    | some p => p.present && min 256 (stop - 256 * k) ≤ p.upto
    | none => false

def chunkCovered (o : Owned) (layers start stop : Nat) : Bool := (List.range layers).all fun l => layerCovers o l start stop

/-- The rule of Table 5.12 for a chunk, but for LAST. -/
def chunkRange (o : Owned) (start count : Nat) : Bool :=
  start % 256 = 0 && 1 ≤ count && count ≤ 65536 && start + count ≤ o.record.logged &&
    (count % 256 = 0 || start + count = o.record.promptTokens || start + count = o.record.logged)

/-- FIRST_MISSING of a working copy's pages (R153). -/
def missingOf (s : State) (o : Owned) : Nat :=
  lowestMissing o (((modelOf s (handleTenant o.record.handle) o.record.model).map (·.layers)).getD 1) o.record.logged

/-- The chunk is whole: PLACED_TOKENS and FIRST_MISSING follow (R153, R158). DEDUCED, log entry 49. -/
def chunkDone (s : State) (id : Nat) (c : Cmd) (layers : Nat) : State :=
  let h := handleOf c
  match ownedOf s h with
  | none => s
  | some o =>
    let last := flag c.w3 0
    let o1 := sealPages { o with lastDone := o.lastDone || last, record := { o.record with placed := placedTokens o layers } }
    let s1 := setOwned s h o1
    let s2 := if o1.record.firstMissing = missingOf s1 o1 || o1.record.firstMissing = 0xFFFFFFFF then s1
      else recordStep s1 o1 (missingOf s1 o1) o1.record.adapterVersion .none
    finish (tryPrefilled s2 h) id Status.ok o1.record.placed 0

/-- Pages arrive; the chunk completes when it is whole. -/
def chunkPages (s : State) (id : Nat) (c : Cmd) (m : ModelDef) (kv : List PageData) : State :=
  match placeKv s (handleOf c) m kv with
  | .error e => fail (unplaced s e) id e.code
  | .ok s1 =>
    match ownedOf s1 (handleOf c) with
    | none => s1
    | some o =>
      if chunkCovered o m.layers (fld c.w2 63 32) (fld c.w2 63 32 + fld c.w2 31 0) && !stepsPending s1 id then chunkDone s1 id c m.layers
      else await s1 id (if stepsPending s1 id then .ledger else .fabric)

/-- Why a chunk is refused. -/
def chunkRefusal (s : State) (c : Cmd) (o : Owned) : Option Nat :=
  let start := fld c.w2 63 32
  let count := fld c.w2 31 0
  let ph := o.record.phase
  let again := (ph = 2 || ph = 4 || ph = 5) && o.record.firstMissing < o.record.logged
  if !(ph = 0 || ph = 1 || again) then some Status.phaseInvalid
  else if !chunkRange o start count || !(flag c.w3 0 == decide (start + count = o.record.promptTokens)) then some Status.pageRange
  else if (modelOf s (handleTenant o.record.handle) o.record.model).isNone then some Status.modelUnknown
  else if ph = 0 && (bindVersion s o).isNone then some Status.adapterAbsent
  else none

/-- DEDUCED, log entry 49. -/
def runPrefillChunk (c : Cmd) (kv : List PageData) (s : State) : State :=
  runCmd 0x11 c s fun again id s => routed s id c again fun _ s => withOwned s id c fun o =>
    match modelOf s (handleTenant o.record.handle) o.record.model with
    | none => fail s id Status.modelUnknown
    | some m =>
      if stageOf s id = 1 then chunkPages s id c m kv
      else match chunkRefusal s c o with
        | some e => fail s id e
        | none =>
          let s1 := setStage s id 1
          if o.record.phase = 0 then chunkPages (bindAndStart s1 id (handleOf c) ((bindVersion s o).getD 0)) id c m kv
          else chunkPages s1 id c m kv

/-- PREFILL_CHUNK (R158). `kv` holds the pages that compute peers have delivered. DESIGN CHOICE, log entry 50. -/
def execPrefillChunk (c : Cmd) (kv : List PageData) (s : State) : Host.Outcome State Fault Refusal := quiet s (runPrefillChunk c kv s)

/-! ### HANDOFF, PARK, RESUME (R155, R160) -/

/-- Is a module a fit target of a handoff (R160)? -/
def targetOk (s : State) (m target : Nat) : Bool :=
  !(m = selfId s) && match roleOf s m with
    | some r => roleServes r target
    | none => false

/-- Start a handoff for a command, or go on waiting for the one that it started. -/
def handoffFor (s : State) (id : Nat) (o : Owned) (peer target : Nat) : State :=
  match o.handoff with
  | some x => if x.slot = some id then beginHandoff s o.record.handle else await s id .held
  | none => await (startHandoff s o.record.handle peer target (some id) 0) id .ledger

def runHandoff (c : Cmd) (s : State) : State :=
  runCmd 0x12 c s fun again id s => routed s id c again fun _ s => withOwned s id c fun o =>
    let target := fld c.w2 63 46
    let tp := fld c.w2 45 42
    if o.handoff.isSome then handoffFor s id o target tp
    else if !(o.record.phase = 2 || o.record.phase = 4 || o.record.phase = 5) then fail s id Status.phaseInvalid
    else if !targetOk s target tp then fail s id Status.handoffTargetInvalid
    else handoffFor s id o target tp

/-- HANDOFF (R140). -/
def execHandoff (c : Cmd) (s : State) : Host.Outcome State Fault Refusal := quiet s (runHandoff c s)

def runPark (c : Cmd) (s : State) : State :=
  runCmd 0x13 c s fun again id s => routed s id c again fun _ s => if stageOf s id = 1 then s else withOwned s id c fun o =>
    if o.handoff.isSome then handoffFor s id o (headOf s o.record.handle) 5
    else if decodeInHand s o.record.handle then await s id .held
    else if !(o.record.phase = 4) then fail s id Status.phaseInvalid
    else if s.image.role.cachePool then await (phaseStep (setStage s id 1) o 5 (.finish id o.record.epoch (selfId s))) id .ledger
    else if poolNow s = [] then fail s id Status.noCachePool
    else handoffFor s id o (headOf s o.record.handle) 5

/-- PARK (R155). A decode step in hand completes first (01 R22). -/
def execPark (c : Cmd) (s : State) : Host.Outcome State Fault Refusal := quiet s (runPark c s)

def runResume (c : Cmd) (s : State) : State :=
  runCmd 0x14 c s fun again id s => routed s id c again fun _ s => if stageOf s id = 1 then s else withOwned s id c fun o =>
    let target := fld c.w2 63 46
    if o.handoff.isSome then handoffFor s id o target 4
    else if decodeInHand s o.record.handle then await s id .held
    else if !(o.record.phase = 5) then fail s id Status.phaseInvalid
    else if target = 0x3FFFF then await (phaseStep (setStage s id 1) o 4 (.finish id o.record.epoch (selfId s))) id .ledger
    else if !targetOk s target 4 then fail s id Status.handoffTargetInvalid
    else handoffFor s id o target 4

/-- RESUME (R155). A decode step in hand completes first (01 R22). -/
def execResume (c : Cmd) (s : State) : Host.Outcome State Fault Refusal := quiet s (runResume c s)

/-! ### CANCEL, QUERY, LOG_READ, RECORD_READ (R155, R156) -/

/-- Issue FINISH (Table 5.4). -/
def finishStep (s : State) (o : Owned) (ph : Nat) (why : Why) : State :=
  ownStep s o { stepOf s o.record 7 with newPhase := ph } why fun r => { r with phase := ph }

def runCancel (c : Cmd) (s : State) : State :=
  runCmd 0x15 c s fun again id s => routed s id c again fun _ s =>
    if stageOf s id = 1 then s
    else withOwned s id c fun o =>
      if decodeInHand s o.record.handle then await s id .held
      else await (finishStep (setStage s id 1) o 7 (.finish id 0 0)) id .ledger

/-- CANCEL (R155). A decode step in hand completes first (01 R22). -/
def execCancel (c : Cmd) (s : State) : Host.Outcome State Fault Refusal := quiet s (runCancel c s)

def runQuery (c : Cmd) (s : State) : State :=
  runCmd 0x16 c s fun again id s => routed s id c again fun _ s => withOwned s id c fun o =>
    let r := o.record
    finish s id Status.ok (r.epoch % 2 ^ 32 * 2 ^ 32 + r.phase % 16 * 2 ^ 28 + r.owner % 2 ^ 18) (r.logged * 2 ^ 32 + r.firstMissing)

/-- QUERY (R155). -/
def execQuery (c : Cmd) (s : State) : Host.Outcome State Fault Refusal := quiet s (runQuery c s)

/-- LOG_READ and RECORD_READ ask the tail for what it holds (R156). A batch ID names no request. DESIGN CHOICE, log entry 121. -/
def readLedger (s : State) (id : Nat) (c : Cmd) (align : Nat) : State :=
  if stageOf s id = 1 then s
  else if isBatch c then fail s id Status.requestUnknown
  else if !(c.w2.toNat % align = 0) then fail s id Status.operandRange
  else await (askTail (setStage s id 1) (handleOf c) (.read id)) id .ledger

def runLogRead (c : Cmd) (s : State) : State :=
  runCmd 0x17 c s fun again id s => routed s id c again fun _ s => readLedger s id c 4

/-- LOG_READ (R156). -/
def execLogRead (c : Cmd) (s : State) : Host.Outcome State Fault Refusal := quiet s (runLogRead c s)

def runRecordRead (c : Cmd) (s : State) : State :=
  runCmd 0x18 c s fun again id s => routed s id c again fun _ s => readLedger s id c 64

/-- RECORD_READ (R156). -/
def execRecordRead (c : Cmd) (s : State) : Host.Outcome State Fault Refusal := quiet s (runRecordRead c s)

end Sys2Proof.Machine
end

