-- ==== Sys2Proof/Machine/Power.lean ====
section
/-!
DEFINITION. Emergency stop, module reset, the current governor, rails and temperature
(17 R502–R511, 21 R577–R594, 19 R541, R557).
-/
namespace Sys2Proof.Machine

/-- Are the management island and port at work: the module is neither in reset nor stopping (03 R69, R70)? -/
def alive (s : State) : Bool := s.boot.stop = none && !(s.boot.state = .reset)

/-- Is the module running: in HELD only the management island and port are (03 R69)? -/
def running (s : State) : Bool := alive s && !(s.boot.state = .held)

/-- What a function of a held module shows: every island but that of management, and every link, Ladle and bank, is OFF (03 R69). -/
def heldFn (e : FnId × FnState) : FnId × FnState :=
  match e.1 with
  | .island 30 => e
  | _ => (e.1, if e.2.st = .absent then e.2 else FnState.clean)

/-- HELD (03 R69): the management island and port stay up, the host link goes down, the NVM pins are released. -/
def holdAt (s : State) (step reason detail : Nat) : State :=
  { s with
    boot := { s.boot with state := .held, step := step, reason := reason, detail := detail, nvmPins := false }
    rel := { s.rel with fns := s.rel.fns.map heldFn }
    host := { s.host with link := { s.host.link with up := false } } }

/-- Zeroise the key store, the stack controllers' copies, the CRYPT cache and any key material in use (19 R555). -/
def zeroise (s : State) : State :=
  { s with sec := { s.sec with keys := false, domain := [], attest := [] }, xport := { s.xport with keys := [] } }

/-- MGMT_GOV_STATUS.STATE (17 Table 17.2), with the event record of a change (20 Table 20.2). DESIGN CHOICE, log entry 31. -/
def govState (s : State) (st : Nat) : State :=
  if s.gov.state = st then s else eventA { s with gov := { s.gov with state := st } } 30 0x90 st

/-- An emergency stop (17 R508): every unit stops issuing work, the work in hand ends as at a module reset, and the ramp begins. In
reset there is nothing to stop. -/
def emergencyStop (s : State) (cause : StopCause) : State :=
  if alive s then
    let s1 := govState s 4
    let s2 := { s1 with boot := { s1.boot with stop := some cause }
                        host := { s1.host with slots := [], due := [], ops := [] } }
    match cause with
    | .sensorErase => zeroise s2
    | _ => s2
  else s

/-- Islands that the ordering code lacks are ABSENT, in reset too (02 Table 2.3 Note 1). -/
def absentFns (o : OrderCode) : Tab FnId FnState :=
  match o with
  | .p64x2 => [34, 35, 38, 39].map fun i => (FnId.island i, { st := .absent, latch := false })
  | _ => []

/-- The module enters reset (03 R75, module level; 17 R508). Kept: what is fused, the board's and the host's memories, pins and holds,
the clocks, the record of the last sensor trip (19 Table 19.8 Note 1), and the log of messages already sent. DEDUCED, log entry 30. -/
def moduleReset (s : State) : State :=
  { State.reset with
    pending := s.pending, order := s.order, fuses := s.fuses, nvmFitted := s.nvmFitted, nvm := s.nvm, hostMem := s.hostMem,
    time := s.time, mono := s.mono, free := s.free
    boot := { Boot.reset with
      startFrom := s.boot.startFrom, resetN := s.boot.resetN, pwrOk := s.boot.pwrOk, perstN := s.boot.perstN,
      ppsIn := s.boot.ppsIn, mgmtAddr := s.boot.mgmtAddr
      thermalHold := s.boot.thermalHold || s.boot.stop = some .junction
      scanHold := s.boot.scanHold || s.boot.stop = some .boundaryScan
      tapReset := s.boot.tapReset, tapData := s.boot.tapData }
    host := { HostIf.reset with signals := s.host.signals, badLines := s.host.badLines }
    fab := { Fab.reset with sent := s.fab.sent }
    rel := { Rel.reset with fns := absentFns s.order }
    req := { Req.reset with outbox := s.req.outbox }
    sec := { Sec.reset with
      lifecycle := s.sec.lifecycle, keyGen := s.sec.keyGen, drbg := s.sec.drbg, responses := s.sec.responses
      lastTrip := s.sec.lastTrip
      alarmN := s.sec.alarmN && !(s.boot.stop = some .junction)
      eraseDue := s.sec.eraseDue } }

/-- EMERGENCY_STOP (17 R508). -/
def execEmergencyStop (cause : StopCause) (s : State) : Host.Outcome State Fault Refusal :=
  quiet s (emergencyStop s cause)

/-- STOP_RAMP_END (17 R508): once the governed current is at the reset floor of 20 A. -/
def execStopRampEnd (s : State) : Host.Outcome State Fault Refusal :=
  if s.boot.stop.isSome && s.gov.current ≤ 20000 then .next (s.afterReset (moduleReset s))
  else .next s

/-- MOD_RESET_LOW (21 Table 21.7): a low of 1 µs or longer; a low of 10 µs also ends a boundary-scan hold once the TAP has passed
Test-Logic-Reset (21 R593). -/
def execModResetLow (ns : Nat) (s : State) : Host.Outcome State Fault Refusal :=
  if ns < 1000 then .next s
  else
    let s1 := emergencyStop s .resetPin
    quiet s { s1 with boot := { s1.boot with
      resetN := false
      startFrom := s.mono + (10000 - ns)
      scanHold := s1.boot.scanHold && !(decide (10000 ≤ ns) && s1.boot.tapReset) } }

/-- PWR_OK_LOW (21 Table 21.7): 100 ns or longer. The last sensor trip is forgotten when PWR_OK falls (19 Table 19.8), and an ERASE then blows no fuse
(19 Table 19.7 Note 1). -/
def execPwrOkLow (ns : Nat) (s : State) : Host.Outcome State Fault Refusal :=
  if ns < 100 then .next s
  else
    let s1 := emergencyStop s .powerOk
    quiet s { s1 with boot := { s1.boot with pwrOk := false }, sec := { s1.sec with lastTrip := none, eraseDue := false } }

/-- THERMAL_STOP_RELEASE (21 R583): MOD_RESET_N has been low for 10 µs and is released again. -/
def execThermalStopRelease (ns : Nat) (s : State) : Host.Outcome State Fault Refusal :=
  if s.boot.state = .reset && s.boot.thermalHold && 10000 ≤ ns then
    quiet s { s with boot := { s.boot with thermalHold := false, resetN := true }
                     sec := { s.sec with alarmN := !s.sec.eraseDue } }
  else .next s

/-- The instructions that stop the module (21 R593). -/
def scanStops : ScanInstr → Bool
  | .extest => true
  | .extestPulse => true
  | .extestTrain => true
  | .clamp => true
  | .highz => true
  | _ => false

/-- IDCODE (21 R592): the silicon revision, 0x2040, the manufacturer's code, 1. -/
def idcode : Nat := Config.revision.toNat * 2 ^ 28 + 0x2040 * 2 ^ 12 + Config.manufacturer.toNat * 2 + 1

/-- BOUNDARY_SCAN_INSTRUCTION (21 R592, R593). IDCODE is captured. An instruction loaded while the module is in reset takes effect at once. -/
def execBoundaryScanInstruction (i : ScanInstr) (s : State) : Host.Outcome State Fault Refusal :=
  if i = .testLogicReset then quiet s { s with boot := { s.boot with tapReset := true } }
  else if i = .idcode then quiet s { s with boot := { s.boot with tapData := some idcode } }
  else if scanStops i then
    let s1 := emergencyStop s .boundaryScan
    quiet s { s1 with boot := { s1.boot with tapReset := false, scanHold := s1.boot.scanHold || s1.boot.state = .reset } }
  else .next s

/-- INTERNAL_TEST_SELECT (19 R557): in PROVISIONED the key store is zeroised and every island but 30 is held in reset; in PRODUCTION the
instruction acts as BYPASS; in BLANK and RETURNED it is available without more. -/
def execInternalTestSelect (s : State) : Host.Outcome State Fault Refusal :=
  if s.sec.lifecycle = 1 then
    let s1 := zeroise s
    quiet s { s1 with
      boot := { s1.boot with testHold := true }
      host := { s1.host with slots := [], due := [], link := { s1.host.link with up := false } }
      rel := { s1.rel with fns := s1.rel.fns.map fun e => match e.1 with
        | .island i => if i = 30 then e else (e.1, if e.2.st = .absent then e.2 else FnState.clean)
        | _ => e } }
  else .next s

/-- ENTROPY_HEALTH_FAIL (19 R541): at run time an emergency stop and a module reset; during start-up the module holds with
ENTROPY_FAILURE, in the step that it has reached. -/
def execEntropyHealthFail (s : State) : Host.Outcome State Fault Refusal :=
  match s.boot.state with
  | .reset => .next s
  | .held => .next s
  | .ready => quiet s (emergencyStop s .entropy)
  | _ => quiet s (holdAt s s.boot.step Status.entropyFailure 0)

/-! ### The governor (17 R503–R507) -/

/-- GOVERNOR_STEP (17 R504, R505, R508): `demand` is the current in mA that the waiting work would draw. The next current lies in
[I − s, min(I + s, ceiling)]. A demand above the band lowers the duty, to a value that the manual leaves to the governor (a free value
below 64); a demand below it runs ballast. While the module stops, ballast lowers the current by s to the reset floor. DESIGN CHOICE, log entry 31. -/
def execGovernorStep (demand : Nat) (s : State) : Host.Outcome State Fault Refusal :=
  let g := s.gov
  let step := diDtNow s * 100
  let lo := g.current - step
  let hi := min (g.current + step) g.ceiling
  if s.boot.stop.isSome then
    quiet s { s with gov := { g with state := 4, current := lo, ballast := satAdd 32 g.ballast 1 } }
  else
    let st := if 0 < g.lowered then 3 else if g.ceiling < 800000 then 2 else if demand < lo || hi < demand then 1 else 0
    let next := max lo (min demand hi)
    let s1 := govState s st
    if hi < demand then
      quiet s { s1 with
        free := s1.free + 1
        gov := { s1.gov with current := max lo hi, duty := (Config.freeWord s1.free).toNat % 64 } }
    else
      quiet s { s1 with gov := { s1.gov with
        current := next, duty := 64, ballast := if demand < lo then satAdd 32 g.ballast 1 else g.ballast } }

/-- GOVERNOR_CALIBRATE (17 R503): every 1 ms the coefficients are corrected. Their values are the module's own; the estimate is an operand
of GOVERNOR_STEP, so what remains is that the correction took place. -/
def execGovernorCalibrate (s : State) : Host.Outcome State Fault Refusal :=
  if alive s && s.time % 1000000 = 0 then quiet s { s with gov := { s.gov with calibrations := s.gov.calibrations + 1 } }
  else .next s

/-- Nominal voltage in mV and maximum current in units of 0.1 A of a rail selector (21 Table 21.1). -/
def railFigures (r : Nat) : Nat × Nat :=
  match r with
  | 0 => (750, 2150)
  | 1 => (750, 700)
  | 2 => (750, 700)
  | 3 => (750, 700)
  | 4 => (750, 700)
  | 5 => (1050, 1150)
  | 6 => (500, 800)
  | 7 => (750, 1250)
  | 8 => (1200, 300)
  | _ => (1800, 30)

/-- Readings of a rail, newest first. DEDUCED, log entry 118. -/
def railReadings (s : State) (r : Nat) : List RailReading := tgetD s.gov.rails r []

/-- Has a reading arrived within the last 1 ms (21 R577)? DEDUCED, log entry 118. -/
def railValid (s : State) (r : Nat) : Bool :=
  match railReadings s r with
  | [] => false
  | x :: _ => r ≤ 9 && s.mono ≤ x.at' + 1000000

/-- A rail's power in units of 0.1 mW: the mean over its last ten readings, or its maximum current when it has none valid (21 R577). -/
def railPower (s : State) (r : Nat) : Nat :=
  let l := railReadings s r
  if railValid s r then (l.map fun x => x.mv * x.deciAmp).sum / l.length
  else (railFigures r).1 * (railFigures r).2

/-- The module's average power in W over the last 1 ms (17 R506). -/
def averagePower (s : State) : Nat := ((List.range 10).map (railPower s)).sum / 10000

/-- AVS_RAIL_READ (21 R577): every 100 µs; the last ten readings are kept. -/
def execAvsRailRead (samples : List RailSample) (s : State) : Host.Outcome State Fault Refusal :=
  if alive s && s.time % 100000 = 0 then
    let put := fun (t : Tab Nat (List RailReading)) (x : RailSample) =>
      tupd t x.rail [] fun l => ({ at' := s.mono, mv := x.mv, deciAmp := x.deciAmp } :: l).take 10
    let s1 := { s with gov := { s.gov with rails := (samples.filter fun (x : RailSample) => x.rail ≤ 9).foldl put s.gov.rails } }
    quiet s { s1 with gov := { s1.gov with averageW := averagePower s1 } }
  else .next s

/-- The ceiling after a budget boundary, in mA (17 R506): down 1 % above P, up 1 % below 0.98 P. -/
def nextCeiling (g : Gov) (p avg : Nat) : Nat :=
  if p < avg then g.ceiling - g.ceiling / 100
  else if avg * 100 < p * 98 then min 800000 (g.ceiling + g.ceiling / 100)
  else g.ceiling

/-- JUNCTION_THROTTLE (17 R507; 21 R582): every 1 ms, `tj` in units of 0.0625 °C as the highest sensor reads it. At 100 °C or above P falls
by 10 W, below it P rises by 10 W up to the configured value. A change of throttling is an event. -/
def execJunctionThrottle (sensor : Nat) (tj : Int) (s : State) : Host.Outcome State Fault Refusal :=
  if alive s then
    let s0 := { s with gov := { s.gov with tj := tj, tjSensor := sensor } }
    let before := s.gov.lowered
    let after := if 1600 ≤ tj then min (before + 10) (limitW s + before) else before - 10
    let s1 := { s0 with gov := { s0.gov with lowered := after } }
    let s2 := if (before = 0) = (after = 0) then s1 else eventA s1 30 0x91 (unsignedOf 16 (tj / 16))
    quiet s (if 1840 ≤ tj then emergencyStop s2 .junction else s2)
  else .next s

end Sys2Proof.Machine
end

