-- ==== Sys2Proof/Machine/Queues.lean ====
section
/-!
DEFINITION. The host link, tenants, queue pairs, command fetch, completions and interrupts
(04_host_queues.md R78–R102, R110, R111; 02 R48–R51).
-/
namespace Sys2Proof.Machine

/-! ### Status changes -/

/-- A base with a nonzero bit in [11:0] or zero, or a size outside its range (04 R88). -/
def ringConfigBad (base log hi : Nat) : Bool := base = 0 || !(base % 4096 = 0) || log < 6 || hi < log

/-- Why an enable of a queue pair is refused (04 R88, R68): its CODE. -/
def queueRefusal (s : State) (fn q : Nat) : Option Nat :=
  let p := queueOf s fn q
  match tenantOfFn s fn with
  | none => some Status.tenantNotOn
  | some r =>
    if !((tenantFn s r.tenant).st = .on) then some Status.tenantNotOn
    else if ringConfigBad p.sqBase p.sqLog 16 || ringConfigBad p.cqBase p.cqLog 16 then some Status.queueConfig
    else none

/-- Why an enable of a Kettle ring is refused (04 Table 4.10): as for a queue. -/
def kettleRefusal (s : State) (fn : Nat) : Option Nat :=
  let k := kettleOf s fn
  match tenantOfFn s fn with
  | none => some Status.tenantNotOn
  | some r =>
    if !((tenantFn s r.tenant).st = .on) then some Status.tenantNotOn
    else if ringConfigBad k.base k.sizeLog 20 then some Status.queueConfig
    else none

/-- What a queue pair holds on entering STARTING, and in OFF: its clean reset state (04 R87, R89). -/
def QueuePair.cleanState (p : QueuePair) : QueuePair :=
  { p with sqTail := 0, cqHead := 0, sqHead := 0, cqTail := 0, phase := true, unreadSince := none }

/-- What a Kettle ring holds on entering STARTING (04 R116, R118). -/
def Kettle.cleanState (k : Kettle) : Kettle :=
  { k with tail := 0, head := 0, lost := 0, poison := 0, opened := [], counts := [] }

/-- A refused register write is a function event (04 R110). -/
def refuseQueue (s : State) (fn q code : Nat) : State :=
  signal (setQueue s fn q { queueOf s fn q with code := code }) fn 0

def refuseKettle (s : State) (fn code : Nat) : State :=
  signal (setKettle s fn { kettleOf s fn with code := code }) fn 0

/-- What a function does on entering STARTING from its clean reset state. -/
def enterStarting (s : State) (f : FnId) : State :=
  match f with
  | .queue fn q => setQueue s fn q (queueOf s fn q).cleanState
  | .kettle fn => setKettle s fn (kettleOf s fn).cleanState
  | .tenant t => refillTenant s t
  | .island i => { s with tele := { s.tele with cycleFrom := tset s.tele.cycleFrom i s.mono } }
  | _ => s

/-- A tenant's status change is a function event of its function (04 R110). -/
def tenantSignal (s : State) (f : FnId) : State :=
  match f with
  | .tenant t => match tenantRec s t with
    | some r => signal s r.function 0
    | none => s
  | _ => s

/-- Move a function, with its record and its interrupt. -/
def change (s : State) (f : FnId) (x : FnState) : State :=
  if (fnState s f).st = x.st then moveFn s f x else tenantSignal (moveFn s f x) f

/-- An enable (02 Table 2.11), refused before READY for a tenant, queue or ring (03 R68), and for a queue or ring under R88. -/
def enableFn (s : State) (f : FnId) : State :=
  let go := fun (s1 : State) =>
    let x := fnState s1 f
    change (if x.st = .off then enterStarting s1 f else s1) f x.enable
  let idle := fun (x : FnState) => x.st = .starting || x.st = .on
  match f with
  | .tenant t => if isReady s && (tenantRec s t).isSome then go s else s
  | .queue fn q =>
    if !isReady s || idle (fnState s f) then s
    else match queueRefusal s fn q with
      | some c => refuseQueue s fn q c
      | none => go (setQueue s fn q { queueOf s fn q with code := 0 })
  | .kettle fn =>
    if !isReady s || idle (fnState s f) then s
    else match kettleRefusal s fn with
      | some c => refuseKettle s fn c
      | none => go (setKettle s fn { kettleOf s fn with code := 0 })
  | _ => if running s then go s else s

/-- Finish every slot of a list with a status. -/
def failAll (s : State) (status : Nat) : List Slot → State
  | [] => s
  | x :: r => failAll (fail s x.id status) status r

/-- The slots of a queue whose commands were fetched and have not started (04 R90). One that has been forwarded is its owner's. DEDUCED, log entry 18. -/
def unstarted (s : State) (fn q : Nat) : List Slot :=
  s.host.slots.filter fun x => x.cmd.fn = fn && x.cmd.q = q && x.cmd.src = none && !x.dead && x.notStarted && x.sentTo.isNone

/-- A Kettle ring that is disabled discards its staged and open words, and counts their records (04 R118). -/
def discardRing (s : State) (fn : Nat) : State :=
  let k := kettleOf s fn
  let mine := s.host.staging.filter fun x => x.1 = fn
  let s1 := setKettle s fn { k with lost := satAdd 32 k.lost ((mine.map (·.2.valid)).sum + k.opened.length), opened := [] }
  { s1 with host := { s1.host with staging := s1.host.staging.filter fun x => !(x.1 = fn) } }

/-- A disable (02 Table 2.11). A queue pair's fetched commands end with QUEUE_ABORTED (04 R90). -/
def disableFn (s : State) (f : FnId) : State :=
  let x := fnState s f
  let s1 := change s f x.disable
  if x.st = .on || x.st = .starting then
    match f with
    | .queue fn q =>
      let s2 := setQueue s1 fn q { queueOf s1 fn q with stoppedAt := s.mono }
      failAll s2 Status.queueAborted (unstarted s2 fn q)
    | .kettle fn => discardRing s1 fn
    | _ => s1
  else s1

/-- Slots of a queue pair that are still held. -/
def queueSlots (s : State) (fn q : Nat) : List Slot :=
  s.host.slots.filter fun x => x.cmd.fn = fn && x.cmd.q = q && x.cmd.src = none && !x.dead

/-- Operations that the fences of a queue pair cover are of its present life (02 R49): one that starts again covers none of an earlier one. -/
def dropCovered (s : State) (fn q : Nat) : State :=
  { s with host := { s.host with ops := s.host.ops.filter fun o => !(o.fn = fn && o.q = q && o.src = none) } }

/-- A queue pair leaves STOPPING (02 Table 2.11, 04 R88): with LATCH set, the checks of R88 are made again. -/
def queueShut (s : State) (fn q : Nat) : State :=
  let x := fnState s (.queue fn q)
  let s0 := dropCovered (setQueue s fn q (queueOf s fn q).cleanState) fn q
  if x.latch then
    match queueRefusal s0 fn q with
    | some c => refuseQueue (change s0 (.queue fn q) .clean) fn q c
    | none => change s0 (.queue fn q) x.shutDone
  else change s0 (.queue fn q) x.shutDone

/-- A started command left behind by its queue pair: its completion will be dropped (04 R90). -/
def abandonSlots (s : State) (fn q : Nat) : State :=
  let mine := fun (x : Slot) => decide (x.cmd.fn = fn) && decide (x.cmd.q = q) && decide (x.cmd.src = none) && !x.dead
  let finished := (s.host.slots.filter fun x => mine x && decide (x.phase = .finished)).length
  let s1 := setSlots s ((s.host.slots.filter fun x => !(mine x && decide (x.phase = .finished))).map fun x =>
    if mine x then { x with dead := true } else x)
  let s2 := { s1 with host := { s1.host with due := s1.host.due.filter fun d => !(d.fn = fn && d.q = q) } }
  setFunc s2 fn { funcOf s2 fn with dropped := satAdd 32 (funcOf s2 fn).dropped finished }

/-- Initialisation complete (02 Table 2.11). A ring of function 0 that enters ON on a degraded link gets the record again (04 R79). -/
def linkDegraded (s : State) : Bool := s.host.link.up && (s.host.link.rate < 5 || s.host.link.width < 8)

def degradedEvent (s : State) : State := eventA s 29 0x08 (s.host.link.width % 256 * 256 + s.host.link.rate % 256)

def initFn (s : State) (f : FnId) : State :=
  let x := fnState s f
  let s1 := change s f x.initDone
  if f = .kettle 0 && x.st = .starting && linkDegraded s1 then degradedEvent s1 else s1

/-- FUNCTION_ENABLE (02 R48). -/
def execFunctionEnable (f : FnId) (s : State) : Host.Outcome State Fault Refusal := quiet s (enableFn s f)

/-- FUNCTION_DISABLE (02 R48). -/
def execFunctionDisable (f : FnId) (s : State) : Host.Outcome State Fault Refusal := quiet s (disableFn s f)

/-- INITIALISATION_COMPLETE (02 R48). -/
def execInitialisationComplete (f : FnId) (s : State) : Host.Outcome State Fault Refusal := quiet s (initFn s f)

/-- TENANT_ENABLE: HOST_FUNC_CTL.ENABLE (04 R86). A function with no tenant ignores it (R83). -/
def execTenantEnable (fn : Nat) (s : State) : Host.Outcome State Fault Refusal :=
  match tenantOfFn s fn with
  | none => .next s
  | some r => quiet s (enableFn s (.tenant r.tenant))

/-- TENANT_DISABLE: HOST_FUNC_CTL.DISABLE (04 R86). -/
def execTenantDisable (fn : Nat) (s : State) : Host.Outcome State Fault Refusal :=
  match tenantOfFn s fn with
  | none => .next s
  | some r => quiet s (disableFn s (.tenant r.tenant))

/-- Does the page of a queue pair exist (04 R83, R85), and may it be written: before READY only the MGMT block acts (03 R68)? -/
def pageExists (s : State) (fn q : Nat) : Bool :=
  isReady s && match tenantOfFn s fn with
  | none => false
  | some r => q < r.queuePairs

/-- QUEUE_ENABLE: HOST_Q_CTL.ENABLE (04 R88). -/
def execQueueEnable (fn q : Nat) (s : State) : Host.Outcome State Fault Refusal :=
  if pageExists s fn q then quiet s (enableFn s (.queue fn q)) else .next s

/-- QUEUE_DISABLE: HOST_Q_CTL.DISABLE (04 R90). -/
def execQueueDisable (fn q : Nat) (s : State) : Host.Outcome State Fault Refusal :=
  if pageExists s fn q then quiet s (disableFn s (.queue fn q)) else .next s

/-- QUEUE_SHUTDOWN_TIMEOUT (04 R90): 5 ms after the disable, whatever started commands remain. -/
def execQueueShutdownTimeout (fn q : Nat) (s : State) : Host.Outcome State Fault Refusal :=
  let p := queueOf s fn q
  if p.fn.st = .stopping && p.stoppedAt + 5000000 ≤ s.mono then quiet s (queueShut (abandonSlots s fn q) fn q)
  else .next s

/-! ### Register writes of a queue pair (04 R87, R91) -/

/-- The configuration register at an offset takes a value (04 Table 4.4). -/
def QueuePair.writeConfig (p : QueuePair) (off v : Nat) : QueuePair :=
  let v32 := v % 2 ^ 32
  match off with
  | 0x010 => { p with sqBase := p.sqBase / 2 ^ 32 * 2 ^ 32 + v32 }
  | 0x014 => { p with sqBase := p.sqBase % 2 ^ 32 + v32 * 2 ^ 32 }
  | 0x018 => { p with cqBase := p.cqBase / 2 ^ 32 * 2 ^ 32 + v32 }
  | 0x01C => { p with cqBase := p.cqBase % 2 ^ 32 + v32 * 2 ^ 32 }
  | 0x020 => { p with sqLog := v % 32, cqLog := bits v 12 8 }
  | _ => p

/-- Is the offset that of a register that R87 names? -/
def queueConfigOff (off : Nat) : Bool := off = 0x010 || off = 0x014 || off = 0x018 || off = 0x01C || off = 0x020

/-- QUEUE_CONFIG_WRITE (04 R87). A write elsewhere in the page is ignored (Table 4.2). -/
def execQueueConfigWrite (fn q off v : Nat) (s : State) : Host.Outcome State Fault Refusal :=
  if pageExists s fn q && queueConfigOff off then
    let p := queueOf s fn q
    if p.fn.st = .off then quiet s (setQueue s fn q (p.writeConfig off v))
    else quiet s (refuseQueue s fn q Status.ringBusy)
  else .next s

/-- SQ_TAIL_DOORBELL (04 R91). `placed` is what the host has written to its memory since its last doorbell, and `bad` the 64-byte lines
of host memory whose reads now fail. DESIGN CHOICE, log entry 8. Bytes placed in an attached T3 extent spoil its slabs (06 R174). -/
def execSqTailDoorbell (fn q v : Nat) (placed : List Host.Cell) (bad : List Nat) (s : State) :
    Host.Outcome State Fault Refusal :=
  let s0 := { spoilT3 s placed with hostMem := s.hostMem.place placed, host := { s.host with badLines := bad } }
  if pageExists s0 fn q then
    let p := queueOf s0 fn q
    if v % 2 ^ 16 < 2 ^ p.sqLog then ordinary s (setQueue s0 fn q { p with sqTail := v % 2 ^ 16 })
    else ordinary s (refuseQueue s0 fn q Status.doorbellInvalid)
  else ordinary s s0

/-- CQ_HEAD_DOORBELL (04 R91): a value not below the entry count, or past the completion tail, is ignored. -/
def execCqHeadDoorbell (fn q v : Nat) (s : State) : Host.Outcome State Fault Refusal :=
  if pageExists s fn q then
    let p := queueOf s fn q
    let n := 2 ^ p.cqLog
    let x := v % 2 ^ 16
    if x < n && (x + n - p.cqHead) % n ≤ (p.cqTail + n - p.cqHead) % n then
      quiet s (setQueue s fn q { p with cqHead := x, unreadSince := if x = p.cqTail then none else p.unreadSince })
    else quiet s (refuseQueue s fn q Status.doorbellInvalid)
  else .next s

/-! ### Fetch (04 R92, R93, R101) -/

/-- May the arbiter grant this queue pair a fetch (04 R92, 02 Table 2.6)? -/
def fetchEligible (s : State) (fn q : Nat) : Bool :=
  let p := queueOf s fn q
  pageExists s fn q && !(p.fn.st = .off) && !(p.fn.st = .absent) && !(p.sqHead = p.sqTail) &&
    slotFree s fn q

/-- The first eligible queue pair from the arbiter's pointer on, by requester number function × 64 + queue (02 R43, 04 R93). -/
def fetchGrant (s : State) : Option (Nat × Nat) :=
  let away := fun (k : Nat × Nat) => (k.1 * 64 + k.2 + 1088 - s.host.fetchPtr) % 1088
  let c := (s.host.queues.map (·.1)).filter fun k => fetchEligible s k.1 k.2
  c.foldl (fun b k => match b with
    | none => some k
    | some x => if away k < away x then some k else b) none

/-- The command in a submission entry of host memory. -/
def readEntry (s : State) (fn q addr : Nat) : Cmd :=
  let m := s.hostMem
  { fn := fn, q := q, src := none, w0 := m.readWord addr, w1 := m.readWord (addr + 8), w2 := m.readWord (addr + 16),
    w3 := m.readWord (addr + 24), w4 := m.readWord (addr + 32), w5 := m.readWord (addr + 40),
    w6 := m.readWord (addr + 48), w7 := m.readWord (addr + 56) }

/-- The entry that stands for one whose read failed: CID 0xFFFF, all else zero (04 R101). -/
def unreadable (fn q : Nat) : Cmd :=
  { fn := fn, q := q, src := none, w0 := 0xFFFF000000000000, w1 := 0, w2 := 0, w3 := 0, w4 := 0, w5 := 0, w6 := 0, w7 := 0 }

/-- The checks of R599 that a command meets when it is fetched: the batch that it names is looked up when it starts (R107). -/
def fetchChecks (s : State) (c : Cmd) : Option Nat := if isBatch c then entryChecks s c else hostChecks s c

/-- Fetch one entry: it takes a slot, and ends at once where its read failed (04 R101) or a check fails (R599). -/
def fetchOne (s : State) (fn q : Nat) : State :=
  let p := queueOf s fn q
  let addr := p.sqBase + p.sqHead * 64
  let s1 := setQueue s fn q { p with sqHead := (p.sqHead + 1) % 2 ^ p.sqLog }
  if s.host.badLines.contains (addr / 64) then
    let t := takeSlot s1 (unreadable fn q)
    finish t.2 t.1 Status.hostReadError p.sqHead 0
  else
    let c := readEntry s1 fn q addr
    let t := takeSlot s1 c
    match fetchChecks t.2 c with
    | some e => fail t.2 t.1 e
    | none => t.2

/-- Fetch up to `n` entries while the queue has entries and slots (04 R92, R93). -/
def fetchMany (s : State) (fn q : Nat) : Nat → State
  | 0 => s
  | n + 1 => if fetchEligible s fn q then fetchMany (fetchOne s fn q) fn q n else s

/-- COMMAND_FETCH (04 R93): one grant of the fetch arbiter, up to eight entries. -/
def execCommandFetch (s : State) : Host.Outcome State Fault Refusal :=
  if s.host.link.up && isReady s && s.boot.stop = none then
    match fetchGrant s with
    | none => .next s
    | some (fn, q) =>
      let s1 := fetchMany s fn q 8
      quiet s { s1 with host := { s1.host with fetchPtr := (fn * 64 + q + 1) % 1088 } }
  else .next s

/-! ### Completions (04 R100–R102) -/

/-- The four doublewords of a completion (04 Table 4.8). -/
def completionBytes (d : Completion) (sqHead : Nat) (phase : Bool) : List Byte :=
  let w0 := d.cid % 2 ^ 16 * 2 ^ 48 + d.status % 2 ^ 16 * 2 ^ 32 + sqHead % 2 ^ 16 * 2 ^ 16 + b2n d.forwarded * 2 ^ 7 +
    d.q % 64 * 2 + b2n phase
  leBytes 8 w0 ++ leBytes 8 d.handle ++ leBytes 8 d.result0 ++ leBytes 8 d.result1

/-- COMPLETION_POST (04 R102): the oldest completion due on the queue is written when the completion queue has a free entry, and its slot
is released. A completion with NOTIFY raises the queue's vector (R111). -/
def execCompletionPost (fn q : Nat) (s : State) : Host.Outcome State Fault Refusal :=
  let p := queueOf s fn q
  let n := 2 ^ p.cqLog
  match s.host.due.find? (fun d => d.fn = fn && d.q = q && ((slotById s d.slot).map (·.cmd.src)) = some none) with
  | none => .next s
  | some d =>
    if s.host.link.up && !((p.cqTail + 1) % n = p.cqHead) then
      let s0 := if d.injected then eventT s 29 0xB2 true (some d.tenant) q else s
      let s1 := dropSlot s0 d.slot
      let tail := (p.cqTail + 1) % n
      let p1 := { p with
        cqTail := tail, phase := if tail = 0 then !p.phase else p.phase
        unreadSince := some (p.unreadSince.getD s.mono) }
      let s2 := setQueue { s1 with
        hostMem := s1.hostMem.writeBytes (p.cqBase + p.cqTail * 32) (completionBytes d p.sqHead p.phase)
        host := { s1.host with due := s1.host.due.filter fun x => x.slot ≠ d.slot } } fn q p1
      ordinary s (if d.notify then signal s2 fn (2 + q) else s2)
    else .next s

/-! ### Interrupts (04 R110, R111) -/

/-- INTERRUPT_COALESCE_TIMER (04 R111): a completion unread for 8 µs, a Kettle ring not empty 8 µs after its last signal, or a vector held
back because it was signalled less than 2 µs before. A ring that is not ON does not repeat its signal: DESIGN CHOICE, log entry 125. DEDUCED, log entry 42. -/
def execInterruptCoalesceTimer (fn vector : Nat) (s : State) : Host.Outcome State Fault Refusal :=
  let f := funcOf s fn
  let since := tgetD f.lastSignal vector 0
  let k := kettleOf s fn
  let held := f.vecPending.contains vector && !vecMasked f vector && since + 2000 ≤ s.mono
  let unread := 2 ≤ vector && (match (queueOf s fn (vector - 2)).unreadSince with
    | none => false
    | some t => max t since + 8000 ≤ s.mono)
  let ring := vector = 1 && !(k.tail = k.head) && k.fn.st = .on && since + 8000 ≤ s.mono
  if held || unread || ring then quiet s (signal s fn vector) else .next s

/-- Signal each pending vector of a list that is no longer masked. -/
def signalPending (s : State) (fn : Nat) : List Nat → State
  | [] => s
  | v :: r => signalPending (if vecMasked (funcOf s fn) v then s else signal s fn v) fn r

/-- IRQ_MASK_WRITE (04 Table 4.3, R111). Before READY only the MGMT block acts (03 R68). -/
def execIrqMaskWrite (fn : Nat) (m : IrqMask) (v : Nat) (s : State) : Host.Outcome State Fault Refusal :=
  if !isReady s then .next s else
  let f := funcOf s fn
  let f1 : FuncRegs := match m with
    | .lo => { f with maskLo := v % 2 ^ 32 }
    | .hi => { f with maskHi := v % 2 ^ 32 }
    | .evt => { f with maskFunc := bit v 0, maskKettle := bit v 1 }
    | .msix n => { f with vecMasked := if bit v 0 then (if f.vecMasked.contains n then f.vecMasked else f.vecMasked ++ [n])
                                       else f.vecMasked.erase n }
  quiet s (signalPending (setFunc s fn f1) fn f1.vecPending)

/-- Widths and rates at which the host link trains, and the mode of each rate (04 R78, R79, Table 4.1). -/
def hostLinkOk (width rate : Nat) (flit : Bool) : Bool :=
  (width = 1 || width = 2 || width = 4 || width = 8) && 1 ≤ rate && rate ≤ 7 && decide (flit = decide (6 ≤ rate))

/-- HOST_LINK_TRAINED (04 R78, R79, 03 R68): from step 5 of start-up on, and not while the host interface island is being reset (02 R50). -/
def execHostLinkTrained (width rate : Nat) (flit : Bool) (s : State) : Host.Outcome State Fault Refusal :=
  if imageInForce s && s.boot.stop = none && hostLinkOk width rate flit && !((fnState s (.island 29)).st = .stopping) then
    let s1 := { s with host := { s.host with link := { up := true, width := width, rate := rate, flit := flit } }
                       boot := { s.boot with perstN := true } }
    quiet s (if linkDegraded s1 then degradedEvent s1 else s1)
  else .next s

end Sys2Proof.Machine
end

