-- ==== Sys2Proof/Machine/KettleRings.lean ====
section
/-!
DEFINITION. The Kettle event rings (04_host_queues.md R113–R118, Table 4.10).
-/
namespace Sys2Proof.Machine

/-- The pad record of a flush (04 R114): [47:32] holds the count of valid bytes. -/
def padRecord (validBytes time : Nat) : Word := eventWord 0xFF 0 validBytes time

/-- The open word at a flush, its empty slots filled with pad records (04 R114). -/
def Kettle.flushed (k : Kettle) (time : Nat) : KettleWord :=
  let n := k.opened.length
  { slots := k.opened ++ List.replicate (8 - n) (padRecord (8 * n) time), valid := n }

/-- Close the open word of a ring (04 R113). -/
def flushRing (s : State) (fn : Nat) : State :=
  let k := kettleOf s fn
  stageWord (setKettle s fn { k with opened := [] }) fn (k.flushed (islandTime s 31))

/-- KETTLE_FLUSH_TIMER (04 R113): 20 µs after the first record of the open word. -/
def execKettleFlushTimer (fn : Nat) (s : State) : Host.Outcome State Fault Refusal :=
  let k := kettleOf s fn
  if k.opened ≠ [] && k.openedAt + 20000 ≤ s.mono then quiet s (flushRing s fn) else .next s

/-- A poisoned word: the island byte of every slot is 0xFE, the other bits as read (04 R115). -/
def poisonWord (w : Word) : Word := BitVec.ofNat 64 (0xFE * 2 ^ 56 + w.toNat % 2 ^ 56)

/-- Take the oldest word of a ring out of the staging buffer. -/
def unstage (fn : Nat) : List (Nat × KettleWord) → List (Nat × KettleWord)
  | [] => []
  | x :: r => if x.1 = fn then r else x :: unstage fn r

/-- KETTLE_WORD_WRITE (04 R116): the ring's oldest staged word is written; a full ring loses its oldest word first. The ring's vector is signalled
when the ring was empty (R111). -/
def execKettleWordWrite (fn : Nat) (parityBad : Bool) (s : State) : Host.Outcome State Fault Refusal :=
  let k := kettleOf s fn
  match s.host.staging.find? fun x => x.1 = fn with
  | none => .next s
  | some (_, w) =>
    if s.host.link.up && k.fn.st = .on then
      let size := 2 ^ k.sizeLog
      let used := (k.tail + 2 ^ 32 - k.head) % 2 ^ 32
      let k1 := if used = size then
          { k with head := wrapAdd 32 k.head 1, lost := satAdd 32 k.lost (tgetD k.counts (k.head % size) 0) }
        else k
      let words := if parityBad then w.slots.map poisonWord else w.slots
      let valid := if parityBad then 8 else w.valid
      let k2 := { k1 with
        tail := wrapAdd 32 k.tail 1, counts := tset k1.counts (k.tail % size) valid
        poison := if parityBad then satAdd 32 k1.poison 1 else k1.poison }
      let s1 := setKettle { s with
        hostMem := s.hostMem.writeBytes (k.base + k.tail % size * 64) (words.flatMap wordBytes)
        host := { s.host with staging := unstage fn s.host.staging } } fn k2
      ordinary s (if used = 0 then signal s1 fn 1 else s1)
    else .next s

/-- Has the function a tenant, without which its Kettle registers ignore writes (04 R83), and may they be written (03 R68)? -/
def kettleExists (s : State) (fn : Nat) : Bool := isReady s && (tenantOfFn s fn).isSome

/-- Is the offset that of a register written only while the ring is OFF (04 Table 4.10)? -/
def kettleConfigOff (off : Nat) : Bool := off = 0x000 || off = 0x004 || off = 0x008

/-- KETTLE_ENABLE (04 Table 4.10, R88). -/
def execKettleEnable (fn : Nat) (s : State) : Host.Outcome State Fault Refusal :=
  if kettleExists s fn then quiet s (enableFn s (.kettle fn)) else .next s

/-- KETTLE_DISABLE (04 R118). -/
def execKettleDisable (fn : Nat) (s : State) : Host.Outcome State Fault Refusal :=
  if kettleExists s fn then quiet s (disableFn s (.kettle fn)) else .next s

/-- KETTLE_CONFIG_WRITE (04 Table 4.10): only while the ring is OFF; otherwise the write is refused as R87 says of a queue. -/
def execKettleConfigWrite (fn off v : Nat) (s : State) : Host.Outcome State Fault Refusal :=
  if kettleExists s fn && kettleConfigOff off then
    let k := kettleOf s fn
    if k.fn.st = .off then
      let v32 := v % 2 ^ 32
      let k1 : Kettle := match off with
        | 0x000 => { k with base := k.base / 2 ^ 32 * 2 ^ 32 + v32 }
        | 0x004 => { k with base := k.base % 2 ^ 32 + v32 * 2 ^ 32 }
        | 0x008 => { k with sizeLog := v % 32 }
        | _ => k
      quiet s (setKettle s fn k1)
    else quiet s (refuseKettle s fn Status.ringBusy)
  else .next s

/-- KETTLE_HEAD_WRITE (04 R117). -/
def execKettleHeadWrite (fn v : Nat) (s : State) : Host.Outcome State Fault Refusal :=
  let k := kettleOf s fn
  let x := v % 2 ^ 32
  if kettleExists s fn && (x + 2 ^ 32 - k.head) % 2 ^ 32 ≤ (k.tail + 2 ^ 32 - k.head) % 2 ^ 32 then
    quiet s (setKettle s fn { k with head := x })
  else .next s

end Sys2Proof.Machine
end

