-- ==== Sys2Proof/Machine/Telemetry.lean ====
section
/-!
DEFINITION. Counters, meters, hardware dumps and the registers of the MGMT block that act when they are read or written
(20_counters_and_metering.md; 03 R71–R74; 18 R532; 21 R594).
-/
namespace Sys2Proof.Machine

/-! ### Islands -/

/-- The islands that an ordering code lacks (02 Table 2.3 Note 1). -/
def islandAbsent (o : OrderCode) (i : Nat) : Bool :=
  match o with
  | .p64x2 => i = 34 || i = 35 || i = 38 || i = 39
  | _ => false

/-- The clock of an island in MHz (02 Table 2.3). That of a PHY island derives from the SerDes and is not stated. -/
def islandMhz (i : Nat) : Nat :=
  if i < 20 then 1500
  else match i with
    | 20 => 1200
    | 21 => 1000
    | 22 => 1500
    | 23 => 1200
    | 24 => 1000
    | 25 => 1200
    | 26 => 1200
    | 27 => 1000
    | 28 => 1000
    | 29 => 1000
    | 30 => 400
    | 31 => 500
    | 36 => 1350
    | 37 => 1350
    | 38 => 1350
    | 39 => 1350
    | _ => Config.phyMhz

/-- The cycle counter of an island (20 R564): cycles since it entered STARTING. -/
def cycleCount (s : State) (i : Nat) : Nat :=
  match tget s.tele.cycleFrom i with
  | none => 0
  | some t => (s.mono - t) * islandMhz i / 1000 % 2 ^ 64

/-- The detector codes of an island, ascending (18 Table 18.1, 20 Table 20.2). -/
def detectorCodes (i : Nat) : List Nat :=
  if i < 20 then [0x11, 0x12, 0x13, 0x14, 0x16, 0x1B]
  else if i = 21 then [0x12, 0x13, 0x16, 0x18]
  else if i = 24 then [0x12, 0x13, 0x16, 0x17]
  else if i = 28 then [0x12, 0x13, 0x16, 0x20, 0x21, 0x22, 0x23, 0x24]
  else if i = 29 then [0x12, 0x13, 0x16, 0x1A]
  else if i = 31 then [0x12, 0x13, 0x16, 0x19]
  else if 32 ≤ i && i ≤ 35 then [0x12, 0x13, 0x15, 0x16]
  else [0x12, 0x13, 0x16]

/-- Codes of an island below the detectors (20 Table 20.2). -/
def lowCodes (i : Nat) : List Nat :=
  if i < 20 then [0x01, 0x04]
  else if i = 24 then [0x01, 0x07]
  else if i = 29 then [0x01, 0x03, 0x05, 0x08]
  else if i = 31 then [0x01, 0x06]
  else if 36 ≤ i then [0x01, 0x02]
  else [0x01]

/-- Codes of an island above the sensors (20 Table 20.2). -/
def highCodes (i : Nat) : List Nat :=
  [0x28, 0x29, 0x2A] ++
  (if i = 21 then [0x30, 0x31, 0x32, 0x33, 0x34, 0x40, 0x41, 0x42, 0x45, 0xB0, 0xB1]
   else if i = 23 then [0x44]
   else if i = 24 then [0x43]
   else if i = 25 then [0x60, 0x61, 0x64, 0x66, 0x67]
   else if i = 26 then [0x70, 0x71, 0x72]
   else if i = 29 then [0xB2]
   else if i = 30 then [0x90, 0x91]
   else if i = 31 then [0xA0, 0xA1]
   else if 36 ≤ i then [0x62, 0x63, 0x65]
   else [])

/-- Every code that an island may write, ascending (20 R561, R563). -/
def islandCodes (i : Nat) : List Nat := lowCodes i ++ detectorCodes i ++ highCodes i

/-! ### Meters (20 R572, R573) -/

/-- Charge a class of the meter set of a (tenant, composition) pair; a pair beyond 256 sets is charged to the tenant's overflow set, with one
METER_OVERFLOW record per pair. -/
def meterAdd (s : State) (tenant comp cls n : Nat) : State :=
  let bump := fun (c : Tab Nat Nat) => tupd c cls 0 fun x => wrapAdd 64 x n
  if s.tele.meters.any fun m => m.tenant = tenant && m.composition = comp then
    { s with tele := { s.tele with meters := s.tele.meters.map fun m =>
        if m.tenant = tenant && m.composition = comp then { m with counts := bump m.counts } else m } }
  else if s.tele.meters.length < 256 then
    { s with tele := { s.tele with
        meters := s.tele.meters ++ [{ tenant := tenant, composition := comp, counts := bump [] }] } }
  else
    let s1 := { s with tele := { s.tele with overflow := tupd s.tele.overflow tenant [] bump } }
    if s1.tele.overflowSeen.contains (tenant, comp) then s1
    else eventT { s1 with tele := { s1.tele with overflowSeen := s1.tele.overflowSeen ++ [(tenant, comp)] } } 31 0xA1 false
      (some tenant) comp

/-- A meter's count in whole microseconds (20 Table 20.6). -/
def meterUs (cls n : Nat) : Nat :=
  match cls with
  | 0 => n / 1500
  | 1 => n / 1500
  | 2 => n / 1500
  | 3 => n / 1200
  | 4 => n * 8 / 800000
  | 5 => n
  | 6 => n
  | _ => 0

/-- Meter set `i` of 272: 256 sets, then 16 overflow sets (20 Table 20.5). -/
def meterSetAt (s : State) (i : Nat) : Tab Nat Nat :=
  if i < 256 then match s.tele.meters[i]? with
    | some m => m.counts
    | none => []
  else tgetD s.tele.overflow (i - 256) []

/-! ### Top-down counters (20 R567) -/

/-- Add to a top-down counter of a Ladle: words 0–3 RET, 4–7 WST, 8–11 FRT, 12–15 BKS, 20–24 RET0, 25 ACTIVE (20 Table 20.5). -/
def Tele.addTop (t : Tele) (l word n : Nat) : Tele := if n = 0 then t else { t with topdown := tupd t.topdown (l, word) 0 (wrapAdd 48 · n) }

/-- PEND of a Ladle and issue slot. -/
def pendOf (t : Tele) (l k : Nat) : Nat := ((t.pend.filter fun e => e.1.1 = l && e.1.2.2 < 8 && e.1.2.2 % 4 = k).map (·.2)).sum

/-- A top-down word as it reads. -/
def topWord (t : Tele) (l word : Nat) : Nat :=
  if 16 ≤ word && word < 20 then pendOf t l (word - 16) % 2 ^ 48 else tgetD t.topdown (l, word) 0

/-! ### Counter items (20 Table 20.7) -/

/-- The value of a counter item; an item that does not exist reads zero (20 R574). -/
def ctrItem (s : State) (island item : Nat) : Nat :=
  let t := s.tele
  if item = 0 then cycleCount s island
  else if item ≤ 8 then (tgetD t.pctrs (island, item - 1) .reset).count
  else if 0x0100 ≤ item && item < 0x0200 then tgetD t.events (island, item - 0x0100) 0
  else if 0x0200 ≤ item && item < 0x0300 then tgetD t.injected (island, item - 0x0200) 0
  else if 0x0400 ≤ item && item < 0x0500 then
    if island < 20 then topWord t (island * 8 + (item - 0x0400) / 32) ((item - 0x0400) % 32) else 0
  else if island = 31 then
    if 0x1000 ≤ item && item < 0x1000 + 272 * 8 then
      meterUs (item % 8) (tgetD (meterSetAt s ((item - 0x1000) / 8)) (item % 8) 0)
    else if 0x3000 ≤ item && item < 0x3000 + 272 then
      let i := item - 0x3000
      if i < 256 then match t.meters[i]? with
        | some m => 2 ^ 63 + m.tenant % 16 * 2 ^ 56 + m.composition % 256 * 2 ^ 48
        | none => 0
      else if thas t.overflow (i - 256) then 2 ^ 63 + (i - 256) * 2 ^ 56 + 2 ^ 47 else 0
    else if 0x3400 ≤ item && item < 0x3404 then tgetD t.draftWasted (item - 0x3400) 0
    else if 0x4000 ≤ item && item < 0x5000 then tgetD t.tenants ((item - 0x4000) / 256, item % 256) 0
    else 0
  else 0

/-- The number of jobs that a tenant has open (04 R103). -/
def jobCount (s : State) (t : Nat) : Nat := (s.host.jobs.filter fun e => e.1.1 = t).length

/-- The value of a function's counter item (20 R575). -/
def hostCtrItem (s : State) (t item : Nat) : Nat :=
  let set := fun comp => match s.tele.meters.find? (fun m => m.tenant = t && m.composition = comp) with
    | some m => m.counts
    | none => []
  if item < 0x100 then tgetD s.tele.tenants (t, item) 0
  else if 0x1000 ≤ item && item < 0x1800 then meterUs (item % 8) (tgetD (set ((item - 0x1000) / 8)) (item % 8) 0)
  else if 0x1800 ≤ item && item < 0x1808 then meterUs (item % 8) (tgetD (tgetD s.tele.overflow t []) (item % 8) 0)
  else if item = 0x2000 then jobCount s t
  else 0

/-! ### The two paths -/

def pathRegs (s : State) (p : Path) : PathRegs :=
  match p with
  | .mgmt => s.mgmt.mgmt
  | .phys => s.mgmt.phys

def setPath (s : State) (p : Path) (r : PathRegs) : State :=
  match p with
  | .mgmt => { s with mgmt := { s.mgmt with mgmt := r } }
  | .phys => { s with mgmt := { s.mgmt with phys := r } }

/-- Can the MGMT block be reached by a path (03 R68, R70; 21 R594)? The management port from the end of step 1, the physical function while the
link is up, from step 5. -/
def mgmtReachable (s : State) (p : Path) : Bool :=
  match p with
  | .mgmt => alive s
  | .phys => running s && s.host.link.up

/-- KNOB_WRITE (03 R73, R74). -/
def execKnobWrite (p : Path) (v : Nat) (s : State) : Host.Outcome State Fault Refusal :=
  if mgmtReachable s p then
    let r := pathRegs s p
    let x := v % 2 ^ 32
    let result := fun (c : Nat) => setPath s p { r with knobResult := c }
    match s.image.knobs.find? (·.knob = r.knob) with
    | none => quiet s (result Status.knobNotListed)
    | some k =>
      if !thas (knobInstances s.image r.knob) r.knobIndex then quiet s (result Status.knobNoTarget)
      else if x < k.min || k.max < x then quiet s (result Status.knobOutOfBounds)
      else
        let s1 := result 0
        let later := r.knob ≤ 5 || r.knob = 9
        quiet s (if later then
            { s1 with mgmt := { s1.mgmt with knobsDue := tset s1.mgmt.knobsDue (r.knob, r.knobIndex) x } }
          else { s1 with mgmt := { s1.mgmt with knobs := tset s1.mgmt.knobs (r.knob, r.knobIndex) x } })
  else .next s

/-- PCTR_CFG_WRITE (20 R566, Table 20.7). -/
def execPctrCfgWrite (p : Path) (v : Nat) (s : State) : Host.Outcome State Fault Refusal :=
  let r := pathRegs s p
  if mgmtReachable s p && r.pctrIsland < 40 && !islandAbsent s.order r.pctrIsland then
    let c : Pctr :=
      { enable := bit v 31, edge := bit v 30, filter := bit v 29, tenant := bits v 28 25, signal := bits v 24 16,
        threshold := bits v 15 8, count := 0, last := 0 }
    quiet s { s with tele := { s.tele with
      pctrs := tset s.tele.pctrs (r.pctrIsland, r.pctrIndex) c
      configSeq := tupd s.tele.configSeq r.pctrIsland 0 (wrapAdd 32 · 1) } }
  else .next s

/-- DUMP_HEAD_WRITE (20 R571). -/
def execDumpHeadWrite (p : Path) (v : Nat) (s : State) : Host.Outcome State Fault Refusal :=
  let t := s.tele
  let x := v % 2 ^ 32
  if mgmtReachable s p && (x + 2 ^ 32 - t.dumpHead) % 2 ^ 32 ≤ (t.dumpTail + 2 ^ 32 - t.dumpHead) % 2 ^ 32 then
    quiet s { s with tele := { t with dumpHead := x } }
  else .next s

/-- MGMT_CTR_LO_READ (20 R574). -/
def execMgmtCtrLoRead (p : Path) (s : State) : Host.Outcome State Fault Refusal :=
  if mgmtReachable s p then
    let r := pathRegs s p
    let x := ctrItem s r.ctrIsland r.ctrItem
    quiet s { s with mgmt := { s.mgmt with ctrLo := x % 2 ^ 32, ctrHi := x / 2 ^ 32 }
                     host := { s.host with readData := x % 2 ^ 32 } }
  else .next s

/-- HOST_CTR_LO_READ (20 R575): zero, and nothing latched, where the tenant may not read counters. -/
def execHostCtrLoRead (fn : Nat) (s : State) : Host.Outcome State Fault Refusal :=
  match tenantOfFn s fn with
  | none => .next s
  | some r =>
    if r.counterRead && isReady s then
      let f := funcOf s fn
      let x := hostCtrItem s r.tenant f.ctrSel
      let s1 := setFunc s fn { f with ctrHi := x / 2 ^ 32 }
      quiet s { s1 with host := { s1.host with readData := x % 2 ^ 32 } }
    else quiet s { s with host := { s.host with readData := 0 } }

/-- A productive-time count in whole microseconds (18 R532). -/
def timeCount (s : State) (sel : Nat) : Nat :=
  let r := s.rel
  match sel with
  | 0 => r.tReady / 1000
  | 1 => (r.tReady - r.tLost) / 1000
  | 2 => r.tLost / 1000
  | 3 => r.tRecovery / 1000
  | 4 => r.tIsland / 1000
  | 5 => r.tSpare / 1000
  | 6 => r.tLink / 1000
  | _ => 0

/-- MGMT_TIME_LO_READ (18 R532, Table 18.11). -/
def execMgmtTimeLoRead (p : Path) (s : State) : Host.Outcome State Fault Refusal :=
  if mgmtReachable s p then
    let x := timeCount s (pathRegs s p).timeSel
    quiet s { s with mgmt := { s.mgmt with timeHi := x / 2 ^ 32 }, host := { s.host with readData := x % 2 ^ 32 } }
  else .next s

/-- MGMT_RAIL_V_READ (21 R594): VALID and MV are returned and the current is latched in MGMT_RAIL_I. -/
def execMgmtRailVRead (p : Path) (s : State) : Host.Outcome State Fault Refusal :=
  if mgmtReachable s p then
    let r := (pathRegs s p).railSel
    match railReadings s r with
    | x :: _ =>
      if r ≤ 9 then
        quiet s { s with mgmt := { s.mgmt with railI := x.deciAmp % 2 ^ 16 }
                         host := { s.host with readData := b2n (railValid s r) * 2 ^ 31 + x.mv % 2 ^ 16 } }
      else quiet s { s with mgmt := { s.mgmt with railI := 0 }, host := { s.host with readData := 0 } }
    | [] => quiet s { s with mgmt := { s.mgmt with railI := 0 }, host := { s.host with readData := 0 } }
  else .next s

/-- A selector of the MGMT block takes a value (03 Table 3.11, 18 Table 18.11, 20 Table 20.7, 21 Table 21.9). -/
def PathRegs.write (r : PathRegs) (off v : Nat) : PathRegs :=
  match off with
  | 0x0010 => { r with knob := bits v 31 16, knobIndex := bits v 15 0 }
  | 0x0500 => { r with healthPart := bits v 31 24, healthIndex := bits v 10 0 }
  | 0x0510 => { r with timeSel := bits v 2 0 }
  | 0x0700 => { r with ctrIsland := bits v 31 24, ctrItem := bits v 15 0 }
  | 0x0710 => { r with pctrIsland := bits v 31 24, pctrIndex := bits v 2 0 }
  | 0x0804 => { r with railSel := bits v 3 0 }
  | _ => r

/-- A word of the MSI-X table: four to a vector, the fourth of which IRQ_MASK_WRITE writes (04 R84, Table 4.2). PRESUMED, log entry 130. -/
def FuncRegs.msixWrite (f : FuncRegs) (off v : Nat) : FuncRegs :=
  let n := off / 16
  let x := v % 2 ^ 32
  let a := tgetD f.vecAddr n 0
  if 66 ≤ n then f
  else match off % 16 with
    | 0 => { f with vecAddr := tset f.vecAddr n (a / 2 ^ 32 * 2 ^ 32 + x / 4 * 4) }
    | 4 => { f with vecAddr := tset f.vecAddr n (x * 2 ^ 32 + a % 2 ^ 32) }
    | 8 => { f with vecData := tset f.vecData n x }
    | _ => f

/-- A word of the physical function's configuration space that the module uses: NumVFs, BAR0 and BAR1, VF BAR0 and VF BAR1 (04 R83, R84). A BAR decodes
1 MiB, so its low 20 bits are zero. PRESUMED, log entry 130. -/
def HostIf.sriovWrite (h : HostIf) (off v : Nat) : HostIf :=
  let low := fun (b : Nat) => b / 2 ^ 32 * 2 ^ 32 + v % 2 ^ 32 / 2 ^ 20 * 2 ^ 20
  let high := fun (b : Nat) => v % 2 ^ 32 * 2 ^ 32 + b % 2 ^ 32
  match off with
  | 0x10 => if v % 2 ^ 16 ≤ 16 then { h with numVFs := v % 2 ^ 16 } else h
  | 0x24 => { h with vfBar := low h.vfBar }
  | 0x28 => { h with vfBar := high h.vfBar }
  | 0x110 => { h with bar := low h.bar }
  | 0x114 => { h with bar := high h.bar }
  | _ => h

/-- REGISTER_WRITE (04 R85): a write to a register that has no row of its own. Those that store anything are the selectors of the MGMT block,
HOST_CTR_SEL (20 R575), the MSI-X table and the configuration space (04 R83, R84); every other offset is read-only, unused, or has its own command. Before
READY the physical function exposes the MGMT block alone (03 R68). -/
def execRegisterWrite (r : RegSpace) (off v : Nat) (s : State) : Host.Outcome State Fault Refusal :=
  match r with
  | .mgmt p => if mgmtReachable s p then quiet s (setPath s p ((pathRegs s p).write off v)) else .next s
  | .func fn =>
    match tenantOfFn s fn with
    | none => .next s
    | some t =>
      if off = 0x0100 && t.counterRead && isReady s then quiet s (setFunc s fn { funcOf s fn with ctrSel := bits v 15 0 })
      else .next s
  | .queue _ _ => .next s
  | .kettle _ => .next s
  | .msix fn => if s.host.link.up then quiet s (setFunc s fn ((funcOf s fn).msixWrite off v)) else .next s
  | .sriov => if s.host.link.up then quiet s { s with host := s.host.sriovWrite off v } else .next s

/-! ### Hardware dumps (20 R569–R571) -/

/-- Words padded with zeros to whole 64-byte lines (20 Table 20.5 Note 1). -/
def padLine (l : List Nat) : List Nat := l ++ List.replicate ((8 - l.length % 8) % 8) 0

/-- Does the island run, so that its counts are not as at a stop (20 Table 20.5, STOPPED)? -/
def islandOn (s : State) (i : Nat) : Bool := (fnState s (.island i)).st = .on

/-- The words of one island's dump record after its first word (20 Table 20.5). -/
def dumpBody (s : State) (i : Nat) : List Nat :=
  let ev := (islandCodes i).map fun c => tgetD s.tele.events (i, c) 0
  let inj := (detectorCodes i).map fun c => tgetD s.tele.injected (i, c) 0
  let top := if i < 20 then
      (List.range 8).flatMap fun p => (List.range 32).map fun w => topWord s.tele (i * 8 + p) w
    else []
  let met := if i = 31 then
      ((List.range 272).flatMap fun k => (List.range 8).map fun c => tgetD (meterSetAt s k) c 0) ++
        (List.range 4).map fun k => tgetD s.tele.draftWasted k 0
    else []
  let w3 := tgetD s.tele.configSeq i 0 % 2 ^ 32 * 2 ^ 32 + ev.length * 2 ^ 16 + min 255 (tgetD s.tele.resets i 0) * 2 ^ 8 +
    b2n (i = 31) * 8 + b2n (decide (i < 20)) * 4 + 2 + b2n (!islandOn s i)
  [s.time, cycleCount s i, w3, 0, 0, 0, 0] ++
    ((List.range 8).map fun k => (tgetD s.tele.pctrs (i, k) .reset).count) ++
    padLine ev ++ padLine inj ++ padLine top ++ padLine met

/-- One island's record: LINES covers the header word too. -/
def dumpRecord (s : State) (period i : Nat) : List Nat :=
  let b := dumpBody s i
  (i * 2 ^ 56 + 2 ^ 48 + (b.length + 1) / 8 * 2 ^ 32 + period % 2 ^ 32) :: b

/-- Records of the islands that are not ABSENT, ascending. -/
def dumpSet (s : State) (period : Nat) : List (List Nat) :=
  ((List.range 40).filter fun i => !islandAbsent s.order i && !((fnState s (.island i)).st = .absent)).map (dumpRecord s period)

/-- Where each record of a set goes: line number, and the lines it takes with any pad before it (20 R570). -/
def dumpLines (ringLines tail : Nat) : List (List Nat) → Nat
  | [] => 0
  | r :: rs =>
    let n := r.length / 8
    let room := ringLines - tail % ringLines
    let pad := if room < n then room else 0
    pad + n + dumpLines ringLines (tail + pad + n) rs

/-- Write a set of records into the ring's memory. -/
def dumpWrite (m : Memory) (base ringLines period : Nat) : Nat → List (List Nat) → Memory
  | _, [] => m
  | tail, r :: rs =>
    let n := r.length / 8
    let room := ringLines - tail % ringLines
    let pad := if room < n then room else 0
    let m1 := if pad = 0 then m
      else m.writeBytes (base + tail % ringLines * 64) (leBytes 8 (0xFF * 2 ^ 56 + 2 ^ 48 + pad * 2 ^ 32 + period % 2 ^ 32))
    let pos := (tail + pad) % ringLines
    dumpWrite (m1.writeBytes (base + pos * 64) (r.flatMap (leBytes 8))) base ringLines period (tail + pad + n) rs

/-- A skipped period (20 R570): counted, with at most one DUMP_SKIPPED record per 1 ms. -/
def dumpSkip (s : State) : State :=
  let t := s.tele
  let n := t.dumpSkipNew + 1
  let s1 := { s with tele := { t with dumpSkipped := satAdd 32 t.dumpSkipped 1, dumpSkipNew := n } }
  let late := match t.dumpSkipEventAt with
    | none => true
    | some at' => at' + 1000000 ≤ s.mono
  if late then eventA { s1 with tele := { s1.tele with dumpSkipNew := 0, dumpSkipEventAt := some s.mono } } 31 0xA0 n else s1

/-- A boundary of the dump period `p`: the set of records is written whole, or the period is skipped (20 R569, R570). -/
def dumpSetOut (s : State) (d : DumpRec) (period : Nat) : State :=
  let ringLines := d.bytes / 64
  let set := dumpSet s period
  let need := dumpLines ringLines s.tele.dumpTail set
  let used := (s.tele.dumpTail + 2 ^ 32 - s.tele.dumpHead) % 2 ^ 32
  let blocked := (d.dest = 0 && !s.host.link.up) || ringLines < used + need
  let s1 :=
    if blocked then dumpSkip s
    else
      let s2 := { s with tele := { s.tele with dumpTail := wrapAdd 32 s.tele.dumpTail need } }
      if d.dest = 0 then { s2 with hostMem := dumpWrite s.hostMem d.base ringLines period s.tele.dumpTail set }
      else { s2 with tele := { s2.tele with dumpRing := dumpWrite s.tele.dumpRing 0 ringLines period s.tele.dumpTail set } }
  applyKnobs s1 [9]

/-- DUMP_BOUNDARY (20 R569, R570). -/
def execDumpBoundary (s : State) : Host.Outcome State Fault Refusal :=
  match s.image.dump with
  | none => .next s
  | some d =>
    let p := dumpPeriodNow s * 1000
    if isReady s && s.boot.stop = none && s.time % p = 0 then ordinary s (dumpSetOut s d (s.time / p)) else .next s

end Sys2Proof.Machine
end

