-- ==== Sys2Proof/Machine/Ladles.lean ====
section
/-!
DEFINITION. The Ladles' queues, arbiters and execution states (07_ladle_engines.md R224–R234, Tables 7.7, 7.8).
-/
namespace Sys2Proof.Machine

def ladleOf (s : State) (l : Nat) : Ladle := tgetD s.comp.ladles l .fresh
def setLadle (s : State) (l : Nat) (x : Ladle) : State := { s with comp := { s.comp with ladles := tset s.comp.ladles l x } }

/-- Tenant and class of a lane (R224). -/
def laneTenant (n : Nat) : Nat := n / 8
def laneClass (n : Nat) : Nat := n % 8

/-- The lane of a command (R224). -/
def laneOf (s : State) (c : Cmd) : Nat := cmdTenant s c % 16 * 8 + classOf c

/-- Cycles of the 1.5 GHz island in a time in ns (R210). -/
def ladleCycles (ns : Nat) : Nat := ns * 3 / 2

/-- Cycles that the running command has run since it last started or resumed. -/
def ranCycles (s : State) (x : Ladle) : Nat := ladleCycles (s.mono - x.since)

/-- Cycles charged to the gate since its last grant (R228). -/
def gateCycles (s : State) (x : Ladle) : Nat := ladleCycles (s.mono - max x.since s.gov.refillAt)

/-! ### Queues (R224) -/

/-- The entries that hold a place in a Ladle's queue: one that runs keeps its own, to which a pre-emption returns it (R224, R232). DEDUCED, log entry 61. -/
def Ladle.entries (x : Ladle) : List QEntry := x.running.toList ++ x.queue

/-- Has a queue room for an entry of a tenant: 1,024 entries, 512 of one tenant? -/
def roomFor (x : Ladle) (lane : Nat) : Bool :=
  x.entries.length < 1024 && (x.entries.filter fun e => laneTenant e.lane = laneTenant lane).length < 512

/-- Issue an entry to a Ladle; where there is no room the Whisk waits. -/
def issueEntry (s : State) (l : Nat) (e : QEntry) : State :=
  let x := ladleOf s l
  if roomFor x e.lane && !(s.comp.whisk.any fun w => w.1 = l && w.2.lane = e.lane) then setLadle s l { x with queue := x.queue ++ [e] }
  else { s with comp := { s.comp with whisk := s.comp.whisk ++ [(l, e)] } }

/-- Waiting entries of a Ladle take the room that there is, in order. -/
def admitWhisk (s : State) (l : Nat) : List (Nat × QEntry) → State
  | [] => s
  | w :: r =>
    let s1 := { s with comp := { s.comp with whisk := s.comp.whisk.erase w } }
    admitWhisk (if w.1 = l then issueEntry s1 l w.2 else { s1 with comp := { s1.comp with whisk := s1.comp.whisk ++ [w] } }) l r

def refillQueue (s : State) (l : Nat) : State := admitWhisk s l s.comp.whisk

/-- Every Ladle's waiting entries take the room that there is. -/
def refillAll (s : State) : State := (s.comp.whisk.map (·.1)).eraseDups.foldl refillQueue s

/-- Issue a command's entries in order: the Ladle of each, and the compositions that it serves (R226), with their operands and credits. DEDUCED, log
entry 61. DEDUCED, log entry 61. -/
def issueAll (s : State) (slot lane operands credits index : Nat) : List (Nat × List Nat) → State
  | [] => s
  | e :: r =>
    issueAll (issueEntry s e.1 { slot := slot, lane := lane, comps := e.2, operands := operands, credits := credits, index := index }) slot lane operands
      credits (index + 1) r

/-- Finds the first entry of a command no room (R224): the command has not started (R226)? -/
def firstBlocked (s : State) (lane : Nat) : List (Nat × List Nat) → Bool
  | [] => false
  | e :: _ => !roomFor (ladleOf s e.1) lane || s.comp.whisk.any fun w => w.1 = e.1 && w.2.lane = lane

/-! ### Slot-cycles (R227; 20 R567, R568) -/

/-- The mode, handle and T of an entry. -/
def partOf (s : State) (e : QEntry) : Nat × Nat × Nat :=
  match tget s.comp.running e.slot with
  | none => (5, 0, 0)
  | some r => (r.parts[e.index]?).getD (r.mode, 0, 0)

/-- Share `n` slot-cycles of issue slot `k` equally among the T positions of a member, the remainder to the first (20 R568). -/
def Tele.shareDraft (t : Tele) (id h positions k n : Nat) : Tele :=
  if n = 0 || positions < 2 then t
  else
    let share := fun p => n / positions + if p = 0 then n % positions else 0
    { t with draftHeld := (List.range positions).foldl (fun d p => tupd d (id, h, p * 4 + k) 0 (· + share p)) t.draftHeld }

/-- An entry has completed: its slot-cycles stay in PEND until its command ends, and those of a decode member are divided among its positions. -/
def Tele.endEntry (t : Tele) (l : Nat) (e : QEntry) (part : Nat × Nat × Nat) : Tele :=
  (List.range 4).foldl (fun t k =>
    let n := tgetD t.pend (l, e.slot, k) 0
    if n = 0 then t
    else
      let p1 := tupd (tdel t.pend (l, e.slot, k)) (l, e.slot, 4 + k) 0 (· + n)
      let p2 := if k = 0 && part.1 < 5 then tupd p1 (l, e.slot, 8 + part.1) 0 (· + n) else p1
      { t with pend := p2 }.shareDraft e.slot part.2.1 part.2.2 k n) t

/-- The slot-cycles of the running entry since it last started or resumed are wasted: its save begins (R227 Note 1). -/
def Tele.wasteEntry (t : Tele) (l : Nat) (e : QEntry) : Tele :=
  (List.range 4).foldl (fun t k => { t.addTop l (4 + k) (tgetD t.pend (l, e.slot, k) 0) with pend := tdel t.pend (l, e.slot, k) }) t

/-- A command has ended: PEND's slot-cycles of it move to RET where it completed with OK, NONFINITE or OPERAND_POISON, and otherwise to WST (Table 7.6). -/
def Tele.endCommand (t : Tele) (id : Nat) (retired : Bool) : Tele :=
  let t1 := (t.pend.filter fun e => e.1.2.1 = id).foldl (fun t e =>
    let k := e.1.2.2
    if k < 8 then t.addTop e.1.1 (if retired then k % 4 else 4 + k % 4) e.2 else if retired then t.addTop e.1.1 (12 + k) e.2 else t) t
  let kept := if retired then (t.draftHeld.filter fun e => e.1.1 = id).foldl (fun d e => tupd d e.1.2 0 (· + e.2)) t1.draftKept else t1.draftKept
  { t1 with pend := t1.pend.filter (fun e => e.1.2.1 ≠ id), draftHeld := t1.draftHeld.filter (fun e => e.1.1 ≠ id), draftKept := kept }

/-- A SAMPLE decides the positions of a request: those whose logit section it did not use are draft waste (20 R568). -/
def Tele.decideDrafts (t : Tele) (h used : Nat) : Tele :=
  let t1 := (t.draftKept.filter fun e => e.1.1 = h).foldl (fun t e =>
    if e.1.2 / 4 < used then t else { t with draftWasted := tupd t.draftWasted (e.1.2 % 4) 0 (wrapAdd 48 · e.2) }) t
  { t1 with draftKept := t1.draftKept.filter fun e => e.1.1 ≠ h }

/-- Does a command with this status count as retired (Table 7.6)? -/
def retires (status : Nat) : Bool := status = Status.ok || status = Status.nonfinite || status = Status.operandPoison

/-! ### Completion of entries -/

/-- Charge each member of a command an equal part, the remainder the lowest batch index (20 R573). -/
def meterShares (s : State) (t cls n : Nat) (comps : List Nat) : State :=
  match comps with
  | [] => meterAdd s t 255 cls n
  | _ =>
    let k := comps.length
    let rec go (s : State) : Nat → List Nat → State
      | _, [] => s
      | i, c :: r => go (meterAdd s t c cls (n / k + (if i = 0 then n % k else 0))) (i + 1) r
    go s 0 comps

/-- Cycles of an entry are charged to its gate, its command and its meters (R228, 20 R573), and its traffic to its stack and the crossbar (17 R498). -/
def chargeEntry (s : State) (l : Nat) (x : Ladle) (e : QEntry) : State :=
  let t := laneTenant e.lane
  let s1 := chargeTraffic (charge s t 0 (laneClass e.lane) l (gateCycles s x)) t (laneClass e.lane) [l / 8]
  match tget s1.comp.running e.slot with
  | none => s1
  | some r =>
    let s2 := { s1 with comp := { s1.comp with running := tset s1.comp.running e.slot { r with cycles := r.cycles + ranCycles s x } } }
    meterShares s2 t 0 (ranCycles s x) e.comps

/-- The last entry of a command completes it: DONE_COUNTER rises before the completion (08 R263). -/
def finishRunning (s : State) (id : Nat) : State :=
  match tget s.comp.running id with
  | none => s
  | some r =>
    let r0 := if r.charged then r.preempts * 2 ^ 32 + r.cycles / 1000 % 2 ^ 32 else r.r0
    let t := (slotById s id).elim 0 fun x => cmdTenant s x.cmd
    let s := { s with tele := s.tele.endCommand id (retires r.status) }
    finish (raiseCounter { s with comp := { s.comp with running := tdel s.comp.running id } } t r.counter) id r.status r0 r.r1

/-- One entry of a command has completed. -/
def entryDone (s : State) (id : Nat) : State :=
  match tget s.comp.running id with
  | none => s
  | some r =>
    if r.left ≤ 1 then finishRunning s id
    else { s with comp := { s.comp with running := tset s.comp.running id { r with left := r.left - 1 } } }

/-- An entry of a command takes the credits that it lacks (R225). -/
def credit (id : Nat) (e : QEntry) : QEntry := if e.slot = id then { e with credits := e.operands } else e

/-- The entries of a command hold every operand credit. -/
def creditAll (s : State) (id : Nat) : State :=
  { s with comp := { s.comp with
    ladles := s.comp.ladles.map fun x => (x.1, { x.2 with queue := x.2.queue.map (credit id) })
    whisk := s.comp.whisk.map fun w => (w.1, credit id w.2) } }

/-- Directory entries of tensors. -/
def tensorDirs (s : State) (t : Nat) (names : List Nat) : List Nat := names.eraseDups.flatMap fun n => (tget s.tier.tensors (t, n)).elim [] (·.dirs)

/-- A command reads the tensors that it names: those of T2 and T3 are staged (06_kv_pages_and_tiers.md R172, R174). -/
def readNamed (s : State) (t : Nat) (names : List Nat) : State := readObjects s (tensorDirs s t names)

/-- A command starts when its Whisk issues its first entry (R226); one that finds no room for it has not started, and waits. -/
def whiskGate (s : State) (id : Nat) (c : Cmd) (entries : List (Nat × List Nat)) (k : State → State) : State :=
  if (tget s.comp.running id).isNone && firstBlocked s (laneOf s c) entries then await s id .whisk
  else if (slotById s id).map (·.phase) = some (.waiting .whisk) then k (noteOrder s id)
  else k s

/-- A command runs on the given Ladles and completes when its last entry does; its tensors are pinned meanwhile (06_kv_pages_and_tiers.md R179). `operands`
is how many it has; `ready` says that each has its credit and the outputs are written. A command whose entries already wait for credits takes them (R225). -/
def runEntries (s : State) (id : Nat) (c : Cmd) (operands : Nat) (ready : Bool) (entries : List (Nat × List Nat)) (r : Running) : State :=
  match tget s.comp.running id with
  | some q =>
    let s1 := { s with comp := { s.comp with running := tset s.comp.running id { r with left := q.left, waits := !ready } } }
    let s2 := await s1 id .engine
    if !ready then s2 else if q.left = 0 then finishRunning s2 id else creditAll s2 id
  | none =>
    let s1 := { s with comp := { s.comp with running := tset s.comp.running id { r with left := entries.length, waits := !ready } } }
    let s2 := await (pinRead s1 id (tensorDirs s (cmdTenant s c) r.names)) id .engine
    if entries = [] then (if ready then finishRunning s2 id else s2)
    else issueAll s2 id (laneOf s c) operands (if ready then operands else 0) 0 entries

/-- A command whose outputs are written runs on the given Ladles. -/
def runOn (s : State) (id : Nat) (c : Cmd) (entries : List (Nat × List Nat)) (r : Running) : State := runEntries s id c 1 true entries r

/-- The entries of a command that ends before they ran leave the queues. -/
def withdraw (s : State) (id : Nat) : State :=
  if (tget s.comp.running id).isNone then s
  else refillAll { s with comp := { s.comp with
    ladles := s.comp.ladles.map fun x => (x.1, { x.2 with queue := x.2.queue.filter fun e => !(e.slot = id) })
    whisk := s.comp.whisk.filter fun w => !(w.2.slot = id)
    running := tdel s.comp.running id } }

/-! ### The arbiter (R225, R229–R231) -/

def laneHead (x : Ladle) (n : Nat) : Option QEntry := x.queue.find? fun e => e.lane = n

/-- Has the head of a lane every credit: one for each operand, and its gate is open (R225, R228)? -/
def laneReady (s : State) (l : Nat) (x : Ladle) (n : Nat) : Bool :=
  (laneHead x n).any (fun e => e.operands ≤ e.credits) && gateOpen s (laneTenant n) 0 (laneClass n) l

/-- Is some class-7 lane ready? -/
def class7Ready (s : State) (l : Nat) (x : Ladle) : Bool := (List.range 16).any fun t => laneReady s l x (t * 8 + 7)

/-- Is a lane eligible (R225, Table 7.7, R231)? -/
def laneEligible (s : State) (l : Nat) (x : Ladle) (n : Nat) : Bool :=
  laneReady s l x n &&
    match x.urgencyArea with
    | none => true
    | some u => if laneHead x n = some u then !class7Ready s l x else laneClass n = 7

/-- Does the head of a lane start now? While the Ladle is being retired, entries that have not started wait for the spare (R212). DESIGN CHOICE, log entry 29. -/
def laneStarts (s : State) (l : Nat) (x : Ladle) (n : Nat) : Bool :=
  let retiring := (tgetD s.rel.health (1, l / 8 * 9 + tgetD s.rel.ladleAt l (l % 8)) .fresh).state = .retiring
  !retiring || ((laneHead x n).isSome && (laneHead x n = x.budgetArea || laneHead x n = x.urgencyArea))

/-- The lane that the arbiter grants: the first eligible from the pointer on (02 R43). -/
def grantLane (s : State) (l : Nat) (x : Ladle) : Option Nat :=
  ((List.range 128).map fun i => (x.ptr + i) % 128).find? fun n => laneEligible s l x n && laneStarts s l x n

/-- May a Ladle begin an entry: it and its base die are ON (02 R50)? -/
def ladleServes (s : State) (l : Nat) : Bool :=
  (fnState s (.ladle l)).st = .on && (fnState s (.island (l / 8))).st = .on

/-- LADLE_ENTRY_START (Table 7.8): an idle Ladle begins the granted entry, or restores a saved command. The valid bits of the working half are cleared, and
the first tile of every operand is loaded (R223, R225). -/
def startEntry (s : State) (l : Nat) : State :=
  let x := ladleOf s l
  if x.st = .idle && ladleServes s l then
    match grantLane s l x with
    | none => s
    | some n => match laneHead x n with
      | none => s
      | some e =>
        let saved := x.budgetArea = some e || x.urgencyArea = some e
        let tiles : Tab Nat (BitVec 512) := if saved then [] else (List.range e.operands).map fun k => (k, Config.tile e.slot l k)
        setLadle s l { x with queue := x.queue.erase e, running := some e, since := s.mono, st := if saved then .restoring else .running,
                              work := { lines := tiles, accs := none } }
  else s

/-- A 64-byte line of the working half as the running command reads it: zero where its valid bit is clear (R223). -/
def workLine (x : Ladle) (n : Nat) : BitVec 512 := tgetD x.work.lines n 0

/-- An accumulator: +0.0 from the start of a command, and otherwise its running sum (R216). DESIGN CHOICE, log entry 131. -/
def accumulator (x : Ladle) (n : Nat) : BitVec 32 := x.work.accs.elim 0 fun k => Config.runningSum k n

def execLadleEntryStart (l : Nat) (s : State) : Host.Outcome State Fault Refusal := quiet s (startEntry s l)

/-- LADLE_ENTRY_COMPLETE (Table 7.8): the running entry has ended; the pointer moves on (R225). It does not end while the gates of its stack or of the crossbar
hold its traffic (17 R499). -/
def completeEntry (s : State) (l : Nat) : State :=
  let x := ladleOf s l
  match x.running with
  | some e =>
    if x.st = .running && mayMove s (laneTenant e.lane) (laneClass e.lane) [l / 8] then
      let s := { s with tele := s.tele.endEntry l e (partOf s e) }
      entryDone (refillQueue (setLadle (chargeEntry s l x e) l { x with st := .idle, running := none, ptr := (e.lane + 1) % 128 }) l) e.slot
    else s
  | none => s

def execLadleEntryComplete (l : Nat) (s : State) : Host.Outcome State Fault Refusal := quiet s (completeEntry s l)

/-- Does urgency stop the running command (Table 7.7, R230)? -/
def urgencyDue (s : State) (l : Nat) (x : Ladle) (e : QEntry) : Bool :=
  s.image.role = .s && class7Ready s l x && laneClass e.lane < 7 && 15000 ≤ ranCycles s x && x.urgencyArea.isNone

/-- Does its budget stop the running command (Table 7.7, R231)? -/
def budgetDue (s : State) (l : Nat) (x : Ladle) (e : QEntry) : Bool :=
  (match gateBalance s (laneTenant e.lane) 0 (laneClass e.lane) l with
    | some b => b ≤ gateCycles s x
    | none => false) && 75000 ≤ ranCycles s x && x.budgetArea.isNone

/-- The command is saved to the area of its cause, with the working half and the running sums of its accumulators, and keeps the head of its lane
(R231–R233). -/
def savePreempted (s : State) (l : Nat) (x : Ladle) (e : QEntry) (urgent : Bool) : State :=
  let s1 := chargeEntry { s with tele := s.tele.wasteEntry l e } l x e
  let s2 := match tget s1.comp.running e.slot with
    | some r => { s1 with comp := { s1.comp with running := tset s1.comp.running e.slot { r with preempts := r.preempts + 1 } } }
    | none => s1
  let saved : Scratch := { x.work with accs := some s.free }
  setLadle { s2 with free := s2.free + 1 } l
    { x with st := .saving, running := none, queue := e :: x.queue, ptr := (e.lane + 1) % 128, cause := urgent, work := saved
             budgetArea := if urgent then x.budgetArea else some e, urgencyArea := if urgent then some e else x.urgencyArea
             budgetSave := if urgent then x.budgetSave else saved, urgencySave := if urgent then saved else x.urgencySave }

/-- LADLE_PREEMPT (R229). -/
def preemptLadle (s : State) (l : Nat) : State :=
  let x := ladleOf s l
  match x.running with
  | some e =>
    if !(x.st = .running) then s
    else if urgencyDue s l x e then savePreempted s l x e true
    else if budgetDue s l x e then savePreempted s l x e false
    else s
  | none => s

def execLadlePreempt (l : Nat) (s : State) : Host.Outcome State Fault Refusal := quiet s (preemptLadle s l)

/-- LADLE_SAVE_COMPLETE (Table 7.8). -/
def execLadleSaveComplete (l : Nat) (s : State) : Host.Outcome State Fault Refusal :=
  let x := ladleOf s l
  if x.st = .saving then quiet s (setLadle s l { x with st := .idle }) else .next s

/-- LADLE_RESTORE_COMPLETE (Table 7.8): what was saved is read back, the save area is free and the command goes on. -/
def execLadleRestoreComplete (l : Nat) (s : State) : Host.Outcome State Fault Refusal :=
  let x := ladleOf s l
  if x.st = .restoring then
    quiet s (setLadle s l { x with st := .running, since := s.mono
                                   work := if x.budgetArea = x.running then x.budgetSave else x.urgencySave
                                   budgetArea := if x.budgetArea = x.running then none else x.budgetArea
                                   urgencyArea := if x.urgencyArea = x.running then none else x.urgencyArea })
  else .next s

/-- Is the Ladle's T0 partition frozen: from the start of a save until the end of the matching restore (R231)? Objects in T0 lie over all Ladles
(`t0Frozen`). -/
def ladleFrozen (s : State) (l : Nat) : Bool := (ladleOf s l).budgetArea.isSome || (ladleOf s l).urgencyArea.isSome

/-! ### Tenant reset (R233, R234) -/

/-- One Ladle drops the entries of a kind: queued, running and saved ones. -/
def dropEntries (mine : QEntry → Bool) (x : Ladle) : Ladle :=
  let drop := fun (o : Option QEntry) => if o.elim false mine then none else o
  let stopped := x.running.elim false mine
  let savingMine := x.st = .saving && ((if x.cause then x.urgencyArea else x.budgetArea).elim false mine)
  { x with queue := x.queue.filter (!mine ·), running := drop x.running, budgetArea := drop x.budgetArea, urgencyArea := drop x.urgencyArea,
           st := if stopped || savingMine then .idle else x.st
           ptr := if stopped then (x.running.elim 0 (·.lane) + 1) % 128 else x.ptr
           work := if stopped then { lines := [], accs := none } else x.work }

/-- The cycles of a running entry that is dropped are charged (R228). -/
def chargeDropped (mine : QEntry → Bool) (s : State) (e : Nat × Ladle) : State :=
  match e.2.running with
  | some q => if mine q && e.2.st = .running then chargeEntry s e.1 e.2 q else s
  | none => s

/-- Every Ladle drops the entries of a kind; what that empties is filled from the Whisks (R224, R228, R233). -/
def dropAll (s : State) (mine : QEntry → Bool) : State :=
  let s1 := s.comp.ladles.foldl (chargeDropped mine) s
  refillAll { s1 with comp := { s1.comp with
    ladles := s1.comp.ladles.map fun e => (e.1, dropEntries mine e.2)
    whisk := s1.comp.whisk.filter fun w => !mine w.2 } }

/-- The Ladles' part of a tenant reset: its commands complete with COMMAND_ABORTED. -/
def abortLadles (s : State) (t : Nat) : State :=
  let ids := (s.comp.running.map (·.1)).filter fun id => ((slotById s id).elim false fun x => cmdTenant s x.cmd = t)
  let s0 := dropAll s fun e => laneTenant e.lane = t
  let s1 := { s0 with comp := { s0.comp with running := s0.comp.running.filter fun e => !ids.contains e.1 } }
  ids.foldl (fun st id => fail st id Status.commandAborted) s1

end Sys2Proof.Machine
end

