-- ==== Sys2Proof/Machine/LadleOps.lean ====
section
/-!
DEFINITION. The Ladle operators: GEMM, GEMV, GATHER_ROWS, VECTOR and the tensors (07_ladle_engines.md R214–R222, R236–R246).
-/
namespace Sys2Proof.Machine

/-! ### Shared parts -/

/-- Tensor that a reference names. -/
def refTensor (r : Ref) : List Nat :=
  match r with
  | .tensor id _ => [id]
  | _ => []

/-- A command has been turned away for a layer that a lost source had not filled: every later command of the stream is too (09 R295). -/
def cutStream (s : State) (n : Nat) : State :=
  match tget s.tier.streams n with
  | some x => setTier s { s.tier with streams := tset s.tier.streams n { x with cut := true } }
  | none => s

/-- A command whose entries wait for operand credits: its outputs and results are not yet known. -/
def awaiting (names : List Nat) : Running :=
  { left := 0, status := 0, r0 := 0, r1 := 0, charged := false, preempts := 0, cycles := 0, counter := 0, names := names, waits := true,
    mode := 5, parts := [] }

/-- Do the entries of a command run, every credit given and its outputs written? -/
def runsNow (s : State) (id : Nat) : Bool := (tget s.comp.running id).any (!·.waits)

/-- The checks of a command's references come before any entry (R240). Its Whisk then issues its entries; where a window layer is not filled, they wait in
their lanes for its credit (R225, 06_kv_pages_and_tiers.md R204), and with every credit the command goes on. -/
def checked (s : State) (id : Nat) (c : Cmd) (operands : Nat) (entries : List (Nat × List Nat)) (names : List Nat) (l : List RefRes)
    (k : State → State) : State :=
  match firstBad l with
  | .bad e => fail (withdraw s id) id e
  | .lost n => fail (withdraw (cutStream s n) id) id Status.streamSourceLost
  | .wait => whiskGate s id c entries fun s => runEntries s id c operands false entries (awaiting names)
  | .ok => whiskGate s id c entries fun s => k (readNamed s (cmdTenant s c) names)

/-- Entries of a command for no request on the given Ladles. -/
def plainEntries (ladles : List Nat) : List (Nat × List Nat) := ladles.map fun l => (l, [])

/-- Rows of a grouped operand of `rows` × `l` at a reference, from row `lo`. -/
def operandRows (s : State) (t : Nat) (r : Ref) (off : Nat) (f : Fmt) (sc g rows l : Nat) : List Row :=
  let v := refView s t r (off + groupedBytes f sc g rows l)
  (List.range rows).map fun m => rowAt v.1 (v.2 + off) f sc g rows l m

/-- The participating Ladles of rows spread over 160 in ascending order (R242, R244): row r goes to Ladle floor(160 r / rows), and with fewer rows than
Ladles to Ladle r. DEDUCED, log entry 61. -/
def rowLadles (rows : Nat) : List Nat := List.range (min rows 160)

/-- Write a tensor of results, and leave the command running on its Ladles (R218, R219, R237). -/
def produce (s : State) (id : Nat) (c : Cmd) (operands t : Nat) (out : Ref) (f : Fmt) (sc g : Nat) (rows : List (List (Num × Bool))) (ladles : List Nat)
    (names : List Nat) (mode : Nat) : State :=
  let bs := outBytes f sc (rows.map (outRow f sc g))
  let s1 := refWrite s id t out 0 bs
  runEntries s1 id c operands true (plainEntries ladles)
    { left := 0, status := outStatus (anyPoison rows) (anyNonfinite rows), r0 := 0, r1 := tensorAmax rows, charged := true, preempts := 0, cycles := 0,
      counter := 0, names := names, waits := false, mode := mode, parts := [] }

/-! ### GEMM and GEMV (R238–R241) -/

/-- The fields of Table 7.13. -/
structure GemmArgs where
  a : Ref
  w : Ref
  c : Ref
  n : Nat
  k : Nat
  m : Nat
  fa : Nat
  fw : Nat
  fc : Nat
  sa : Nat
  sw : Nat
  sc : Nat
  group : Nat
  ogroup : Nat
  spread : Nat
  index : Nat
deriving DecidableEq, Repr

/-- DEDUCED, log entry 16. -/
def gemmArgs (c : Cmd) : GemmArgs :=
  { a := refOf c.w2, w := refOf c.w3, c := refOf c.w4, n := fld c.w5 63 43, k := fld c.w5 42 25, m := fld c.w5 24 8, fa := fld c.w6 63 60,
    fw := fld c.w6 59 56, fc := fld c.w6 55 52, sa := fld c.w6 51 50, sw := fld c.w6 49 48, sc := fld c.w6 47 46, group := fld c.w6 45 44,
    ogroup := fld c.w6 43 42, spread := fld c.w7 63 62, index := fld c.w7 61 54 }

/-- The participating Ladles (R239). -/
def GemmArgs.ladles (x : GemmArgs) : List Nat :=
  match x.spread with
  | 0 => List.range 160
  | 1 => (List.range 8).map (8 * x.index + ·)
  | _ => [x.index]

def GemmArgs.spreadOk (x : GemmArgs) : Bool :=
  match x.spread with
  | 0 => x.index = 0
  | 1 => x.index < 20
  | 2 => x.index < 160
  | _ => false

/-- Rows of a share (R239). -/
def GemmArgs.rpl (x : GemmArgs) : Nat := ceilDiv x.n x.ladles.length

/-- The decoded formats of a product. -/
structure GemmFmt where
  fa : Fmt
  fw : Fmt
  fc : Fmt
  mode : Mode
  g : Nat
  og : Nat
deriving DecidableEq, Repr

/-- Is a reference one to a weight window (SPACE 1)? -/
def Ref.isWindow : Ref → Bool
  | .window _ _ _ => true
  | _ => false

/-- The shape checks (R236, R238, R240). -/
def GemmArgs.shapeOk (x : GemmArgs) (maxM : Nat) : Bool :=
  match groupOf x.group, groupOf x.ogroup with
  | some g, some og =>
    1 ≤ x.n && x.n ≤ 1048576 && x.k % g = 0 && x.k ≤ 65536 && 1 ≤ x.m && x.m ≤ maxM && x.spreadOk && (x.spread ≠ 2 || x.n < 65536) && !x.c.isWindow &&
      (((Fmt.ofCode x.fc).bind Fmt.qmax).isNone || x.rpl % og = 0)
  | _, _ => false

/-- The format checks (R215, R218, R240). -/
def GemmArgs.formats (x : GemmArgs) : Option GemmFmt :=
  match Fmt.ofCode x.fa, Fmt.ofCode x.fw, Fmt.ofCode x.fc, groupOf x.group, groupOf x.ogroup with
  | some fa, some fw, some fc, some g, some og =>
    match modeOf fa fw with
    | none => none
    | some md =>
      if x.sa = 3 || x.sw = 3 || x.sc = 3 || !destOk fc x.sc then none else some { fa := fa, fw := fw, fc := fc, mode := md, g := g, og := og }
  | _, _, _, _, _ => none

/-- Bytes of one share, and the distance between shares (R239). -/
def GemmArgs.shareBytes (x : GemmArgs) (f : GemmFmt) : Nat := groupedBytes f.fw x.sw f.g x.rpl x.k
def GemmArgs.shareStep (x : GemmArgs) (f : GemmFmt) : Nat := roundUp (x.shareBytes f) 64

/-- Row `n` of W: row n mod RPL of share n / RPL (R239). -/
def weightRow (v : Blob × Nat) (x : GemmArgs) (f : GemmFmt) (n : Nat) : Row :=
  rowAt v.1 (v.2 + n / x.rpl * x.shareStep f) f.fw x.sw f.g x.rpl x.k (n % x.rpl)

/-- C = A × W^T (R216, R238), each result with the poison of its rows (R246). -/
def gemmRows (s : State) (t : Nat) (x : GemmArgs) (f : GemmFmt) : List (List (Num × Bool)) :=
  let a := operandRows s t x.a 0 f.fa x.sa f.g x.m x.k
  let v := refView s t x.w ((x.ladles.length - 1) * x.shareStep f + x.shareBytes f)
  let w := (List.range x.n).map (weightRow v x f)
  a.map fun ra => w.map fun rw => (dot f.mode f.g ra.nums rw.nums ra.scaleNums rw.scaleNums, ra.bad || rw.bad)

/-- GEMM and GEMV from their checks on (R240). -/
def gemmBody (maxM : Nat) (c : Cmd) (again : Bool) (id : Nat) (s : State) : State :=
  let x := gemmArgs c
  let t := cmdTenant s c
  let old := slotStarted s id
  let names := refTensor x.a ++ refTensor x.w ++ refTensor x.c
  if again && runsNow s id then s
  else if !(handleOf c = 0) || isBatch c || !x.shapeOk maxM then fail s id Status.shapeInvalid
  else match x.formats with
    | none => fail s id Status.formatUnsupported
    | some f =>
      checked s id c 2 (plainEntries x.ladles) names
        [refCheck s t x.a (groupedBytes f.fa x.sa f.g x.m x.k) true old,
         refCheck s t x.w ((x.ladles.length - 1) * x.shareStep f + x.shareBytes f) true old,
         refCheck s t x.c (groupedBytes f.fc (if f.fc.qmax.isNone then 0 else x.sc) f.og x.m x.n) false old]
        fun s => produce (touchRef (touchRef s t x.a) t x.w) id c 2 t x.c f.fc x.sc f.og (gemmRows s t x f) x.ladles names (modeCode f.fw)

def runGemm (c : Cmd) (s : State) : State := runCmd 0x30 c s (gemmBody 65536 c)

/-- GEMM (R238). -/
def execGemm (c : Cmd) (s : State) : Host.Outcome State Fault Refusal := ordinary s (runGemm c s)

def runGemv (c : Cmd) (s : State) : State := runCmd 0x31 c s (gemmBody 16 c)

/-- GEMV (R238, R241). -/
def execGemv (c : Cmd) (s : State) : Host.Outcome State Fault Refusal := ordinary s (runGemv c s)

/-! ### GATHER_ROWS (R242) -/

/-- One destination row: the table's row, or zeros for an index out of range, with poison by byte. -/
def gatherRow (s : State) (t : Nat) (table index : Ref) (tableRows rowBytes r : Nat) : List (Byte × Bool) × Bool :=
  let ix := leNat (refBytes s t index (4 * r) 4)
  let ixBad := refBad s t index (4 * r) 4
  let v := refView s t table (tableRows * rowBytes)
  if tableRows ≤ ix then (List.replicate rowBytes (0, ixBad), true)
  else ((List.range rowBytes).map fun i =>
    (blobByte v.1 (v.2 + ix * rowBytes + i), ixBad || blobBad v.1 (v.2 + ix * rowBytes + i) 1), false)

def gatherBody (c : Cmd) (again : Bool) (id : Nat) (s : State) : State :=
  let t := cmdTenant s c
  let table := refOf c.w2
  let index := refOf c.w3
  let out := refOf c.w4
  let rows := fld c.w5 63 32
  let rb := fld c.w5 31 0
  let tr := fld c.w6 63 32
  let old := slotStarted s id
  let names := refTensor table ++ refTensor index ++ refTensor out
  if again && runsNow s id then s
  else if !(handleOf c = 0) || isBatch c || rows = 0 || 65536 < rows || rb < 64 || 65536 < rb || !(rb % 64 = 0) || tr = 0 || 1048576 < tr ||
      out.isWindow then
    fail s id Status.shapeInvalid
  else
    checked s id c 2 (plainEntries (rowLadles rows)) names
      [refCheck s t table (tr * rb) true old, refCheck s t index (4 * rows) true old, refCheck s t out (rows * rb) false old] fun s =>
      let got := (List.range rows).map (gatherRow s t table index tr rb)
      let miss := (got.filter (·.2)).length
      let bs := got.flatMap (·.1)
      let poison := bs.any (·.2)
      runEntries (refWrite (touchRef (touchRef s t table) t index) id t out 0 bs) id c 2 true (plainEntries (rowLadles rows))
        { left := 0, status := if poison then Status.operandPoison else if miss = 0 then Status.ok else Status.operandRange, r0 := miss, r1 := 0,
          charged := false, preempts := 0, cycles := 0, counter := 0, names := names, waits := false, mode := 5, parts := [] }

def runGatherRows (c : Cmd) (s : State) : State := runCmd 0x32 c s (gatherBody c)

/-- GATHER_ROWS (R242). -/
def execGatherRows (c : Cmd) (s : State) : Host.Outcome State Fault Refusal := ordinary s (runGatherRows c s)

/-! ### VECTOR (R243, R244) -/

/-- FP32 constants of Table 7.15, rounded from their decimals. -/
def geluA : Num := r32 (Num.div (.ofNat 7978846) (.ofNat 10000000))
def geluB : Num := r32 (Num.div (.ofNat 44715) (.ofNat 1000000))
def half : Num := .fin false 1 (-1)

def mul32 (x y : Num) : Num := r32 (Num.mul x y)
def add32 (x y : Num) : Num := r32 (Num.add x y)
def div32 (x y : Num) : Num := r32 (Num.div x y)

/-- x / (1 + exp(−x)) × y (Table 7.15). -/
def siluMul (x y : Num) : Num := mul32 (div32 x (add32 .one (unitFn 0 (Num.neg x) (expCr (Num.neg x))))) y

/-- 0.5x(1 + tanh(0.7978846(x + 0.044715x³))) (Table 7.15). DEDUCED, log entry 62. -/
def gelu (x : Num) : Num :=
  let u := mul32 geluA (add32 x (mul32 geluB (mul32 (mul32 x x) x)))
  mul32 (mul32 half x) (add32 .one (unitFn 1 u (tanhCr u)))

/-- The sum of squares of lane `j`: columns j, j + 64, … in ascending order (R244). -/
def laneSquares (row : List Num) (j : Nat) : Num :=
  ((List.range (ceilDiv row.length 64)).filterMap fun i => row[j + 64 * i]?).foldl (fun acc x => add32 acc (mul32 x x)) .zero

/-- RMS_NORM of one row (R244). -/
def rmsNorm (row y : List Num) (eps : Num) : List Num :=
  let sum := pairwise ((List.range 64).map (laneSquares row))
  let m := add32 (div32 sum (.ofNat row.length)) eps
  let r := unitFn 2 m (recipSqrt m)
  List.zipWith (fun x w => mul32 (mul32 x r) w) row y

/-- Functions that use Y. -/
def usesY (f : Nat) : Bool := f = 0 || f = 1 || f = 2 || f = 4

/-- One row of Z (Table 7.15), each element with the poison of what it depends on (R246). DEDUCED, log entry 62. -/
def vectorRow (f : Nat) (p : Num) (x y : List (Num × Bool)) : List (Num × Bool) :=
  match f with
  | 0 => List.zipWith (fun a b => (add32 a.1 b.1, a.2 || b.2)) x y
  | 1 => List.zipWith (fun a b => (mul32 a.1 b.1, a.2 || b.2)) x y
  | 2 => List.zipWith (fun a b => (siluMul a.1 b.1, a.2 || b.2)) x y
  | 3 => x.map fun a => (gelu a.1, a.2)
  | 4 =>
    let bad := x.any (·.2)
    List.zipWith (fun z b => (z, bad || b.2)) (rmsNorm (x.map (·.1)) (y.map (·.1)) p) y
  | 5 => x
  | _ => x.map fun a => (mul32 a.1 p, a.2)

/-- Is COLS a multiple of the group sizes in use (Table 7.14)? -/
def colsOk (cols g sx sy sz : Nat) (fz : Fmt) : Bool := (sx = 0 && sy = 0 && (sz = 0 || fz.qmax.isNone)) || cols % g = 0

def vectorBody (c : Cmd) (again : Bool) (id : Nat) (s : State) : State :=
  let t := cmdTenant s c
  let func := fld c.w6 63 56
  let rows := fld c.w5 63 32
  let cols := fld c.w5 31 0
  let x := refOf c.w2
  let y := refOf c.w3
  let z := refOf c.w4
  let sx := fld c.w6 43 42
  let sy := if usesY func then fld c.w6 41 40 else 0
  let sz := fld c.w6 39 38
  let old := slotStarted s id
  let names := refTensor x ++ (if usesY func then refTensor y else []) ++ refTensor z
  if again && runsNow s id then s
  else if 7 ≤ func then fail s id Status.operatorInvalid
  else match groupOf (fld c.w6 37 36) with
    | none => fail s id Status.shapeInvalid
    | some g =>
      if !(handleOf c = 0) || isBatch c || rows = 0 || 1048576 < rows || cols = 0 || 65536 < cols || z.isWindow then fail s id Status.shapeInvalid
      else match Fmt.ofCode (fld c.w6 55 52), Fmt.ofCode (if usesY func then fld c.w6 51 48 else 6), Fmt.ofCode (fld c.w6 47 44) with
        | some fx, some fy, some fz =>
          if sx = 3 || sy = 3 || sz = 3 || !destOk fz sz then fail s id Status.formatUnsupported
          else if !colsOk cols g sx sy sz fz then fail s id Status.shapeInvalid
          else
            let yrows := if func = 4 then 1 else rows
            checked s id c (if usesY func then 2 else 1) (plainEntries (rowLadles rows)) names
              ([refCheck s t x (groupedBytes fx sx g rows cols) true old] ++
               (if usesY func then [refCheck s t y (groupedBytes fy sy g yrows cols) true old] else []) ++
               [refCheck s t z (groupedBytes fz (if fz.qmax.isNone then 0 else sz) g rows cols) false old])
              fun s =>
                let xs := (operandRows s t x 0 fx sx g rows cols).map (·.values g)
                let ys := if usesY func then (operandRows s t y 0 fy sy g yrows cols).map (·.values g) else []
                let p := Fp.f32.decode (fld c.w7 63 32)
                let out := (List.range rows).map fun m => vectorRow func p (xs.getD m []) (ys.getD (if func = 4 then 0 else m) [])
                let s1 := touchRef s t x
                produce (if usesY func then touchRef s1 t y else s1) id c (if usesY func then 2 else 1) t z fz sz g out (rowLadles rows) names 5
        | _, _, _ => fail s id Status.formatUnsupported

def runVector (c : Cmd) (s : State) : State := runCmd 0x33 c s (vectorBody c)

/-- VECTOR (R243). -/
def execVector (c : Cmd) (s : State) : Host.Outcome State Fault Refusal := ordinary s (runVector c s)

/-! ### Tensors (R222, R245) -/

/-- The runs of a tensor: Q runs of equal size (R222). -/
def tensorRuns (bytes : Nat) : List Nat :=
  let n := ceilDiv bytes 65536
  let q := min 20 n
  List.replicate q (ceilDiv n q)

/-- Place the runs of an object in turn, numbered in PAGE_INDEX; none where one finds no room. `lower` and `drop` as in placement. -/
def placeRuns (s : State) (t kind layer page back : Nat) (persist lower drop : Bool) : List Nat → Except Short (List Nat × State)
  | [] => .ok ([], s)
  | n :: r =>
    match placeEntry s t n (stacksByFree s) lower drop kind layer page back persist with
    | .error e => .error e
    | .ok (i, s1) => match placeRuns s1 t kind layer (page + 1) back persist lower drop r with
      | .error e => .error e
      | .ok (l, s2) => .ok (i :: l, s2)

/-- Tensors of a tenant. -/
def tensorsOf (s : State) (t : Nat) : List Nat := (s.tier.tensors.filter fun e => e.1.1 = t).map fun e => e.1.2

/-- Allocate a tensor under a given ID (R245). -/
def allocTensor (s : State) (t id bytes : Nat) : Except Short State :=
  match placeRuns s t 3 0 0 id false true true (tensorRuns bytes) with
  | .error e => .error e
  | .ok (dirs, s1) =>
    let x : Tensor := { bytes := bytes, blob := Blob.free s1.free, dirs := dirs, freeing := false }
    .ok { s1 with free := s1.free + 1, tier := { s1.tier with tensors := tset s1.tier.tensors (t, id) x } }

/-- The checks of TENSOR_ALLOC (R245). -/
def tensorLimit (s : State) (t bytes : Nat) : Bool := 4096 ≤ (tensorsOf s t).length || bytes < 64 || 83886080 < bytes || !(bytes % 64 = 0)

def runTensorAlloc (c : Cmd) (s : State) : State :=
  runCmd 0x34 c s fun again id s =>
    let t := cmdTenant s c
    let bytes := c.w2.toNat
    if again then s
    else if !(handleOf c = 0) || isBatch c then fail s id Status.shapeInvalid
    else if tensorLimit s t bytes then fail s id Status.tensorLimit
    else
      let n := idFor s id (freeNumber 1 (tensorsOf s t)) (tensorsOf s t)
      match allocTensor s t n bytes with
      | .error e => fail (unplaced s e) id e.code
      | .ok s1 => finish s1 id Status.ok n bytes

/-- TENSOR_ALLOC (R245). -/
def execTensorAlloc (c : Cmd) (s : State) : Host.Outcome State Fault Refusal := quiet s (runTensorAlloc c s)

/-- The tensors that a command names, for the commands that may wait between their start and their end. DEDUCED, log entry 16. -/
def cmdTensors (c : Cmd) : List Nat :=
  let o := opcodeOf c
  let r := fun (w : Word) => refTensor (refOf w)
  if 0x30 ≤ o && o ≤ 0x33 then r c.w2 ++ r c.w3 ++ r c.w4
  else if 0x38 ≤ o && o ≤ 0x3B then fld c.w4 63 48 :: (r c.w2 ++ r c.w3 ++ if c.w7 = 0 then [] else r c.w7)
  else if o = 0x40 || o = 0xA3 || o = 0x5C || (0x60 ≤ o && o ≤ 0x64) then r c.w2 ++ r c.w3
  else if 0x80 ≤ o && o ≤ 0x84 then r c.w4
  else []

/-- Does a command that has started in this module and has not completed name a tensor (R245)? One that runs elsewhere, or is held until its owner is known,
names none of this module's. -/
def commandNames (s : State) (t id : Nat) (x : Slot) : Bool :=
  x.inHand && !x.notStarted && !decide (x.phase = .waiting .remote) && !decide (x.phase = .waiting .held) && cmdTenant s x.cmd = t &&
    (cmdTensors x.cmd).contains id

/-- Does a started command still name a tensor: one in hand, a SEND or a posted RECV, or a tray operation (R245)? -/
def tensorNamed (s : State) (t id : Nat) : Bool :=
  let word := fun (w : Word) => refTensor (refOf w) = [id]
  (s.host.slots.any (commandNames s t id)) || (s.comp.running.any fun e => e.2.names.contains id && ((slotById s e.1).elim false fun x => cmdTenant s x.cmd = t)) ||
  (s.xport.sends.any fun x => x.tenant = t && !x.completed && word x.ref) ||
  (s.xport.eps.any fun e => e.2.tenant = t && e.2.recvs.any fun r => word r.ref) ||
  (s.xport.recvs.any fun r => (tget s.xport.eps r.dstEp).elim false fun e => e.tenant = t && r.recv.elim false fun p => word p.ref) ||
  (s.tray.peers.any fun p => p.2.ops.any fun o => o.tenant = t && word o.ref)

/-- Free a tensor: its runs and its ID. -/
def freeTensor (s : State) (t id : Nat) : State :=
  match tget s.tier.tensors (t, id) with
  | none => s
  | some x =>
    let s1 := freeEntries s x.dirs
    setTier s1 { s1.tier with tensors := tdel s1.tier.tensors (t, id) }

def runTensorFree (c : Cmd) (s : State) : State :=
  runCmd 0x35 c s fun _ id s =>
    let t := cmdTenant s c
    let n := fld c.w2 15 0
    match tget s.tier.tensors (t, n) with
    | none => fail s id Status.tensorUnknown
    | some x =>
      if !(handleOf c = 0) || isBatch c then fail s id Status.shapeInvalid
      else if x.freeing && !(stageOf s id = 1) then fail s id Status.tensorUnknown
      else if tensorNamed s t n then
        await (setStage (setTier s { s.tier with tensors := tset s.tier.tensors (t, n) { x with freeing := true } }) id 1) id .earlier
      else finish (freeTensor s t n) id Status.ok 0 0

/-- TENSOR_FREE (R245). -/
def execTensorFree (c : Cmd) (s : State) : Host.Outcome State Fault Refusal := quiet s (runTensorFree c s)

end Sys2Proof.Machine
end

