-- ==== Sys2Proof/Machine/Attention.lean ====
section
/-!
DEFINITION. Attention: descriptors, page layout, partial results and their fold, ATTEND_DECODE, ATTEND_PREFILL, SOFTMAX_COMBINE and ATTEND_BWD
(08_attention.md R248–R276).
-/
namespace Sys2Proof.Machine

/-! ### The descriptor (R249, R250) -/

/-- The fields of an attention descriptor (Table 8.2), as coded. -/
structure ADesc where
  model : Nat
  layers : Nat
  kvHeads : Nat
  qpk : Nat
  dimCode : Nat
  fmt : Nat
  scale : Nat
  group : Nat
  softmax : Num
deriving DecidableEq, Repr

def aDescOf (b : Blob) : ADesc :=
  let w0 := leNat (blobBytes b 0 8)
  let w1 := leNat (blobBytes b 8 8)
  { model := bits w0 63 48, layers := bits w0 47 40 + 1, kvHeads := bits w0 39 34 + 1, qpk := bits w0 33 30 + 1, dimCode := bits w0 29 28,
    fmt := bits w0 27 24, scale := bits w0 23 22, group := bits w0 21 20, softmax := Fp.f32.decode (bits w1 63 32) }

/-- D of a HEAD_DIM code. -/
def dimOf : Nat → Nat
  | 0 => 64
  | 1 => 128
  | 2 => 256
  | _ => 0

def ADesc.dim (d : ADesc) : Nat := dimOf d.dimCode

/-- Elements of a KV_GROUP. -/
def ADesc.g (d : ADesc) : Nat := (groupOf d.group).getD 32

def ADesc.heads (d : ADesc) : Nat := d.kvHeads * d.qpk

/-- Does the descriptor keep Table 8.1: a group size that divides the head dimension, where neither code is reserved? DEDUCED, log entry 63. -/
def ADesc.shapeOk (d : ADesc) : Bool := d.dimCode = 3 || d.group = 3 || d.dim % d.g = 0

/-- Is no code of the descriptor reserved, and are KV_FMT and KV_SCALE allowed (Table 8.8)? DEDUCED, log entry 63. -/
def ADesc.formatOk (d : ADesc) : Bool := d.fmt < 4 && d.scale < 3 && d.dimCode < 3 && d.group < 3

/-- The KV format, and that of quantised queries and probabilities (R256). -/
def ADesc.kv (d : ADesc) : Fmt := (Fmt.ofCode d.fmt).getD .int8
def ADesc.q (d : ADesc) : Fmt := if d.fmt < 2 then .int8 else .e4m3
def ADesc.kvMax (d : ADesc) : Nat := (d.kv.qmax).getD 127
def ADesc.qMax (d : ADesc) : Nat := (d.q.qmax).getD 127

/-- Bytes of the descriptor with its scale table (R250). -/
def ADesc.bytes (d : ADesc) : Nat := 64 + d.layers * d.kvHeads * 2 * (d.dim / d.g) * scaleBytes d.scale

/-- Page size that the geometry gives (06_kv_pages_and_tiers.md R602). -/
def ADesc.pageBytes (d : ADesc) : Nat := roundUp (d.kvHeads * d.dim * 2 * 256 * d.kv.width / 8) 65536

/-- The model that the descriptor defines for a tenant (06 R602). -/
def ADesc.defines (d : ADesc) (t : Nat) : ModelDef :=
  { tenant := t, model := d.model, layers := d.layers, kvHeads := d.kvHeads, qpk := d.qpk, headDim := d.dim, kvFmt := d.fmt, kvScale := d.scale,
    kvGroup := d.g, pageBytes := d.pageBytes }

/-- The scale of a layer, KV head, half and group, with its poison (R250). -/
def kvScale (b : Blob) (d : ADesc) (layer head x j : Nat) : Num × Bool :=
  if d.scale = 0 then (.one, false)
  else
    let n := scaleBytes d.scale
    let a := 64 + (((layer * d.kvHeads + head) * 2 + x) * (d.dim / d.g) + j) * n
    (scaleValue d.scale (leNat (blobBytes b a n)), blobBad b a n)

/-- All scales of one half of a KV head, by group. -/
def kvScales (b : Blob) (d : ADesc) (layer head x : Nat) : List (Num × Bool) :=
  (List.range (d.dim / d.g)).map (kvScale b d layer head x)

/-! ### Pages (R251) -/

/-- Bytes of one position row. -/
def ADesc.row (d : ADesc) : Nat := rowBytes d.kv d.dim

/-- Offset in a page of a position's row in one half of a head's block. -/
def ADesc.at (d : ADesc) (head x pos : Nat) : Nat := head * (512 * d.row) + x * (256 * d.row) + pos * d.row

/-- A position's row: its elements. -/
def kvRow (b : Blob) (d : ADesc) (head x pos : Nat) : List Num := (List.range d.dim).map fun n => (elemAt b d.kv (d.at head x pos) n).1

/-- Does any of the first `n` position rows of a head's block carry poison? -/
def blockBad (b : Blob) (d : ADesc) (head n : Nat) : Bool := blobBad b (d.at head 0 0) (n * d.row) || blobBad b (d.at head 1 0) (n * d.row)

/-- The stored content of a page of a request's layer. -/
def pageBlob (s : State) (o : Owned) (layer k : Nat) : Blob :=
  match tget o.pages (layer, k) with
  | some p => tgetD s.tier.data p.dir Blob.zeros
  | none => Blob.zeros

/-! ### Partials (R256–R258) -/

/-- A partial result that is not empty. -/
structure Partial where
  m : Num
  l : Num
  o : List Num
deriving DecidableEq, Repr

/-- The greater of two numbers; a NaN where either is one. -/
def maxNum (a b : Num) : Num :=
  match a, b with
  | .nan, _ => .nan
  | _, .nan => .nan
  | _, _ => Num.max a b

/-- A row quantised in groups with FP16 scales (R256, 07_ladle_engines.md R218): elements and scales. -/
def quantRow (f : Fmt) (q g : Nat) (l : List Num) : List Num × List Num :=
  let each := (groupsOf g l.length l).map fun c =>
    let sv := scaleValue 1 (groupScale 1 q (amax c))
    (c.map fun x => f.decode (quantise f q sv x).1, sv)
  (each.flatMap (·.1), each.map (·.2))

/-- The score of a quantised query at a position (R256). -/
def scoreOf (d : ADesc) (qq : List Num × List Num) (k ks : List Num) : Num := mul32 (dot .exact d.g qq.1 k qq.2 ks) d.softmax

/-- The scores of a row at the first `n` positions of a page. -/
def scoresOf (d : ADesc) (b : Blob) (head n : Nat) (qq : List Num × List Num) (ks : List Num) : List Num :=
  (List.range n).map fun t => scoreOf d qq (kvRow b d head 0 t) ks

/-- page_partial: the partial of one row on one page, of which it may see the first `n` positions (R256). -/
def pagePartial (d : ADesc) (b : Blob) (head n : Nat) (qq : List Num × List Num) (ks vs : List Num) : Option Partial :=
  match scoresOf d b head n qq ks with
  | [] => none
  | s0 :: r =>
    let sc := s0 :: r
    let m := r.foldl maxNum s0
    let e := (sc.map fun x => expCr (r32 (Num.sub x m))) ++ List.replicate (256 - n) Num.zero
    let p := quantRow d.q d.qMax 128 e
    let rows := (List.range 256).map fun t => if t < n then kvRow b d head 1 t else List.replicate d.dim Num.zero
    let o := (List.range d.dim).map fun c =>
      let sv := vs.getD (c / d.g) .one
      dot .exact 128 p.1 (rows.map fun x => x.getD c .zero) p.2 [sv, sv]
    some { m := m, l := pairwise e, o := if sc.any (!·.finite) then List.replicate d.dim .nan else o }

/-- combine (R257). -/
def combine : Option Partial → Option Partial → Option Partial
  | none, y => y
  | x, none => x
  | some x, some y =>
    let m := maxNum x.m y.m
    let ax := expCr (r32 (Num.sub x.m m))
    let ay := expCr (r32 (Num.sub y.m m))
    some { m := m, l := add32 (mul32 ax x.l) (mul32 ay y.l), o := List.zipWith (fun a b => add32 (mul32 ax a) (mul32 ay b)) x.o y.o }

/-- One level of a tree of folds; an odd last element moves up unchanged (R258). -/
def foldLevel {α : Type} (f : α → α → α) : List α → List α
  | a :: b :: r => f a b :: foldLevel f r
  | l => l

/-- The tree of R258 over a list; `n` bounds its levels. -/
def foldTree {α : Type} (f : α → α → α) (z : α) : Nat → List α → α
  | _, [] => z
  | _, [x] => x
  | 0, x :: _ => x
  | n + 1, l => foldTree f z n (foldLevel f l)

/-- Fold what pages yield: within each class in ascending page order, then over the 20 classes (R258). DEDUCED, log entry 67. -/
def foldPages {α : Type} (f : Option α → Option α → Option α) (h layer pages : Nat) (x : Nat → Option α) : Option α :=
  let cls := (List.range 20).map fun j => ((List.range pages).filter fun k => pageClass h layer k = j).foldl (fun acc k => f acc (x k)) none
  foldTree f none 5 cls

/-- Positions of page `k` below a limit. -/
def visible (limit k : Nat) : Nat := min 256 (limit - 256 * k)

/-- A row's scales, pages and their poison, gathered once for a KV head. -/
structure HeadView where
  ks : List (Num × Bool)
  vs : List (Num × Bool)
deriving DecidableEq, Repr

def headView (desc : Blob) (d : ADesc) (layer head : Nat) : HeadView :=
  { ks := kvScales desc d layer head 0, vs := kvScales desc d layer head 1 }

def HeadView.bad (v : HeadView) : Bool := v.ks.any (·.2) || v.vs.any (·.2)

/-- attend: the folded result of one row that may see the positions below `limit` (R258), with its poison (R274). -/
def attendRow (s : State) (o : Owned) (d : ADesc) (v : HeadView) (layer head limit : Nat) (q : List (Num × Bool)) : Option Partial × Bool :=
  let qq := quantRow d.q d.qMax d.g (q.map (·.1))
  let n := ceilDiv limit 256
  (foldPages combine o.record.handle layer n fun k =>
    pagePartial d (pageBlob s o layer k) head (visible limit k) qq (v.ks.map (·.1)) (v.vs.map (·.1)),
   q.any (·.2) || v.bad || (List.range n).any fun k => blockBad (pageBlob s o layer k) d head (visible limit k))

/-- finish, before its conversion (R257). -/
def finishPartial (dim : Nat) : Option Partial → List Num
  | none => List.replicate dim .zero
  | some p => p.o.map fun x => div32 x p.l

/-! ### Output blocks (R264–R266) -/

/-- Pad bytes to a multiple of 64. -/
def pad64 (l : List (Byte × Bool)) : List (Byte × Bool) := l ++ List.replicate (roundUp l.length 64 - l.length) (0, false)

def f32Bytes (x : Num) : List Byte := leBytes 4 (Fp.f32.encode x)

/-- Stride of a partial record (R266). -/
def partialBytes (dim : Nat) : Nat := roundUp (8 + 4 * dim) 64

/-- A partial record (R266). -/
def partialRecord (dim : Nat) (x : Option Partial × Bool) : List (Byte × Bool) :=
  let body := match x.1 with
    | none => f32Bytes (.inf true) ++ f32Bytes .zero ++ (List.replicate dim Num.zero).flatMap f32Bytes
    | some p => f32Bytes p.m ++ f32Bytes p.l ++ p.o.flatMap f32Bytes
  pad64 (body.map fun b => (b, x.2))

/-- Elements of a finished row in FMT_OUT. -/
def finishedRow (f : Fmt) (dim : Nat) (x : Option Partial × Bool) : List (Byte × Bool) :=
  let fp := (f.fp).getD Fp.f32
  (finishPartial dim x.1).flatMap fun y => (leBytes (f.width / 8) (fp.encode (fp.round y))).map fun b => (b, x.2)

/-- The output of one token: its rows in ascending query head order. -/
def tokenOut (part : Bool) (f : Fmt) (dim : Nat) (rows : List (Option Partial × Bool)) : List (Byte × Bool) :=
  if part then rows.flatMap (partialRecord dim) else pad64 (rows.flatMap (finishedRow f dim))

/-- Bytes of a token's output. -/
def tokenBytes (part : Bool) (f : Fmt) (d : ADesc) : Nat :=
  if part then d.heads * partialBytes d.dim else roundUp (d.heads * d.dim * (f.width / 8)) 64

/-- Is a row's result, before its conversion, not finite (07 R219)? -/
def rowNonfinite (part : Bool) (dim : Nat) (x : Option Partial × Bool) : Bool :=
  match x.1 with
  | none => false
  | some p =>
    if part then !p.m.finite || !p.l.finite || p.o.any (!·.finite)
    else (finishPartial dim (some p)).any (!·.finite)

/-! ### Operands and checks (R262–R265, R273) -/

/-- The fields of Table 8.5. -/
structure AArgs where
  input : Ref
  output : Ref
  adesc : Nat
  layer : Nat
  fin : Nat
  fout : Nat
  part : Bool
  tag : Nat
  counter : Nat
  start : Nat
  count : Nat
  auxWord : Word
deriving DecidableEq, Repr

def aArgs (c : Cmd) : AArgs :=
  { input := refOf c.w2, output := refOf c.w3, adesc := fld c.w4 63 48, layer := fld c.w4 47 40, fin := fld c.w4 39 36, fout := fld c.w4 35 32,
    part := flag c.w4 31, tag := fld c.w5 63 48, counter := fld c.w5 47 32, start := fld c.w6 63 32, count := fld c.w6 31 0, auxWord := c.w7 }

def AArgs.aux (x : AArgs) : Ref := refOf x.auxWord

/-- FMT_IN and FMT_OUT: BF16, FP16 or FP32. -/
def wideFmt (n : Nat) : Bool := 4 ≤ n && n ≤ 6
def fmtOrF32 (n : Nat) : Fmt := (Fmt.ofCode n).getD .fp32

/-- The descriptor tensor of a command; `old` says that the command had started before. -/
def aTensor (s : State) (t : Nat) (x : AArgs) (old : Bool) : Option Tensor :=
  match tget s.tier.tensors (t, x.adesc) with
  | some y => if y.freeing && !old then none else some y
  | none => none

/-- Bytes of a token section (R264). -/
def sectionBytes (d : ADesc) (fin : Fmt) (bwd : Bool) : Nat :=
  roundUp ((if bwd then 3 * d.heads * d.dim else (d.heads + 2 * d.kvHeads) * d.dim) * (fin.width / 8)) 64

/-- Row `r` of a token section at an offset: its D elements, each with its poison. -/
def sectionRow (v : Blob × Nat) (fin : Fmt) (dim off r : Nat) : List (Num × Bool) :=
  (List.range dim).map fun n => elemAt v.1 fin (v.2 + off + r * dim * (fin.width / 8)) n

/-- Code of the check of a reference without a window. -/
def codeOf : RefRes → Option Nat
  | .bad c => some c
  | .lost _ => some Status.streamSourceLost
  | _ => none

/-- The first code of a list of checks. -/
def firstCode : List (Option Nat) → Option Nat
  | [] => none
  | some c :: _ => some c
  | none :: r => firstCode r

def orCode (b : Bool) (code : Nat) : Option Nat := if b then none else some code

/-! ### Members -/

/-- A member's header: its handle, T, and the offset of its block. -/
structure Header where
  handle : Nat
  t : Nat
  off : Nat
  bad : Bool
deriving DecidableEq, Repr

/-- Read the member headers (R265): those found, with `false` where one lies beyond the object. A T out of range ends the walk. -/
def headers (s : State) (tn : Nat) (r : Ref) (sec : Nat) (old : Bool) : Nat → Nat → List Header × Bool
  | 0, _ => ([], true)
  | n + 1, off =>
    if (codeOf (refCheck s tn r (off + 64) false old)).isSome then ([], false)
    else
      let h : Header := { handle := leNat (refBytes s tn r off 8), t := leNat (refBytes s tn r (off + 8) 1) % 32, off := off,
                          bad := refBad s tn r off 64 }
      if h.t = 0 || 17 < h.t then ([h], true)
      else
        let p := headers s tn r sec old n (off + 64 + h.t * sec)
        (h :: p.1, p.2)

/-- Geometry checks of a member (R273). -/
def modelRefusal (s : State) (o : Owned) (d : ADesc) : Option Nat :=
  match modelOf s (handleTenant o.record.handle) o.record.model with
  | none => some Status.modelUnknown
  | some m => orCode (decide (m = d.defines m.tenant)) Status.shapeInvalid

/-- KV length (R252). -/
def kvLength (o : Owned) : Nat := o.record.logged - 1

/-- Are pages missing below a KV length (R273)? -/
def missing (o : Owned) (n : Nat) : Bool := o.record.firstMissing < n

/-- The KV length of the member at a batch index as the command takes it when it starts (R254). -/
def lengthAt (s : State) (id i : Nat) (o : Owned) : Nat := (((slotById s id).bind fun x => x.lens[i]?)).getD (kvLength o)

/-- A command that starts at the owner takes the KV length of each member (R254). -/
def takeLengths (s : State) (id : Nat) : State :=
  modSlot s id fun x => if x.lens = [] then { x with lens := x.members.map fun h => (ownedOf s h).elim 0 kvLength } else x

/-- The refusal of a decode member of KV length `n`, but for placement (R273). DEDUCED, log entry 65. -/
def decodeRefusal (s : State) (id h n : Nat) (d : ADesc) (x : Header) : Option Nat :=
  match ownedOf s h with
  | none => some (goneStatus s id h)
  | some o => firstCode [
      modelRefusal s o d,
      orCode (x.handle = h) Status.operandRange,
      orCode (o.record.phase = 2 || o.record.phase = 4) Status.phaseInvalid,
      orCode (!missing o n) Status.recomputeRequired,
      orCode (n + x.t ≤ 1048576 && n + x.t ≤ o.record.promptTokens + o.record.tokenLimit) Status.pageRange]

/-- Pages of a layer from one that holds `start` to one that holds `stop − 1` take their places (R267, R268). -/
def ensurePages (s : State) (h : Nat) (m : ModelDef) (layer : Nat) : List Nat → Except Short State
  | [] => .ok s
  | k :: r => match ownedOf s h with
    | none => .ok s
    | some o => match ensurePage s o m layer k with
      | .error e => .error e
      | .ok (s1, _, _) => ensurePages s1 h m layer r

def pagesOf (start stop : Nat) : List Nat := (List.range (ceilDiv stop 256 - start / 256)).map (· + start / 256)

/-- A converted position row (R253): its bytes, and how many elements saturated or were a NaN. -/
def convertRow (d : ADesc) (scales : List (Num × Bool)) (row : List (Num × Bool)) : List (Byte × Bool) × Nat :=
  let each := (List.range row.length).map fun n =>
    let x := row.getD n (.zero, false)
    let sc := scales.getD (n / d.g) (.one, false)
    let q := quantise d.kv d.kvMax sc.1 x.1
    ((q.1, x.2 || sc.2), q.2)
  (packRow d.kv (each.map (·.1)), (each.filter (·.2)).length)

/-- Write one position of one KV head, both halves. -/
def writeHead (b : Blob) (d : ADesc) (v : HeadView) (head pos : Nat) (k vv : List (Num × Bool)) : Blob × Nat :=
  let kr := convertRow d v.ks k
  let vr := convertRow d v.vs vv
  (blobWrite (blobWrite b (d.at head 0 pos) kr.1) (d.at head 1 pos) vr.1, kr.2 + vr.2)

/-- Write one position of every KV head from a token section (R264). -/
def writeToken (d : ADesc) (desc : Blob) (layer : Nat) (sec : Blob × Nat) (fin : Fmt) (off pos : Nat) (b : Blob) : Blob × Nat :=
  (List.range d.kvHeads).foldl (fun acc head =>
    let r := writeHead acc.1 d (headView desc d layer head) head pos (sectionRow sec fin d.dim off (d.heads + head))
      (sectionRow sec fin d.dim off (d.heads + d.kvHeads + head))
    (r.1, acc.2 + r.2)) (b, 0)

/-- Write the new entries of a member: `n` token sections from offset `off`, at positions from `pos` on. The count of R253 is added up. -/
def writeEntries (s : State) (h : Nat) (d : ADesc) (desc : Blob) (layer : Nat) (sec : Blob × Nat) (fin : Fmt) : Nat → Nat → Nat → Nat → State × Nat
  | 0, _, _, sat => (s, sat)
  | n + 1, off, pos, sat =>
    match ownedOf s h with
    | none => (s, sat)
    | some o => match tget o.pages (layer, pos / 256) with
      | none => (s, sat)
      | some p =>
        let w := writeToken d desc layer sec fin off (pos % 256) (tgetD s.tier.data p.dir Blob.zeros)
        let o1 := { o with pages := tset o.pages (layer, pos / 256) { p with upto := max p.upto (pos % 256 + 1) } }
        writeEntries (setOwned (putPage s p.dir w.1) h o1) h d desc layer sec fin n (off + sectionBytes d fin false) (pos + 1) (sat + w.2)

/-- The rows of one token: every query head, with the positions below `limit`. -/
def tokenRows (s : State) (o : Owned) (d : ADesc) (desc : Blob) (layer : Nat) (sec : Blob × Nat) (fin : Fmt) (off limit : Nat) (bad : Bool) :
    List (Option Partial × Bool) :=
  (List.range d.heads).map fun r =>
    let p := attendRow s o d (headView desc d layer (r / d.qpk)) layer (r / d.qpk) limit (sectionRow sec fin d.dim off r)
    (p.1, p.2 || bad)

/-- Directory entries of the pages of a layer below a page index. -/
def layerDirs (o : Owned) (layer pages : Nat) : List Nat :=
  (o.pages.filter fun p => p.1.1 = layer && p.1.2 < pages && p.2.present).map fun p => p.2.dir

/-- AGE of every page of a layer that a command reads becomes 0, and the page is pinned until the command ends (06 R179). -/
def touchLayer (s : State) (id : Nat) (o : Owned) (layer pages : Nat) : State :=
  pinRead (touchAll s (layerDirs o layer pages)) id (layerDirs o layer pages)

/-- Read the pages of a layer below a position: one that fails its tag or lies in a revoked grant is dropped (06 R174, R194). -/
def readPages (s : State) (h layer n : Nat) : State :=
  match ownedOf s h with
  | some o => readObjects s (layerDirs o layer (ceilDiv n 256))
  | none => s

/-- Ladle of a member's head and class (R255). -/
def attendLadle (d : ADesc) (i head j : Nat) : Nat := 8 * j + (i * d.kvHeads + head) % 8

/-- A member's entries: within it in ascending class (R260), one per KV head for each class that has a page. DEDUCED, log entry 67. -/
def memberEntries (d : ADesc) (h layer pages i comp : Nat) : List (Nat × List Nat) :=
  (List.range 20).flatMap fun j =>
    if (List.range pages).any fun k => pageClass h layer k = j then (List.range d.kvHeads).map fun head => (attendLadle d i head j, [comp]) else []

/-- The bucket of a page count (Table 8.3). -/
def bucketOf (p : Nat) : Nat := min 7 (Nat.log2 p)

/-- What a batch has done so far. -/
structure Tally where
  st : State
  out : List (Byte × Bool)
  sat : Nat
  slices : Nat
  first : Option (Nat × Nat)
  refused : Nat
  nonfinite : Bool
  entries : List (Nat × List (Nat × List Nat))
  /-- Of each entry: mode, handle and T. -/
  parts : List (Nat × List (Nat × Nat × Nat))

/-- One more member refused: its output block is zeros (R273). -/
def Tally.refuse (y : Tally) (i code bytes : Nat) : Tally :=
  { y with out := y.out ++ List.replicate bytes (0, false), refused := y.refused + 1, first := match y.first with
      | some f => some f
      | none => some (i, code) }

/-- Entries in bucket order, 7 first; within one in batch order (R260). -/
def bucketOrder {α : Type} (l : List (Nat × List α)) : List α :=
  (List.range 8).flatMap fun b => (l.filter fun e => e.1 = 7 - b).flatMap (·.2)

/-- RESULT1 of Table 8.7. -/
def Tally.r1 (y : Tally) : Nat := (y.first.elim 0xFFFFFFFF (·.1)) * 2 ^ 32 + y.refused

/-- Status by R274. -/
def Tally.status (y : Tally) : Nat :=
  match y.first with
  | some f => f.2
  | none => outStatus (y.out.any (·.2)) y.nonfinite

/-- What every operator needs of its command. -/
structure AEnv where
  x : AArgs
  d : ADesc
  desc : Blob
  descLen : Nat
  tenant : Nat
  fin : Fmt
  fout : Fmt
  /-- The input object, and the offset in it. -/
  sec : Blob × Nat

/-- One decode member (R267): placement, new entries, rows, output. DEDUCED, log entry 65. -/
def decodeMember (e : AEnv) (id i : Nat) (h : Nat) (hd : Header) (y0 : Tally) : Tally :=
  let bytes := hd.t * tokenBytes e.x.part e.fout e.d
  let n := (ownedOf y0.st h).elim 0 (lengthAt y0.st id i)
  let y := if (decodeRefusal y0.st id h n e.d hd).isNone then { y0 with st := readPages y0.st h e.x.layer n } else y0
  match decodeRefusal y.st id h n e.d hd, ownedOf y.st h with
  | some c, _ => y.refuse i c bytes
  | none, none => y
  | none, some _ =>
    match ensurePages y.st h (e.d.defines e.tenant) e.x.layer (pagesOf n (n + hd.t)) with
    | .error c => { y with st := unplaced y.st c }.refuse i c.code bytes
    | .ok s1 =>
      if ((ownedOf s1 h).elim true (missing · n)) then y.refuse i Status.recomputeRequired bytes
      else
        let w := writeEntries s1 h e.d e.desc e.x.layer e.sec e.fin hd.t (hd.off + 64) n 0
        match ownedOf w.1 h with
        | none => y
        | some o1 =>
          let rows := (List.range hd.t).map fun u =>
            tokenRows w.1 o1 e.d e.desc e.x.layer e.sec e.fin (hd.off + 64 + u * sectionBytes e.d e.fin false) (n + u + 1) hd.bad
          let pages := ceilDiv (n + hd.t) 256
          { y with
            st := touchLayer w.1 id o1 e.x.layer pages
            out := y.out ++ rows.flatMap (tokenOut e.x.part e.fout e.d.dim)
            sat := y.sat + w.2
            slices := y.slices + e.d.kvHeads * pages
            nonfinite := y.nonfinite || rows.any fun l => l.any (rowNonfinite e.x.part e.d.dim)
            entries := y.entries ++ [(bucketOf pages, memberEntries e.d h e.x.layer pages i o1.record.composition)]
            parts := y.parts ++ [(bucketOf pages, (memberEntries e.d h e.x.layer pages i o1.record.composition).map fun _ => (modeCode e.d.kv, h, hd.t))] }

/-- Members in turn. -/
def decodeMembers (e : AEnv) (id : Nat) : Nat → List (Nat × Header) → Tally → Tally
  | _, [], y => y
  | i, m :: r, y => decodeMembers e id (i + 1) r (decodeMember e id i m.1 m.2 y)

/-! ### The frame of the operators -/

/-- An earlier attention command of one of the requests and the same layer has not completed (R254). -/
def attentionAhead (s : State) (id : Nat) (layer : Nat) : Bool :=
  s.host.slots.any fun y => arrivedBefore s id y && (opcodeOf y.cmd = 0x38 || opcodeOf y.cmd = 0x39 || opcodeOf y.cmd = 0x3B) &&
    (aArgs y.cmd).layer = layer && (slotMembers s id).any (arrivedSlot y)

/-- The environment of a command whose descriptor tensor exists. -/
def aEnv (s : State) (c : Cmd) (y : Tensor) (bytes : Nat) : AEnv :=
  let x := aArgs c
  let t := cmdTenant s c
  { x := x, d := aDescOf y.blob, desc := y.blob, descLen := y.bytes, tenant := t, fin := fmtOrF32 x.fin, fout := fmtOrF32 x.fout,
    sec := refView s t x.input bytes }

/-- Command-scope checks that all operators share, in order: shape, then formats, then ranges (R273). DEDUCED, log entry 60. -/
def aChecks (e : AEnv) (shape codes : Bool) (out : Bool) (ranges : List (Option Nat)) : Option Nat :=
  firstCode ([orCode (e.d.shapeOk && shape) Status.shapeInvalid,
    orCode (e.d.formatOk && codes && wideFmt e.x.fin && (!out || wideFmt e.x.fout)) Status.formatUnsupported] ++ ranges ++
    [orCode (e.d.bytes ≤ e.descLen) Status.operandRange])

/-- Tensors that an attention command names (07 R245). -/
def AArgs.names (x : AArgs) (aux : Bool) : List Nat :=
  x.adesc :: (refTensor x.input ++ refTensor x.output ++ (if aux then refTensor x.aux else []))

/-- Tag, order and descriptor: what comes before the checks of an attention operator on its owner (R254, R261, R263). -/
def attention (s : State) (id : Nat) (c : Cmd) (passed ordered : Bool) (roleOk : Bool) (k : Tensor → State → State) : State :=
  if runsNow s id || stepsPending s id then s
  else if !roleOk then fail s id Status.opcodeInvalid
  else if !counterOk (aArgs c).counter then fail s id Status.tagInvalid
  else tagGate s id c (aArgs c).tag passed fun s =>
    if ordered && attentionAhead s id (aArgs c).layer then await s id .earlier
    else
      let s1 := readNamed s (cmdTenant s c) ((aArgs c).names (opcodeOf c = 0x3B || (opcodeOf c = 0x39 && !((aArgs c).auxWord = 0))))
      match aTensor s1 (cmdTenant s c) (aArgs c) (slotStarted s id) with
      | none => fail s id Status.tensorUnknown
      | some y => k y s1

/-! ### ATTEND_DECODE (R267) -/

/-- PREFILLED members that are not refused move to DECODE before any work for them (Table 8.4 Note 1). -/
def startDecode (id : Nat) (d : ADesc) : Nat → List (Nat × Header) → State → State
  | _, [], s => s
  | i, m :: r, s =>
    match decodeRefusal s id m.1 ((ownedOf s m.1).elim 0 (lengthAt s id i)) d m.2, ownedOf s m.1 with
    | none, some o => startDecode id d (i + 1) r (if o.record.phase = 2 then phaseStep s o 4 (.command id) else s)
    | _, _ => startDecode id d (i + 1) r s

/-- Outputs, results and Ladle entries of ATTEND_DECODE. -/
def decodeWork (s : State) (id : Nat) (c : Cmd) (e : AEnv) (ms : List (Nat × Header)) : State :=
  let work := fun (s : State) => decodeMembers e id 0 ms
    { st := s, out := [], sat := 0, slices := 0, first := none, refused := 0, nonfinite := false, entries := [], parts := [] }
  whiskGate s id c (bucketOrder (work s).entries) fun s =>
  let y := work s
  let missed := ms.head?.bind fun m => ownedOf y.st m.1
  let r0 := if y.status = Status.recomputeRequired && !isBatch c then missed.elim 0 (·.record.firstMissing) else y.sat * 2 ^ 32 + y.slices
  runOn (refWrite y.st id e.tenant e.x.output 0 y.out) id c (bucketOrder y.entries)
    { left := 0, status := y.status, r0 := r0, r1 := y.r1, charged := false, preempts := 0, cycles := 0, counter := e.x.counter,
      names := e.x.names false, waits := false, mode := modeCode e.d.kv, parts := bucketOrder y.parts }

/-- ATTEND_DECODE on its owner, with its descriptor. -/
def attendDecode (id : Nat) (c : Cmd) (y : Tensor) (s0 : State) : State :=
  let old := slotStarted s0 id
  let s := takeLengths s0 id
  let e0 := aEnv s c y 0
  let sec := sectionBytes e0.d e0.fin false
  let ms := slotMembers s id
  let hs := headers s e0.tenant e0.x.input sec old ms.length 0
  let total := (hs.1.map fun h => 64 + h.t * sec).sum
  let outBytes := (hs.1.map fun h => h.t * tokenBytes e0.x.part e0.fout e0.d).sum
  let tOk := hs.1.all fun h => 1 ≤ h.t && h.t ≤ 17 && h.t * e0.d.qpk * e0.d.dim ≤ 65536
  match aChecks e0 (e0.x.layer < e0.d.layers && tOk) true (!e0.x.part)
      [orCode hs.2 Status.operandRange, codeOf (refCheck s e0.tenant e0.x.input total false old),
       codeOf (refCheck s e0.tenant e0.x.output outBytes false old)] with
  | some code => fail s id code
  | none =>
    let pairs := ms.zip hs.1
    let s1 := startDecode id e0.d 0 pairs s
    if stepsPending s1 id then await s1 id .ledger
    else decodeWork (touchRef s1 e0.tenant e0.x.input) id c (aEnv s c y total) pairs

def runAttendDecode (c : Cmd) (s : State) : State :=
  runCmd 0x38 c s fun again id s => routed s id c again fun passed s =>
    attention s id c passed true (decide (s.image.role ≠ .p)) (attendDecode id c)

/-- ATTEND_DECODE (R267). -/
def execAttendDecode (c : Cmd) (s : State) : Host.Outcome State Fault Refusal := ordinary s (runAttendDecode c s)

/-! ### ATTEND_PREFILL (R268) -/

/-- Is a page of the range sealed (R268)? -/
def anySealed (o : Owned) (layer start count : Nat) : Bool :=
  (pagesOf start (start + count)).any fun k => (tget o.pages (layer, k)).elim false fun p => p.present && (p.full || p.shared)

/-- The refusals of ATTEND_PREFILL, but for placement. -/
def prefillRefusal (s : State) (o : Owned) (e : AEnv) : Option Nat :=
  let ph := o.record.phase
  firstCode [
    modelRefusal s o e.d,
    orCode (ph = 1 || ((ph = 2 || ph = 4 || ph = 5) && o.record.firstMissing < o.record.logged)) Status.phaseInvalid,
    orCode (chunkRange o e.x.start e.x.count && (e.x.start = 0 || layerCovers o e.x.layer 0 e.x.start) && !anySealed o e.x.layer e.x.start e.x.count)
      Status.pageRange]

/-- A member refusal of a command that names one request: zeros in its output block (R273), and its counter rises before the completion (R263). One without
effect (`zeros` false) does neither. -/
def refuseOne (s : State) (id : Nat) (e : AEnv) (o : Owned) (code bytes : Nat) (zeros : Bool) : State :=
  let s1 := if zeros then raiseCounter (refWrite s id e.tenant e.x.output 0 (List.replicate bytes (0, false))) e.tenant e.x.counter else s
  finish s1 id code (if code = Status.recomputeRequired then o.record.firstMissing else 0) 0

/-- Statistics records of rows (R266). -/
def statBytes (rows : List (Option Partial × Bool)) : List (Byte × Bool) :=
  rows.flatMap fun x => (match x.1 with
    | none => f32Bytes (.inf true) ++ f32Bytes .zero
    | some p => f32Bytes p.m ++ f32Bytes p.l).map fun b => (b, x.2)

/-- Tokens of a tile: the product of rows, QPK and D is at most 65,536 (R268). -/
def tileTokens (d : ADesc) : Nat := 65536 / (d.qpk * d.dim)

/-- The entries of a chunk: one page slice against one tile of query rows each (R268). -/
def prefillEntries (d : ADesc) (h layer start count comp : Nat) : List (Nat × List Nat) :=
  (List.range (ceilDiv count (tileTokens d))).flatMap fun i =>
    (List.range (ceilDiv (start + min count ((i + 1) * tileTokens d)) 256)).flatMap fun k =>
      (List.range d.kvHeads).map fun head => (attendLadle d 0 head (pageClass h layer k), [comp])

/-- New entries, rows, outputs and statistics of a chunk (R268). -/
def prefillWork (s : State) (id : Nat) (c : Cmd) (e : AEnv) (h : Nat) : State :=
  let sec := sectionBytes e.d e.fin false
  let w := writeEntries s h e.d e.desc e.x.layer e.sec e.fin e.x.count 0 e.x.start 0
  match ownedOf w.1 h with
  | none => s
  | some o =>
    let rows := (List.range e.x.count).map fun u =>
      tokenRows w.1 o e.d e.desc e.x.layer e.sec e.fin (u * sec) (e.x.start + u + 1) false
    let out := rows.flatMap (tokenOut e.x.part e.fout e.d.dim)
    let pages := ceilDiv (e.x.start + e.x.count) 256
    let s1 := refWrite (touchLayer (setOwned w.1 h (sealPages o)) id o e.x.layer pages) id e.tenant e.x.output 0 out
    let s2 := if e.x.auxWord = 0 then s1 else refWrite s1 id e.tenant e.x.aux 0 (rows.flatMap statBytes)
    runOn s2 id c (prefillEntries e.d h e.x.layer e.x.start e.x.count o.record.composition)
      { left := 0, status := outStatus (out.any (·.2)) (rows.any fun l => l.any (rowNonfinite e.x.part e.d.dim)),
        r0 := w.2 * 2 ^ 32 + e.d.kvHeads * pages, r1 := e.x.count, charged := false, preempts := 0, cycles := 0, counter := e.x.counter,
        names := e.x.names (e.x.auxWord ≠ 0), waits := false, mode := modeCode e.d.kv, parts := [] }

def attendPrefill (id : Nat) (c : Cmd) (y : Tensor) (s : State) : State :=
  let old := slotStarted s id
  let e := aEnv s c y ((aArgs c).count * sectionBytes (aDescOf y.blob) (fmtOrF32 (aArgs c).fin) false)
  let inBytes := e.x.count * sectionBytes e.d e.fin false
  let outBytes := e.x.count * tokenBytes e.x.part e.fout e.d
  match aChecks e (!isBatch c && e.x.layer < e.d.layers && e.x.start % 256 = 0 && 1 ≤ e.x.count && e.x.count ≤ 65536) true (!e.x.part)
      [codeOf (refCheck s e.tenant e.x.input inBytes false old), codeOf (refCheck s e.tenant e.x.output outBytes false old),
       if e.x.auxWord = 0 then none else codeOf (refCheck s e.tenant e.x.aux (e.x.count * e.d.heads * 8) false old)] with
  | some code => fail s id code
  | none => withOwned s id c fun o =>
    if (tget s.comp.running id).isSome then prefillWork s id c e o.record.handle
    else match prefillRefusal s o e with
    | some code => refuseOne s id e o code outBytes (!(code = Status.pageRange && anySealed o e.x.layer e.x.start e.x.count))
    | none =>
      let h := o.record.handle
      let sr := readPages s h e.x.layer e.x.start
      let o1 := (ownedOf sr h).getD o
      if !(e.x.start = 0 || layerCovers o1 e.x.layer 0 e.x.start) then refuseOne sr id e o1 Status.recomputeRequired outBytes true
      else whiskGate sr id c (prefillEntries e.d h e.x.layer e.x.start e.x.count o1.record.composition) fun s =>
        match ensurePages s h (e.d.defines e.tenant) e.x.layer (pagesOf e.x.start (e.x.start + e.x.count)) with
        | .error code => refuseOne (unplaced s code) id e o1 code.code outBytes true
        | .ok s1 => prefillWork (touchRef s1 e.tenant e.x.input) id c e h

def runAttendPrefill (c : Cmd) (s : State) : State :=
  runCmd 0x39 c s fun again id s => routed s id c again fun passed s =>
    attention s id c passed true (decide (s.image.role = .s)) (attendPrefill id c)

/-- ATTEND_PREFILL (R268). -/
def execAttendPrefill (c : Cmd) (s : State) : Host.Outcome State Fault Refusal := ordinary s (runAttendPrefill c s)

/-! ### SOFTMAX_COMBINE (R269) -/

/-- A partial record read back: M negative infinity with L and O zero is the empty partial (R266). DEDUCED, log entry 64. -/
def readPartial (v : Blob × Nat) (dim off : Nat) : Option Partial × Bool :=
  let at' := fun n => elemAt v.1 .fp32 (v.2 + off) n
  let m := (at' 0).1
  let l := (at' 1).1
  let o := (List.range dim).map fun n => (at' (n + 2)).1
  let bad := blobBad v.1 (v.2 + off) (partialBytes dim)
  if m = .inf true && l.isZero && o.all (·.isZero) then (none, bad) else (some { m := m, l := l, o := o }, bad)

/-- One row: its parts folded by the tree (R269). -/
def combineRow (v : Blob × Nat) (dim rows parts r : Nat) : Option Partial × Bool :=
  let l := (List.range parts).map fun k => readPartial v dim ((k * rows + r) * partialBytes dim)
  (foldTree combine none 6 (l.map (·.1)), l.any (·.2))

/-- DEDUCED, log entry 64. -/
def softmaxCombine (id : Nat) (c : Cmd) (y : Tensor) (s : State) : State :=
  let old := slotStarted s id
  let rows := fld c.w6 63 32
  let parts := fld c.w6 31 24
  let code := fld c.w6 23 22
  let dim := dimOf code
  let inBytes := parts * rows * partialBytes dim
  let e := aEnv s c y inBytes
  let rowOut := if e.x.part then partialBytes dim else roundUp (dim * (e.fout.width / 8)) 64
  match aChecks e (handleOf c = 0 && !isBatch c && 2 ≤ parts && parts ≤ 64 && 1 ≤ rows && rows ≤ 1048576) (code < 3) (!e.x.part)
      [codeOf (refCheck s e.tenant e.x.input inBytes false old), codeOf (refCheck s e.tenant e.x.output (rows * rowOut) false old)] with
  | some code => fail s id code
  | none => whiskGate s id c (plainEntries (rowLadles rows)) fun s =>
    let got := (List.range rows).map (combineRow e.sec dim rows parts)
    let out := got.flatMap fun x => if e.x.part then partialRecord dim x else pad64 (finishedRow e.fout dim x)
    runOn (refWrite (touchRef s e.tenant e.x.input) id e.tenant e.x.output 0 out) id c (plainEntries (rowLadles rows))
      { left := 0, status := outStatus (out.any (·.2)) (got.any (rowNonfinite e.x.part dim)), r0 := rows, r1 := 0, charged := false,
        preempts := 0, cycles := 0, counter := e.x.counter, names := e.x.names false, waits := false, mode := 5, parts := [] }

def runSoftmaxCombine (c : Cmd) (s : State) : State :=
  runCmd 0x3A c s fun again id s => attention s id c again false true (softmaxCombine id c)

/-- SOFTMAX_COMBINE (R269). -/
def execSoftmaxCombine (c : Cmd) (s : State) : Host.Outcome State Fault Refusal := ordinary s (runSoftmaxCombine c s)

/-! ### ATTEND_BWD (R270, R271) -/

/-- Round to BF16 (R270). -/
def b16 (x : Num) : Num := Fp.b16.round x

/-- A sum of products in mode 3 with scale 1.0 and groups of 32 (R270). -/
def dot32 (a b : List Num) : Num :=
  let n := roundUp a.length 32
  let pad := fun (l : List Num) => l ++ List.replicate (n - l.length) Num.zero
  let ones := List.replicate (n / 32) Num.one
  dot .tree 32 (pad a) (pad b) ones ones

/-- A position row of K or V as BF16 values. DEDUCED, log entry 66. -/
def bwdRow (b : Blob) (d : ADesc) (head x pos : Nat) (scales : List (Num × Bool)) : List Num :=
  let row := kvRow b d head x pos
  (List.range d.dim).map fun n => b16 (mul32 (row.getD n .zero) (scales.getD (n / d.g) (.one, false)).1)

/-- One row of a backward pass: what it adds up with, by position. -/
structure BwdRow where
  q : List Num
  dO : List Num
  p : List Num
  ds : List Num
  bad : Bool
deriving DecidableEq, Repr

/-- P and dS of one row at every position below `limit` (R270), rounded to BF16. -/
def bwdScores (s : State) (o : Owned) (d : ADesc) (v : HeadView) (layer head limit : Nat) (q dO out : List Num) (m l : Num) : List (Num × Num) :=
  let qq := quantRow d.q d.qMax d.g q
  let delta := pairwise (List.zipWith mul32 dO out)
  (List.range limit).map fun t =>
    let b := pageBlob s o layer (t / 256)
    let sc := scoreOf d qq (kvRow b d head 0 (t % 256)) (v.ks.map (·.1))
    let p := div32 (expCr (r32 (Num.sub sc m))) l
    let dp := dot32 (dO.map b16) (bwdRow b d head 1 (t % 256) v.vs)
    (b16 p, b16 (mul32 p (r32 (Num.sub dp delta))))

/-- One row, from its token section and its saved statistics. -/
def bwdRowOf (s : State) (o : Owned) (e : AEnv) (stats : Blob × Nat) (u r : Nat) : BwdRow :=
  let off := u * sectionBytes e.d e.fin true
  let head := r / e.d.qpk
  let q := sectionRow e.sec e.fin e.d.dim off r
  let dO := sectionRow e.sec e.fin e.d.dim off (e.d.heads + r)
  let out := sectionRow e.sec e.fin e.d.dim off (2 * e.d.heads + r)
  let so := (u * e.d.heads + r) * 8
  let m := elemAt stats.1 .fp32 (stats.2 + so) 0
  let l := elemAt stats.1 .fp32 (stats.2 + so) 1
  let limit := e.x.start + u + 1
  let v := headView e.desc e.d e.x.layer head
  let sc := bwdScores s o e.d v e.x.layer head limit (q.map (·.1)) (dO.map (·.1)) (out.map (·.1)) m.1 l.1
  { q := q.map fun x => b16 x.1, dO := dO.map fun x => b16 x.1, p := sc.map (·.1), ds := sc.map (·.2),
    bad := q.any (·.2) || dO.any (·.2) || out.any (·.2) || m.2 || l.2 || v.bad ||
      (List.range (ceilDiv limit 256)).any fun k => blockBad (pageBlob s o e.x.layer k) e.d head (visible limit k) }

/-- Addition of vectors that pages yield, in place of combine (R270). -/
def addVec : Option (List Num) → Option (List Num) → Option (List Num)
  | none, y => y
  | x, none => x
  | some x, some y => some (List.zipWith add32 x y)

/-- dQ of one row. -/
def bwdQ (s : State) (o : Owned) (e : AEnv) (r : Nat) (x : BwdRow) : List Num :=
  let head := r / e.d.qpk
  let v := headView e.desc e.d e.x.layer head
  let page := fun k =>
    let b := pageBlob s o e.x.layer k
    let n := visible x.ds.length k
    let ks := (List.range n).map fun t => bwdRow b e.d head 0 t v.ks
    let ds := (x.ds.drop (256 * k)).take n
    some ((List.range e.d.dim).map fun c => dot32 ds (ks.map fun row => row.getD c .zero))
  match foldPages addVec o.record.handle e.x.layer (ceilDiv x.ds.length 256) page with
  | some l => l.map (mul32 e.d.softmax)
  | none => List.replicate e.d.dim .zero

/-- dK or dV of one position and KV head: over the rows in ascending (position, query head) order. -/
def bwdK (e : AEnv) (rows : List (Nat × BwdRow)) (head t : Nat) (useV : Bool) : List (Num × Bool) :=
  let mine := (rows.filter fun r => r.1 / e.d.qpk = head).map (·.2)
  let bad := mine.any (·.bad)
  let w := mine.map fun r => (if useV then r.p else r.ds).getD t .zero
  (List.range e.d.dim).map fun c =>
    let x := dot32 w (mine.map fun r => (if useV then r.dO else r.q).getD c .zero)
    (if useV then x else mul32 e.d.softmax x, bad)

/-- Elements in FMT_OUT. -/
def wideBytes (f : Fmt) (l : List (Num × Bool)) : List (Byte × Bool) :=
  let fp := (f.fp).getD Fp.f32
  l.flatMap fun x => (leBytes (f.width / 8) (fp.encode (fp.round x.1))).map fun b => (b, x.2)

/-- Bytes of the output of ATTEND_BWD (R271). -/
def bwdBytes (e : AEnv) : Nat :=
  roundUp (e.x.count * e.d.heads * e.d.dim * (e.fout.width / 8)) 64 + (e.x.start + e.x.count) * e.d.kvHeads * 2 * e.d.dim * (e.fout.width / 8)

/-- Gradients of a chunk, as FP32 values: dQ, then dK and dV by position. -/
def bwdAll (s : State) (o : Owned) (e : AEnv) (stats : Blob × Nat) : List (Num × Bool) × List (Num × Bool) :=
  let rows := (List.range e.x.count).flatMap fun u => (List.range e.d.heads).map fun r => (r, bwdRowOf s o e stats u r)
  (rows.flatMap fun x => (bwdQ s o e x.1 x.2).map fun y => (y, x.2.bad),
   (List.range (e.x.start + e.x.count)).flatMap fun t =>
     ((List.range e.d.kvHeads).flatMap fun h => bwdK e rows h t false) ++ ((List.range e.d.kvHeads).flatMap fun h => bwdK e rows h t true))

/-- The refusals of ATTEND_BWD. -/
def bwdRefusal (s : State) (o : Owned) (e : AEnv) : Option Nat :=
  firstCode [
    modelRefusal s o e.d,
    orCode (o.record.phase = 2 || o.record.phase = 4 || o.record.phase = 5) Status.phaseInvalid,
    orCode (!missing o (kvLength o)) Status.recomputeRequired,
    orCode (e.x.start + e.x.count ≤ kvLength o) Status.pageRange]

/-- DEDUCED, log entry 66. -/
def attendBwd (id : Nat) (c : Cmd) (y : Tensor) (s : State) : State :=
  let old := slotStarted s id
  let e := aEnv s c y ((aArgs c).count * sectionBytes (aDescOf y.blob) (fmtOrF32 (aArgs c).fin) true)
  let statLen := e.x.count * e.d.heads * 8
  match aChecks e (!isBatch c && e.x.layer < e.d.layers && e.x.start % 256 = 0 && 1 ≤ e.x.count && e.x.count ≤ 65536) true true
      [codeOf (refCheck s e.tenant e.x.input (e.x.count * sectionBytes e.d e.fin true) false old),
       codeOf (refCheck s e.tenant e.x.output (bwdBytes e) false old), codeOf (refCheck s e.tenant e.x.aux statLen false old)] with
  | some code => fail s id code
  | none => withOwned s id c fun o =>
    match bwdRefusal s o e with
    | some code => refuseOne s id e o code (bwdBytes e) true
    | none =>
      let h := o.record.handle
      let pages := ceilDiv (e.x.start + e.x.count) 256
      let sr := readPages s h e.x.layer (e.x.start + e.x.count)
      let o1 := (ownedOf sr h).getD o
      let entries := memberEntries e.d h e.x.layer pages 0 o1.record.composition
      if missing o1 (kvLength o1) then refuseOne sr id e o1 Status.recomputeRequired (bwdBytes e) true
      else whiskGate sr id c entries fun s =>
        let g := bwdAll s o1 e (refView s e.tenant e.x.aux statLen)
        let out := pad64 (wideBytes e.fout g.1) ++ wideBytes e.fout g.2
        runOn (refWrite (touchLayer (touchRef (touchRef s e.tenant e.x.input) e.tenant e.x.aux) id o1 e.x.layer pages) id e.tenant e.x.output 0 out)
          id c entries
          { left := 0, status := outStatus (out.any (·.2)) ((g.1 ++ g.2).any fun z => !z.1.finite), r0 := e.d.kvHeads * pages, r1 := 0,
            charged := false, preempts := 0, cycles := 0, counter := e.x.counter, names := e.x.names true, waits := false,
            mode := 3, parts := [] }

def runAttendBwd (c : Cmd) (s : State) : State :=
  runCmd 0x3B c s fun again id s => routed s id c again fun passed s =>
    attention s id c passed true (decide (s.image.role = .c) || decide (s.image.role = .s)) (attendBwd id c)

/-- ATTEND_BWD (R270). -/
def execAttendBwd (c : Cmd) (s : State) : Host.Outcome State Fault Refusal := ordinary s (runAttendBwd c s)

end Sys2Proof.Machine
end

