-- ==== Sys2Proof/Machine/Adapters.lean ====
section
/-!
DEFINITION. Adapters and their versions (09_experts_and_weight_streaming.md R278–R288).
-/
namespace Sys2Proof.Machine

/-! ### The adapter table -/

/-- Is it the version of a tenant? -/
def AdVer.isAt (v : AdVer) (t a n : Nat) : Bool := v.tenant = t && v.adapter = a && v.version = n

def adVer (s : State) (t a n : Nat) : Option AdVer := s.comp.adapters.find? (·.isAt t a n)

/-- Replace an entry of the adapter table, or add it. -/
def setAdVer (s : State) (v : AdVer) : State :=
  let l := s.comp.adapters
  let at' := fun (x : AdVer) => x.isAt v.tenant v.adapter v.version
  let l1 := if l.any at' then l.map fun x => if at' x then v else x else l ++ [v]
  { s with comp := { s.comp with adapters := l1 } }

/-- A version leaves the table: requests that referred to it hold no reference any more (R285). -/
def delAdVer (s : State) (t a n : Nat) : State :=
  let bound := fun (e : Nat × Owned) => handleTenant e.1 = t && e.2.record.adapter = a && e.2.record.adapterVersion = n
  { s with
    comp := { s.comp with adapters := s.comp.adapters.filter fun x => !x.isAt t a n }
    req := { s.req with owned := s.req.owned.map fun e => if bound e then (e.1, { e.2 with adapterRef := false }) else e } }

/-- Streams open on a version (R285). -/
def streamsOf (s : State) (t a n : Nat) : Nat :=
  (s.tier.streams.filter fun x => x.2.tenant = t && x.2.source = 0 && x.2.adapter = a && x.2.version = n).length

/-- Bytes of a part's shares, in the layout of R280: gate and up share, and where each begins. -/
def AdVer.rplF (v : AdVer) : Nat := v.ffn / 160
def AdVer.rplH (v : AdVer) : Nat := ceilDiv v.hidden 160
def AdVer.w (v : AdVer) : Fmt := (Fmt.ofCode v.fmt).getD .int8
def AdVer.g (v : AdVer) : Nat := (groupOf v.group).getD 32
def AdVer.gateBytes (v : AdVer) : Nat := groupedBytes v.w v.scale v.g v.rplF v.hidden
def AdVer.upAt (v : AdVer) : Nat := roundUp v.gateBytes 64
def AdVer.downAt (v : AdVer) : Nat := roundUp (v.upAt + v.gateBytes) 64
def AdVer.downBytes (v : AdVer) : Nat := groupedBytes v.w v.scale v.g v.rplH v.ffn
def AdVer.sliceBytes (v : AdVer) : Nat := 160 * v.partBytes

/-- The version that a header describes (Table 9.1). -/
def headerOf (t : Nat) (w : List Word) (flags : Nat) (addr slot : Nat) : AdVer :=
  let w0 := w.getD 0 0
  let w1 := w.getD 1 0
  let w2 := w.getD 2 0
  let w3 := w.getD 3 0
  { tenant := t, adapter := fld w0 63 48, version := fld w0 47 32, model := fld w0 31 16, hidden := fld w1 63 32, ffn := fld w1 31 0,
    firstLayer := fld w2 63 56, layers := fld w2 55 48 + 1, fmt := fld w2 47 44, scale := fld w2 43 42, group := fld w2 41 40,
    partBytes := fld w3 63 32, crc := fld w3 31 0, headerOnly := bit flags 3, resident := bit flags 1, makeCurrent := bit flags 0,
    st := .waitRoom, prior := .waitRoom, refs := 0, dirs := [], fresh := [], content := Blob.zeros, addr := addr, slot := some slot, reload := false,
    short := false }

/-- The checks of a header (R288). -/
def AdVer.formatOk (v : AdVer) : Bool :=
  1 ≤ v.adapter && 1 ≤ v.version && v.fmt < 4 && (v.scale = 1 || v.scale = 2) && v.group < 3 && 64 ≤ v.hidden && v.hidden ≤ 65536 &&
    v.hidden % v.g = 0 && 160 ≤ v.ffn && v.ffn ≤ 65536 && v.ffn % 160 = 0 && v.ffn % v.g = 0 && v.firstLayer + v.layers ≤ 256 &&
    v.partBytes % 64 = 0 && v.downAt + v.downBytes ≤ v.partBytes && v.layers * v.sliceBytes ≤ 2147483648

/-! ### Placement (R281, R283) -/

/-- The runs of one stack, in slabs: whole blocks packed into runs of at most 64 slabs (R281). -/
def stackRuns (block layers : Nat) : List Nat :=
  if block ≤ 4194304 then
    let per := 4194304 / block
    (List.range (ceilDiv layers per)).map fun i => ceilDiv (min per (layers - i * per) * block) 65536
  else
    let n := ceilDiv block 65536
    (List.range layers).flatMap fun _ => List.replicate (n / 64) 64 ++ (if n % 64 = 0 then [] else [n % 64])

/-- Place runs with a given preferred stack. -/
def placeStack (s : State) (t back stack : Nat) (resident : Bool) : List Nat → Except Short (List Nat × State)
  | [] => .ok ([], s)
  | n :: r =>
    match placeEntry s t n (if resident then [stack] else stacksFrom stack) (!resident) false 3 0 0 back resident with
    | .error e => .error e
    | .ok (i, s1) => match placeStack s1 t back stack resident r with
      | .error e => .error e
      | .ok (l, s2) => .ok (i :: l, s2)

/-- Place the runs of every stack in a list. -/
def placeStacks (s : State) (v : AdVer) : List Nat → Except Short (List Nat × State)
  | [] => .ok ([], s)
  | k :: r =>
    match placeStack s v.tenant (v.adapter * 2 ^ 16 + v.version) k v.resident (stackRuns (8 * v.partBytes) v.layers) with
    | .error e => .error e
    | .ok (l, s1) => match placeStacks s1 v r with
      | .error e => .error e
      | .ok (l2, s2) => .ok (l ++ l2, s2)

/-- Does the adapter hold fewer than four versions besides this one? A version that waits for room is not held (R283). -/
def fewVersions (s : State) (v : AdVer) : Bool :=
  (s.comp.adapters.filter fun x => x.tenant = v.tenant && x.adapter = v.adapter && !(x.version = v.version) && !(x.st = .waitRoom)).length < 4

/-- The state in which a load has its room: its runs placed and its slices being read, or none where there is no room (R283). -/
def startLoad (s : State) (v : AdVer) : Option State :=
  if v.headerOnly || !fewVersions s v then none
  else match placeStacks s v (List.range 20) with
    | .error _ => none
    | .ok (l, s1) => some (setAdVer s1 (if v.reload then { v with fresh := l } else { v with st := .loading, dirs := l }))

/-- A load that finds no room in T1 has recalled a lent grant all the same (06 R192). -/
def turnedAway (s : State) (v : AdVer) : State :=
  if v.headerOnly || !fewVersions s v then s
  else match placeStacks s v (List.range 20) with
    | .error e => unplaced s e
    | .ok _ => s

/-! ### Completion of a load (Table 9.2) -/

/-- Another version of the adapter becomes CURRENT: the old one is RETIRING, or LOST with that as its PRIOR (Table 9.2). -/
def demoteCurrent (s : State) (t a n : Nat) : State :=
  let next := fun (x : AdVer) =>
    if x.tenant = t && x.adapter = a && !(x.version = n) then
      (if x.st = .current then { x with st := .retiring } else if x.st = .lost && x.prior = .current then { x with prior := .retiring } else x)
    else x
  { s with comp := { s.comp with adapters := s.comp.adapters.map next } }

/-- Slabs of directory entries by tier. -/
def slabsIn (s : State) (dirs : List Nat) (t1 : Bool) : Nat :=
  (dirs.filterMap fun i => match tget s.tier.dir i with
    | some e => if (e.tier = 1) = t1 then some e.run.slabs else none
    | none => none).sum

/-- The load of a version that has lost a run meanwhile leaves it LOST, with the state that it reached as its PRIOR (R286). DEDUCED, log entry 68. -/
def afterLoad (s : State) (v : AdVer) (st : AdSt) : State × AdVer :=
  if v.short then (eventT s 21 0x45 false (some v.tenant) 0, { v with st := .lost, prior := st, short := false }) else (s, { v with st := st })

/-- A load ends well. DEDUCED, log entry 68. -/
def loadDone (s : State) (v : AdVer) : State :=
  let dirs := if v.reload then v.fresh else v.dirs
  let s1 := if v.reload then freeEntries s v.dirs else s
  let st := if v.reload then v.prior else if v.makeCurrent then .current else .held
  let s2 := if st = .current then demoteCurrent s1 v.tenant v.adapter v.version else s1
  let p := afterLoad s2 v st
  let s3 := setAdVer p.1 { p.2 with dirs := dirs, fresh := [], reload := false, slot := none }
  match v.slot with
  | some id => finish s3 id Status.ok (slabsIn s3 dirs true) (slabsIn s3 dirs false)
  | none => s3

/-- A load fails: its runs are freed; a new version leaves the table, and one that was LOST stays so. -/
def loadFailed (s : State) (v : AdVer) (code : Nat) : State :=
  let s1 := if v.reload then setAdVer (freeEntries s v.fresh) { v with fresh := [], reload := false, slot := none, short := false }
    else delAdVer (freeEntries s v.dirs) v.tenant v.adapter v.version
  match v.slot with
  | some id => fail s1 id code
  | none => s1

/-- Bytes of host memory from an address, as the content of an object. -/
def hostBlob (s : State) (a n : Nat) : Blob :=
  { cells := (s.hostMem.filter fun c => a ≤ c.1 && c.1 < a + n).map fun c => (c.1 - a, c.2), fill := none, bad := [] }

/-- Is a load reading its slices? -/
def AdVer.reading (v : AdVer) : Bool := v.st = .loading || (v.reload && v.fresh ≠ [])

/-- ADAPTER_LOAD_COMPLETE (Table 9.2): the slices are placed, their CRC checked. DEDUCED, log entry 68. -/
def loadComplete (s : State) (t a n : Nat) : State :=
  match adVer s t a n with
  | none => s
  | some v =>
    if !v.reading then s
    else
      let len := v.layers * v.sliceBytes
      if hostBad s (v.addr + 64) len then loadFailed s v Status.hostReadError
      else if crc32c (s.hostMem.readBytes (v.addr + 64) len) ≠ v.crc then loadFailed s v Status.adapterIntegrity
      else loadDone s { v with content := hostBlob s (v.addr + 64) len }

def execAdapterLoadComplete (t a n : Nat) (s : State) : Host.Outcome State Fault Refusal := quiet s (loadComplete s t a n)

/-- Does a load wait for room? -/
def AdVer.waiting (v : AdVer) : Bool := v.st = .waitRoom || (v.reload && v.fresh = [])

/-- ADAPTER_ROOM_AVAILABLE (Table 9.2, R283). -/
def execAdapterRoomAvailable (t a n : Nat) (s : State) : Host.Outcome State Fault Refusal :=
  match adVer s t a n with
  | some v =>
    if !v.waiting then .next s
    else if v.headerOnly then (if fewVersions s v then quiet s (loadDone s { v with st := .loading }) else .next s)
    else quiet s ((startLoad s v).getD s)
  | none => .next s

/-! ### ADAPTER_LOAD (R288) -/

/-- A load takes its table entry and waits for room, with its event (20 Table 20.2). -/
def waitForRoom (s : State) (id : Nat) (v : AdVer) : State := await (eventT (setAdVer s v) 21 0x34 false (some v.tenant) 0) id .room

/-- A checked load: it begins, waits for room, or is turned away (Table 9.2). -/
def beginLoad (s : State) (id : Nat) (v : AdVer) (nowait : Bool) : State :=
  if v.headerOnly then
    (if fewVersions s v then loadDone s { v with st := .loading } else if nowait then fail s id Status.adapterWaitRoom
     else waitForRoom s id v)
  else match startLoad s v with
    | some s1 => await s1 id .room
    | none =>
      let s1 := turnedAway s v
      if nowait then fail s1 id Status.adapterWaitRoom else waitForRoom s1 id v

/-- DEDUCED, log entry 68. -/
def loadBody (c : Cmd) (id : Nat) (s : State) : State :=
  let addr := c.w2.toNat
  let t := cmdTenant s c
  if !(addr % 64 = 0) then fail s id Status.operandRange
  else if hostBad s addr 64 then fail s id Status.hostReadError
  else
    let v := headerOf t (s.hostMem.readWords addr 8) c.w3.toNat addr id
    if !v.formatOk then fail s id Status.adapterFormat
    else match adVer s t v.adapter v.version with
      | some x =>
        if x.st = .lost && x.crc = v.crc && !x.reload then
          beginLoad s id { x with slot := some id, reload := true, addr := addr, resident := v.resident } (flag c.w3 2)
        else fail s id Status.adapterExists
      | none => if 1024 ≤ s.comp.adapters.length then fail s id Status.adapterLimit else beginLoad s id v (flag c.w3 2)

def runAdapterLoad (c : Cmd) (s : State) : State := runCmd 0xA0 c s fun again id s => if again then s else loadBody c id s

/-- ADAPTER_LOAD (R288). -/
def execAdapterLoad (c : Cmd) (s : State) : Host.Outcome State Fault Refusal := quiet s (runAdapterLoad c s)

/-! ### ADAPTER_RETIRE, ADAPTER_VERSION_FREE, ADAPTER_QUERY -/

/-- Retire one version (Table 9.2). -/
def retireVer (s : State) (v : AdVer) : State :=
  match v.st with
  | .waitRoom => match v.slot with
    | some id => fail (delAdVer s v.tenant v.adapter v.version) id Status.adapterRetired
    | none => delAdVer s v.tenant v.adapter v.version
  | .current => setAdVer s { v with st := .retiring }
  | .held => setAdVer s { v with st := .retiring }
  | .lost => setAdVer s { v with prior := .retiring }
  | _ => s

def runAdapterRetire (c : Cmd) (s : State) : State :=
  runCmd 0xA1 c s fun _ id s =>
    let t := cmdTenant s c
    let n := fld c.w2 15 0
    let mine := s.comp.adapters.filter fun v => v.tenant = t && v.adapter = fld c.w2 31 16 && (n = 0 || v.version = n)
    finish (mine.foldl retireVer s) id Status.ok (mine.filter fun v => v.st = .current || v.st = .held).length 0

/-- ADAPTER_RETIRE (R282, R287). -/
def execAdapterRetire (c : Cmd) (s : State) : Host.Outcome State Fault Refusal := quiet s (runAdapterRetire c s)

/-- Free a version; a reload of it that waits or reads completes with ADAPTER_RETIRED. DEDUCED, log entry 68. -/
def freeVersion (s : State) (v : AdVer) : State :=
  let s1 := delAdVer (freeEntries s (v.dirs ++ v.fresh)) v.tenant v.adapter v.version
  match v.slot with
  | some id => fail s1 id Status.adapterRetired
  | none => s1

/-- ADAPTER_VERSION_FREE (Table 9.2). -/
def execAdapterVersionFree (t a n : Nat) (s : State) : Host.Outcome State Fault Refusal :=
  match adVer s t a n with
  | some v =>
    if (v.st = .retiring || (v.st = .lost && v.prior = .retiring)) && v.refs = 0 && streamsOf s t a n = 0 then quiet s (freeVersion s v)
    else .next s
  | none => .next s

def runAdapterQuery (c : Cmd) (s : State) : State :=
  runCmd 0xA2 c s fun _ id s =>
    let t := cmdTenant s c
    let a := fld c.w2 31 16
    let cur := (currentVersion s t a).elim 0 (·.version)
    let n := if fld c.w2 15 0 = 0 then cur else fld c.w2 15 0
    match adVer s t a n with
    | none => finish s id Status.ok (cur * 2 ^ 40) 0
    | some v =>
      finish s id Status.ok (v.st.code * 2 ^ 56 + cur * 2 ^ 40 + v.refs) (streamsOf s t a n * 2 ^ 32 + slabsIn s v.dirs true + slabsIn s v.dirs false)

/-- ADAPTER_QUERY (R287). -/
def execAdapterQuery (c : Cmd) (s : State) : Host.Outcome State Fault Refusal := quiet s (runAdapterQuery c s)

/-! ### Loss (R286) and tenant reset -/

/-- A version of whose runs some are gone. A load under way, or a reload, goes on to its end. -/
def AdVer.lose (v : AdVer) (gone : Nat → Bool) : AdVer :=
  let v1 := { v with dirs := v.dirs.filter fun i => !gone i, fresh := v.fresh.filter fun i => !gone i
                     short := v.short || v.fresh.any gone || (v.st = .loading && v.dirs.any gone) }
  if v.dirs.any gone && (v.st = .current || v.st = .held || v.st = .retiring) then { v1 with st := .lost, prior := v.st } else v1

/-- Versions that hold a lost run become LOST; the lost runs are freed. -/
def loseRuns (s : State) (lost : Nat → DirEntry → Bool) : State :=
  let gone := fun (i : Nat) => (tget s.tier.dir i).elim false (lost i)
  let hit := fun (v : AdVer) => v.dirs.any gone && (v.st = .current || v.st = .held || v.st = .retiring)
  let s1 := (s.comp.adapters.filter hit).foldl (fun st v => eventT st 21 0x45 false (some v.tenant) 0)
    (freeEntries s ((s.comp.adapters.flatMap fun v => v.dirs ++ v.fresh).filter gone))
  { s1 with comp := { s1.comp with adapters := s1.comp.adapters.map fun v => v.lose gone } }

/-- A version's runs are read where they lie: one in a revoked grant, or whose integrity tag does not match, is lost (R286, 06 R174). -/
def readVersion (s : State) (v : AdVer) : State :=
  let fails := fun (i : Nat) => (tget s.tier.dir i).elim false (readFails s)
  let bad := v.dirs.filter fails
  if bad = [] then s
  else
    let s1 := bad.foldl (fun st i => if (tget st.tier.dir i).elim false fun e => runSpoiled st e.run then eventT st 21 0x40 false (some v.tenant) 0 else st) s
    loseRuns s1 fun i _ => bad.contains i

/-- The adapters' part of a tenant reset: every version goes, a waiting load is discarded. -/
def resetAdapters (s : State) (t : Nat) : State :=
  let mine := s.comp.adapters.filter fun v => v.tenant = t
  let s1 := freeEntries s (mine.flatMap fun v => v.dirs ++ v.fresh)
  { s1 with comp := { s1.comp with adapters := s1.comp.adapters.filter fun v => v.tenant ≠ t } }

end Sys2Proof.Machine
end

