-- ==== Sys2Proof/Machine/CamOps.lean ====
section
/-!
DEFINITION. Searching and writing the banks of the associative search unit (11_associative_search.md R327–R329, R332, R336).
-/
namespace Sys2Proof.Machine

def bankOf (s : State) (b : Nat) : Bank := tgetD s.comp.banks b .fresh

def setBank (s : State) (b : Nat) (x : Bank) : State := { s with comp := { s.comp with banks := tset s.comp.banks b x } }

/-- Is the entry valid? A poisoned entry is not (R340). -/
def CamEntry.valid (e : CamEntry) : Bool := !e.poison

/-- Does an entry match a key: every bit equal but those whose mask bit is 1 (R328)? -/
def CamEntry.hits (e : CamEntry) (key : Nat) : Bool :=
  let m := if e.masked then e.mask else 0
  e.valid && decide ((key ^^^ e.key) ||| m = m)

/-- A place in the priority order of the unit (R329): priority, bank, entry. -/
abbrev CamPos := Nat × Nat × Nat

def camBefore (a b : CamPos) : Bool :=
  a.1 < b.1 || (a.1 = b.1 && (a.2.1 < b.2.1 || (a.2.1 = b.2.1 && a.2.2 < b.2.2)))

/-- The entries of a list of banks that match a key, in priority order (R329). -/
def camMatches (s : State) (key : Nat) (banks : List Nat) : List CamPos :=
  sortBy camBefore (banks.flatMap fun b =>
    ((bankOf s b).entries.filter fun e => e.2.hits key).map fun e => (e.2.priority, b, e.1))

/-- Entries of a bank that are valid. -/
def Bank.validCount (x : Bank) : Nat := (x.entries.filter fun e => e.2.valid).length

/-- Write one entry of a bank. -/
def putEntry (s : State) (b i : Nat) (e : CamEntry) : State :=
  let x := bankOf s b
  setBank s b { x with entries := tset x.entries i e }

/-- Make one entry of a bank invalid. -/
def clearEntry (s : State) (b i : Nat) : State :=
  let x := bankOf s b
  setBank s b { x with entries := tdel x.entries i }

/-! ### Moves (R342) -/

/-- The index that a physical part holds: its own, or that of the part whose place it took (18_reliability_and_spares.md R521). -/
def logicalOf (s : State) (part i : Nat) : Nat :=
  s.fuses.moves.reverse.foldl (fun k m => if m.part = part && m.spare = k && !(m.index = k) then m.index else k) i

/-- Is a logical bank moving onto a spare (R342)? From its retirement on, searches and writes that name it wait until the spare has taken over. -/
def bankMoving (s : State) (b : Nat) : Bool := s.rel.health.any fun e => e.1.1 = 4 && e.2.state = .retiring && logicalOf s 4 e.1.2 = b

/-- The index of a bank's row in the tables of 06 and 10: bank × 4,096 + row. -/
def rowIndex (b r : Nat) : Nat := b * 4096 + r

/-- Free entries of a list of banks of width 1 (R332). -/
def freeEntriesOf (s : State) (banks : List Nat) : Nat := (banks.map fun b => 4096 - (bankOf s b).entries.length).sum

end Sys2Proof.Machine
end

