-- ==== Sys2Proof/Machine/Constraints.lean ====
section
/-!
DEFINITION. Constraints of the Sieve: what they allow, how they are loaded and retired (10_sieve_sampler.md R303, R305–R311).
-/
namespace Sys2Proof.Machine

/-! ### Lookup -/

def setConstraints (s : State) (l : List Constraint) : State := { s with comp := { s.comp with constraints := l } }

/-- The constraint that a step finds under an ID: none once its retirement has started (R311). -/
def constraintOf (s : State) (t id : Nat) : Option Constraint :=
  s.comp.constraints.find? fun k => k.tenant = t && k.id = id && k.retiring.isNone

/-- A run of a run list (R307): its first token and its count. -/
def Constraint.run (k : Constraint) (off j : Nat) : Nat × Nat :=
  let w := k.masks.readNat (off + 8 * j) 8
  (bits w 63 44, bits w 43 23)

/-- Does the mask of a grammar state allow a token (Table 10.3, R307)? -/
def Constraint.stateAllows (k : Constraint) (st i : Nat) : Bool :=
  match k.states[st]? with
  | some (0, runs, off) => (List.range runs).any fun j => let r := k.run off j; r.1 ≤ i && i < r.1 + r.2
  | some (1, _, off) => bit (k.masks.read (off + i / 8)).toNat (i % 8)
  | some (2, _, _) => true
  | _ => false

/-- Does a position's mask allow a token (R303)? -/
def maskAllows (ckind : Nat) (k : Option Constraint) (st i : Nat) : Bool :=
  if ckind = 0 then true
  else match k with
    | some x => if ckind = 1 then x.tokens.contains i else x.stateAllows st i
    | none => false

/-- The search key of a token in a state (R308). -/
def grammarKey (slot st tok : Nat) : Nat := slot % 256 * 2 ^ 36 + st % 65536 * 2 ^ 20 + tok % 2 ^ 20

/-- The state after a token (R309): NEXT_STATE of the first match over the tenant's grammar banks. -/
def nextState (s : State) (k : Constraint) (st tok : Nat) : Option Nat :=
  match camMatches s (grammarKey k.slot st tok) (banksOf s k.tenant 2) with
  | (_, b, r) :: _ => tget s.comp.transitions (k.tenant, rowIndex b r)
  | [] => none

/-! ### The image (R306, R307) -/

/-- The header of a constraint image (Table 10.2), with where its sections begin. -/
structure CHeader where
  id : Nat
  kind : Nat
  vocab : Nat
  states : Nat
  count : Nat
  maskBytes : Nat
  crc : Nat
deriving DecidableEq, Repr

def cHeader (w : List Word) : CHeader :=
  let x := fun i => w.getD i 0
  { id := fld (x 0) 63 48, kind := fld (x 0) 47 46, vocab := fld (x 0) 20 0, states := fld (x 1) 63 48 + 1, count := fld (x 1) 31 0,
    maskBytes := fld (x 2) 63 32, crc := fld (x 2) 31 0 }

def CHeader.transAt (h : CHeader) : Nat := roundUp (64 + 16 * h.states) 64
def CHeader.maskAt (h : CHeader) : Nat := roundUp (h.transAt + 16 * h.count) 64

/-- Bytes of the image. -/
def CHeader.bytes (h : CHeader) : Nat := if h.kind = 1 then 64 + 4 * h.count else h.maskAt + h.maskBytes

/-- A state entry in the image (Table 10.3): MASK_KIND, RUNS, MASK_OFFSET. -/
def stateEntry (m : Memory) (a i : Nat) : Nat × Nat × Nat :=
  let w0 := m.readWord (a + 64 + 16 * i)
  (fld w0 63 62, fld w0 12 0, (m.readWord (a + 72 + 16 * i)).toNat)

/-- A transition entry in the image (Table 10.4). -/
structure Transition where
  state : Nat
  stateMask : Nat
  token : Nat
  tokenMask : Nat
  priority : Nat
  next : Nat
deriving DecidableEq, Repr

def transition (m : Memory) (a : Nat) (h : CHeader) (i : Nat) : Transition :=
  let w0 := m.readWord (a + h.transAt + 16 * i)
  let w1 := m.readWord (a + h.transAt + 16 * i + 8)
  { state := fld w0 63 48, stateMask := fld w0 47 32, token := fld w0 19 0, tokenMask := fld w1 19 0, priority := fld w1 63 48,
    next := fld w1 47 32 }

/-- Are the runs of a list in order, apart, and within the vocabulary (R307)? -/
def runsOk (m : Memory) (a vocab : Nat) : Nat → Nat → Bool
  | 0, _ => true
  | n + 1, lo =>
    let w := m.readNat a 8
    let f := bits w 63 44
    let e := f + bits w 43 23
    lo ≤ f && e ≤ vocab && runsOk m (a + 8) vocab n e

def stateOk (m : Memory) (a : Nat) (h : CHeader) (x : Nat × Nat × Nat) : Bool :=
  match x with
  | (0, runs, off) => 1 ≤ runs && runs ≤ 4096 && off % 64 = 0 && off + 8 * runs ≤ h.maskBytes && runsOk m (a + h.maskAt + off) h.vocab runs 0
  | (1, runs, off) => runs = 0 && off % 64 = 0 && off + ceilDiv h.vocab 512 * 64 ≤ h.maskBytes
  | (_, runs, off) => runs = 0 && off = 0

/-- Tokens of a list, in the image. -/
def listTokens (m : Memory) (a n : Nat) : List Nat := (List.range n).map fun i => m.readNat (a + 64 + 4 * i) 4 % 2 ^ 20

def ascending : List Nat → Bool
  | a :: b :: r => a < b && ascending (b :: r)
  | _ => true

/-- The format of an image (R310). -/
def CHeader.ok (h : CHeader) (m : Memory) (a : Nat) : Bool :=
  h.id ≠ 0 && 1 ≤ h.vocab && h.vocab ≤ 1048576 && h.bytes ≤ 268435456 &&
  (if h.kind = 1 then
    h.states = 1 && h.maskBytes = 0 && 1 ≤ h.count && h.count ≤ 4096 && ascending (listTokens m a h.count)
  else
    h.kind = 2 && 1 ≤ h.count && h.count ≤ 131072 && h.maskBytes % 64 = 0 &&
      (List.range h.states).all (fun i => stateOk m a h (stateEntry m a i)) &&
      (List.range h.count).all (fun i => (transition m a h i).next < h.states))

/-! ### CONSTRAINT_LOAD (R310) -/

/-- DEDUCED, log entry 73. -/
def constraintBack (id : Nat) : Nat := 3 * 2 ^ 48 + id

/-- Install transitions in the lowest free entries of the tenant's grammar banks, in the order of the image (R308, R332). -/
def installAll (s : State) (t slot : Nat) (banks : List Nat) : List Transition → List (Nat × Nat) × State
  | [] => ([], s)
  | x :: r =>
    match lowestFree s banks with
    | none => ([], s)
    | some ix =>
      let e : CamEntry := { key := grammarKey slot x.state x.token, mask := x.stateMask * 2 ^ 20 + x.tokenMask, priority := x.priority,
                            masked := true, poison := false }
      let s1 := putEntry s (ix / 4096) (ix % 4096) e
      let s2 := { s1 with comp := { s1.comp with transitions := tset s1.comp.transitions (t, ix) x.next } }
      let p := installAll s2 t slot banks r
      ((ix / 4096, ix % 4096) :: p.1, p.2)

/-- Place the image in T1 without dropping a page; its runs lie in memory with PERSIST set. -/
def placeImage (s : State) (t id bytes : Nat) : Except Short (List Nat × State) :=
  placeRuns s t 3 0 0 (constraintBack id) true false false (tensorRuns bytes)

/-- The constraint is loaded. DEDUCED, log entry 73. -/
def loadConstraint (s : State) (id t slot a : Nat) (h : CHeader) (dirs : List Nat) : State :=
  let m := s.hostMem
  let ts := if h.kind = 2 then (List.range h.count).map (transition m a h) else []
  let p := installAll s t slot (banksOf s t 2) ts
  let k : Constraint :=
    { tenant := t, id := h.id, slot := slot, kind := h.kind, vocab := h.vocab
      tokens := if h.kind = 1 then listTokens m a h.count else []
      states := if h.kind = 2 then (List.range h.states).map (stateEntry m a) else []
      masks := (m.filter fun c => a + h.maskAt ≤ c.1 && c.1 < a + h.maskAt + h.maskBytes && h.kind = 2).map fun c => (c.1 - (a + h.maskAt), c.2)
      entries := p.1, dirs := dirs, retiring := none }
  finish (setConstraints p.2 (p.2.comp.constraints ++ [k])) id Status.ok slot ts.length

def constraintBody (c : Cmd) (id : Nat) (s : State) : State :=
  let a := c.w2.toNat
  let t := cmdTenant s c
  let w := s.hostMem.readWords a 8
  let h := cHeader w
  let mine := s.comp.constraints.filter fun k => k.tenant = t
  let slot := freeNumber 0 (s.comp.constraints.map (·.slot))
  if !(a % 64 = 0) then fail s id Status.operandRange
  else if hostBad s a 64 then fail s id Status.hostReadError
  else if !h.ok s.hostMem a then fail s id Status.constraintFormat
  else if mine.any (·.id = h.id) then fail s id Status.constraintExists
  else if ((tenantRec s t).elim 0 (·.grammarSlots)) ≤ mine.length || 256 ≤ slot then fail s id Status.constraintLimit
  else if h.kind = 2 && freeEntriesOf s (banksOf s t 2) < h.count then fail s id Status.constraintNoRoom
  else match placeImage s t h.id h.bytes with
    | .error e => fail (unplaced s e) id Status.constraintNoRoom
    | .ok (dirs, s1) =>
      if hostBad s a h.bytes || !(crc32c (s.hostMem.readBytes (a + 64) (h.bytes - 64)) = h.crc) then
        fail (freeEntries s1 dirs) id Status.constraintIntegrity
      else loadConstraint s1 id t slot a h dirs

def runConstraintLoad (c : Cmd) (s : State) : State := runCmd 0x42 c s fun again id s => if again then s else constraintBody c id s

/-- CONSTRAINT_LOAD (R306, R310). -/
def execConstraintLoad (c : Cmd) (s : State) : Host.Outcome State Fault Refusal := quiet s (runConstraintLoad c s)

/-! ### CONSTRAINT_RETIRE (R311) -/

/-- Free a constraint's slot, transitions and runs. -/
def freeConstraint (s : State) (k : Constraint) : State :=
  let s1 := k.entries.foldl (fun st e =>
    let st1 := clearEntry st e.1 e.2
    { st1 with comp := { st1.comp with transitions := tdel st1.comp.transitions (k.tenant, rowIndex e.1 e.2) } }) s
  let s2 := freeEntries s1 k.dirs
  setConstraints s2 (s2.comp.constraints.filter fun x => !(x.tenant = k.tenant && x.id = k.id))

/-- Does the request's sampler state name the constraint (R297)? -/
def samplerNames (r : ReqRec) (id : Nat) : Bool :=
  let w := r.sampler.getD 3 0
  (fld w 37 36 = 1 || fld w 37 36 = 2) && fld w 35 20 = id

/-- Has a SAMPLE that read the constraint not completed? -/
def constraintRead (s : State) (t id : Nat) : Bool :=
  s.host.slots.any fun x => opcodeOf x.cmd = 0x40 && x.inHand && x.aux = 2 && cmdTenant s x.cmd = t &&
    x.members.any fun h => (ownedOf s h).elim false fun o => samplerNames o.record id

/-- Retire a constraint. One that is gone when the command is taken up again was retired for a poisoned entry meanwhile (11 R341). -/
def retireBody (c : Cmd) (again : Bool) (id : Nat) (s : State) : State :=
  let t := cmdTenant s c
  let n := fld c.w2 15 0
  match s.comp.constraints.find? fun k => k.tenant = t && k.id = n && (k.retiring = none || k.retiring = some id) with
  | none => if again then finish s id Status.ok 0 0 else fail s id Status.constraintAbsent
  | some k =>
    if constraintRead s t n then
      await (setConstraints s (s.comp.constraints.map fun x => if x.tenant = t && x.id = n then { x with retiring := some id } else x)) id .earlier
    else finish (freeConstraint s k) id Status.ok 0 0

def runConstraintRetire (c : Cmd) (s : State) : State := runCmd 0x43 c s fun again id s => retireBody c again id s

/-- CONSTRAINT_RETIRE (R311). -/
def execConstraintRetire (c : Cmd) (s : State) : Host.Outcome State Fault Refusal := quiet s (runConstraintRetire c s)

/-! ### Poisoned entries (11 R341) -/

/-- A poisoned entry of a grammar bank: the module retires the constraint that owns it and writes an event. -/
def poisonGrammar (s : State) (b r : Nat) : State :=
  match s.comp.constraints.find? fun k => k.entries.contains (b, r) with
  | none => clearEntry s b r
  | some k => eventT (clearEntry (freeConstraint s k) b r) 24 0x43 false (some k.tenant) 0

/-- A set leaves the index while requests refer to it: its record moves to a number above the rows, and the requests with it. -/
def moveSet (s : State) (ix : Nat) (p : PrefixSet) : State :=
  let k := freeNumber indexRows (s.tier.prefixes.map (·.1))
  let s1 := unindexSet s ix
  let ren := fun (l : List Nat) => l.map fun i => if i = ix then k else i
  let owned := s1.req.owned.map fun e => (e.1, { e.2 with refs := ren e.2.refs })
  let recving := s1.req.recving.map fun e => (e.1, { e.2 with refs := ren e.2.refs })
  let s2 := { s1 with tier := { s1.tier with prefixes := tset s1.tier.prefixes k p }, req := { s1.req with owned := owned, recving := recving } }
  p.dirs.foldl (fun st i => match tget st.tier.dir i with
    | some e => setEntry st i { e with back := k }
    | none => st) s2

/-- A poisoned entry of a prefix bank: the tier manager invalidates it, and the set leaves the index. Its pages go at once where nothing refers to
them. -/
def poisonPrefix (s : State) (b r : Nat) : State :=
  match tget s.tier.prefixes (rowIndex b r) with
  | none => clearEntry s b r
  | some p => if p.refs = 0 then dropSet s (rowIndex b r) else moveSet s (rowIndex b r) p

/-- An entry whose shadow is uncorrectable takes effect by the use of its bank (R340, R341). -/
def poisonEntry (s : State) (b r : Nat) : State :=
  let x := bankOf s b
  match x.use with
  | 0 => match tget x.entries (r / x.width) with
    | some e => putEntry s b (r / x.width) { e with poison := true }
    | none => s
  | 1 => poisonPrefix s b r
  | _ => poisonGrammar s b r

end Sys2Proof.Machine
end

