-- ==== Sys2Proof/Machine/Cam.lean ====
section
/-!
DEFINITION. The commands of the associative search unit (11_associative_search.md R330, R331, R336–R338, R344–R346).
-/
namespace Sys2Proof.Machine

/-- Units of a width code (Table 11.4). -/
def widthUnits (code : Nat) : Nat := 2 ^ code

/-- Entries of a bank (R327). -/
def Bank.entriesMax (x : Bank) : Nat := 4096 / x.width

/-- Is a logical bank granted to a tenant (R326)? -/
def bankGranted (s : State) (t b : Nat) : Bool := bit ((tenantRec s t).elim 0 (·.camBanks)) b

def bankAbsent (s : State) (b : Nat) : Bool := (fnState s (.bank b)).st = .absent

/-- Checks 2 to 4 of R346 over the banks that a command names. -/
def bankChecks (s : State) (t : Nat) (banks : List Nat) (general : Bool) : List (Option Nat) :=
  [orCode (banks.all (bankGranted s t)) Status.camBankDenied, orCode (!banks.any (bankAbsent s)) Status.camBankAbsent,
   orCode (!general || banks.all fun b => (bankOf s b).use = 0) Status.camBankUse]

/-- Check 7 of R346. -/
def camRef (s : State) (t : Nat) (r : Ref) (n : Nat) : Option Nat := codeOf (refCheck s t r n false)

/-- An operation on banks: while one of them moves onto a spare, it is held, and then proceeds (R342). -/
def withBanks (s : State) (id : Nat) (banks : List Nat) (k : State) : State := if banks.any (bankMoving s) then await s id .engine else k

/-! ### CAM_BANK_SETUP (R331) -/

/-- Cursors over a bank are freed. -/
def dropCursors (s : State) (b : Nat) : State :=
  { s with comp := { s.comp with cursors := s.comp.cursors.filter fun c => !c.2.banks.contains b } }

/-- The width and use of a bank take new values. A change of either leaves no entry, poisoned or not. DEDUCED, log entry 74. -/
def setUpBank (s : State) (b use width : Nat) : State :=
  let x := bankOf s b
  if x.use = use && x.width = width then s else dropCursors (setBank s b { width := width, use := use, entries := [] }) b

def setupBody (c : Cmd) (id : Nat) (s : State) : State :=
  let t := cmdTenant s c
  let use := fld c.w2 11 10
  let width := fld c.w2 9 8
  let b := fld c.w2 4 0
  match firstCode ([orCode (use ≠ 3 && width ≠ 3 && (use = 0 || width = 0)) Status.camFormat] ++ bankChecks s t [b] false ++
      [orCode ((bankOf s b).validCount = 0) Status.camBankBusy]) with
  | some e => fail s id e
  | none => withBanks s id [b] (finish (setUpBank s b use (widthUnits width)) id Status.ok 0 0)

def runCamBankSetup (c : Cmd) (s : State) : State := runCmd 0x50 c s fun _ id s => setupBody c id s

/-- CAM_BANK_SETUP (R331). -/
def execCamBankSetup (c : Cmd) (s : State) : Host.Outcome State Fault Refusal := quiet s (runCamBankSetup c s)

/-! ### CAM_WRITE, CAM_INVALIDATE -/

/-- The key and mask that a write carries: inline for width 1, else through ENTRY_REF (R345). -/
def writeEntry (s : State) (t : Nat) (c : Cmd) (width : Nat) : CamEntry :=
  let masked := flag c.w2 5
  let pr := fld c.w2 63 48
  if width = 1 then
    { key := c.w4.toNat + c.w5.toNat * 2 ^ 64, mask := if masked then c.w6.toNat + c.w7.toNat * 2 ^ 64 else 0, priority := pr, masked := masked,
      poison := false }
  else
    let r := refOf c.w3
    { key := leNat (refBytes s t r 0 (16 * width)), mask := if masked then leNat (refBytes s t r (16 * width) (16 * width)) else 0, priority := pr,
      masked := masked, poison := false }

def writeBody (c : Cmd) (id : Nat) (s : State) : State :=
  let t := cmdTenant s c
  let b := fld c.w2 4 0
  let i := fld c.w2 47 36
  let x := bankOf s b
  let bytes := (if flag c.w2 5 then 32 else 16) * x.width
  match firstCode (bankChecks s t [b] true ++ [orCode (i < x.entriesMax) Status.camEntryRange,
      if x.width = 1 then none else camRef s t (refOf c.w3) bytes]) with
  | some e => fail s id e
  | none => withBanks s id [b] (finish (putEntry s b i (writeEntry s t c x.width)) id Status.ok 0 0)

/-- The tensor of ENTRY_REF or KEY_REF is read, staged where it lies in T2 or T3 (06_kv_pages_and_tiers.md R172, R174). -/
def readKeys (s : State) (c : Cmd) : State := readNamed s (cmdTenant s c) (refTensor (refOf c.w3))

def runCamWrite (c : Cmd) (s : State) : State := runCmd 0x51 c s fun _ id s => writeBody c id (readKeys s c)

/-- CAM_WRITE. -/
def execCamWrite (c : Cmd) (s : State) : Host.Outcome State Fault Refusal := quiet s (runCamWrite c s)

def invalidateBody (c : Cmd) (id : Nat) (s : State) : State :=
  let t := cmdTenant s c
  let b := fld c.w2 4 0
  let first := fld c.w2 47 36
  let count := fld c.w2 63 48
  let x := bankOf s b
  match firstCode (bankChecks s t [b] true ++ [orCode (1 ≤ count && first + count ≤ x.entriesMax) Status.camEntryRange]) with
  | some e => fail s id e
  | none =>
    let inside := fun (e : Nat × CamEntry) => decide (first ≤ e.1 ∧ e.1 < first + count)
    let hit := (x.entries.filter fun e => inside e && e.2.valid).length
    withBanks s id [b] (finish (setBank s b { x with entries := x.entries.filter fun e => !inside e }) id Status.ok hit 0)

def runCamInvalidate (c : Cmd) (s : State) : State := runCmd 0x52 c s fun _ id s => invalidateBody c id s

/-- CAM_INVALIDATE. -/
def execCamInvalidate (c : Cmd) (s : State) : Host.Outcome State Fault Refusal := quiet s (runCamInvalidate c s)

/-! ### CAM_SEARCH, CAM_NEXT, CAM_CURSOR_FREE (R336–R338) -/

/-- Does a selected bank hold a poisoned entry (R341)? -/
def anyPoisoned (s : State) (banks : List Nat) : Bool := banks.any fun b => (bankOf s b).entries.any fun e => e.2.poison

/-- RESULT0 of a search (Table 11.3). -/
def searchResult (found : List CamPos) (poison : Bool) : Nat :=
  match found with
  | [] => b2n poison * 2 ^ 61
  | x :: r => 2 ^ 63 + b2n (!r.isEmpty) * 2 ^ 62 + b2n poison * 2 ^ 61 + x.2.1 * 2 ^ 48 + x.1 * 2 ^ 32 + x.2.2

/-- The status of a search whose result is returned; a poisoned entry comes before the cursor limit. -/
def searchStatus (poison limit : Bool) : Nat :=
  if poison then Status.camEntryPoison else if limit then Status.camCursorLimit else Status.ok

/-- Banks that a mask selects. -/
def maskBanks (m : Nat) : List Nat := (List.range 32).filter fun b => bit m b

/-- May the tenant have one more cursor (R337)? -/
def cursorRoom (s : State) (t : Nat) : Bool :=
  (s.comp.cursors.filter fun c => c.2.tenant = t).length < 64 && s.comp.cursors.length < 1024

def setCursors (s : State) (l : Tab Nat Cursor) : State := { s with comp := { s.comp with cursors := l } }

/-- The search, and the cursor that it creates. -/
def searchDone (s : State) (id t key width : Nat) (banks : List Nat) (want : Bool) : State :=
  let found := camMatches s key banks
  let poison := anyPoisoned s banks
  match found with
  | x :: _ :: _ =>
    if want then
      if cursorRoom s t then
        let n := freeNumber 1 (s.comp.cursors.map (·.1))
        let cur : Cursor := { tenant := t, key := key, banks := banks, width := width, pos := x }
        finish (setCursors s (tset s.comp.cursors n cur)) id (searchStatus poison false) (searchResult found poison) n
      else finish s id (searchStatus poison true) (searchResult found poison) 0
    else finish s id (searchStatus poison false) (searchResult found poison) 0
  | _ => finish s id (searchStatus poison false) (searchResult found poison) 0

/-- DEDUCED, log entry 74. -/
def searchBody (c : Cmd) (id : Nat) (s : State) : State :=
  let t := cmdTenant s c
  let banks := maskBanks (fld c.w2 63 32)
  let code := fld c.w2 9 8
  let w := widthUnits code
  match firstCode ([orCode (code ≠ 3 && banks ≠ []) Status.camFormat] ++ bankChecks s t banks true ++
      [orCode (banks.all fun b => (bankOf s b).width = w) Status.camWidthMismatch,
       if w = 1 then none else camRef s t (refOf c.w3) (16 * w)]) with
  | some e => fail s id e
  | none =>
    let key := if w = 1 then c.w4.toNat + c.w5.toNat * 2 ^ 64 else leNat (refBytes s t (refOf c.w3) 0 (16 * w))
    withBanks s id banks (searchDone s id t key w banks (flag c.w2 0))

def runCamSearch (c : Cmd) (s : State) : State := runCmd 0x53 c s fun _ id s => searchBody c id (readKeys s c)

/-- CAM_SEARCH (R336, R337). -/
def execCamSearch (c : Cmd) (s : State) : Host.Outcome State Fault Refusal := quiet s (runCamSearch c s)

/-- A tenant's cursor. -/
def cursorOf (s : State) (t n : Nat) : Option Cursor := (tget s.comp.cursors n).filter fun c => c.tenant = t

def nextBody (c : Cmd) (id : Nat) (s : State) : State :=
  let t := cmdTenant s c
  let n := fld c.w2 15 0
  match cursorOf s t n with
  | none => fail s id Status.camCursorUnknown
  | some cur =>
    if cur.banks.any (bankAbsent s) then fail s id Status.camBankAbsent
    else withBanks s id cur.banks <|
      let found := (camMatches s cur.key cur.banks).filter (camBefore cur.pos)
      let poison := anyPoisoned s cur.banks
      match found with
      | x :: _ :: _ =>
        finish (setCursors s (tset s.comp.cursors n { cur with pos := x })) id (searchStatus poison false) (searchResult found poison) n
      | _ => finish (setCursors s (tdel s.comp.cursors n)) id (searchStatus poison false) (searchResult found poison) 0

def runCamNext (c : Cmd) (s : State) : State := runCmd 0x54 c s fun _ id s => nextBody c id s

/-- CAM_NEXT (R338). -/
def execCamNext (c : Cmd) (s : State) : Host.Outcome State Fault Refusal := quiet s (runCamNext c s)

def runCamCursorFree (c : Cmd) (s : State) : State :=
  runCmd 0x55 c s fun _ id s =>
    match cursorOf s (cmdTenant s c) (fld c.w2 15 0) with
    | none => fail s id Status.camCursorUnknown
    | some _ => finish (setCursors s (tdel s.comp.cursors (fld c.w2 15 0))) id Status.ok 0 0

/-- CAM_CURSOR_FREE (R338). -/
def execCamCursorFree (c : Cmd) (s : State) : Host.Outcome State Fault Refusal := quiet s (runCamCursorFree c s)

/-! ### CAM_READ -/

/-- The record of an entry that is valid or poisoned. -/
def entryRecord (e : CamEntry) (w : Nat) : List Byte :=
  leBytes 8 (e.priority * 2 ^ 48 + b2n e.poison * 4 + b2n e.masked * 2 + b2n e.valid) ++ leBytes 8 0 ++ leBytes (16 * w) e.key ++
    leBytes (16 * w) (if e.masked then e.mask else 0)

/-- The record of an invalid entry: VALID is 0, and the spec gives no other content, so the rest is free value `n`. DESIGN CHOICE, log entry 75. -/
def invalidRecord (n w : Nat) : List Byte :=
  let x := (Config.freeWord n).toNat
  let free := fun (k : Nat) => (List.range (16 * w)).map fun i => Config.freeByte n (k + i)
  leBytes 8 (bits x 63 48 * 2 ^ 48 + b2n (bit x 1) * 2) ++ leBytes 8 0 ++ free 0 ++
    (if bit x 1 then free (16 * w) else List.replicate (16 * w) 0)

/-- DESIGN CHOICE, log entry 75. -/
def readBody (c : Cmd) (id : Nat) (s : State) : State :=
  let t := cmdTenant s c
  let b := fld c.w2 4 0
  let i := fld c.w2 47 36
  let x := bankOf s b
  match firstCode (bankChecks s t [b] false ++ [orCode (i < x.entriesMax) Status.camEntryRange, camRef s t (refOf c.w3) (16 + 32 * x.width)]) with
  | some e => fail s id e
  | none => match tget x.entries i with
    | some e => finish (refWrite s id t (refOf c.w3) 0 (clean (entryRecord e x.width))) id Status.ok 0 0
    | none => finish (refWrite { s with free := s.free + 1 } id t (refOf c.w3) 0 (clean (invalidRecord s.free x.width))) id Status.ok 0 0

def runCamRead (c : Cmd) (s : State) : State := runCmd 0x56 c s fun _ id s => readBody c id s

/-- CAM_READ. -/
def execCamRead (c : Cmd) (s : State) : Host.Outcome State Fault Refusal := ordinary s (runCamRead c s)

/-! ### Tenant reset (R347) -/

/-- A tenant reset clears the tenant's banks and frees its cursors. -/
def resetBanks (s : State) (t : Nat) : State :=
  let mine := (List.range 32).filter (bankGranted s t)
  let banks := s.comp.banks.filter fun e => !mine.contains e.1
  { s with comp := { s.comp with banks := banks, cursors := s.comp.cursors.filter fun c => c.2.tenant ≠ t
                                 transitions := s.comp.transitions.filter fun e => e.1.1 ≠ t } }

end Sys2Proof.Machine
end

