-- ==== Sys2Proof/Machine/Expert.lean ====
section
/-!
DEFINITION. EXPERT_APPLY (09_experts_and_weight_streaming.md R289–R291).
-/
namespace Sys2Proof.Machine

/-- The fields of Table 9.4. -/
structure XArgs where
  input : Ref
  output : Ref
  layer : Nat
  fin : Nat
  fout : Nat
  stream : Nat
  tag : Nat
  counter : Nat
deriving DecidableEq, Repr

def xArgs (c : Cmd) : XArgs :=
  { input := refOf c.w2, output := refOf c.w3, layer := fld c.w4 63 56, fin := fld c.w4 55 52, fout := fld c.w4 51 48, stream := fld c.w4 47 40,
    tag := fld c.w5 63 48, counter := fld c.w5 47 32 }

/-- The bound version of a member. -/
def boundVer (s : State) (h : Nat) : Option AdVer :=
  (ownedOf s h).bind fun o => if o.record.adapter = 0 then none else adVer s (handleTenant h) o.record.adapter o.record.adapterVersion

/-- H of a member's rows: its version's, else that of the first member whose version is here. The manual gives no length for the block of a member
without a version. -/
def memberWidth (s : State) (ms : List Nat) (h : Nat) : Nat :=
  match boundVer s h with
  | some v => v.hidden
  | none => ((ms.filterMap (boundVer s)).head?).elim 0 (·.hidden)

/-- A member's block: handle, ROWS, H, and where its header, weights and rows begin. -/
structure XBlock where
  handle : Nat
  rows : Nat
  width : Nat
  off : Nat
  /-- The line of its header carries poison. -/
  bad : Bool
deriving DecidableEq, Repr

def XBlock.weightsAt (b : XBlock) : Nat := b.off + 64
def XBlock.rowsAt (b : XBlock) : Nat := b.weightsAt + roundUp (4 * b.rows) 64
def XBlock.rowStep (b : XBlock) (f : Fmt) : Nat := roundUp (b.width * (f.width / 8)) 64
def XBlock.stop (b : XBlock) (fin : Fmt) : Nat := b.rowsAt + b.rows * b.rowStep fin

/-- The blocks of all members (R289), with `false` where a header lies beyond its object. A block without rows ends the walk. -/
def xBlocks (s : State) (t : Nat) (r : Ref) (fin : Fmt) (all : List Nat) (old : Bool) : List Nat → Nat → List XBlock × Bool
  | [], _ => ([], true)
  | h :: ms, off =>
    if (codeOf (refCheck s t r (off + 64) false old)).isSome then ([], false)
    else
      let b : XBlock := { handle := leNat (refBytes s t r off 8), rows := leNat (refBytes s t r (off + 8) 4), width := memberWidth s all h, off := off,
                          bad := refBad s t r off 64 }
      if b.rows = 0 || 65536 < b.rows then ([b], true)
      else
        let p := xBlocks s t r fin all old ms (b.stop fin)
        (b :: p.1, p.2)

/-- The stream's window layer that a model layer is (R294). -/
def windowLayer (s : State) (x : Stream) (layer : Nat) : Option Nat :=
  if x.source = 0 then
    match adVer s x.tenant x.adapter x.version with
    | some v => if layer < v.firstLayer then none else some (layer - v.firstLayer)
    | none => none
  else some layer

/-- The check of STREAM (R291, 06_kv_pages_and_tiers.md R204). -/
def streamCheck (s : State) (t : Nat) (x : XArgs) (old : Bool) : RefRes :=
  if x.stream = 0xFF then .ok
  else match tget s.tier.streams x.stream with
    | none => .bad Status.windowUnknown
    | some y => match windowLayer s y x.layer with
      | none => if y.tenant = t && (old || !y.closing) then .bad Status.windowRange else .bad Status.windowUnknown
      | some k => windowCheck s t x.stream k old

/-- The refusals of a member (Table 9.5). DEDUCED, log entry 69. -/
def expertRefusal (s : State) (id h : Nat) (x : XArgs) (b : XBlock) : Option Nat :=
  match ownedOf s h with
  | none => some (goneStatus s id h)
  | some o =>
    let ph := o.record.phase
    let v := boundVer s h
    firstCode [
      orCode (ph = 1 || ph = 2 || ph = 4 || ph = 5) Status.phaseInvalid,
      orCode (!(o.record.adapter = 0)) Status.adapterNone,
      orCode (v.elim false fun v => !v.headerOnly && !(v.st = .waitRoom) && !(v.st = .loading)) Status.adapterAbsent,
      orCode (v.elim true fun v => !(v.st = .lost)) Status.adapterLost,
      orCode (v.elim true fun v => v.firstLayer ≤ x.layer && x.layer < v.firstLayer + v.layers) Status.adapterLayer,
      orCode (v.elim true fun v => v.model = o.record.model) Status.shapeInvalid,
      orCode (x.stream = 0xFF || (tget s.tier.streams x.stream).elim false fun y =>
        y.source = 0 && v.elim false fun v => y.adapter = v.adapter && y.version = v.version) Status.streamMismatch,
      orCode (b.handle = h) Status.operandRange]

/-- The slice of a version's layer: the object that holds it, and its offset. -/
def sliceView (s : State) (x : XArgs) (v : AdVer) : Blob × Nat :=
  let k := x.layer - v.firstLayer
  match (if x.stream = 0xFF then none else tget s.tier.streams x.stream) with
  | some y => ((slotOfLayer y k).elim Blob.zeros (·.blob), 0)
  | none => (v.content, k * v.sliceBytes)

/-- A row of the gate or the up matrix (R280). -/
def gateRow (view : Blob × Nat) (v : AdVer) (up : Bool) (j : Nat) : Row :=
  rowAt view.1 (view.2 + j / v.rplF * v.partBytes + if up then v.upAt else 0) v.w v.scale v.g v.rplF v.hidden (j % v.rplF)

/-- A row of the down matrix. -/
def downRow (view : Blob × Nat) (v : AdVer) (n : Nat) : Row :=
  rowAt view.1 (view.2 + n / v.rplH * v.partBytes + v.downAt) v.w v.scale v.g v.rplH v.ffn (n % v.rplH)

/-- A row in the format of activations, and its scales (R290). -/
def actRow (v : AdVer) (l : List Num) : List Num × List Num :=
  let q : Fmt := if v.fmt < 2 then .int8 else .e4m3
  quantRow q ((q.qmax).getD 127) v.g l

def actDot (v : AdVer) (a : List Num × List Num) (r : Row) : Num := dot .exact v.g a.1 r.nums a.2 r.scaleNums

/-- One row of the expert (R290), before its conversion, with poison (07_ladle_engines.md R246). -/
def expertRow (v : AdVer) (gates ups downs : List Row) (head : Bool) (x : List (Num × Bool)) (w : Num × Bool) : List (Num × Bool) :=
  let xq := actRow v (x.map (·.1))
  let h := List.zipWith (fun ga up =>
    let gt := actDot v xq ga
    mul32 (div32 gt (add32 .one (expCr (Num.neg gt)))) (actDot v xq up)) gates ups
  let hq := actRow v h
  let bad := head || w.2 || x.any (·.2) || gates.any Row.bad || ups.any Row.bad
  downs.map fun d => (mul32 w.1 (actDot v hq d), bad || d.bad)

/-- The output of one member's rows, and whether any result is not finite before its conversion (07 R219). -/
def expertRows (view : Blob × Nat) (v : AdVer) (sec : Blob × Nat) (fin fout : Fmt) (b : XBlock) : List (Byte × Bool) × Bool :=
  let gates := (List.range v.ffn).map (gateRow view v false)
  let ups := (List.range v.ffn).map (gateRow view v true)
  let downs := (List.range v.hidden).map (downRow view v)
  let rows := (List.range b.rows).map fun r =>
    let x := (List.range v.hidden).map fun n => elemAt sec.1 fin (sec.2 + b.rowsAt + r * b.rowStep fin) n
    expertRow v gates ups downs b.bad x (elemAt sec.1 .fp32 (sec.2 + b.weightsAt) r)
  (rows.flatMap fun l => pad64 (wideBytes fout l), anyNonfinite rows)

/-- What a command has done so far. -/
structure XTally where
  st : State
  out : List (Byte × Bool)
  rows : Nat
  first : Option (Nat × Nat)
  refused : Nat
  nonfinite : Bool
  /-- Versions read, and the compositions that each serves. -/
  read : List ((Nat × Nat) × List Nat)
  /-- The arithmetic mode of each version read. -/
  modes : Tab (Nat × Nat) Nat

/-- A member's version as the command finds it: a request without a reference takes one (R285); a version that the member reads where it lies may prove
lost (R286). -/
def findVersion (s : State) (id h : Nat) (x : XArgs) (b : XBlock) : State :=
  match ownedOf s h with
  | none => s
  | some o =>
    let p := holdAdapter s o
    let s1 := setOwned p.1 h p.2
    match expertRefusal s1 id h x b, boundVer s1 h with
    | none, some v => if x.stream = 0xFF then readVersion s1 v else s1
    | _, _ => s1

/-- One member. DEDUCED, log entry 69. -/
def expertMember (id i h : Nat) (t : Nat) (x : XArgs) (fin fout : Fmt) (total : Nat) (b : XBlock) (y0 : XTally) : XTally :=
  let y := { y0 with st := findVersion y0.st id h x b }
  match expertRefusal y.st id h x b, boundVer y.st h, ownedOf y.st h with
  | none, some v, some o =>
    let r := expertRows (sliceView y.st x v) v (refView y.st t x.input total) fin fout b
    let key := (v.adapter, v.version)
    { y with
      st := pinRead (touchAll y.st v.dirs) id v.dirs
      out := y.out ++ r.1
      rows := y.rows + b.rows
      nonfinite := y.nonfinite || r.2
      read := tupd y.read key [] (· ++ [o.record.composition])
      modes := tset y.modes key (modeCode v.w) }
  | code, _, _ =>
    { y with out := y.out ++ List.replicate (b.rows * b.rowStep fout) (0, false), refused := y.refused + 1
             first := match y.first with
               | some f => some f
               | none => some (i, code.getD Status.requestUnknown) }

def expertMembers (id t : Nat) (x : XArgs) (fin fout : Fmt) (total : Nat) : Nat → List (Nat × XBlock) → XTally → XTally
  | _, [], y => y
  | i, m :: r, y => expertMembers id t x fin fout total (i + 1) r (expertMember id i m.1 t x fin fout total m.2 y)

/-- Status by 08_attention.md R274. -/
def XTally.status (y : XTally) : Nat :=
  match y.first with
  | some f => f.2
  | none => outStatus (y.out.any (·.2)) y.nonfinite

/-- The distinct versions in ascending (adapter, version) order. -/
def XTally.ordered (y : XTally) : List ((Nat × Nat) × List Nat) := sortBy (fun a b => a.1.1 < b.1.1 || (a.1.1 = b.1.1 && a.1.2 < b.1.2)) y.read

/-- Entries: each distinct version on every Ladle (R290). -/
def XTally.entries (y : XTally) : List (Nat × List Nat) :=
  y.ordered.flatMap fun e => (List.range 160).map fun l => (l, e.2)

/-- The mode of each entry. -/
def XTally.parts (y : XTally) : List (Nat × Nat × Nat) := y.ordered.flatMap fun e => (List.range 160).map fun _ => (tgetD y.modes e.1 5, 0, 0)

def expertBody (c : Cmd) (id : Nat) (s : State) : State :=
  let x := xArgs c
  let t := cmdTenant s c
  let ms := slotMembers s id
  let fin := fmtOrF32 x.fin
  let fout := fmtOrF32 x.fout
  let old := slotStarted s id
  let bs := xBlocks s t x.input fin ms old ms 0
  let sum := (bs.1.map (·.rows)).sum
  let total := (bs.1.getLast?).elim 0 (·.stop fin)
  let outBytes := (bs.1.map fun b => b.rows * b.rowStep fout).sum
  let rowsOk := bs.1.all fun b => 1 ≤ b.rows && b.rows ≤ 65536
  match firstCode [orCode (wideFmt x.fin && wideFmt x.fout && rowsOk && sum ≤ 65536) Status.shapeInvalid, orCode bs.2 Status.operandRange,
      codeOf (refCheck s t x.input total false old), codeOf (refCheck s t x.output outBytes false old)] with
  | some code => fail s id code
  | none =>
    let names := refTensor x.input ++ refTensor x.output
    let work := fun (s : State) => expertMembers id t x fin fout total 0 (ms.zip bs.1)
      { st := touchRef s t x.input, out := [], rows := 0, first := none, refused := 0, nonfinite := false, read := [], modes := [] }
    checked s id c 2 (work s).entries names [streamCheck s t x old] fun s =>
      let y := work s
      runEntries (refWrite y.st id t x.output 0 y.out) id c 2 true y.entries
        { left := 0, status := y.status, r0 := y.read.length * 2 ^ 32 + y.rows, r1 := (y.first.elim 0xFFFFFFFF (·.1)) * 2 ^ 32 + y.refused,
          charged := false, preempts := 0, cycles := 0, counter := x.counter, names := names, waits := false,
          mode := 5, parts := y.parts }

def runExpertApply (c : Cmd) (s : State) : State :=
  runCmd 0xA3 c s fun again id s => routed s id c again fun passed s =>
    if runsNow s id then s
    else if s.image.role = .p then fail s id Status.opcodeInvalid
    else if !counterOk (xArgs c).counter then fail s id Status.tagInvalid
    else tagGate s id c (xArgs c).tag passed (expertBody c id)

/-- EXPERT_APPLY (R289). -/
def execExpertApply (c : Cmd) (s : State) : Host.Outcome State Fault Refusal := ordinary s (runExpertApply c s)

end Sys2Proof.Machine
end

