-- ==== Sys2Proof/Machine/Windows.lean ====
section
/-!
DEFINITION. The weight-streaming window (06_kv_pages_and_tiers.md R202–R205; 09_experts_and_weight_streaming.md R292–R295).
-/
namespace Sys2Proof.Machine

def setStream (s : State) (n : Nat) (x : Stream) : State := setTier s { s.tier with streams := tset s.tier.streams n x }

/-- Window slots that no stream has reserved, in ascending order. -/
def freeSlots (s : State) : List Nat :=
  let used := s.tier.streams.flatMap fun x => x.2.reserved
  (List.range ((s.image.window).elim 0 (·.slots))).filter fun i => !used.contains i

/-- A reference names a layer of a stream, or any layer where none is given. -/
def refNames (r : Ref) (n : Nat) (layer : Option Nat) : Bool :=
  match r with
  | .window m l _ => m = n && layer.elim true (· = l)
  | _ => false

/-- Does a command name a layer of a stream (any layer where none is given)? -/
def cmdNames (s : State) (c : Cmd) (n : Nat) (layer : Option Nat) : Bool :=
  let o := opcodeOf c
  if 0x30 ≤ o && o ≤ 0x33 then refNames (refOf c.w2) n layer || refNames (refOf c.w3) n layer
  else if o = 0xA3 then
    (xArgs c).stream = n && layer.elim true fun l => (tget s.tier.streams n).elim false fun y => windowLayer s y (xArgs c).layer = some l
  else false

/-- Has a started command that names it not completed (R205)? -/
def streamNamed (s : State) (t n : Nat) (layer : Option Nat) : Bool :=
  s.host.slots.any fun x => x.inHand && cmdTenant s x.cmd = t && cmdNames s x.cmd n layer &&
    match x.phase with
    | .waiting .remote => false
    | .waiting .route => false
    | .waiting .held => false
    | _ => true

/-! ### WINDOW_OPEN (R203, R294) -/

/-- The fields of WINDOW_OPEN (Table 6.10). -/
structure OpenArgs where
  kind : Nat
  adapter : Nat
  version : Nat
  addr : Nat
  layerBytes : Nat
  layers : Nat
  first : Nat
  stride : Nat
deriving DecidableEq, Repr

def openArgs (c : Cmd) : OpenArgs :=
  { kind := fld c.w2 63 62, adapter := fld c.w2 31 16, version := fld c.w2 15 0, addr := c.w3.toNat, layerBytes := fld c.w4 63 32,
    layers := fld c.w4 31 16, first := fld c.w4 15 0, stride := c.w5.toNat }

/-- The refusals of an adapter stream (R294). -/
def adapterStreamRefusal (s : State) (t slotBytes : Nat) (x : OpenArgs) : Option Nat :=
  match adVer s t x.adapter x.version with
  | none => some Status.adapterAbsent
  | some v => firstCode [orCode (!v.headerOnly) Status.adapterAbsent,
      orCode (x.layerBytes = v.sliceBytes && v.partBytes ≤ slotBytes / 160) Status.windowSliceSize,
      orCode (x.layers = v.layers) Status.windowRange]

/-- The refusals of WINDOW_OPEN (R203, R294, R207). DEDUCED, log entry 59. -/
def openRefusal (s : State) (t : Nat) (x : OpenArgs) : Option Nat :=
  match s.image.window with
  | none => some Status.windowUnavailable
  | some w => firstCode [
      orCode (prefetchNow s < (freeSlots s).length) Status.windowFull,
      orCode (x.layerBytes ≤ w.slotBytes) Status.windowSliceSize,
      orCode (x.kind = 0 || (x.kind = 1 && x.addr % 4096 = 0)) Status.operandRange,
      (if x.kind = 0 then adapterStreamRefusal s t w.slotBytes x else none),
      orCode (1 ≤ x.layers && x.layers ≤ 256 && x.first < x.layers) Status.windowRange,
      orCode (s.tier.streams.length < 255) Status.windowFull]

/-- Layers that a stream wants in its slots, in order from the cursor (R203). -/
def Stream.wanted (x : Stream) : List Nat := (List.range (min (x.distance + 1) x.layers)).map fun i => (x.cursor + i) % x.layers

/-- A slot that begins to be filled with a layer. -/
def emptySlot (slot layer : Nat) : WinSlot := { slot := slot, layer := layer, filled := false, lost := false, blob := Blob.zeros }

/-- Reserved slots that hold no layer. -/
def Stream.idle (x : Stream) : List Nat := x.reserved.filter fun i => !(x.slots.any (·.slot = i))

/-- Wanted layers that no slot holds. -/
def Stream.lacking (x : Stream) : List Nat := x.wanted.filter fun l => (slotOfLayer x l).isNone

/-- Begin to fill idle slots: first layers left behind for which a command waits (`behind`), then wanted layers that are lacking. A stream whose source is lost
stops filling (R295). -/
def Stream.startFills (x : Stream) (behind : List Nat) : Stream :=
  if x.sourceLost then x else { x with slots := x.slots ++ (x.idle.zip (behind ++ x.lacking)).map fun p => emptySlot p.1 p.2 }

/-- Do changes of the stream's slots wait: they lie in T0, of which a partition is frozen (07_ladle_engines.md R231)? -/
def slotsFrozen (s : State) : Bool := s.image.window.elim false (fun w => decide (w.tier = 0)) && t0Frozen s

def runWindowOpen (c : Cmd) (s : State) : State :=
  runCmd 0x28 c s fun _ id s =>
    let x := openArgs c
    let t := cmdTenant s c
    match openRefusal s t x with
    | some e => fail s id e
    | none =>
      let n := freeNumber 0 (s.tier.streams.map (·.1))
      let y : Stream :=
        { tenant := t, source := x.kind, adapter := if x.kind = 0 then x.adapter else 0, version := if x.kind = 0 then x.version else 0, addr := x.addr,
          stride := x.stride, layerBytes := x.layerBytes, layers := x.layers, cursor := x.first, distance := prefetchNow s,
          reserved := (freeSlots s).take (prefetchNow s + 1), slots := [], sourceLost := x.kind = 1 && !s.host.link.up, cut := false, closing := false }
      finish (setStream s n (y.startFills [])) id Status.ok n 0

/-- WINDOW_OPEN (R203). -/
def execWindowOpen (c : Cmd) (s : State) : Host.Outcome State Fault Refusal := quiet s (runWindowOpen c s)

/-! ### WINDOW_ADVANCE, WINDOW_CLOSE, fills (R205) -/

/-- Run on an open stream of the tenant. -/
def withStream (s : State) (id : Nat) (c : Cmd) (k : Nat → Stream → State) : State :=
  let n := fld c.w2 7 0
  match tget s.tier.streams n with
  | some x => if x.tenant = cmdTenant s c then k n x else fail s id Status.windowUnknown
  | none => fail s id Status.windowUnknown

/-- The cursor moves on; a risen PREFETCH_DISTANCE reserves further free slots (R205). -/
def advanced (s : State) (x : Stream) : Stream :=
  let more := (freeSlots s).take (prefetchNow s + 1 - x.reserved.length)
  let r := x.reserved ++ more
  { x with cursor := (x.cursor + 1) % x.layers, reserved := r, distance := min (prefetchNow s) (r.length - 1) }

def runWindowAdvance (c : Cmd) (s : State) : State :=
  runCmd 0x29 c s fun _ id s => withStream s id c fun n x =>
    if x.closing then fail s id Status.windowUnknown
    else if x.cut then fail s id Status.streamSourceLost
    else finish (setStream s n (advanced s x)) id Status.ok (advanced s x).cursor 0

/-- WINDOW_ADVANCE (R205). -/
def execWindowAdvance (c : Cmd) (s : State) : Host.Outcome State Fault Refusal := quiet s (runWindowAdvance c s)

def runWindowClose (c : Cmd) (s : State) : State :=
  runCmd 0x2A c s fun again id s => withStream s id c fun n x =>
    if x.closing && !again then fail s id Status.windowUnknown
    else if streamNamed s x.tenant n none || slotsFrozen s then await (setStream s n { x with closing := true }) id .earlier
    else finish (setTier s { s.tier with streams := tdel s.tier.streams n }) id Status.ok 0 0

/-- WINDOW_CLOSE (R205). -/
def execWindowClose (c : Cmd) (s : State) : Host.Outcome State Fault Refusal := quiet s (runWindowClose c s)

/-- WINDOW_SLOT_FILL (R205): slots of layers left behind, which no command names, are released, and idle slots take the layers that a command waits for or the
window lacks. -/
def execWindowSlotFill (n : Nat) (s : State) : Host.Outcome State Fault Refusal :=
  match tget s.tier.streams n with
  | none => .next s
  | some x =>
    if slotsFrozen s then .next s
    else
      let named := fun (l : Nat) => streamNamed s x.tenant n (some l)
      let y := { x with slots := x.slots.filter fun w => x.wanted.contains w.layer || named w.layer }
      let behind := (List.range x.layers).filter fun l => !x.wanted.contains l && (slotOfLayer y l).isNone && named l
      quiet s (setStream s n (y.startFills behind))

/-- What a fill reads: the slice, or none where the source is lost. -/
def fillSource (s : State) (x : Stream) (layer : Nat) : Option Blob :=
  if x.source = 0 then
    match adVer s x.tenant x.adapter x.version with
    | none => none
    | some v =>
      if v.st = .lost then none
      else
        let b := v.content
        let a := layer * v.sliceBytes
        let bad := b.bad.filter fun l => a / 64 ≤ l && 64 * l < a + v.sliceBytes
        some { cells := (b.cells.filter fun c => a ≤ c.1 && c.1 < a + v.sliceBytes).map fun c => (c.1 - a, c.2), fill := none,
               bad := bad.map fun l => l - a / 64 }
  else
    let a := x.addr + layer * x.stride
    let b := hostBlob s a x.layerBytes
    let bad := s.host.badLines.filter fun l => a / 64 ≤ l && 64 * l < a + x.layerBytes
    some { b with bad := bad.map fun l => l - a / 64 }

/-- Can a fill end now? A stream of a version fills once the version's runs are written (Table 9.2); one of host memory needs the link (R295).
DEDUCED, log entry 59. -/
def canFill (s : State) (x : Stream) : Bool :=
  if x.source = 1 then !x.sourceLost && s.host.link.up
  else (adVer s x.tenant x.adapter x.version).elim true fun v => !(v.st = .waitRoom) && !(v.st = .loading)

/-- Bytes that a fill moves. -/
def fillBytes (s : State) (x : Stream) : Nat :=
  if x.source = 0 then (adVer s x.tenant x.adapter x.version).elim 0 (·.sliceBytes) else x.layerBytes

/-- WINDOW_SLOT_FILLED (R204, R294, R295): the layer is in its slot, or its source was lost. A fill is charged to the stream's tenant in class 0 (17 R500). -/
def execWindowSlotFilled (n layer : Nat) (s0 : State) : Host.Outcome State Fault Refusal :=
  match tget s0.tier.streams n with
  | none => .next s0
  | some x =>
    if !canFill s0 x || slotsFrozen s0 || !mayMove s0 x.tenant 0 [] then .next s0
    else
      let s := if x.source = 0 then (adVer s0 x.tenant x.adapter x.version).elim s0 (readVersion s0) else s0
      let put := fun (w : WinSlot) =>
        if w.layer = layer && !w.filled then
          match fillSource s x layer with
          | some b => { w with filled := true, blob := b }
          | none => { w with lost := true }
        else w
      quiet s0 (setStream (chargeStacks (chargeMove s x.tenant 0 [] (fillBytes s x)) x.tenant 0 (List.range 20)) n { x with slots := x.slots.map put })

/-- The loss of the host link stops the streams that read host memory (R295). -/
def loseHostStreams (s : State) : State :=
  setTier s { s.tier with streams := s.tier.streams.map fun x => if x.2.source = 1 then (x.1, { x.2 with sourceLost := true }) else x }

end Sys2Proof.Machine
end

