-- ==== Sys2Proof/Machine/Pages.lean ====
section
/-!
DEFINITION. Page commands, moves between tiers, prefixes, T3, TIER_QUERY and MODEL_DEFINE (06_kv_pages_and_tiers.md R173, R179–R181, R196–R200,
R206–R208, R602, R603).
-/
namespace Sys2Proof.Machine

/-! ### Ranges of pages (R207, R208) -/

/-- The fields of a page range. -/
structure PageArgs where
  firstLayer : Nat
  lastLayer : Nat
  firstPage : Nat
  lastPage : Nat
  tier : Nat
deriving DecidableEq, Repr

def pageArgs (c : Cmd) : PageArgs :=
  { firstLayer := fld c.w2 63 56, lastLayer := fld c.w2 55 48, firstPage := fld c.w2 47 32, lastPage := fld c.w2 31 16, tier := fld c.w2 15 14 }

/-- Does the range lie within the model's layers and P − 1 (R208)? -/
def PageArgs.ok (x : PageArgs) (m : ModelDef) (o : Owned) : Bool :=
  x.firstLayer ≤ x.lastLayer && x.lastLayer < m.layers && x.firstPage ≤ x.lastPage && x.lastPage < pageCount o

/-- Present pages in range, in order of layer and page index: keys and entries. -/
def PageArgs.pages (x : PageArgs) (o : Owned) : List ((Nat × Nat) × PageEntry) :=
  sortBy (fun a b => a.1.1 < b.1.1 || (a.1.1 = b.1.1 && a.1.2 < b.1.2))
    (o.pages.filter fun p => p.2.present && x.firstLayer ≤ p.1.1 && p.1.1 ≤ x.lastLayer && x.firstPage ≤ p.1.2 && p.1.2 ≤ x.lastPage)

/-- Run on the model of an owned request. -/
def withModel (s : State) (id : Nat) (o : Owned) (k : ModelDef → State) : State :=
  match modelOf s (handleTenant o.record.handle) o.record.model with
  | some m => k m
  | none => fail s id Status.modelUnknown

/-- Does any page of a list move between tiers now? -/
def anyMoving (s : State) (l : List ((Nat × Nat) × PageEntry)) : Bool :=
  l.any fun p => (tget s.tier.dir p.2.dir).elim false fun e => !(e.st = .resident)

/-- Does a move for a command go on? -/
def movesFor (s : State) (id : Nat) : Bool := s.tier.moves.any fun m => m.2.slot = some id

/-- Three counts in one number: a command's results while it waits for its moves. -/
def pack3 (a b c : Nat) : Nat := a + b * 2 ^ 24 + c * 2 ^ 48

/-! ### PAGE_PROMOTE and PAGE_DEMOTE (Table 6.6, Table 6.9) -/

/-- Begin the promotion of one page: pinned and PROMOTING, with its room reserved; where there is no room it is RESIDENT again (R180). DEDUCED, log entry 55. -/
def promoteOne (s : State) (id tier : Nat) (i : Nat) (e : DirEntry) : Bool × State :=
  let where' := if tier = 0 then [40] else stacksFor s e.kind e.back e.layer e.page
  let got := if overQuota s e.tenant tier e.run.slabs then none else takeFirst s e.run.slabs where'
  match got with
  | none => (false, setEntry s i { e with seq := wrapAdd 32 e.seq 1, age := 0 })
  | some (r, s1) =>
    let s2 := setEntry s1 i { e with st := .promoting, pins := e.pins ++ [.promotion], age := 0 }
    (true, setTier s2 { s2.tier with moves := tset s2.tier.moves i { run := r, tier := tier, slot := some id } })

/-- Begin the promotions of a list: moved, not moved, already there. A page whose read fails is dropped, and not moved (R174, R194). -/
def promoteAll (s0 : State) (id tier : Nat) : List ((Nat × Nat) × PageEntry) → Nat × Nat × Nat → State × (Nat × Nat × Nat)
  | [], n => (s0, n)
  | p :: r, n =>
    let s := readObjects s0 [p.2.dir]
    match tget s.tier.dir p.2.dir with
    | none => promoteAll s id tier r (n.1, n.2.1 + 1, n.2.2)
    | some e =>
      if e.tier ≤ tier then promoteAll s id tier r (n.1, n.2.1, n.2.2 + 1)
      else
        let x := promoteOne s id tier p.2.dir e
        promoteAll x.2 id tier r (if x.1 then (n.1 + 1, n.2.1, n.2.2) else (n.1, n.2.1 + 1, n.2.2))

/-- A promotion that meets PROMOTING pins the object, and is served when the move ends (Table 6.6). -/
def pinMoving (s : State) (id : Nat) (l : List ((Nat × Nat) × PageEntry)) : State :=
  pinRead s id (l.filterMap fun p => match tget s.tier.dir p.2.dir with
    | some e => if e.st = .promoting && !e.pins.contains (.command id) then some p.2.dir else none
    | none => none)

/-- A command that has begun its moves completes when they have ended. -/
def movesDone (s : State) (id : Nat) (promote : Bool) : State :=
  if movesFor s id then s
  else
    let n := stageOf s id - 1
    let moved := n % 2 ^ 24
    let mid := n / 2 ^ 24 % 2 ^ 24
    let last := n / 2 ^ 48
    if promote then finish s id Status.ok moved (mid * 2 ^ 32 + last)
    else finish s id (if last = 0 then Status.ok else Status.tierExhausted) moved mid

def runPagePromote (c : Cmd) (s : State) : State :=
  runCmd 0x20 c s fun again id s => routed s id c again fun _ s =>
    if stageOf s id ≠ 0 then movesDone s id true
    else withOwned s id c fun o => withModel s id o fun m =>
      let x := pageArgs c
      if !x.ok m o || 2 ≤ x.tier then fail s id Status.pageRange
      else if anyMoving s (x.pages o) then await (pinMoving s id (x.pages o)) id .earlier
      else
        let r := promoteAll s id x.tier (x.pages o) (0, 0, 0)
        movesDone (await (setStage r.1 id (1 + pack3 r.2.1 r.2.2.1 r.2.2.2)) id .earlier) id true

/-- PAGE_PROMOTE (R206). -/
def execPagePromote (c : Cmd) (s : State) : Host.Outcome State Fault Refusal := quiet s (runPagePromote c s)

/-- Begin the demotion of one page (Table 6.6): DEMOTING, with its room reserved. DEDUCED, log entry 55. -/
def demoteOne (s : State) (id tier i : Nat) (e : DirEntry) : Option State :=
  match takeLower s e.tenant e.run.slabs (tier = 2) with
  | none => none
  | some (r, s1) =>
    let s2 := setEntry s1 i { e with st := .demoting }
    some (setTier s2 { s2.tier with moves := tset s2.tier.moves i { run := r, tier := tierOfLoc r.loc, slot := some id } })

/-- Begin the demotions of a list: moved, skipped as pinned, and whether no tier had room. -/
def demoteAll (s0 : State) (id tier : Nat) : List ((Nat × Nat) × PageEntry) → Nat × Nat × Nat → State × (Nat × Nat × Nat)
  | [], n => (s0, n)
  | p :: r, n =>
    let s := readObjects s0 [p.2.dir]
    match tget s.tier.dir p.2.dir with
    | none => demoteAll s id tier r n
    | some e =>
      if tier ≤ e.tier then demoteAll s id tier r n
      else if !movable s p.2.dir e then demoteAll s id tier r (n.1, n.2.1 + 1, n.2.2)
      else match demoteOne s id tier p.2.dir e with
        | none => demoteAll s id tier r (n.1, n.2.1, 1)
        | some s1 => demoteAll s1 id tier r (n.1 + 1, n.2.1, n.2.2)

def runPageDemote (c : Cmd) (s : State) : State :=
  runCmd 0x21 c s fun again id s => routed s id c again fun _ s =>
    if stageOf s id ≠ 0 then movesDone s id false
    else withOwned s id c fun o => withModel s id o fun m =>
      let x := pageArgs c
      if !x.ok m o || x.tier < 2 then fail s id Status.pageRange
      else if anyMoving s (x.pages o) then await s id .earlier
      else
        let r := demoteAll s id x.tier (x.pages o) (0, 0, 0)
        movesDone (await (setStage r.1 id (1 + pack3 r.2.1 r.2.2.1 r.2.2.2)) id .earlier) id false

/-- PAGE_DEMOTE (R206). -/
def execPageDemote (c : Cmd) (s : State) : Host.Outcome State Fault Refusal := quiet s (runPageDemote c s)

/-- The stacks of T1 that a move reads or writes. -/
def moveStacks (e : DirEntry) (m : Move) : List Nat := [e.run.loc, m.run.loc].filter (· < 20)

/-- A move of a command's passes the gates of its tenant, in class 0 (17 R499, R500). -/
def moveGated (s : State) (e : DirEntry) (m : Move) : Bool := m.slot.isSome && !mayMove s e.tenant 0 (moveStacks e m)

/-- And is charged for its slabs. -/
def chargeTierMove (s : State) (e : DirEntry) (m : Move) : State :=
  if m.slot.isSome then chargeMove s e.tenant 0 (moveStacks e m) (e.run.slabs * 65536) else s

/-- The copy of a move is placed: the entry names the new run (Table 6.6). Pins that met a demotion are taken after it; a promotion's old run drains, held by
the pins taken before (R181). One into T0 waits while a partition is frozen (07_ladle_engines.md R231), and one that a budget holds waits too. DEDUCED,
log entry 100. -/
def movePlaced (s : State) (i : Nat) (from' : DirState) : State :=
  match tget s.tier.dir i, tget s.tier.moves i with
  | some e, some m =>
    if !(e.st = from') || (m.tier = 0 && t0Frozen s) || moveGated s e m then s
    else
      let s0 := chargeTierMove s e m
      let s1 := setTier s0 { s0.tier with moves := tdel s0.tier.moves i }
      if from' = .demoting then
        takeWaiting (setEntry (freeRunOf s1 e.run) i { e with run := m.run, tier := m.tier, st := .resident }) i
      else
        let pins := e.pins.erase .promotion
        let s2 := setEntry s1 i { e with run := m.run, tier := m.tier, st := .resident, pins := pins }
        setTier s2 { s2.tier with drains := s2.tier.drains ++ [{ dir := i, run := e.run, tier := e.tier, pins := pins }] }
  | _, _ => s

/-- PROMOTION_PLACED (Table 6.6, R181). -/
def execPromotionPlaced (i : Nat) (s : State) : Host.Outcome State Fault Refusal := quiet s (movePlaced s i .promoting)

/-- Drains whose pins are all released free their runs. -/
def freeDrains (s : State) : List Drain → State
  | [] => s
  | d :: r =>
    let s1 := freeRunOf s d.run
    freeDrains (setTier s1 { s1.tier with drains := s1.tier.drains.erase d }) r

/-- OLD_RUN_DRAINED (R181). A run of T0 is released once no partition is frozen (07_ladle_engines.md R231). -/
def execOldRunDrained (i : Nat) (s : State) : Host.Outcome State Fault Refusal :=
  quiet s (freeDrains s (s.tier.drains.filter fun d => d.dir = i && d.pins = [] && !(d.run.loc = 40 && t0Frozen s)))

/-! ### PAGE_PIN and PAGE_UNPIN (R208) -/

/-- Slabs of KV, prefix and replica pages that carry PERSIST. -/
def persistSlabs (s : State) : Nat := ((s.tier.dir.filter fun e => e.2.kind ≤ 2 && e.2.persist).map fun e => e.2.run.slabs).sum

/-- Set or clear PERSIST and PIN on a list of pages. -/
def pinPages (s : State) (h : Nat) (on : Bool) : List ((Nat × Nat) × PageEntry) → State
  | [] => s
  | p :: r =>
    let s1 := match tget s.tier.dir p.2.dir with
      | some e => setEntry s p.2.dir { e with persist := on, age := if on then 0 else e.age }
      | none => s
    let s2 := match ownedOf s1 h with
      | some o => setOwned s1 h { o with pages := tset o.pages p.1 { p.2 with pin := on } }
      | none => s1
    pinPages s2 h on r

/-- Slabs that pinning a list would add. -/
def newSlabs (s : State) (l : List ((Nat × Nat) × PageEntry)) : Nat :=
  (l.map fun p => (tget s.tier.dir p.2.dir).elim 0 fun e => if e.persist then 0 else e.run.slabs).sum

def pinBody (c : Cmd) (on : Bool) (id : Nat) (s : State) : State :=
  withOwned s id c fun o => withModel s id o fun m =>
    let x := pageArgs c
    if !x.ok m o then fail s id Status.pageRange
    else if on && 10 * stackSlabs s < persistSlabs s + newSlabs s (x.pages o) then fail s id Status.pinLimit
    else finish (pinPages s o.record.handle on (x.pages o)) id Status.ok (x.pages o).length 0

def runPagePin (c : Cmd) (s : State) : State :=
  runCmd 0x22 c s fun again id s => routed s id c again fun _ s => pinBody c true id s

/-- PAGE_PIN (R208). -/
def execPagePin (c : Cmd) (s : State) : Host.Outcome State Fault Refusal := quiet s (runPagePin c s)

def runPageUnpin (c : Cmd) (s : State) : State :=
  runCmd 0x23 c s fun again id s => routed s id c again fun _ s => pinBody c false id s

/-- PAGE_UNPIN (R206). -/
def execPageUnpin (c : Cmd) (s : State) : Host.Outcome State Fault Refusal := quiet s (runPageUnpin c s)

/-! ### PAGE_DROP (R603) -/

/-- Is a pin one that PAGE_DROP waits for: of a move or a handoff, or of a command that started before it? -/
def pinHolds (s : State) (id : Nat) : Pin → Bool
  | .command k => (slotById s k).elim false (startedBefore s id)
  | _ => true

/-- Does a command that started earlier still work on the request, or its transient pin hold one of the pages? -/
def dropWaits (s : State) (id h : Nat) (o : Owned) (k : Nat) : Bool :=
  (s.host.slots.any fun x => startedBefore s id x && startedSlot x h) ||
  (o.pages.any fun p => k ≤ p.1.2 && p.2.present && !p.2.shared && (tget s.tier.dir p.2.dir).elim false fun e => e.pins.any (pinHolds s id))

/-- PERSIST of directory entries is cleared. -/
def clearPersist (s : State) (l : List Nat) : State :=
  l.foldl (fun st i => match tget st.tier.dir i with
    | some e => if e.persist then setEntry st i { e with persist := false } else st
    | none => st) s

/-- Drop every page from an index on: own pages are freed, PERSIST of shared ones is cleared and their sets are referred to no more (R603, R200). -/
def dropFrom (s : State) (h k : Nat) : State :=
  match ownedOf s h with
  | none => s
  | some o =>
    let own := (o.pages.filter fun p => k ≤ p.1.2 && p.2.present && !p.2.shared).map fun p => p.2.dir
    let shared := (o.pages.filter fun p => k ≤ p.1.2 && p.2.present && p.2.shared).map fun p => p.2.dir
    let sets := o.refs.filter fun ix => (tget s.tier.prefixes ix).elim false fun p => k ≤ p.block
    let o1 := { o with pages := o.pages.map fun p => if k ≤ p.1.2 then (p.1, p.2.gone) else p
                       blocks := o.blocks.filter fun b => b.1 < k
                       refs := o.refs.filter fun ix => !sets.contains ix }
    setOwned (releaseSets (clearPersist (freeEntries s own) shared) sets) h o1

/-- FIRST_MISSING falls to the lowest position that some layer lacks, by the RECORD step with which the command completes (R185). -/
def recordDrop (s : State) (id h : Nat) (m : ModelDef) : State :=
  match ownedOf s h with
  | none => s
  | some o =>
    let o1 := { o with record := { o.record with placed := placedTokens o m.layers } }
    let fm := lowestMissing o1 m.layers o1.record.logged
    await (recordStep s o1 fm o1.record.adapterVersion (.finish id fm 0)) id .ledger

def runPageDrop (c : Cmd) (s : State) : State :=
  runCmd 0x24 c s fun again id s => routed s id c again fun _ s => withOwned s id c fun o => withModel s id o fun m =>
    let pos := fld c.w2 63 32
    if stageOf s id = 1 then s
    else if !(pos % 256 = 0) || o.record.logged ≤ pos then fail s id Status.pageRange
    else if dropWaits s id o.record.handle o (pos / 256) then await s id .earlier
    else recordDrop (dropFrom (setStage s id 1) o.record.handle (pos / 256)) id o.record.handle m

/-- PAGE_DROP (R603). -/
def execPageDrop (c : Cmd) (s : State) : Host.Outcome State Fault Refusal := quiet s (runPageDrop c s)

/-! ### Prefixes (R198–R200) -/

/-- Matched sets of leading blocks, up to the first block without a match (R198). -/
def matchSets (s : State) (t : Nat) : List Nat → List Nat
  | [] => []
  | h :: r => match findSet s t h with
    | some (ix, _) => ix :: matchSets s t r
    | none => []

/-- Refer to matched sets: REFS rise, their pages enter the page list, PLACED_TOKENS rises (R198). -/
def reuse (s : State) (h : Nat) (layers : Nat) (hashes sets : List Nat) : State :=
  match ownedOf s h with
  | none => s
  | some o =>
    let s1 := sets.foldl referSet s
    let pages := sets.foldl (fun t ix => (tget s.tier.prefixes ix).elim t fun p => enterPages t (setEntries p)) o.pages
    let blocks := (List.range sets.length).foldl (fun t k => tset t k (hashes.getD k 0)) o.blocks
    let o1 := { o with pages := pages, blocks := blocks, refs := o.refs ++ sets }
    setOwned s1 h { o1 with record := { o1.record with placed := if sets = [] then o.record.placed else placedTokens o1 layers } }

/-- The lookup itself. -/
def lookup (s : State) (id h : Nat) (m : ModelDef) : State :=
  match ownedOf s h with
  | none => s
  | some o =>
    let hashes := chainHashes o.record o.log ((o.record.promptTokens - 1) / 256) 0 0
    let sets := matchSets s (handleTenant h) hashes
    let s1 := reuse s h m.layers hashes sets
    if stepsPending s1 id then await (setStage s1 id (1 + 256 * sets.length)) id .ledger else finish s1 id Status.ok (256 * sets.length) 0

def runPrefixLookup (c : Cmd) (s : State) : State :=
  runCmd 0x25 c s fun again id s => routed s id c again fun _ s =>
    if stageOf s id ≠ 0 then (if stepsPending s id then s else finish s id Status.ok (stageOf s id - 1) 0)
    else withOwned s id c fun o =>
      let h := o.record.handle
      if !(o.record.phase = 0 || o.record.phase = 1) then fail s id Status.phaseInvalid
      else withModel s id o fun m =>
        if banksOf s (handleTenant h) 1 = [] then fail s id Status.prefixNoBanks
        else if !(o.record.placed = 0) then fail s id Status.prefixRange
        else if o.record.phase = 0 then
          match bindVersion s o with
          | none => fail s id Status.adapterAbsent
          | some v => lookup (bindAndStart s id h v) id h m
        else lookup s id h m

/-- PREFIX_LOOKUP (R198). -/
def execPrefixLookup (c : Cmd) (s : State) : Host.Outcome State Fault Refusal := quiet s (runPrefixLookup c s)

def runPrefixPublish (c : Cmd) (s : State) : State :=
  runCmd 0x26 c s fun again id s => routed s id c again fun _ s => withOwned s id c fun o =>
    let h := o.record.handle
    let n := fld c.w2 31 0
    let ph := o.record.phase
    if !(ph = 1 || ph = 2 || ph = 4 || ph = 5) then fail s id Status.phaseInvalid
    else withModel s id o fun m =>
      if banksOf s (handleTenant h) 1 = [] then fail s id Status.prefixNoBanks
      else if o.record.firstMissing < o.record.logged then finish s id Status.recomputeRequired o.record.firstMissing 0
      else if !(n % 256 = 0) || o.record.placed < n || o.record.promptTokens < n then fail s id Status.pageRange
      else
        let hashes := chainHashes o.record o.log (n / 256) 0 0
        let r := publishBlocks s o m.layers ((List.range hashes.length).map fun k => (k, hashes.getD k 0)) (0, 0)
        finish (setOwned r.2.2.1 h r.2.2.2) id (if r.2.1 then Status.prefixIndexFull else Status.ok) r.1.1 r.1.2

/-- PREFIX_PUBLISH (R199; 05 R153). -/
def execPrefixPublish (c : Cmd) (s : State) : Host.Outcome State Fault Refusal := quiet s (runPrefixPublish c s)

def runPrefixRelease (c : Cmd) (s : State) : State :=
  runCmd 0x27 c s fun _ id s =>
    let t := cmdTenant s c
    if banksOf s t 1 = [] then fail s id Status.prefixNoBanks
    else
      let mine := (s.tier.prefixes.filter fun p => p.2.tenant = t && p.2.refs = 0).map (·.1)
      finish (mine.foldl dropSet s) id Status.ok mine.length 0

/-- PREFIX_RELEASE (R200). -/
def execPrefixRelease (c : Cmd) (s : State) : Host.Outcome State Fault Refusal := quiet s (runPrefixRelease c s)

/-! ### T3_ATTACH, TIER_QUERY, MODEL_DEFINE (R173, R206, R602) -/

def t3Total (s : State) : Nat := (s.tier.t3.map (·.2)).sum

def runT3Attach (c : Cmd) (s : State) : State :=
  runCmd 0x2B c s fun _ id s =>
    let a := c.w2.toNat
    let n := c.w3.toNat
    if c.fn ≠ 0 then fail s id Status.opcodeNotPermitted
    else if !(a % 2097152 = 0) || !(n % 2097152 = 0) || n = 0 || s.image.t3Bytes < t3Total s + n || 16 ≤ s.tier.t3.length then
      fail s id Status.t3Config
    else
      let s1 := setTier s { s.tier with t3 := s.tier.t3 ++ [(a, n)] }
      finish s1 id Status.ok (t3Total s1) 0

/-- T3_ATTACH (R173). -/
def execT3Attach (c : Cmd) (s : State) : Host.Outcome State Fault Refusal := quiet s (runT3Attach c s)

/-- Per mille of a whole, rounded down; 0 of nothing. -/
def perMille (n whole : Nat) : Nat := if whole = 0 then 0 else 1000 * n / whole

/-- Slabs in held grants that are in use, and slabs that they have. -/
def heldUse (s : State) : Nat × Nat :=
  ((s.tier.held.map fun g => usedAt s (grantLoc g.lender g.id)).sum, 16384 * s.tier.held.length)

/-- The occupancy of a tier that TIER_QUERY reports (Table 6.9). -/
def tierReport (s : State) (t tier : Nat) : Nat :=
  if s.image.molril then perMille (tenantBytes s t tier) (quotaOf s t tier)
  else match tier with
    | 0 => perMille (usedAt s 40) (t0Slabs s)
    | 1 => occupancy s
    | 2 => perMille (heldUse s).1 (heldUse s).2
    | _ => perMille (usedAt s 20) (t3Total s / 65536)

def runTierQuery (c : Cmd) (s : State) : State :=
  runCmd 0x2C c s fun _ id s =>
    let t := cmdTenant s c
    let f := fun (n : Nat) => min 65535 (tierReport s t n)
    finish s id Status.ok (f 1 * 2 ^ 48 + f 0 * 2 ^ 32 + f 2 * 2 ^ 16 + f 3) (s.tier.held.length * 2 ^ 32 + s.tier.lent.length)

/-- TIER_QUERY (R206). -/
def execTierQuery (c : Cmd) (s : State) : Host.Outcome State Fault Refusal := quiet s (runTierQuery c s)

def runModelDefine (c : Cmd) (s : State) : State :=
  runCmd 0x2D c s fun _ id s =>
    let t := cmdTenant s c
    match tget s.tier.tensors (t, fld c.w2 15 0) with
    | none => fail s id Status.tensorUnknown
    | some y =>
      let d := aDescOf y.blob
      let m := d.defines t
      if y.freeing then fail s id Status.tensorUnknown
      else if !d.shapeOk then fail s id Status.shapeInvalid
      else if !d.formatOk then fail s id Status.formatUnsupported
      else if 4194304 < d.pageBytes then fail s id Status.shapeInvalid
      else match modelOf s t d.model with
        | some x => if x = m then finish s id Status.ok m.model m.pageBytes else fail s id Status.modelConflict
        | none =>
          if 256 ≤ (s.tier.models.filter fun x => x.tenant = t).length then fail s id Status.modelLimit
          else finish (setTier s { s.tier with models := s.tier.models ++ [m] }) id Status.ok m.model m.pageBytes

/-- MODEL_DEFINE (R602). -/
def execModelDefine (c : Cmd) (s : State) : Host.Outcome State Fault Refusal := quiet s (runModelDefine c s)

end Sys2Proof.Machine
end

