-- ==== Sys2Proof/Machine/Regions.lean ====
section
/-!
DEFINITION. Memory keys and regions (15_message_transport.md R433, R434; 16_tray_memory_fabric.md R461–R463).
-/
namespace Sys2Proof.Machine

def setXport (s : State) (x : Xport) : State := { s with xport := x }

/-- The memory key of an index: GENERATION in [31:24], INDEX in [23:0]. -/
def keyOf (s : State) (index : Nat) : Nat := tgetD s.xport.gens index 0 * 2 ^ 24 + index

/-- LIFETIME_US in ns (03 Table 3.8). -/
def lifetimeNs (s : State) : Nat := s.image.fabric.lifetimeUs * 1000

/-- Region entries of a tenant. -/
def regionsOf (s : State) (t : Nat) : Nat := (s.xport.regions.filter fun r => !r.2.system && r.2.tenant = t).length

/-- The lowest index that is neither in use nor quarantined. -/
def freeRegion (s : State) : Nat :=
  freeNumber 0 (s.xport.regions.map (·.1) ++ (s.xport.regionQuarantine.filter fun q => s.time < q.2).map (·.1))

/-- Is there an entry for one more region of a tenant (R433)? -/
def regionRoom (s : State) (t : Nat) (system : Bool) : Bool := freeRegion s < 262144 && (system || regionsOf s t < 16384)

/-- Create a region entry: its key, and the state with it. -/
def newRegion (s : State) (r : Region) : Nat × State :=
  let i := freeRegion s
  (keyOf s i, setXport s { s.xport with regions := tset s.xport.regions i r })

/-- Destroy an entry: its generation rises, and its index is quarantined for LIFETIME_US (R433). -/
def destroyRegion (s : State) (i : Nat) : State :=
  setXport s { s.xport with
    regions := tdel s.xport.regions i
    gens := tset s.xport.gens i ((tgetD s.xport.gens i 0 + 1) % 256)
    regionQuarantine := tset s.xport.regionQuarantine i (s.time + lifetimeNs s) }

/-- The region that a key names, where the key is valid (R433). -/
def keyRegion (s : State) (key : Nat) : Option (Nat × Region) :=
  let i := key % 2 ^ 24
  match tget s.xport.regions i with
  | some r => if i < 262144 && keyOf s i = key % 2 ^ 32 then some (i, r) else none
  | none => none

/-- Rights of an access (R434). -/
inductive Right where
  | read | write | atomic | reduce
deriving DecidableEq, Repr

def Region.grants (r : Region) : Right → Bool
  | .read => r.read
  | .write => r.write
  | .atomic => r.atomic
  | .reduce => r.reduce

/-- The key check of R434: the code of its failure. `tenant` is the tenant that must own the region. DEDUCED, log entry 88. -/
def keyCheck (s : State) (key tenant off len : Nat) (rights : List Right) : Option Nat :=
  match keyRegion s key with
  | none => some Status.mkeyInvalid
  | some (_, r) =>
    if !(rights.all r.grants) || !(r.system || r.tenant = tenant) then some Status.mkeyRights
    else if r.length < off + len then some Status.mkeyRange else none

/-! ### Regions of SPACE 3 (16 R461, R462) -/

/-- Runs of 64 slabs, with a shorter last one (06 R163). -/
def spans (first n : Nat) : List (Nat × Nat) := (List.range (ceilDiv n 64)).map fun i => (first + 64 * i, min 64 (n - 64 * i))

/-- Take one run, first slab and length given, with its directory entry of KIND 3 and PERSIST. -/
def takeSpan (s : State) (stack tenant back : Nat) (x : Nat × Nat) : Option State :=
  let run : Run := { fabric := selfId s, loc := stack, first := x.1, base := locBase s stack, slabs := x.2, gen := slabGen s.tier stack x.1 }
  (newEntry (setTier s { s.tier with used := s.tier.used ++ [(stack, x)] }) run 3 tenant 0 0 back true).map (·.2)

/-- Take runs one by one. -/
def takeSpans (s : State) (stack tenant back : Nat) : List (Nat × Nat) → Option State
  | [] => some s
  | x :: r => (takeSpan s stack tenant back x).bind fun s1 => takeSpans s1 stack tenant back r

/-- The first stack of a list with `n` consecutive free slabs. -/
def bigRun (s : State) (n : Nat) : List Nat → Option (Nat × Nat)
  | [] => none
  | l :: r => match freeRun s l n with
    | some f => some (l, f)
    | none => bigRun s n r

/-- BACK of the runs of a SPACE 3 region (16 R462). -/
def regionBack (key : Nat) : Nat := 2 * 2 ^ 48 + key

/-- Directory entries of a SPACE 3 region. -/
def regionDirs (s : State) (key : Nat) : List Nat := (s.tier.dir.filter fun e => e.2.kind = 3 && e.2.back = regionBack key).map (·.1)

/-- Destroy a SPACE 3 region and free its run. -/
def destroySpace3 (s : State) (i : Nat) : State := destroyRegion (freeEntries s (regionDirs s (keyOf s i))) i

end Sys2Proof.Machine
end

