-- ==== Sys2Proof/Machine/TrayMem.lean ====
section
/-!
DEFINITION. The bytes of SPACE 3 regions: lines of the module's stacks and the combining buffer (16_tray_memory_fabric.md R463, R471).
A line is named by its stack address [40:0] divided by 64.
-/
namespace Sys2Proof.Machine

def setTray (s : State) (t : Tray) : State := { s with tray := t }

/-- The line as it is held, or as its stack holds it: its bytes, and whether it is poisoned. -/
def lineNow (s : State) (l : Nat) : List Byte × Bool :=
  match s.tray.buffer.find? (·.line = l) with
  | some h => (h.bytes, h.poison)
  | none => (s.tray.mem.readBytes (64 * l) 64, s.tray.bad.contains l)

/-- Write a line to its stack. -/
def storeLine (s : State) (l : Nat) (bs : List Byte) (poison : Bool) : State :=
  setTray s { s.tray with
    mem := s.tray.mem.writeBytes (64 * l) bs
    bad := if poison then (if s.tray.bad.contains l then s.tray.bad else l :: s.tray.bad) else s.tray.bad.erase l }

/-- A line's fill or write-back is charged to the stack that holds it and to the crossbar (17 R498, R500). -/
def chargeLine (s : State) (payer : Option (Nat × Nat)) (l : Nat) : State :=
  match payer with
  | some p => chargeMove s p.1 p.2 [l / 2 ^ 30] 64
  | none => s

/-- Write a held line back and give up its place (R471). -/
def writeBack (s : State) (h : HeldLine) : State :=
  storeLine (chargeLine (setTray s { s.tray with buffer := s.tray.buffer.filter (·.line ≠ h.line) }) h.payer h.line) h.line h.bytes h.poison

def writeBackAll (s : State) : List HeldLine → State
  | [] => s
  | h :: r => writeBackAll (writeBack s h) r

/-- Put new bytes into a line where it is: held, or in its stack. -/
def putLine (s : State) (l : Nat) (bs : List Byte) (poison : Bool) : State :=
  if s.tray.buffer.any (·.line = l) then
    setTray s { s.tray with buffer := s.tray.buffer.map fun h =>
      if h.line = l then { h with bytes := bs, poison := poison, usedAt := s.mono } else h }
  else storeLine s l bs poison

/-- Replace bytes of a line from an offset on. -/
def patch (bs new : List Byte) (off : Nat) : List Byte := bs.take off ++ new ++ bs.drop (off + new.length)

/-- Write bytes at a stack address, line by line; `n` bounds the lines. A line that is covered whole loses its poison. -/
def trayPut (s : State) (n a : Nat) (bs : List Byte) : State :=
  match n, bs with
  | 0, _ => s
  | _, [] => s
  | n + 1, b :: r =>
    let l := a / 64
    let off := a % 64
    let part := (b :: r).take (64 - off)
    let old := lineNow s l
    let s1 := putLine s l (patch old.1 part off) (old.2 && part.length < 64)
    trayPut s1 n (a + part.length) ((b :: r).drop (64 - off))

/-- Held lines of the runs of a SPACE 3 region. -/
def regionLines (s : State) (key : Nat) : List HeldLine :=
  let runs := (regionDirs s key).filterMap fun i => (tget s.tier.dir i).map (·.run)
  s.tray.buffer.filter fun h => runs.any fun r =>
    let lo := (r.loc * 2 ^ 36 + r.first * 65536) / 64
    lo ≤ h.line && h.line < lo + r.slabs * 1024

/-- Set the bytes of a run to zero (R462). -/
def zeroRun (s : State) (stack first slabs : Nat) : State :=
  let a := stack * 2 ^ 36 + first * 65536
  let n := slabs * 65536
  setTray s { s.tray with
    mem := s.tray.mem.clear a n
    bad := s.tray.bad.filter fun l => !(a ≤ 64 * l && 64 * l < a + n)
    buffer := s.tray.buffer.filter fun h => !(a ≤ 64 * h.line && 64 * h.line < a + n) }

end Sys2Proof.Machine
end

