-- ==== Sys2Proof/Machine/Xport.lean ====
section
/-!
DEFINITION. The transport engine: endpoints, send records, receive records and delivery (15_message_transport.md R427–R457).
-/
namespace Sys2Proof.Machine

/-! ### Endpoints and contexts (R427–R431) -/

def Endpoint.fresh : Endpoint :=
  { opened := false, gen := 0, tOpen := 0, tenant := 0, mkey := 0, keyedCounter := 0, nextSerial := 0, recvs := [], quarantine := none,
    closer := none, sendsFailed := 0, recvsCancelled := 0 }

def epOf (s : State) (n : Nat) : Endpoint := tgetD s.xport.eps n .fresh
def setEp (s : State) (n : Nat) (e : Endpoint) : State := setXport s { s.xport with eps := tset s.xport.eps n e }

/-- Is the endpoint open, and not closing, for a tenant? -/
def epUsable (s : State) (n t : Nat) : Bool := (epOf s n).opened && (epOf s n).closer.isNone && (epOf s n).tenant = t

/-- Tenant endpoints that hold a context. -/
def openEps (s : State) : List Nat := (s.xport.eps.filter fun e => e.2.opened).map (·.1)

/-- The number of contexts that can be open (R430): the residents alone, until a CONTEXT_STORE 1 area is attached. -/
def contextLimit (s : State) : Nat := if s.image.fabric.contextStore = 1 && s.xport.ctxArea.isNone then 8188 else 65536

def destEp : Payload → Option Nat
  | .xport p => some p.hdr.dstEp
  | _ => none

/-- A packet in the miss buffer waits on the endpoint's context. -/
def waitsFor (s : State) (n : Nat) : Bool := s.xport.miss.any fun m => destEp m.frame.payload = some n

/-- Use a context: it becomes the most recently used resident; the least recently used one with no packet waiting gives way (R430). -/
def useContext (s : State) (n : Nat) : State :=
  if s.xport.resident.contains n then setXport s { s.xport with resident := s.xport.resident.erase n ++ [n] }
  else if s.xport.resident.length < 8188 then setXport s { s.xport with resident := s.xport.resident ++ [n] }
  else match s.xport.resident.find? fun m => !waitsFor s m with
    | some v => setXport s { s.xport with resident := s.xport.resident.erase v ++ [n] }
    | none => s

/-- The endpoint's context lies outside the module, in host memory (R432). -/
def inHostMemory (s : State) (n : Nat) : Bool := s.image.fabric.contextStore = 1 && s.xport.ctxArea.isSome && !s.xport.resident.contains n

/-! ### Packets -/

/-- A message ID as one number: SRC, SRC_EP, SRC_GEN, MSG_SERIAL from the top down (R440, R441). DESIGN CHOICE, log entry 80. -/
def messageId (src ep gen serial : Nat) : Nat := src * 2 ^ 56 + ep * 2 ^ 40 + gen * 2 ^ 32 + serial

/-- ENTROPY of packet `p` (R441). DESIGN CHOICE, log entry 80. -/
def entropyOf (id p attempt : Nat) : Nat := (mix id + p + 7 * attempt) % 65536

/-- Packets of a message (R440). -/
def packetsOf (len : Nat) : Nat := max 1 (ceilDiv len 4096)

/-- Bytes of packet `p`. -/
def packetLen (len p : Nat) : Nat := min len (4096 * p + 4096) - 4096 * p

/-- The tenant that owns an endpoint, if it is a tenant's. -/
def epTenant (s : State) (n : Nat) : Option Nat := if n < 256 then none else some (epOf s n).tenant

/-- Deliver a packet that the module sends to itself: it crosses the crossbar and is on hand at once (R442). -/
def toSelf (s : State) (p : XPacket) : State := bufferItem s { port := 16, sub := 0, cls := p.base.cls, bytes := 0, item := .xport p }

/-- The control packet that answers a packet: endpoints swapped, the class of what it answers (R439; 17 R488). -/
def answerHdr (p : XPacket) (type packet reason hint : Nat) (final : Bool) : TransHdr :=
  { type := type, mode := p.hdr.mode, final := final, dstEp := p.hdr.srcEp, dstGen := p.hdr.srcGen, srcEp := p.hdr.dstEp, srcGen := p.hdr.dstGen,
    reason := reason, serial := p.hdr.serial, packet := packet, msgLength := 0, tag := 0, hintUs := hint, mkey := 0, off64 := 0 }

/-- Send a control packet. One that finds no path is dropped: the retransmission that it would answer brings another (R444). -/
def sendAnswer (s : State) (p : XPacket) (type packet reason hint : Nat) (final : Bool) (data : List Byte) : State :=
  let h := answerHdr p type packet reason hint final
  let e := entropyOf (messageId p.base.src p.hdr.srcEp p.hdr.srcGen p.hdr.serial) packet 0
  let b := baseHdr 0 p.base.cls p.base.src e data.length
  if p.base.src = selfId s then
    let (b1, s1) := stampBase s b s.time
    toSelf s1 { base := b1, hdr := h, data := data }
  else
    (enqueuePacket s p.base.src e p.base.cls (epTenant s p.hdr.dstEp) true (frameBytes s (32 + data.length))
      (.xport { base := b, hdr := h, data := data })).getD s

def notReady (s : State) (p : XPacket) (hint : Nat) : State := sendAnswer s p 2 p.hdr.packet 0 hint false []
def refusePacket (s : State) (p : XPacket) (code : Nat) : State := sendAnswer s p 3 p.hdr.packet (code % 256) 0 false []
def finalAck (s : State) (p : XPacket) : State := sendAnswer s p 1 0 0 0 true []

/-! ### Receive records (R443–R445, R450–R452) -/

/-- Is the record that of the packet's message? -/
def RecvRec.of (r : RecvRec) (p : XPacket) : Bool :=
  r.src = p.base.src && r.srcEp = p.hdr.srcEp && r.srcGen = p.hdr.srcGen && r.serial = p.hdr.serial
def Remembered.of (r : Remembered) (p : XPacket) : Bool :=
  r.src = p.base.src && r.srcEp = p.hdr.srcEp && r.srcGen = p.hdr.srcGen && r.serial = p.hdr.serial

def recvOf (s : State) (p : XPacket) : Option RecvRec := s.xport.recvs.find? (·.of p)

/-- Replace, or drop, the record of a message. -/
def setRecv (s : State) (p : XPacket) (r : RecvRec) : State := setXport s { s.xport with recvs := s.xport.recvs.filter (fun x => !x.of p) ++ [r] }
def dropRecv (s : State) (p : XPacket) : State := setXport s { s.xport with recvs := s.xport.recvs.filter fun x => !x.of p }

/-- Remember the ID of a message that has completed or was aborted, with its greatest STAMP (R445, R449). -/
def remember (s : State) (p : XPacket) (stamp : Nat) (aborted : Bool) : State :=
  let old := s.xport.remembered.find? (·.of p)
  let r : Remembered :=
    { src := p.base.src, srcEp := p.hdr.srcEp, srcGen := p.hdr.srcGen, serial := p.hdr.serial
      maxStamp := max stamp (old.elim 0 (·.maxStamp)), aborted := old.elim aborted (·.aborted) }
  setXport s { s.xport with remembered := s.xport.remembered.filter (fun x => !x.of p) ++ [r] }

/-- The lowest packet that a record lacks. -/
def lowestAbsent (placed : List Nat) : Nat → Nat → Nat
  | 0, p => p
  | n + 1, p => if placed.contains p then lowestAbsent placed n (p + 1) else p

/-- The 128 bytes of an ACK: bit n is set when packet `low` + n is placed (R439). -/
def ackBits (placed : List Nat) (low : Nat) : List Byte :=
  (List.range 128).map fun i =>
    BitVec.ofNat 8 (((List.range 8).map fun j => if placed.contains (low + 8 * i + j) then 2 ^ j else 0).sum)

/-- An ACK that is not FINAL (R444). -/
def sendAck (s : State) (p : XPacket) (r : RecvRec) : State :=
  let low := lowestAbsent r.placed (r.placed.length + 1) 0
  sendAnswer (setRecv s p { r with newly := 0, oldest := none }) p 1 low 0 0 false (ackBits r.placed low)

/-- Write the bytes of a region (Table 15.2). SPACE 3 is written through the tray port (16 R463). -/
def regionWrite (s : State) (r : Region) (off : Nat) (bs : List Byte) : State :=
  if r.space = 3 then trayPut s (bs.length / 64 + 2) (r.location % 2 ^ 41 + off) bs
  else refWrite s s.host.nextSlot r.tenant (refOf (word (r.space * 2 ^ 62 + r.location % 2 ^ 62))) off (clean bs)

/-- A message that was in progress has completed (R445, R451–R453): its record is freed and its ID remembered, a FINAL ACK leaves, the posted receive
completes, and counters and tags rise. -/
def messageDone (s : State) (p : XPacket) (r : RecvRec) : State :=
  let t := (epOf s r.dstEp).tenant
  let s1 := finalAck (remember (dropRecv s p) p r.maxStamp false) p
  if r.dstEp < 256 then s1
  else
    let s2 := match r.recv with
      | some v =>
        finish (raiseCounter s1 t v.done) v.slot Status.ok r.length (r.src * 2 ^ 46 + r.srcEp * 2 ^ 30 + r.srcGen * 2 ^ 22 + r.tag)
      | none => raiseCounter s1 t (epOf s r.dstEp).keyedCounter
    tagArrives s2 t r.tag

/-- Place one packet of an open record (R443), and acknowledge as R444 says. -/
def placeInto (s : State) (p : XPacket) (r : RecvRec) (region : Option Region) : State :=
  let stamp := max r.maxStamp p.base.stamp
  if r.placed.contains p.hdr.packet then sendAck s p { r with maxStamp := stamp }
  else
    let off := 4096 * p.hdr.packet
    let s1 := match region, r.recv with
      | some g, _ => regionWrite s g (64 * r.off64 + off) p.data
      | none, some v => refWrite s v.slot (epOf s r.dstEp).tenant (refOf v.ref) off (clean p.data)
      | none, none => s
    let oldest := match r.oldest with
      | some o => o
      | none => s.mono
    let r1 := { r with placed := p.hdr.packet :: r.placed, placedBytes := r.placedBytes + p.data.length, newly := r.newly + 1
                       oldest := some oldest, maxStamp := stamp }
    if r1.length ≤ r1.placedBytes then messageDone s1 p r1
    else if 32 ≤ r1.newly then sendAck s1 p r1
    else setRecv s1 p r1

/-- A record for a message that begins. -/
def openRecord (p : XPacket) (v : Option PostedRecv) : RecvRec :=
  { src := p.base.src, srcEp := p.hdr.srcEp, srcGen := p.hdr.srcGen, serial := p.hdr.serial, dstEp := p.hdr.dstEp, mode := p.hdr.mode,
    mkey := p.hdr.mkey, off64 := p.hdr.off64, tag := p.hdr.tag, length := p.hdr.msgLength, placed := [], placedBytes := 0, recv := v,
    newly := 0, oldest := none, maxStamp := 0, cls := p.base.cls }

/-- The region that a keyed packet may write, or the code of its refusal (R434, R452). -/
def keyedRegion (s : State) (p : XPacket) : Except Nat Region :=
  match keyRegion s p.hdr.mkey with
  | none => .error Status.mkeyInvalid
  | some (_, r) =>
    if !(r.kind = 0) then .error Status.mkeyInvalid
    else match keyCheck s p.hdr.mkey (epOf s p.hdr.dstEp).tenant (64 * p.hdr.off64 + 4096 * p.hdr.packet) p.data.length [.write] with
      | some e => .error e
      | none => .ok r

/-- May a record be opened: one is free, and the completion table has room (R443, R445)? -/
def recordRoom (s : State) : Bool := s.xport.recvs.length < 65536 && s.xport.remembered.length < 4194304

/-- Open a record for a message, by a packet that passes (R443, R451, R452). A system endpoint's content is taken by the row of its message. -/
def openAndPlace (s : State) (p : XPacket) : State :=
  let e := epOf s p.hdr.dstEp
  if !recordRoom s then notReady s p 4
  else if p.hdr.dstEp < 256 then placeInto s p (openRecord p none) none
  else if p.hdr.mode = 1 then
    match keyedRegion s p with
    | .error c => refusePacket s p c
    | .ok g => placeInto s p (openRecord p none) (some g)
  else if !(p.hdr.mkey = e.mkey) then refusePacket s p Status.mkeyInvalid
  else match e.recvs with
    | [] => notReady s p 20
    | v :: rest =>
      if v.capacity < p.hdr.msgLength then refusePacket s p Status.recvTooSmall
      else placeInto (setEp s p.hdr.dstEp { e with recvs := rest }) p (openRecord p (some v)) none

/-- Delivery of a DATA packet (R443–R452). -/
def deliver (s : State) (p : XPacket) : State :=
  match s.xport.remembered.find? (·.of p) with
  | some m => finalAck (remember s p p.base.stamp m.aborted) p
  | none =>
    match recvOf s p with
    | none => openAndPlace s p
    | some r =>
      if !(r.length = p.hdr.msgLength && r.mode = p.hdr.mode && r.mkey = p.hdr.mkey && r.off64 = p.hdr.off64 && r.tag = p.hdr.tag) then
        dropped s dropFormat
      else if p.hdr.mode = 1 && !(p.hdr.dstEp < 256) then
        match keyedRegion s p with
        | .error c => refusePacket s p c
        | .ok g => placeInto s p r (some g)
      else if r.recv.isSome && !(p.hdr.mkey = (epOf s r.dstEp).mkey) then refusePacket s p Status.mkeyInvalid
      else placeInto s p r none

/-- Abandon a receive record (R449): a matched receive completes with MESSAGE_ABORTED. -/
def abandon (s : State) (r : RecvRec) : State :=
  let s1 := setXport s { s.xport with recvs := s.xport.recvs.filter fun x =>
    !(x.src = r.src && x.srcEp = r.srcEp && x.srcGen = r.srcGen && x.serial = r.serial) }
  match r.recv with
  | some v => fail s1 v.slot Status.messageAborted
  | none => s1

def abandonAll (s : State) : List RecvRec → State
  | [] => s
  | r :: l => abandonAll (abandon s r) l

/-! ### The checks of R442 -/

/-- Steps 5 to 7 of R442: membership, format, endpoint. The reason of the first that fails. What a tenant's endpoint sends to a system endpoint is
dropped (R459). -/
def packetCheck (s : State) (p : XPacket) : Option Nat :=
  let h := p.hdr
  let e := epOf s h.dstEp
  let lengthOk :=
    if h.type = 0 then h.packet < packetsOf h.msgLength && p.data.length = packetLen h.msgLength h.packet && h.msgLength ≤ 4294967296
    else if h.type = 1 && !h.final then p.data.length = 128 else p.data.length = 0
  if !isMember s p.base.src then some dropMember
  else if 4 < h.type || 1 < h.mode || !lengthOk then some dropFormat
  else if h.dstEp = 0 || (4 < h.dstEp && h.dstEp < 256) then some dropStale
  else if h.dstEp < 256 then (if h.dstGen = 0 && h.srcEp < 256 then none else some dropStale)
  else if !e.opened || !(h.dstGen = e.gen) || p.base.stamp < e.tOpen || !((tenantFn s e.tenant).st = .on) ||
      (h.type = 0 && e.closer.isSome) then some dropStale
  else none

end Sys2Proof.Machine
end

