-- ==== Sys2Proof/Machine/Sender.lean ====
section
/-!
DEFINITION. The sender of messages: send records, transmission, failure (15_message_transport.md R436–R448, R455, R456).
-/
namespace Sys2Proof.Machine

def sendById (s : State) (id : Nat) : Option SendRec := s.xport.sends.find? (·.id = id)

/-- Change one send record. -/
def modSend (s : State) (id : Nat) (f : SendRec → SendRec) : State :=
  setXport s { s.xport with sends := s.xport.sends.map fun r => if r.id = id then f r else r }

/-- State of a packet of a record. -/
def SendRec.tx (r : SendRec) (p : Nat) : TxPacket := tgetD r.packets p .fresh

def SendRec.setTx (r : SendRec) (p : Nat) (x : TxPacket) : SendRec := { r with packets := tset r.packets p x }

/-- The record to which a packet's header belongs, as its sender wrote it. -/
def sendOfHdr (s : State) (ep gen serial : Nat) : Option SendRec := s.xport.sends.find? fun r => r.ep = ep && r.gen = gen && r.serial = serial

/-! ### Fences and FLUSH (02 R41, 15 R456) -/

/-- What a FLUSH in hand covers: operations to its peer from its endpoint that began before it started. -/
def flushOps (s : State) (x : Slot) : List CovOp :=
  s.host.ops.filter fun o => o.id < x.aux && decide (o.kind = .remote (fld x.cmd.w2 63 46) (fld x.cmd.w2 15 0))

/-- Complete a FLUSH whose messages have all ended, and before which the queue has no fence left (02 R42); what it covered is covered no longer. DEDUCED, log
entry 36. DEDUCED, log entry 36. -/
def flushTry (s : State) (id : Nat) : State :=
  match slotById s id with
  | none => s
  | some x =>
    let l := flushOps s x
    if !(l.all fun o => o.ended.isSome) || fenceAhead s id x.cmd then setPhase s id (.waiting .fabric)
    else
      let bad := (l.filter fun o => o.ended = some false).length
      finish { s with host := { s.host with ops := s.host.ops.filter fun o => !l.contains o } } id
        (if bad = 0 then Status.ok else Status.fenceUnplaced) l.length bad

/-- Every FLUSH in hand is looked at again. -/
def flushAll (s : State) : List Slot → State
  | [] => s
  | x :: r => flushAll (if opcodeOf x.cmd = 0x74 && x.phase = .waiting .fabric then flushTry s x.id else s) r

/-- A covered operation has ended. -/
def endOp (s : State) (op : Nat) (ok : Bool) : State :=
  let s1 := { s with host := { s.host with ops := s.host.ops.map fun o =>
    if o.id = op && o.ended.isNone then { o with ended := some ok } else o } }
  flushAll s1 s1.host.slots

/-! ### Closing an endpoint (R429) -/

/-- An EP_CLOSE whose send records are all freed completes; the number is quarantined for LIFETIME_US. -/
def closeTry (s : State) (n : Nat) : State :=
  let e := epOf s n
  match e.closer with
  | none => s
  | some id =>
    if s.xport.sends.any fun r => r.ep = n && r.gen = e.gen then s
    else
      let s1 := setEp s n { e with opened := false, closer := none, quarantine := some (s.time + lifetimeNs s), sendsFailed := 0, recvsCancelled := 0 }
      finish (setXport s1 { s1.xport with resident := s1.xport.resident.erase n }) id Status.ok e.sendsFailed e.recvsCancelled

/-- Free a send record. -/
def freeSend (s : State) (r : SendRec) : State := closeTry (setXport s { s.xport with sends := s.xport.sends.filter fun x => x.id ≠ r.id }) r.ep

/-! ### Transmission (R440, R441, R446) -/

/-- Interval of the next retransmission: it doubles up to 256 µs (R446). DEDUCED, log entry 84. -/
def nextInterval (n : Nat) : Nat := min (2 * n) 256000

/-- A packet leaves: STAMP is set at its first transmission and kept (R446). While it waits in an egress queue, `stamp` holds the time at which it
came there: a packet that is held for its whole lifetime fails (17 R495, R499). -/
def TxPacket.leave (x : TxPacket) (s : State) : TxPacket :=
  { x with queued := false, sent := true, stamp := if x.sent then x.stamp else s.time, lastTx := s.mono }

/-- The transport header of a DATA or ABORT packet. -/
def sendHdr (r : SendRec) (p : Nat) (abort : Bool) : TransHdr :=
  { type := if abort then 4 else 0, mode := r.mode, final := false, dstEp := r.dstEp, dstGen := r.dstGen, srcEp := r.ep, srcGen := r.gen,
    reason := 0, serial := r.serial, packet := p, msgLength := r.length, tag := r.tag, hintUs := 0, mkey := r.mkey, off64 := r.off64 }

/-- The SEND completes: DONE_COUNTER rises first (R455). -/
def sendDone (s : State) (r : SendRec) : State :=
  finish (raiseCounter (modSend s r.id fun x => { x with completed := true }) r.tenant r.doneCounter) r.slot Status.ok (packetsOf r.length) 0

/-- A message fails (R448): before its SEND has completed the command takes the code; later an event record reports it (R455). The fences that cover
it report it too. Its ABORT then goes out, except where the destination cannot be reached: there R448 fails the ABORT as well, and the record is freed.
DEDUCED, log entry 84. -/
def failSend (s : State) (r : SendRec) (code : Nat) : State :=
  if r.failed.isSome then (if code = Status.peerUnreachable then freeSend s r else s)
  else
    let s1 := modSend s r.id fun x => { x with failed := some code, completed := true, packets := [] }
    let s2 := if r.completed then eventT s1 25 0x66 false (some r.tenant) 0 else fail s1 r.slot code
    let e := epOf s2 r.ep
    let s3 := if e.closer.isSome && e.gen = r.gen then setEp s2 r.ep { e with sendsFailed := e.sendsFailed + 1 } else s2
    let s4 := endOp s3 r.op false
    if code = Status.peerUnreachable then freeSend s4 { r with failed := some code } else s4

/-- The message's DATA packet or ABORT as it leaves, with its header complete and its source read (R455); none where it is not sent: the record is gone
or settled, or the source is poisoned (18 Table 18.2). DEDUCED, log entry 85. -/
def launch (s : State) (ep gen serial p : Nat) (abort : Bool) (entropy : Nat) : Option XPacket × State :=
  match sendOfHdr s ep gen serial with
  | none => (none, s)
  | some r =>
    let base := baseHdr 0 r.cls r.dest entropy (if abort then 0 else packetLen r.length p)
    if abort then
      if r.failed.isNone then (none, s)
      else
        let x := r.abortPkt.leave s
        let (b, s1) := stampBase (modSend s r.id fun y => { y with abortPkt := x }) base x.stamp
        (some { base := b, hdr := sendHdr r 0 true, data := [] }, s1)
    else
      let t := r.tx p
      if r.failed.isSome || t.acked || p < r.low || !t.queued then (none, s)
      else if refBad s r.tenant (refOf r.ref) (4096 * p) (packetLen r.length p) then (none, failSend s r Status.operandPoison)
      else
        let x := t.leave s
        let (b, s1) := stampBase (modSend s r.id fun y => y.setTx p x) base x.stamp
        let pkt : XPacket := { base := b, hdr := sendHdr r p false, data := refBytes s r.tenant (refOf r.ref) (4096 * p) (packetLen r.length p) }
        (some pkt, if p + 1 = packetsOf r.length && !r.completed then sendDone s1 r else s1)

/-- Is the pair key for a packet that leaves now at hand (R436)? DEDUCED, log entry 85. -/
def keyHeld (s : State) (peer epoch : Nat) : Bool := s.xport.keys.contains (peer, epoch)

/-- Does the crossbar's gate hold `n` bytes of a tenant and class (02 R33, 17 R499)? -/
def sourceHeld (s : State) (t cls n : Nat) : Bool := 0 < n && !mayMove s t cls []

/-- `n` bytes enter the crossbar, from the stacks where their source is a tensor (17 R498). DESIGN CHOICE, log entry 134. -/
def chargeSource (s : State) (t cls : Nat) (ref : Word) (n : Nat) : State :=
  if n = 0 then s
  else
    let s1 := chargeMove s t cls [] n
    if refTensor (refOf ref) = [] then s1 else chargeStacks s1 t cls (List.range 20)

/-- Put one packet, or the ABORT, on its way: to the module itself at once, else into the egress queue of the path that ENTROPY selects. A packet whose
pair key is not at hand waits in its send record until KEY_DERIVED, and one that its budget holds until the next period. -/
def emit (s : State) (r : SendRec) (p : Nat) (abort : Bool) : State :=
  let t := if abort then r.abortPkt else r.tx p
  let e := entropyOf (messageId (selfId s) r.ep r.gen r.serial) p t.attempt
  let out : TxPacket := { t with queued := true, stamp := if t.sent then t.stamp else s.time }
  let mark := fun (x : SendRec) => if abort then { x with abortPkt := out } else x.setTx p out
  let n := if abort then 0 else packetLen r.length p
  if sourceHeld s r.tenant r.cls n then s
  else if r.dest = selfId s then
    match launch (chargeSource (modSend s r.id mark) r.tenant r.cls r.ref n) r.ep r.gen r.serial p abort e with
    | (some pkt, s1) => toSelf s1 pkt
    | (none, s1) => s1
  else if !keyHeld s r.dest (epochOf s.time) then s
  else
    match enqueuePacket s r.dest e r.cls (some r.tenant) abort (frameBytes s (32 + n))
        (.xport { base := baseHdr 0 r.cls r.dest e n, hdr := sendHdr r p abort, data := [] }) with
    | none => failSend s r Status.peerUnreachable
    | some s1 => chargeSource (modSend s1 r.id mark) r.tenant r.cls r.ref n

/-- Packets of a record that may go out now: never sent, not queued, not held back by NOT_READY, below the lowest unacknowledged plus 1,024 (R446). -/
def sendable (r : SendRec) : List Nat :=
  ((List.range 1024).map (r.low + ·)).filter fun p =>
    p < packetsOf r.length && (let t := r.tx p; !t.sent && !t.queued && t.holdUntil.isNone)

def emitAll (s : State) (id : Nat) : List Nat → State
  | [] => s
  | p :: l => match sendById s id with
    | some r => if r.failed.isSome then s else emitAll (emit s r p false) id l
    | none => s

/-- The ABORT of a message that has failed goes out once (R448). -/
def abortDue (s : State) (id : Nat) : State :=
  match sendById s id with
  | none => s
  | some r => if r.failed.isNone || r.abortPkt.sent || r.abortPkt.queued then s else emit s r 0 true

/-- Send what a record may send: its packets, or the ABORT of a message that has failed, be it at one of those packets. -/
def pump (s : State) (id : Nat) : State :=
  match sendById s id with
  | none => s
  | some r => abortDue (if r.failed.isSome then s else emitAll s id (sendable r)) id

def pumpAll (s : State) : List Nat → State
  | [] => s
  | id :: l => pumpAll (pump s id) l

/-- Fail a message and send its ABORT. -/
def failAndAbort (s : State) (r : SendRec) (code : Nat) : State := pump (failSend s r code) r.id

def failEach (s : State) (code : Nat) : List SendRec → State
  | [] => s
  | r :: l => failEach (match sendById s r.id with | some x => failAndAbort s x code | none => s) code l

/-- The lowest packet from `p` on that is not acknowledged. -/
def nextUnacked (r : SendRec) : Nat → Nat → Nat
  | 0, p => p
  | n + 1, p => if (r.tx p).acked then nextUnacked r n (p + 1) else p

/-- Note that packets are placed at the receiver: those below `low`, and those whose bits are set (R439). -/
def acknowledge (r : SendRec) (low : Nat) (data : List Byte) : SendRec :=
  let set := fun n => (((data.getD (n / 8) 0).toNat) >>> (n % 8)) % 2 = 1
  let hit := fun (p : Nat) => p < low || (low ≤ p && p < low + 8 * data.length && set (p - low))
  let r1 := { r with packets := r.packets.map fun e => if hit e.1 then (e.1, { e.2 with acked := true }) else e }
  let lowest := nextUnacked r1 (r1.packets.length + 1) (max r.low (min low (packetsOf r.length)))
  { r1 with low := lowest, packets := r1.packets.filter fun e => lowest ≤ e.1 }

end Sys2Proof.Machine
end

