-- ==== Sys2Proof/Machine/HostCommands.lean ====
section
/-!
DEFINITION. The commands of the host interface: NOP, jobs, batches (04_host_queues.md R103–R109) and fences (02_module_organisation.md R38–R41).
-/
namespace Sys2Proof.Machine

def runNop (c : Cmd) (s : State) : State := runCmd 0x00 c s fun _ id s => finish s id Status.ok 0 0

/-- NOP (04 Table 4.7). -/
def execNop (c : Cmd) (s : State) : Host.Outcome State Fault Refusal := quiet s (runNop c s)

/-! ### Jobs (R103–R105) -/

/-- IDs of the jobs of a tenant that are not yet closed. DESIGN CHOICE, log entry 34. -/
def jobIds (s : State) (t : Nat) : List Nat := (s.host.jobs.filter fun e => e.1.1 = t).map fun e => e.1.2

def setJob (s : State) (t n : Nat) (j : Job) : State := { s with host := { s.host with jobs := tset s.host.jobs (t, n) j } }

def runJobOpen (c : Cmd) (s : State) : State :=
  runCmd 0x01 c s fun _ id s =>
    let t := cmdTenant s c
    let n := freeNumber 1 (jobIds s t)
    if ((tenantRec s t).elim 0 (·.jobLimit)) ≤ (jobIds s t).length || 65536 ≤ n then fail s id Status.jobLimit
    else finish (setJob s t n { closing := false, keys := [], handles := [], cancels := [], okCount := 0, waiters := [] }) id Status.ok n 0

/-- JOB_OPEN (R103). -/
def execJobOpen (c : Cmd) (s : State) : Host.Outcome State Fault Refusal := quiet s (runJobOpen c s)

/-- Issue a CANCEL for each handle of a job (R105). DEDUCED, log entry 39. -/
def cancelAll (s : State) (t n : Nat) : List Nat → State
  | [] => s
  | h :: r => cancelAll (cancelFor s t n h) t n r

/-- Keys of the tray regions of a job (16 R462). -/
def jobKeys (s : State) (t n : Nat) : List Nat :=
  (s.xport.regions.filter fun r => r.2.space = 3 && r.2.kind = 0 && r.2.tenant = t && r.2.job = n).map fun r => keyOf s r.1

def destroyKeys (s : State) : List Nat → State
  | [] => s
  | k :: r => destroyKeys (destroyRegion s (k % 2 ^ 24)) r

/-- Has every access to a destroyed SPACE 3 region that passed its check been performed? -/
def regionIdle (s : State) (i : Nat) : Bool := !s.tray.work.any fun w => w.region = i

/-- Write back the held lines of a destroyed region and free its run (16 R463). -/
def freeSpace3 (s : State) (key : Nat) : State := freeEntries (writeBackAll s (regionLines s key)) (regionDirs s key)

def freeSpaces (s : State) : List Nat → State
  | [] => s
  | k :: r => freeSpaces (freeSpace3 s k) r

/-- Free what a closing job's destroyed regions hold, once their accesses have been performed. -/
def freeJobKeys (s : State) (t n : Nat) : State :=
  match tget s.host.jobs (t, n) with
  | none => s
  | some j =>
    let due := j.keys.filter fun k => regionIdle s (k % 2 ^ 24)
    settleJob (freeSpaces (setJob s t n { j with keys := j.keys.filter fun k => !due.contains k }) due) t n

def freeAllJobs (s : State) : List (Nat × Nat) → State
  | [] => s
  | k :: r => freeAllJobs (freeJobKeys s k.1 k.2) r

/-- DEDUCED, log entry 33. -/
def runJobClose (c : Cmd) (s : State) : State :=
  runCmd 0x02 c s fun again id s =>
    let t := cmdTenant s c
    let n := jobOf c
    if again then freeJobKeys s t n
    else match tget s.host.jobs (t, n) with
      | none => fail s id Status.jobUnknown
      | some j =>
        if j.closing then await (setJob s t n { j with waiters := j.waiters ++ [id] }) id .earlier
        else
          let keys := jobKeys s t n
          let s1 := await (setJob s t n { j with closing := true, keys := keys, cancels := j.handles, waiters := [id] }) id .earlier
          freeJobKeys (cancelAll (destroyKeys s1 keys) t n j.handles) t n

/-- JOB_CLOSE (R105). -/
def execJobClose (c : Cmd) (s : State) : Host.Outcome State Fault Refusal := quiet s (runJobClose c s)

/-! ### Batches (R106–R109) -/

/-- Handles of a batch descriptor (04 Table 4.9). -/
def batchMembers (m : Memory) (a n : Nat) : List Nat := (List.range n).map fun i => m.readNat (a + 8 + 8 * i) 8

def batchesOf (s : State) (t : Nat) : Nat := (s.host.batches.filter fun e => e.1.1 = t).length

def registerBody (c : Cmd) (id : Nat) (s : State) : State :=
  let t := cmdTenant s c
  let a := c.w2.toNat
  let n := s.hostMem.readNat a 8 % 2 ^ 13
  let ms := batchMembers s.hostMem a n
  if !(a % 64 = 0) then fail s id Status.operandRange
  else if hostBad s a 8 then fail s id Status.hostReadError
  else if n = 0 || 4096 < n then fail s id Status.batchSize
  else if hostBad s a (8 + 8 * n) then fail s id Status.hostReadError
  else if !decide ms.Nodup then fail s id Status.batchDuplicate
  else if ms.any (fun h => handleTenant h ≠ t) then fail s id Status.tenantMismatch
  else if 4096 ≤ batchesOf s t then fail s id Status.batchLimit
  else
    let b := freeNumber 1 ((s.host.batches.filter fun e => e.1.1 = t).map (·.1.2))
    finish { s with host := { s.host with batches := tset s.host.batches (t, b) ms } } id Status.ok b 0

def runBatchRegister (c : Cmd) (s : State) : State := runCmd 0x90 c s fun _ id s => registerBody c id s

/-- BATCH_REGISTER (R106). -/
def execBatchRegister (c : Cmd) (s : State) : Host.Outcome State Fault Refusal := quiet s (runBatchRegister c s)

/-- Has a command that names the batch started before slot `id`, on any queue, and not completed? -/
def batchBusy (s : State) (t b id : Nat) : Bool :=
  s.host.slots.any fun y => startedBefore s id y && y.inHand && isBatch y.cmd && y.cmd.src.isNone && cmdTenant s y.cmd = t && batchIdOf y.cmd = b

/-- DEDUCED, log entry 33. -/
def runBatchRelease (c : Cmd) (s : State) : State :=
  runCmd 0x91 c s fun again id s =>
    let t := cmdTenant s c
    let b := batchIdOf c
    if !again && !isBatch c then fail s id Status.batchUnknown
    else
      let s1 := if again then s else { s with host := { s.host with batches := tdel s.host.batches (t, b) } }
      if batchBusy s1 t b id then await s1 id .earlier else finish s1 id Status.ok 0 0

/-- BATCH_RELEASE (R109). -/
def execBatchRelease (c : Cmd) (s : State) : Host.Outcome State Fault Refusal := quiet s (runBatchRelease c s)

/-! ### Fences (02 R38–R41) -/

/-- Does a fence cover an operation of this kind (Table 2.7)? DEDUCED, log entry 35. -/
def fenceCovers (op : Nat) (k : OpKind) : Bool :=
  match k with
  | .tray => op = 0x9F
  | _ => op = 0x9E

/-- Operations that a fence in slot `id` covers: those of earlier commands of the queue that carries it. -/
def coveredOps (s : State) (id : Nat) (c : Cmd) : List CovOp :=
  s.host.ops.filter fun o => o.slot < id && o.fn = c.fn && o.q = c.q && decide (o.src = c.src) && fenceCovers (opcodeOf c) o.kind

/-- Has a started command still operations to make that the fence covers? One that waits on the ledger has made its writes; one that waits on the fabric has
its operations on the list, but for a load, which writes what is read; a posted receive writes what its sender sends. DEDUCED, log entry 35. -/
def writesAhead (op : Nat) (x : Slot) : Bool :=
  let o := opcodeOf x.cmd
  let tray := 0x81 ≤ o && o ≤ 0x84
  match x.phase with
  | .finished => false
  | .fetched => true
  | .waiting .ledger => false
  | .waiting .engine => op = 0x9E
  | .waiting .fabric => (!(0x70 ≤ o && o ≤ 0x86) || o = 0x80) && op = 0x9E
  | .waiting _ => if op = 0x9F then tray else !tray && !(o = 0x73)

/-- May the fence complete: every earlier fence has, and for QUEUE_FENCE every earlier command; for the others, every covered operation has ended? -/
def fenceDue (s : State) (id : Nat) (c : Cmd) : Bool :=
  let before := earlier s id c
  if opcodeOf c = 0x9D then before.all fun x => x.phase = .finished
  else before.all (fun x => x.phase = .finished || (!isFence x.cmd && !writesAhead (opcodeOf c) x)) &&
    (coveredOps s id c).all fun o => o.ended.isSome

def isHostWrite (o : CovOp) : Bool := match o.kind with
  | .hostWrite _ => true
  | _ => false

/-- A fence that is due: one that covers writes to host memory first reads the destination of the last of them, and `read` says that the read has returned
(R40). Then it completes: FENCE_UNPLACED where a covered operation failed; what it covered is covered no longer (R41). A FLUSH that waited
behind it is looked at again (R42). -/
def fenceTry (s : State) (id : Nat) (c : Cmd) (read : Bool) : State :=
  if fenceDue s id c then
    let mine := coveredOps s id c
    if mine.any isHostWrite && !read then await (setStage s id 1) id .earlier
    else
      let s1 := { s with host := { s.host with ops := s.host.ops.filter fun o => !mine.contains o } }
      let s2 := fail s1 id (if mine.any fun o => o.ended = some false then Status.fenceUnplaced else Status.ok)
      flushAll s2 s2.host.slots
  else await s id .earlier

def runFence (op : Nat) (c : Cmd) (s : State) : State := runCmd op c s fun _ id s => fenceTry s id c false

/-- QUEUE_FENCE (R38). -/
def execQueueFence (c : Cmd) (s : State) : Host.Outcome State Fault Refusal := quiet s (runFence 0x9D c s)

/-- PLACE_FENCE (R40). -/
def execPlaceFence (c : Cmd) (s : State) : Host.Outcome State Fault Refusal := quiet s (runFence 0x9E c s)

/-- TRAY_FENCE (R38, R41). -/
def execTrayFence (c : Cmd) (s : State) : Host.Outcome State Fault Refusal := quiet s (runFence 0x9F c s)

/-- FENCE_COMPLETE (R40, R41): a fence in hand whose covered operations have ended completes, a read of host memory that it has sent having returned. -/
def execFenceComplete (c : Cmd) (s : State) : Host.Outcome State Fault Refusal :=
  match slotOf s c with
  | some x => if isFence c && !(opcodeOf c = 0x74) then quiet s (fenceTry s x.id c (stageOf s x.id = 1)) else .next s
  | none => .next s

end Sys2Proof.Machine
end

