-- ==== Sys2Proof/Machine/Transport.lean ====
section
/-!
DEFINITION. The transport commands (15_message_transport.md R428–R434, R451–R459).
-/
namespace Sys2Proof.Machine

/-- A command that runs on the accepting module names no request and no batch (R458). -/
def namesRequest (c : Cmd) : Bool := !(handleOf c = 0) || isBatch c

/-- A list of checks in order: each says whether it fails, and its code. -/
def firstFailure : List (Bool × Nat) → Option Nat
  | [] => none
  | (true, e) :: _ => some e
  | (false, _) :: r => firstFailure r

/-- No fabric ID, or no time (R457). -/
def fabricNotReady (s : State) : Bool := s.fab.id.isNone || !holdsTime s

/-- The code of a failed reference check, if it fails. -/
def refCode (s : State) (t : Nat) (w : Word) (n : Nat) : Nat :=
  match refCheck s t (refOf w) n false with
  | .bad e => e
  | .lost _ => Status.streamSourceLost
  | _ => 0

/-! ### EP_OPEN (R428) -/

/-- Is a number in quarantine? DEDUCED, log entry 83. -/
def epQuarantined (s : State) (n : Nat) : Bool :=
  match (epOf s n).quarantine with
  | some u => s.time < u
  | none => false

/-- The number that EP_OPEN takes: the requested one, or the lowest free number of the tenant's range. -/
def epNumber (s : State) (t n : Nat) : Except Nat Nat :=
  let r := tenantRec s t
  let base := r.elim 0 (·.endpointBase)
  let count := r.elim 0 (·.endpointCount)
  if n = 0 then
    match ((List.range count).map (base + ·)).find? fun m => !(epOf s m).opened && !epQuarantined s m with
    | some m => .ok m
    | none => .error Status.endpointLimit
  else if n < base || base + count ≤ n then .error Status.xportParam
  else if (epOf s n).opened || epQuarantined s n then .error Status.endpointBusy
  else .ok n

/-- DEDUCED, log entry 82. -/
def openBody (c : Cmd) (id : Nat) (s : State) : State :=
  let t := cmdTenant s c
  match epNumber s t (fld c.w2 15 0) with
  | .error e => fail s id e
  | .ok n =>
    if contextLimit s ≤ (openEps s).length then fail s id Status.endpointLimit
    else if !regionRoom s t false then fail s id Status.mkeyLimit
    else
      let g := ((epOf s n).gen + 1) % 256
      let (key, s1) := newRegion s
        { space := 0, location := 0, length := 1, tenant := t, reduce := false, atomic := false, write := true, read := false, system := false,
          kind := 1, endpoint := n, job := 0 }
      let e : Endpoint := { Endpoint.fresh with opened := true, gen := g, tOpen := s.time, tenant := t, mkey := key, keyedCounter := fld c.w2 31 16 }
      finish (useContext (setEp s1 n e) n) id Status.ok (g * 65536 + n) key

def runEpOpen (c : Cmd) (s : State) : State :=
  runCmd 0x70 c s fun _ id s =>
    let n := fld c.w2 15 0
    let r := tenantRec s (cmdTenant s c)
    let out := !(n = 0) && (n < r.elim 0 (·.endpointBase) || r.elim 0 (·.endpointBase) + r.elim 0 (·.endpointCount) ≤ n)
    match firstFailure [(namesRequest c || out, Status.xportParam), (4096 ≤ fld c.w2 31 16, Status.tagInvalid)] with
    | some e => fail s id e
    | none => openBody c id s

/-- EP_OPEN (R428). -/
def execEpOpen (c : Cmd) (s : State) : Host.Outcome State Fault Refusal := quiet s (runEpOpen c s)

/-! ### EP_CLOSE (R429) -/

/-- SENDs of an endpoint that have not started. -/
def waitingSends (s : State) (n t : Nat) : List Slot :=
  s.host.slots.filter fun x => x.inHand && opcodeOf x.cmd = 0x72 && cmdTenant s x.cmd = t && fld x.cmd.w3 15 0 = n &&
    (x.phase = .waiting .tag || x.phase = .waiting .released || x.phase = .waiting .room)

def failSlots (s : State) (code : Nat) : List Nat → State
  | [] => s
  | id :: r => failSlots (fail s id code) code r

/-- A command that ends while it waits on a tag waits on it no longer. -/
def leaveTags (s : State) (ids : List Nat) : State :=
  { s with comp := { s.comp with waitTags := s.comp.waitTags.filter fun w => !ids.contains w.2.2 } }

/-- Close an endpoint: waiting and running sends fail, posted receives are cancelled, receive records are abandoned, and the key is destroyed. What is
left is the freeing of the send records. -/
def closeEndpoint (s : State) (n : Nat) (closer : Option Nat) : State :=
  let e := epOf s n
  let waiting := (waitingSends s n e.tenant).map (·.id)
  let s1 := setEp s n { e with closer := some (closer.getD (2 ^ 64)), recvs := [], sendsFailed := waiting.length, recvsCancelled := e.recvs.length }
  let s2 := failSlots (leaveTags s1 waiting) Status.messageAborted waiting
  let s3 := failSlots s2 Status.recvCancelled (e.recvs.map (·.slot))
  let s4 := abandonAll s3 (s3.xport.recvs.filter fun r => r.dstEp = n)
  let s5 := destroyRegion s4 (e.mkey % 2 ^ 24)
  closeTry (failEach s5 Status.messageAborted (s5.xport.sends.filter fun r => r.ep = n && r.gen = e.gen)) n

def runEpClose (c : Cmd) (s : State) : State :=
  runCmd 0x71 c s fun again id s =>
    let n := fld c.w2 15 0
    if again then closeTry s n
    else match firstFailure [(namesRequest c, Status.xportParam), (!epUsable s n (cmdTenant s c), Status.endpointUnknown)] with
      | some e => fail s id e
      | none => closeEndpoint (await s id .fabric) n (some id)

/-- EP_CLOSE (R429). -/
def execEpClose (c : Cmd) (s : State) : Host.Outcome State Fault Refusal := quiet s (runEpClose c s)

/-- ENDPOINT_QUARANTINE_END (R429, R433): LIFETIME_US have passed since an endpoint was closed, or a region entry destroyed. DEDUCED, log entry 83. -/
def execEndpointQuarantineEnd (region : Bool) (n : Nat) (s : State) : Host.Outcome State Fault Refusal :=
  if region then
    match tget s.xport.regionQuarantine n with
    | some u => if u ≤ s.time then quiet s (setXport s { s.xport with regionQuarantine := tdel s.xport.regionQuarantine n }) else .next s
    | none => .next s
  else if (epOf s n).quarantine.isSome && !epQuarantined s n then quiet s (setEp s n { epOf s n with quarantine := none })
  else .next s

/-! ### SEND (R446, R454, R455, R457) -/

/-- Send records of tenants, and of one tenant (R447). -/
def sendRoom (s : State) (t : Nat) : Bool :=
  s.xport.sends.length < 61440 && (s.xport.sends.filter fun r => r.tenant = t).length < 16384

/-- A SEND starts: it takes a record, and its packets go out. With no record free it waits and has not started (R447). -/
def startSend (c : Cmd) (id : Nat) (s : State) : State :=
  let t := cmdTenant s c
  if !sendRoom s t then setPhase s id (.waiting .room)
  else
    let n := fld c.w3 15 0
    let e := epOf s n
    let op := s.host.nextOp
    let s1 := cover (setPhase s id (.waiting .fabric)) id (.remote (fld c.w3 63 46) n) none
    let r : SendRec :=
      { id := s1.xport.nextSend, slot := id, tenant := t, cls := classOf c, ep := n, gen := e.gen, serial := e.nextSerial, dest := fld c.w3 63 46,
        dstEp := fld c.w3 45 30, dstGen := fld c.w3 29 22, mode := fld c.w4 18 17, mkey := fld c.w7 63 32, off64 := fld c.w7 31 0,
        tag := fld c.w4 30 19, length := fld c.w4 63 31, ref := c.w2, doneCounter := fld c.w5 47 32, low := 0, packets := [], completed := false,
        failed := none, abortPkt := .fresh, op := op }
    let s2 := setXport s1 { s1.xport with sends := s1.xport.sends ++ [r], nextSend := r.id + 1 }
    pump (useContext (setEp s2 n { e with nextSerial := wrapAdd 32 e.nextSerial 1 }) n) r.id

/-- The checks of a SEND in order (R459, R457). DEDUCED, log entry 82. -/
def sendRefusal (s : State) (c : Cmd) : Option Nat :=
  let t := cmdTenant s c
  let ref := refCode s t c.w2 (fld c.w4 63 31)
  firstFailure [
    (namesRequest c || 4294967296 < fld c.w4 63 31 || 1 < fld c.w4 18 17 || (fld c.w4 18 17 = 0 && !(fld c.w7 31 0 = 0)) ||
      (!(fld c.w5 63 48 = 0) && !(fld c.w6 63 48 = 0)), Status.xportParam),
    (4096 ≤ fld c.w5 63 48 || 4096 ≤ fld c.w5 47 32 || 4096 ≤ fld c.w6 63 48, Status.tagInvalid),
    (!epUsable s (fld c.w3 15 0) t, Status.endpointUnknown),
    (!(ref = 0), ref),
    (fabricNotReady s, Status.fabricNotReady),
    (!isMember s (fld c.w3 63 46), Status.peerUnreachable)]

/-- A SEND that was held starts: what R459 checks may have changed meanwhile. DEDUCED, log entry 82. -/
def startHeld (c : Cmd) (id : Nat) (s : State) : State :=
  match sendRefusal s c with
  | some e => fail s id e
  | none => startSend c id s

def runSend (c : Cmd) (s : State) : State :=
  runCmd 0x72 c s fun again id s =>
    let t := cmdTenant s c
    let k := fld c.w6 63 48
    if again then
      let phase := (slotById s id).map (·.phase)
      if phase = some (.waiting .released) || phase = some (.waiting .room) then startHeld c id s else s
    else match sendRefusal s c with
      | some e => fail s id e
      | none =>
        if !(k = 0) then
          (if fld c.w6 47 0 ≤ tgetD s.xport.counters (t, k) 0 then startSend c id s else setPhase s id (.waiting .tag))
        else tagGate s id c (fld c.w5 63 48) false (startSend c id)

/-- SEND (R455). -/
def execSend (c : Cmd) (s : State) : Host.Outcome State Fault Refusal := quiet s (runSend c s)

/-- Start each of a list of SENDs. -/
def startEach (s : State) : List Slot → State
  | [] => s
  | x :: r => startEach (startHeld x.cmd x.id s) r

/-- COUNTER_TRIGGER (R454): the SENDs that a change of the counter has let go start, the earliest first. -/
def execCounterTrigger (t k : Nat) (s : State) : Host.Outcome State Fault Refusal :=
  quiet s (startEach s (s.host.slots.filter fun x =>
    decide (x.phase = .waiting .released) && opcodeOf x.cmd = 0x72 && fld x.cmd.w6 63 48 = k && cmdTenant s x.cmd = t))

/-! ### RECV, FLUSH, keys, counters -/

/-- Post a buffer at the end of the endpoint's queue (R451). -/
def postRecv (c : Cmd) (id : Nat) (s : State) : State :=
  let n := fld c.w3 15 0
  let e := epOf s n
  await (useContext (setEp s n { e with recvs := e.recvs ++ [{ slot := id, ref := c.w2, capacity := fld c.w3 63 31, done := fld c.w5 47 32 }] }) n) id .fabric

/-- The checks of a RECV in order (R459). DEDUCED, log entry 82. -/
def recvRefusal (s : State) (c : Cmd) : Option Nat :=
  let t := cmdTenant s c
  let ref := refCode s t c.w2 (fld c.w3 63 31)
  firstFailure [
    (namesRequest c || 4294967296 < fld c.w3 63 31, Status.xportParam),
    (4096 ≤ fld c.w5 63 48 || 4096 ≤ fld c.w5 47 32, Status.tagInvalid),
    (!epUsable s (fld c.w3 15 0) t, Status.endpointUnknown),
    (!(ref = 0), ref)]

/-- A RECV is checked when it is presented, and again when a tag lets it start. DEDUCED, log entry 82. -/
def runRecv (c : Cmd) (s : State) : State :=
  runCmd 0x73 c s fun again id s =>
    if again && !((slotById s id).map (·.phase) = some (.waiting .released)) then s
    else match recvRefusal s c with
      | some e => fail s id e
      | none => if again then postRecv c id s else tagGate s id c (fld c.w5 63 48) false (postRecv c id)

/-- RECV (R451). -/
def execRecv (c : Cmd) (s : State) : Host.Outcome State Fault Refusal := quiet s (runRecv c s)

/-- DEDUCED, log entry 36. -/
def runFlush (c : Cmd) (s : State) : State :=
  runCmd 0x74 c s fun again id s =>
    if again then flushTry s id
    else match firstFailure [
        (namesRequest c, Status.xportParam),
        (!epUsable s (fld c.w2 15 0) (cmdTenant s c), Status.endpointUnknown),
        (fabricNotReady s, Status.fabricNotReady)] with
      | some e => fail s id e
      | none => flushTry (setStage s id s.host.nextOp) id

/-- FLUSH (R456). -/
def execFlush (c : Cmd) (s : State) : Host.Outcome State Fault Refusal := quiet s (runFlush c s)

def runMkeyCreate (c : Cmd) (s : State) : State :=
  runCmd 0x75 c s fun _ id s =>
    let t := cmdTenant s c
    let n := fld c.w3 63 24 + 1
    let ref := refCode s t c.w2 n
    match firstFailure [(namesRequest c, Status.xportParam), (!(ref = 0), ref), (!regionRoom s t false, Status.mkeyLimit)] with
    | some e => fail s id e
    | none =>
      let (key, s1) := newRegion s
        { space := fld c.w2 63 62, location := fld c.w2 61 0, length := n, tenant := t, reduce := flag c.w3 3, atomic := flag c.w3 2,
          write := flag c.w3 1, read := flag c.w3 0, system := false, kind := 0, endpoint := 0, job := 0 }
      finish s1 id Status.ok key 0

/-- MKEY_CREATE (R433). -/
def execMkeyCreate (c : Cmd) (s : State) : Host.Outcome State Fault Refusal := quiet s (runMkeyCreate c s)

/-- Complete a destroy: every access that passed its check has been performed (R434), and a SPACE 3 region's run is freed (16 R463). -/
def destroyTry (s : State) (id key : Nat) : State :=
  if regionIdle s (key % 2 ^ 24) then finish (freeSpace3 s key) id Status.ok 0 0 else await s id .fabric

def runMkeyDestroy (c : Cmd) (s : State) : State :=
  runCmd 0x76 c s fun again id s =>
    let key := fld c.w2 31 0
    if again then destroyTry s id key
    else
      let mine := match keyRegion s key with
        | some (_, r) => r.kind = 0 && !r.system && r.tenant = cmdTenant s c
        | none => false
      match firstFailure [(namesRequest c, Status.xportParam), (!mine, Status.mkeyInvalid)] with
      | some e => fail s id e
      | none => destroyTry (destroyRegion s (key % 2 ^ 24)) id key

/-- MKEY_DESTROY (R434, 16 R463). -/
def execMkeyDestroy (c : Cmd) (s : State) : Host.Outcome State Fault Refusal := quiet s (runMkeyDestroy c s)

def runCtrSet (c : Cmd) (s : State) : State :=
  runCmd 0x77 c s fun _ id s =>
    let t := cmdTenant s c
    let k := fld c.w2 15 0
    match firstFailure [(namesRequest c || k = 0, Status.xportParam), (4096 ≤ k, Status.tagInvalid)] with
    | some e => fail s id e
    | none => finish (setCounter s t k c.w3.toNat) id Status.ok (tgetD s.xport.counters (t, k) 0) 0

/-- CTR_SET (R454). -/
def execCtrSet (c : Cmd) (s : State) : Host.Outcome State Fault Refusal := quiet s (runCtrSet c s)

def runXportCtxAttach (c : Cmd) (s : State) : State :=
  runCmd 0x78 c s fun _ id s =>
    if c.fn ≠ 0 then fail s id Status.opcodeNotPermitted
    else if namesRequest c || !(s.image.fabric.contextStore = 1) || s.xport.ctxArea.isSome then
      fail s id Status.xportParam
    else if !(c.w2.toNat % 2097152 = 0) then fail s id Status.operandRange
    else finish (setXport s { s.xport with ctxArea := some c.w2.toNat }) id Status.ok 0 0

/-- XPORT_CTX_ATTACH (R430). An address that is not aligned ends it as 04 R600 says. -/
def execXportCtxAttach (c : Cmd) (s : State) : Host.Outcome State Fault Refusal := quiet s (runXportCtxAttach c s)

end Sys2Proof.Machine
end

