-- ==== Sys2Proof/Machine/Wire.lean ====
section
/-!
DEFINITION. The bytes of what the module puts on the fabric and takes from it: headers most significant byte first (00_scope.md R3;
14_fabric_ports_and_addressing.md Tables 14.3–14.6; 15_message_transport.md Table 15.3; 16_tray_memory_fabric.md Table 16.4; 18 Table 18.8), the message
headers of the loans and the Tongs (06 Table 6.7, 05 Table 5.6; little-endian, R2), and the nonce, the additional authenticated data and the ciphertext's
range of the tag (15 R437; 19 R546, R547). DEDUCED, log entry 137.
-/
namespace Sys2Proof.Machine

/-! ### Fields of a header, most significant first -/

/-- Lay fields (width, value) out from the least significant bit up. -/
def joinFields : List (Nat × Nat) → Nat
  | [] => 0
  | (w, v) :: l => v % 2 ^ w + 2 ^ w * joinFields l

/-- Read fields of the given widths from the least significant bit up. -/
def splitFields : List Nat → Nat → List Nat
  | [], _ => []
  | w :: l, x => x % 2 ^ w :: splitFields l (x / 2 ^ w)

/-- The number of a field map whose fields stand as the manual's tables list them, from the most significant down. -/
def packFields (l : List (Nat × Nat)) : Nat := joinFields l.reverse

/-- The fields of such a map. -/
def unpackFields (ws : List Nat) (x : Nat) : List Nat := (splitFields ws.reverse x).reverse

/-- Field `i` of those read. -/
def fieldOf (l : List Nat) (i : Nat) : Nat := l.getD i 0

/-! ### The base header (14 Table 14.3) -/

/-- Widths of the base header's fields, W0 to W3. -/
def baseWidths : List Nat := [4, 4, 3, 1, 4, 16, 32, 18, 18, 12, 16, 64, 8, 56]

def baseFields (b : BaseHdr) : List Nat :=
  [b.version, b.kind, b.cls, b2n b.locked, 0, b.entropy, b.membership, b.dest, b.src, 0, b.length, b.stamp, b.keyEpoch, b.seq]

/-- The 32 bytes of a base header, W0 first, each word most significant byte first (R411). DEDUCED, log entry 137. -/
def baseBytes (b : BaseHdr) : List Byte := beBytes 32 (packFields (baseWidths.zip (baseFields b)))

/-- The base header that 32 bytes spell. -/
def baseOf (bs : List Byte) : BaseHdr :=
  let f := unpackFields baseWidths (beNat (bs.take 32))
  { version := fieldOf f 0, kind := fieldOf f 1, cls := fieldOf f 2, locked := fieldOf f 3 == 1, entropy := fieldOf f 5, membership := fieldOf f 6, dest := fieldOf f 7, src := fieldOf f 8,
    length := fieldOf f 10, stamp := fieldOf f 11, keyEpoch := fieldOf f 12, seq := fieldOf f 13 }

/-! ### The transport header (15 Table 15.3) -/

def transWidths : List Nat := [4, 2, 1, 1, 16, 8, 16, 8, 8, 32, 20, 12, 33, 12, 16, 3, 32, 32]

def transFields (h : TransHdr) : List Nat :=
  [h.type, h.mode, b2n h.final, 0, h.dstEp, h.dstGen, h.srcEp, h.srcGen, h.reason, h.serial, h.packet, 0, h.msgLength, h.tag, h.hintUs, 0, h.mkey, h.off64]

/-- The 32 bytes of a transport header. DEDUCED, log entry 137. -/
def transBytes (h : TransHdr) : List Byte := beBytes 32 (packFields (transWidths.zip (transFields h)))

def transOf (bs : List Byte) : TransHdr :=
  let f := unpackFields transWidths (beNat (bs.take 32))
  { type := fieldOf f 0, mode := fieldOf f 1, final := fieldOf f 2 == 1, dstEp := fieldOf f 4, dstGen := fieldOf f 5, srcEp := fieldOf f 6, srcGen := fieldOf f 7, reason := fieldOf f 8,
    serial := fieldOf f 9, packet := fieldOf f 10, msgLength := fieldOf f 12, tag := fieldOf f 13, hintUs := fieldOf f 14, mkey := fieldOf f 16, off64 := fieldOf f 17 }

/-! ### The tray header (16 Table 16.4) -/

def trayWidths : List Nat := [4, 3, 4, 2, 2, 17, 16, 16, 16, 1, 1, 46, 32, 19, 13, 64]

def trayFields (h : TrayHdr) : List Nat :=
  [h.type, h.op, h.aop, h.width, h.dtype, 0, h.opId, h.ackedBelow, h.status, b2n h.poison, 0, h.addr, h.mkey, 0, h.len, 0]

/-- The 32 bytes of a tray header. -/
def trayBytes (h : TrayHdr) : List Byte := beBytes 32 (packFields (trayWidths.zip (trayFields h)))

def trayOf (bs : List Byte) : TrayHdr :=
  let f := unpackFields trayWidths (beNat (bs.take 32))
  { type := fieldOf f 0, op := fieldOf f 1, aop := fieldOf f 2, width := fieldOf f 3, dtype := fieldOf f 4, opId := fieldOf f 6, ackedBelow := fieldOf f 7, status := fieldOf f 8,
    poison := fieldOf f 9 == 1, addr := fieldOf f 11, mkey := fieldOf f 12, len := fieldOf f 14 }

/-! ### Announcements and control messages (14 Tables 14.4–14.6; 18 Table 18.8) -/

def announceWidths : List Nat := [64, 64, 18, 2, 2, 6, 36, 64, 64, 192]

def announceFields (a : Announce) : List Nat :=
  [a.installation, a.serial, a.fabricId, a.role, a.portDies, a.link, 0, a.linksOn, a.membership, 0]

/-- The 64 bytes of an announcement. -/
def announceBytes (a : Announce) : List Byte := beBytes 64 (packFields (announceWidths.zip (announceFields a)))

def announceOfBytes (bs : List Byte) : Announce :=
  let f := unpackFields announceWidths (beNat (bs.take 64))
  { installation := fieldOf f 0, serial := fieldOf f 1, fabricId := fieldOf f 2, role := fieldOf f 3, portDies := fieldOf f 4, link := fieldOf f 5, linksOn := fieldOf f 7,
    membership := fieldOf f 8 }

/-- SUBTYPE of a control message (Table 14.5). -/
def subtypeOf : Control → Nat
  | .assign _ _ _ => 0
  | .routeUpdate _ _ _ => 1
  | .membership _ _ => 2
  | .heartbeat _ => 3
  | .membershipRequest _ => 4
  | .other n => n

/-- The control header: SUBTYPE, fragment number, fragment count (R416). -/
def controlHeader (subtype frag count : Nat) : List Byte := beBytes 16 (packFields [(8, subtype), (24, 0), (32, frag), (32, 0), (32, count)])

/-- The 16 bits of a path in a route entry. -/
def pathField (r : RoutePath) : Nat := packFields [(4, r.port), (2, r.sub), (4, r.farPort), (2, r.farSub), (4, 0)]

/-- The 40 bytes of a route entry (Table 14.6): PATHS, then four paths a word from its least significant 16 bits up. -/
def routeBytes (l : List RoutePath) : List Byte :=
  beBytes 8 (packFields [(5, l.length), (59, 0)]) ++
    (List.range 4).flatMap fun w => beBytes 8 (joinFields ((List.range 4).map fun k => (16, (l[4 * w + k]?).elim 0 pathField)))

/-- The payload of a control message after its header (Table 14.5). -/
def controlBody : Control → List Byte
  | .assign serial id pfx => beBytes 8 serial ++ beBytes 8 (packFields [(18, id), (46, 0)]) ++ beBytes 8 pfx
  | .routeUpdate slot first entries =>
    beBytes 8 (packFields [(1, b2n slot), (31, 0), (16, entries.length), (3, 0), (13, first)]) ++ entries.flatMap routeBytes
  | .membership e l =>
    beBytes 8 e ++ beBytes 8 (packFields [(32, 0), (32, l.length)]) ++ l.flatMap fun m => beBytes 4 (packFields [(18, m.1), (2, m.2), (12, 0)])
  | .heartbeat ws => ws.flatMap (beBytes 8)
  | .membershipRequest e => beBytes 8 e
  | .other _ => []

/-! ### The headers of loan and Tongs messages (06 Table 6.7; 05 Table 5.6) -/

def loanWidths : List Nat := [4, 4, 16, 5, 17, 18, 32, 32, 18, 46, 64]

def loanFields (m : LoanMsg) : List Nat := [m.type, 0, m.grants, m.stack, 0, m.sender, m.grantId, m.key, 0, m.addr, m.deadline]

/-- A 32-byte message header whose words are little-endian (R2): word `i` is word `i` of the field map. -/
def wordsLE (n x : Nat) : List Byte := (List.range n).flatMap fun i => leBytes 8 (x / 2 ^ (64 * (n - 1 - i)))

/-- The 32 bytes of a loan message header. -/
def loanBytes (m : LoanMsg) : List Byte := wordsLE 4 (packFields (loanWidths.zip (loanFields m)))

def tongsWidths : List Nat := [64, 32, 32, 4, 4, 8, 18, 30, 32, 32]

def tongsFields (t : Tongs) : List Nat := [t.handle, t.epoch, t.step, t.type, t.target, t.reason, t.sender, 0, t.pages, t.held]

/-- The 32 bytes of a Tongs message header. -/
def tongsBytes (t : Tongs) : List Byte := wordsLE 4 (packFields (tongsWidths.zip (tongsFields t)))

/-! ### A packet: what is encrypted, what is authenticated (14 R411; 15 R437) -/

/-- The base header of a frame's packet. -/
def packetHeader : Payload → Option BaseHdr
  | .xport p => some p.base
  | .tray p => some p.base
  | .announce b _ => some b
  | .control b _ _ _ => some b
  | .unknown b => some b
  | _ => none

/-- What follows the base header and comes before the tag: the kind header and the data. -/
def bodyBytes : Payload → List Byte
  | .xport p => transBytes p.hdr ++ p.data
  | .tray p => trayBytes p.hdr ++ p.data
  | .announce _ a => announceBytes a
  | .control _ frag count c => controlHeader (subtypeOf c) frag count ++ controlBody c
  | _ => []

/-- Is the body encrypted (KIND 0 and 1), or only authenticated (KIND 2 and 3)? -/
def encrypted (b : BaseHdr) : Bool := b.kind < 2

/-- The nonce of a KIND 0 or 1 packet: SRC in bytes 0–2, zero, SEQ in bytes 4–11 (15 R437). -/
def pairNonce (b : BaseHdr) : List Byte := beBytes 3 b.src ++ [0] ++ beBytes 8 b.seq

/-- The nonce of a KIND 2 or 3 packet: serial number [31:0] in bytes 0–3, SEQ in bytes 4–11 (19 R547). -/
def discoveryNonce (serial seq : Nat) : List Byte := beBytes 4 (serial % 2 ^ 32) ++ beBytes 8 seq

/-- The serial number that the receiver takes for the nonce of a KIND 2 or 3 packet: the one in the payload where it carries one, that of the fabric
manager, or the one seen for SRC (19 R547). The fabric manager is SRC 0x3_FFFF on a KIND 3 packet (14 Table 14.3). -/
def seenSerial (s : State) : Payload → Option Nat
  | .announce _ a => some a.serial
  | .control _ _ _ (.heartbeat ws) => ws[0]?
  | .control b _ _ _ =>
    if b.src = 0x3FFFF then some 0xFFFFFFFF else (s.fab.neighbours.find? fun n => n.2.fabricId = b.src).map (·.2.serial)
  | _ => none

/-- The nonce under which the module opens a packet that it has received; none where no serial number is known for its SRC. -/
def openNonce (s : State) (p : Payload) : Option (List Byte) :=
  (packetHeader p).bind fun b => if encrypted b then some (pairNonce b) else (seenSerial s p).map fun n => discoveryNonce n b.seq

/-- The nonce under which the module seals a packet of its own. -/
def sealNonce (s : State) (p : Payload) : Option (List Byte) :=
  (packetHeader p).map fun b => if encrypted b then pairNonce b else discoveryNonce s.fuses.serial b.seq

/-- The pair key's info: 0x01, the lower and the higher fabric ID, the key epoch, three bytes each (19 R546). -/
def pairInfo (a b e : Nat) : List Byte := [1] ++ beBytes 3 (min a b) ++ beBytes 3 (max a b) ++ beBytes 3 e

/-- The discovery key's info: 0x02, the key epoch (19 R546). -/
def discoveryInfo (e : Nat) : List Byte := [2] ++ beBytes 3 e

/-- The key of a packet under the secret of its key epoch (15 R436; 19 R545, R546). -/
def packetKey (s : State) (b : BaseHdr) : Option (BitVec 256) :=
  let e := epochOf b.stamp
  (secretFor s e).map fun d =>
    Config.hkdfExpand (Config.hkdfExtract (List.replicate 48 0) (beBytes 32 d.secret.toNat)) (if encrypted b then pairInfo b.src b.dest e else discoveryInfo e)

/-- The bytes of a packet of the module on a link, from its base header to its 16-byte tag: the base header is authenticated and clear, the body of KIND 0
and 1 is encrypted and that of KIND 2 and 3 is clear, and the tag covers both (14 R411; 15 R437). -/
def packetBytes (s : State) (p : Payload) : Option (List Byte) :=
  (packetHeader p).bind fun b => (sealNonce s p).bind fun n => (packetKey s b).map fun k =>
    if encrypted b then
      let c := Config.gcm k n (baseBytes b) (bodyBytes p)
      baseBytes b ++ c.1.take (bodyBytes p).length ++ beBytes 16 c.2.toNat
    else
      let c := Config.gcm k n (baseBytes b ++ bodyBytes p) []
      baseBytes b ++ bodyBytes p ++ beBytes 16 c.2.toNat

/-! ### The frame around a packet (14 R408, R409, Table 14.2) -/

/-- The MAC address of a link: 0x02, 0x00, then (a << 18) + f (R409). -/
def macAddress (f p k : Nat) : Nat := 0x0200 * 2 ^ 32 + ((p * 4 + k) * 2 ^ 18 + f) % 2 ^ 32

/-- The IPv6 address of a link: the installation prefix, two zero bytes, the bytes of its MAC address (R409). -/
def linkAddress (s : State) (f p k : Nat) : Nat := s.fab.pfx % 2 ^ 64 * 2 ^ 64 + macAddress f p k

/-- Ethernet header with its IEEE 802.1Q tag: VID 0, PCP = CLASS. -/
def ethernetHeader (dst src cls etype : Nat) : List Byte := beBytes 6 dst ++ beBytes 6 src ++ beBytes 2 0x8100 ++ beBytes 2 (cls * 2 ^ 13) ++ beBytes 2 etype

/-- The Internet checksum of RFC 1071 over 16-bit words, zero sent as all ones. PRESUMED, log entry 143. -/
def internetSum : List Byte → Nat → Nat
  | a :: b :: r, n => let x := n + a.toNat * 256 + b.toNat; internetSum r (x % 65536 + x / 65536)
  | [a], n => let x := n + a.toNat * 256; x % 65536 + x / 65536
  | [], n => n

def udpChecksum (pseudo udp : List Byte) : Nat := let x := 65535 - internetSum (pseudo ++ udp) 0; if x = 0 then 65535 else x

/-- IPv6 and UDP headers before a packet: DSCP = 8 × CLASS, hop limit 64, source port 0xC000 + ENTROPY [13:0]. The flow label is 0: PRESUMED, log entry 143. -/
def ipHeaders (src dst cls entropy port : Nat) (packet : List Byte) : List Byte :=
  let n := 8 + packet.length
  let udp := fun sum => beBytes 2 (0xC000 + entropy % 2 ^ 14) ++ beBytes 2 port ++ beBytes 2 n ++ beBytes 2 sum
  let pseudo := beBytes 16 src ++ beBytes 16 dst ++ beBytes 4 n ++ beBytes 4 17
  beBytes 4 (packFields [(4, 6), (6, 8 * cls), (2, 0), (20, 0)]) ++ beBytes 2 n ++ beBytes 1 17 ++ beBytes 1 64 ++ beBytes 16 src ++ beBytes 16 dst ++
    udp (udpChecksum pseudo (udp 0 ++ packet))

/-- The frame check sequence of IEEE 802.3: CRC-32 over the frame, its bytes least significant first. PRESUMED, log entry 143. -/
def frameCheck (bs : List Byte) : List Byte :=
  let bitStep := fun (c : Nat) (_ : Nat) => if c % 2 = 1 then (c / 2) ^^^ 0xEDB88320 else c / 2
  leBytes 4 ((bs.foldl (fun c b => (List.range 8).foldl bitStep (c ^^^ b.toNat)) 0xFFFFFFFF) ^^^ 0xFFFFFFFF)

/-- The bytes of a frame that leaves by a link toward a module: Ethernet, under ENCAP 1 IPv6 and UDP, the packet with its tag, the check sequence (R408).
The next hop's MAC is that of the destination link. -/
def frameWire (s : State) (p k : Nat) (f : Frame) : Option (List Byte) :=
  (packetHeader f.payload).bind fun b => (packetBytes s f.payload).map fun packet =>
    let dp := f.link / 4
    let dk := f.link % 4
    let eth := fun etype => ethernetHeader (macAddress b.dest dp dk) (macAddress (selfId s) p k) b.cls etype
    let body := if s.image.fabric.encap = 0 then eth s.image.fabric.ethertype ++ packet
      else eth 0x86DD ++ ipHeaders (linkAddress s (selfId s) p k) (linkAddress s b.dest dp dk) b.cls b.entropy s.image.fabric.udpPort packet ++ packet
    body ++ frameCheck body

end Sys2Proof.Machine
end

