-- ==== Sys2Proof/Machine/XportRows.lean ====
section
/-!
DEFINITION. Frames that arrive, and what the transport engine does with the packets in them (14_fabric_ports_and_addressing.md R410, R416, R418;
15_message_transport.md R431, R442–R449).
-/
namespace Sys2Proof.Machine

/-! ### FRAME_RECEIVE (14 R410; R442) -/

/-- A received packet whose key epoch has no secret, or that no count names otherwise. -/
abbrev dropKey : Nat := 18

/-- Bytes in the miss buffer (R431). -/
def missBytes (s : State) : Nat := (s.xport.miss.map fun m => m.frame.bytes).sum

/-- Wait in the miss buffer; a transport packet that finds it full is answered NOT_READY with a hint of 4 µs (R431). -/
def toMiss (s : State) (m : MissFrame) : State :=
  if missBytes s + m.frame.bytes ≤ 2097152 then setXport s { s.xport with miss := s.xport.miss ++ [m] }
  else match m.frame.payload with
    | .xport p => notReady s p 4
    | _ => dropped s dropRoom

/-- The sender of a packet is ahead of the module's membership (14 R418). -/
def senderAhead (s : State) (m : Nat) : Bool := 0 < signed 32 (m + 2 ^ 32 - s.fab.epoch % 2 ^ 32)

/-- Steps 1 to 4 of R442 for a packet of KIND 0 or 1: the reason of the drop, or whether its pair key is at hand. -/
def timeChecks (s : State) (b : BaseHdr) : Except Nat Bool :=
  if !b.locked || !holdsTime s then .error dropTime
  else if s.time + 1000 < b.stamp || b.stamp + lifetimeNs s < s.time then .error dropExpired
  else if (secretFor s (epochOf b.stamp)).isNone then .error dropKey
  else .ok (keyHeld s b.src (epochOf b.stamp))

/-- The rest of R442 for a packet whose key is at hand: authentication, then what its unit's checks say. DEDUCED, log entry 81. -/
def admitPacket (s : State) (port sub : Nat) (f : Frame) (b : BaseHdr) : State :=
  if !(b.keyEpoch = epochOf b.stamp % 256) || !f.authentic then eventA (dropped s dropAuth) 25 0x64 b.src
  else
    let s1 := if senderAhead s b.membership then requestMembership s else s
    match f.payload with
    | .xport p =>
      match packetCheck s1 p with
      | some w => dropped s1 w
      | none =>
        if p.hdr.dstEp < 256 || s1.xport.resident.contains p.hdr.dstEp then
          bufferItem s1 { port := port, sub := sub, cls := b.cls, bytes := f.bytes, item := .xport p }
        else toMiss s1 { port := port, sub := sub, frame := f }
    | .tray p =>
      if isMember s1 b.src then bufferItem s1 { port := port, sub := sub, cls := b.cls, bytes := f.bytes, item := .tray p } else dropped s1 dropMember
    | _ => s1

/-- A packet of KIND 0 or 1 (R442). A module in conflict drops every packet of the contested ID (14 R415). -/
def receivePacket (s : State) (port sub : Nat) (f : Frame) (b : BaseHdr) : State :=
  if !(s.fab.conflict = []) && (b.src = selfId s || b.dest = selfId s) then dropped s dropConflict
  else match timeChecks s b with
    | .error w => dropped s w
    | .ok true => admitPacket s port sub f b
    | .ok false => toMiss s { port := port, sub := sub, frame := f }

/-- A fragment of a KIND 3 message (14 R416): the message counts once every fragment is held. -/
def receiveFragment (s : State) (port sub bytes frag count : Nat) (c : Control) : State :=
  let k := subtypeOf c
  if 2 < k then dropped s dropControl
  else
    let old := s.fab.fragments.find? fun x => x.subtype = k && x.count = count
    let held := (old.elim [] (·.held)).filter (fun n => !(n = frag)) ++ [frag]
    let rest := s.fab.fragments.filter fun x => !(x.subtype = k)
    if (List.range count).all fun n => held.contains n then
      bufferItem (setFab s { s.fab with fragments := rest }) { port := port, sub := sub, cls := 7, bytes := bytes, item := .control c }
    else setFab s { s.fab with fragments := rest ++ [{ subtype := k, count := count, held := held, since := old.elim s.mono (·.since) }] }

/-- A KIND 3 packet: no nonce is formed for one of a SRC whose serial number has not been seen (19 R547), so it does not authenticate; the first
authenticated one starts the heartbeats (18 R524). In quarantine it is ignored and counted (14 R416). -/
def receiveControl (s : State) (port sub : Nat) (f : Frame) (b : BaseHdr) (frag count : Nat) (c : Control) : State :=
  if s.rel.quarantined then dropped s dropQuarantine
  else if !f.authentic || (openNonce s f.payload).isNone || (secretFor s (epochOf b.stamp)).isNone || (secretFor s (epochOf s.time)).isNone then dropped s dropAuth
  else
    let s1 := { s with
      fab := { s.fab with fmAt := some (port, sub) }
      rel := { s.rel with kind3At := match s.rel.kind3At with
        | some t => some t
        | none => some s.time } }
    receiveFragment s1 port sub f.bytes frag count c

/-- VERSION, KIND and DEST of a base header (14 R410 steps 3 and 4). -/
def headerCheck (s : State) (b : BaseHdr) (kind : Nat) : Option Nat :=
  if !(b.version = 1) || !(b.kind = kind) then some dropVersion
  else if kind < 2 && (s.fab.id.isNone || !(b.dest = selfId s)) then some dropDest
  else if !(b.dest = selfId s) && !(b.dest = 0x3FFFF) then some dropDest
  else none

/-- The Horxiza packets of R410 step 2 on. The transport engine and the tray port accept no packet while their islands are not ON: its sender sends it again
(02 R50; 18 Table 18.4). -/
def receiveHorxiza (s : State) (port sub : Nat) (f : Frame) : State :=
  let withHdr := fun (b : BaseHdr) (kind : Nat) (k : State) => match headerCheck s b kind with
    | some w => dropped s w
    | none => k
  match f.payload with
  | .xport p => withHdr p.base 0 (if islandDown s 25 then dropped s dropIsland else receivePacket s port sub f p.base)
  | .tray p => withHdr p.base 1 (if islandDown s 26 then dropped s dropIsland else receivePacket s port sub f p.base)
  | .announce b a =>
    withHdr b 2 (if f.authentic && (secretFor s (epochOf b.stamp)).isSome && !s.rel.quarantined then
      bufferItem s { port := port, sub := sub, cls := 7, bytes := f.bytes, item := .announce port sub a } else dropped s dropAnnounce)
  | .control b frag count c => withHdr b 3 (receiveControl s port sub f b frag count c)
  | _ => dropped s dropVersion

/-- A frame on a link that is ON (14 R410). -/
def receiveFrame (s : State) (port sub : Nat) (f : Frame) : State :=
  match f.payload with
  | .ptp => bufferItem s { port := port, sub := sub, cls := 7, bytes := f.bytes, item := .ptp }
  | .pfc l => bufferItem s { port := port, sub := sub, cls := 7, bytes := f.bytes, item := .pfc port sub l }
  | .solicitation a =>
    if s.image.fabric.encap = 1 then bufferItem s { port := port, sub := sub, cls := 7, bytes := f.bytes, item := .solicitation port sub a }
    else dropped s dropType
  | .advertisement a =>
    if s.image.fabric.encap = 1 then setFab s { s.fab with hops := if s.fab.hops.contains a then s.fab.hops else a :: s.fab.hops } else dropped s dropType
  | _ =>
    if !f.checkOk then dropped s dropCheck
    else if !(f.etype = if s.image.fabric.encap = 0 then s.image.fabric.ethertype else s.image.fabric.udpPort) then dropped s dropType
    else receiveHorxiza s port sub f

/-- FRAME_RECEIVE (14 R410). -/
def execFrameReceive (port sub : Nat) (f : Frame) (s : State) : Host.Outcome State Fault Refusal :=
  if linkExists s port sub && linkOn s port sub then quiet s (receiveFrame s port sub f) else .next s

/-! ### Packets that waited (R431) -/

/-- Process frames of the miss buffer as if they had just arrived. -/
def rearrive (s : State) : List MissFrame → State
  | [] => s
  | m :: r => rearrive (receiveFrame s m.port m.sub m.frame) r

/-- The base header of a packet of KIND 0 or 1. -/
def pairHdr : Payload → Option BaseHdr
  | .xport p => some p.base
  | .tray p => some p.base
  | _ => none

/-- CONTEXT_FETCH_COMPLETE (R430, R431). -/
def execContextFetchComplete (n : Nat) (s : State) : Host.Outcome State Fault Refusal :=
  if (epOf s n).opened then
    let mine := s.xport.miss.filter fun m => destEp m.frame.payload = some n
    let s1 := useContext s n
    quiet s (rearrive (setXport s1 { s1.xport with miss := s1.xport.miss.filter fun m => !(destEp m.frame.payload = some n) }) mine)
  else .next s

/-- Send records toward a peer. -/
def sendsTo (s : State) (peer : Nat) : List Nat := (s.xport.sends.filter fun r => r.dest = peer).map (·.id)

/-! ### The packets (R443–R449) -/

/-- A unit takes a packet from its receive buffer and checks it once more as it stands now (R442 steps 5 to 7). DEDUCED, log entry 81. -/
def withPacket (s : State) (p : XPacket) (type : Nat) (k : State → State) : State :=
  let s1 := takeItem s (.xport p)
  if !(p.hdr.type = type) || s1.rel.quarantined then s1
  else match packetCheck s1 p with
    | some w => dropped s1 w
    | none => k (if p.hdr.dstEp < 256 then s1 else useContext s1 p.hdr.dstEp)

/-- DATA (R443). Placement in host memory writes it. -/
def execData (p : XPacket) (s : State) : Host.Outcome State Fault Refusal := ordinary s (withPacket s p 0 fun s => deliver s p)

/-- The packet that an ACK of a record answers. -/
def RecvRec.packet (r : RecvRec) (s : State) : XPacket :=
  { base := baseHdr 0 r.cls (selfId s) 0 0 |> fun b => { b with src := r.src }
    hdr := { type := 0, mode := r.mode, final := false, dstEp := r.dstEp, dstGen := (epOf s r.dstEp).gen, srcEp := r.srcEp, srcGen := r.srcGen,
             reason := 0, serial := r.serial, packet := 0, msgLength := r.length, tag := r.tag, hintUs := 0, mkey := r.mkey, off64 := r.off64 }
    data := [] }

/-- ACK_COALESCE_TIMER (R444): 2 µs after the oldest unacknowledged placement. -/
def execAckCoalesceTimer (src srcEp srcGen serial : Nat) (s : State) : Host.Outcome State Fault Refusal :=
  match s.xport.recvs.find? fun r => r.src = src && r.srcEp = srcEp && r.srcGen = srcGen && r.serial = serial with
  | none => .next s
  | some r => match r.oldest with
    | none => .next s
    | some t => if t + 2000 ≤ s.mono then quiet s (sendAck s (r.packet s) r) else .next s

/-- The send record that a control packet concerns: its peer is the message's destination. -/
def answered (s : State) (p : XPacket) : Option SendRec :=
  (sendOfHdr s p.hdr.dstEp p.hdr.dstGen p.hdr.serial).filter fun r => r.dest = p.base.src

/-- ACK (R446): FINAL frees the send record; otherwise placed packets are noted and further ones go out. -/
def takeAck (s : State) (p : XPacket) : State :=
  match answered s p with
  | none => s
  | some r =>
    if p.hdr.final then
      (if r.failed.isSome then freeSend s r
       else
         let s1 := if r.completed then s else sendDone s r
         endOp (freeSend s1 r) r.op true)
    else if r.failed.isSome then s
    else pump (modSend s r.id fun x => acknowledge x p.hdr.packet p.data) r.id

def execAck (p : XPacket) (s : State) : Host.Outcome State Fault Refusal := quiet s (withPacket s p 1 fun s => takeAck s p)

/-- NOT_READY (R447): the packet waits HINT_US and is then a new first transmission. -/
def execNotReady (p : XPacket) (s : State) : Host.Outcome State Fault Refusal :=
  quiet s (withPacket s p 2 fun s =>
    match answered s p with
    | none => s
    | some r =>
      let x := r.tx p.hdr.packet
      if r.failed.isSome || x.acked || p.hdr.packet < r.low || !x.sent then s
      else
        let first := match x.refusedAt with
          | some t => some t
          | none => some s.mono
        modSend s r.id fun y => y.setTx p.hdr.packet { TxPacket.fresh with refusedAt := first, holdUntil := some (s.mono + p.hdr.hintUs * 1000) })

/-- NOT_READY_RETRY (R447). -/
def execNotReadyRetry (id p : Nat) (s : State) : Host.Outcome State Fault Refusal :=
  match sendById s id with
  | none => .next s
  | some r => match (r.tx p).holdUntil with
    | none => .next s
    | some t =>
      if t ≤ s.mono && r.failed.isNone then quiet s (pump (modSend s id fun y => y.setTx p { y.tx p with holdUntil := none }) id)
      else .next s

/-- NOT_READY_TIMEOUT (R447): 1,000 ms after its first refusal the packet has still not been placed. -/
def execNotReadyTimeout (id p : Nat) (s : State) : Host.Outcome State Fault Refusal :=
  match sendById s id with
  | none => .next s
  | some r => match (r.tx p).refusedAt with
    | none => .next s
    | some t =>
      if t + 1000000000 ≤ s.mono && !(r.tx p).acked && r.failed.isNone then quiet s (failAndAbort s r Status.receiverNotReady) else .next s

/-- REFUSE (R448): the message fails with the code in REASON. -/
def execRefuse (p : XPacket) (s : State) : Host.Outcome State Fault Refusal :=
  quiet s (withPacket s p 3 fun s =>
    match answered s p with
    | none => s
    | some r => if r.failed.isSome then s else failAndAbort s r (0x0700 + p.hdr.reason))

/-- ABORT (R449): the record is abandoned, the ID is remembered as aborted, and a FINAL ACK answers. -/
def execAbort (p : XPacket) (s : State) : Host.Outcome State Fault Refusal :=
  quiet s (withPacket s p 4 fun s =>
    let r := recvOf s p
    let s1 := match r with
      | some x => abandon s x
      | none => s
    finalAck (remember s1 p (max p.base.stamp (r.elim 0 (·.maxStamp))) true) p)

/-- A packet that has been sent is due again: its interval has passed without an acknowledgement (R446). -/
def TxPacket.overdue (x : TxPacket) (now : Nat) : Bool := x.sent && !x.queued && !x.acked && x.holdUntil.isNone && x.lastTx + x.interval ≤ now

def TxPacket.again (x : TxPacket) : TxPacket := { x with attempt := x.attempt + 1, interval := nextInterval x.interval }

/-- RETRANSMIT_TIMER (R446): of a failed message, the ABORT is sent again. A packet that its budget holds at the crossbar waits (17 R499). -/
def execRetransmitTimer (id p : Nat) (s : State) : Host.Outcome State Fault Refusal :=
  match sendById s id with
  | none => .next s
  | some r =>
    if r.failed.isSome then
      (if r.abortPkt.overdue s.mono then
        let r1 := { r with abortPkt := r.abortPkt.again }
        quiet s (emit (modSend s id fun _ => r1) r1 0 true)
       else .next s)
    else if p < r.low || !(r.tx p).overdue s.mono || sourceHeld s r.tenant r.cls (packetLen r.length p) then .next s
    else
      let r1 := r.setTx p (r.tx p).again
      quiet s (emit (modSend s id fun _ => r1) r1 p false)

/-- Has a packet's lifetime passed (R448)? -/
def TxPacket.expired (x : TxPacket) (s : State) : Bool := (x.sent || x.queued) && !x.acked && x.stamp + lifetimeNs s + 1000 < s.time

/-- DELIVERY_TIMEOUT (R448): the message fails, or, where its ABORT has expired, its record is freed. -/
def execDeliveryTimeout (id p : Nat) (s : State) : Host.Outcome State Fault Refusal :=
  match sendById s id with
  | none => .next s
  | some r =>
    if r.failed.isSome then (if r.abortPkt.expired s then quiet s (freeSend s r) else .next s)
    else if r.low ≤ p && (r.tx p).expired s then quiet s (failAndAbort s r Status.deliveryTimeout)
    else .next s

/-- COMPLETION_TABLE_EXPIRY (R445). -/
def execCompletionTableExpiry (src srcEp srcGen serial : Nat) (s : State) : Host.Outcome State Fault Refusal :=
  quiet s (setXport s { s.xport with remembered := s.xport.remembered.filter fun r =>
    !(r.src = src && r.srcEp = srcEp && r.srcGen = srcGen && r.serial = serial && r.maxStamp + lifetimeNs s < s.time) })

end Sys2Proof.Machine
end

