-- ==== Sys2Proof/Machine/TrayHome.lean ====
section
/-!
DEFINITION. The home of tray operations: checks, line queues, the operations, replies (16_tray_memory_fabric.md R461–R475, R481).
-/
namespace Sys2Proof.Machine

/-! ### Operations (R464–R467, Table 16.3) -/

/-- Bytes of an ATOMIC operand. -/
def widthBytes (w : Nat) : Nat := 4 * 2 ^ w

/-- Bytes of a REDUCE element: INT32, INT64, FP32, BF16. -/
def dtypeBytes : Nat → Nat
  | 0 => 4
  | 1 => 8
  | 2 => 4
  | _ => 2

/-- Request data of an operation (Table 16.2). -/
def requestLen (h : TrayHdr) : Nat := if h.op = 0 then 0 else h.len

/-- Bytes of memory that an operation touches. -/
def touchedLen (h : TrayHdr) : Nat := if h.op = 2 then widthBytes h.width else h.len

/-- A reserved code, or a field that Table 16.3 and R465 do not allow. -/
def trayFormatBad (h : TrayHdr) : Bool :=
  4 < h.op || h.len = 0 || 4096 < h.len ||
  (h.op = 2 && (7 < h.aop || 2 < h.width || (h.width = 2 && 1 < h.aop) || !(h.len = (if h.aop = 1 then 2 else 1) * widthBytes h.width))) ||
  (h.op = 3 && (5 < h.aop || (2 < h.aop && 1 < h.dtype))) ||
  (!(h.op = 2) && !(h.op = 3) && !(h.aop = 0))

/-- Alignment of R465. -/
def trayAlignBad (h : TrayHdr) : Bool :=
  (h.op = 2 && !(h.addr % widthBytes h.width = 0)) ||
  (h.op = 3 && !(h.addr % dtypeBytes h.dtype = 0 && h.len % dtypeBytes h.dtype = 0))

/-- The right that an operation needs (Table 16.2). -/
def opRight : Nat → Right
  | 0 => .read
  | 2 => .atomic
  | 3 => .reduce
  | _ => .write

/-- An ATOMIC on `n`-bit values: the value stored (R467). -/
def atomicNew (n aop old a b : Nat) : Nat :=
  match aop with
  | 0 => a
  | 1 => if old = a then b else old
  | 2 => (old + a) % 2 ^ n
  | 3 => old &&& a
  | 4 => old ||| a
  | 5 => old ^^^ a
  | 6 => if signed n a < signed n old then a else old
  | _ => if signed n old < signed n a then a else old

/-- minimum and maximum of IEEE 754-2019: NaN if either is NaN, −0.0 below +0.0 (R466). -/
def fpMin (x y : Num) : Num :=
  if x = .nan || y = .nan then .nan
  else if Num.eqv x y then (if Num.isNeg x then x else y)
  else if Num.lt x y then x else y

def fpMax (x y : Num) : Num :=
  if x = .nan || y = .nan then .nan
  else if Num.eqv x y then (if Num.isNeg x then y else x)
  else if Num.lt x y then y else x

/-- A reduction on a floating-point format (R466): BF16 adds in FP32 first. -/
def reduceFp (f : Fp) (aop m e : Nat) : Nat :=
  let x := f.decode m
  let y := f.decode e
  f.encode (match aop with
    | 0 => f.round (r32 (Num.add x y))
    | 1 => fpMin x y
    | _ => fpMax x y)

/-- A reduction on `n`-bit integers (R466). -/
def reduceInt (n aop m e : Nat) : Nat :=
  match aop with
  | 0 => (m + e) % 2 ^ n
  | 1 => if signed n e < signed n m then e else m
  | 2 => if signed n m < signed n e then e else m
  | 3 => m &&& e
  | 4 => m ||| e
  | _ => m ^^^ e

/-- One element of a REDUCE. -/
def reduceOne (dtype aop m e : Nat) : Nat :=
  match dtype with
  | 0 => reduceInt 32 aop m e
  | 1 => reduceInt 64 aop m e
  | 2 => reduceFp Fp.f32 aop m e
  | _ => reduceFp Fp.b16 aop m e

/-- Reduce the elements of a piece into the stored bytes. -/
def reduceBytes (dtype aop : Nat) (old new : List Byte) : List Byte :=
  let n := dtypeBytes dtype
  (List.range (new.length / n)).flatMap fun i =>
    leBytes n (reduceOne dtype aop (leNat ((old.drop (n * i)).take n)) (leNat ((new.drop (n * i)).take n)))

/-! ### Replies (R468, R469, R474) -/

def sourceOf (s : State) (m : Nat) : TraySource := tgetD s.tray.sources m .fresh
def setSource (s : State) (m : Nat) (x : TraySource) : State := setTray s { s.tray with sources := tset s.tray.sources m x }

def idState (x : TraySource) (n : Nat) : OpState := tgetD x.ids n .empty

/-- ENTROPY of a tray packet (R468). -/
def trayEntropy (src opId attempt : Nat) : Nat := (mix (src * 65536 + opId) + 7 * attempt) % 65536

/-- A tray packet of the module to itself (R478). -/
def trayToSelf (s : State) (p : TPacket) : State := bufferItem s { port := 16, sub := 0, cls := p.base.cls, bytes := 0, item := .tray p }

/-- Send a reply: the class of its request, the queue of the region's tenant (17 R488). -/
def sendReply (s : State) (p : TPacket) (tenant : Option Nat) : State :=
  if p.base.dest = selfId s then
    let (b, s1) := stampBase s p.base s.time
    trayToSelf s1 { p with base := b }
  else
    (enqueuePacket s p.base.dest p.base.entropy p.base.cls tenant true (frameBytes s (32 + p.data.length)) (.tray p)).getD s

/-- The reply to a request. -/
def replyTo (s : State) (p : TPacket) (status : Nat) (poison : Bool) (data : List Byte) : TPacket :=
  { base := baseHdr 1 p.base.cls p.base.src (trayEntropy (selfId s) p.hdr.opId 0) data.length
    hdr := { p.hdr with type := 1, status := status, poison := poison, ackedBelow := 0 }
    data := data }

/-- Reply and cache the reply: the ID becomes HELD (R469, R474). -/
def replyAndHold (s : State) (p : TPacket) (status : Nat) (poison : Bool) (data : List Byte) (tenant : Option Nat) : State :=
  let r := replyTo s p status poison data
  let x := sourceOf s p.base.src
  sendReply (setSource s p.base.src { x with ids := tset x.ids p.hdr.opId (.held r s.mono) }) r tenant

/-! ### TRAY_REQUEST (R469) -/

/-- The region of SPACE 3 and KIND 0 or 2 that a request may touch, or the code of its refusal (R434, step 6). A tray request names no destination
endpoint, so its key alone admits it. -/
def trayRegion (s : State) (h : TrayHdr) : Except Nat (Nat × Region) :=
  match keyRegion s h.mkey with
  | none => .error Status.mkeyInvalid
  | some (i, r) =>
    if !(r.space = 3) || !(r.kind = 0 || r.kind = 2) then .error Status.mkeyInvalid
    else if !r.grants (opRight h.op) then .error Status.mkeyRights
    else
      let base := r.location % 2 ^ 41
      let a := h.addr % 2 ^ 41
      if a < base || base + r.length < a + touchedLen h then .error Status.mkeyRange else .ok (i, r)

/-- Requests that wait at a line, in order of arrival. -/
def lineQueue (s : State) (l : Nat) : List TrayWork := s.tray.work.filter (·.nextLine = l)

/-- Join the queue of a line. At 64 requests the hot-line counter rises and an event record is written, once per line in an age epoch (R473). -/
def joinLine (s : State) (w : TrayWork) : State :=
  let s1 := setTray s { s.tray with work := s.tray.work ++ [w] }
  let epoch := s.time / 1000000
  if (lineQueue s1 w.nextLine).length = 64 && !(tget s.tray.hotAt w.nextLine = some epoch) then
    let t := (tget s.xport.regions w.region).map (·.tenant)
    eventT (setTray s1 { s1.tray with hotLines := satAdd 32 s1.tray.hotLines 1, hotAt := tset s1.tray.hotAt w.nextLine epoch }) 26 0x70 false t 0
  else s1

/-- Steps 4 to 8 of R469 for a request that is to be performed. DEDUCED, log entry 88. -/
def acceptRequest (s : State) (p : TPacket) : State :=
  let x := sourceOf s p.base.src
  let h := p.hdr
  if 16 ≤ x.queued then dropped s dropCredit
  else
    let s1 := setSource s p.base.src { x with ids := tset x.ids h.opId .waiting }
    if 1 < h.type || trayFormatBad h || !(p.data.length = requestLen h) then replyAndHold s1 p Status.trayFormat false [] none
    else if trayAlignBad h then replyAndHold s1 p Status.trayAlign false [] none
    else match trayRegion s1 h with
      | .error e => replyAndHold s1 p e false [] none
      | .ok (i, r) =>
        if s.tray.frozen.contains (r.tenant, r.job) && r.kind = 0 then replyAndHold s1 p Status.trayJobFrozen false [] (some r.tenant)
        else
          let s2 := setSource s1 p.base.src { sourceOf s1 p.base.src with queued := x.queued + 1 }
          joinLine s2 { pkt := p, region := i, nextLine := h.addr % 2 ^ 41 / 64, gathered := [], poison := false }

/-- ACKED_BELOW releases the cached replies that it passes (R474). -/
def release (x : TraySource) (below : Nat) : TraySource :=
  { x with ids := x.ids.map fun e => match e.2 with
    | .held _ _ => if signed 16 (e.1 + 65536 - below) < 0 then (e.1, .released) else e
    | _ => e }

/-- A new highest ID: those passed over are EMPTY, and those that fall out of the last 256 are forgotten (R474). -/
def advanceTo (x : TraySource) (n : Nat) : TraySource :=
  let age := fun (k : Nat) => signed 16 (k + 65536 - n)
  { x with highest := n, ids := x.ids.filter fun e => decide (age e.1 ≥ -255) && decide (age e.1 ≤ age x.highest) }

/-- The handling of an ID (Table of R474). -/
def takeRequest (s : State) (p : TPacket) : State :=
  let n := p.hdr.opId
  let x := release (sourceOf s p.base.src) p.hdr.ackedBelow
  let s0 := setSource s p.base.src x
  let d := signed 16 (n + 65536 - x.highest)
  if 1 ≤ d then acceptRequest (setSource s0 p.base.src (advanceTo x n)) p
  else if d < -255 then sendReply s0 (replyTo s0 p Status.staleOp false []) none
  else match idState x n with
    | .empty => acceptRequest s0 p
    | .waiting => s0
    | .held r _ => sendReply s0 r ((tget s.xport.regions (p.hdr.mkey % 2 ^ 24)).map (·.tenant))
    | _ => sendReply s0 (replyTo s0 p Status.staleOp false []) none

/-- TRAY_REQUEST (R469). A REPLY is left to the initiator side (step 2). -/
def execTrayRequest (p : TPacket) (s : State) : Host.Outcome State Fault Refusal :=
  if p.hdr.type = 1 then .next s
  else
    let s1 := takeItem s (.tray p)
    if s1.rel.quarantined then quiet s s1
    else if !(p.base.src / 32 = selfId s / 32) || !(p.base.dest / 32 = selfId s / 32) || !(p.hdr.addr / 2 ^ 41 = p.base.dest % 32) then
      quiet s (dropped s1 dropTray)
    else if !isMember s1 p.base.src then quiet s (dropped s1 dropMember)
    else quiet s (takeRequest s1 p)

/-! ### TRAY_LINE_OPERATION (R470, R471) -/

/-- To whom the fill and the write-back of a request's line are charged: the region's tenant, in the request's class (17 R500). -/
def linePayer (s : State) (w : TrayWork) : Option (Nat × Nat) :=
  (tget s.xport.regions w.region).bind fun r => if r.system then none else some (r.tenant, w.pkt.base.cls)

/-- Does a budget let the line be worked on: it is held, or its fill passes its gates (17 R499)? -/
def lineServed (s : State) (l : Nat) (w : TrayWork) : Bool :=
  s.tray.buffer.any (·.line = l) || (linePayer s w).all fun p => mayMove s p.1 p.2 [l / 2 ^ 30]

/-- The source slot of a request (R472). -/
def sourceSlot (w : TrayWork) : Nat := w.pkt.base.src % 32

/-- The requesters of the arbiter of R472: source slots with a request at the head of a line's queue. -/
def lineRequesters (s : State) : List Nat :=
  ((s.tray.work.map (·.nextLine)).eraseDups.filterMap fun l => (lineQueue s l).head?.filter (lineServed s l)).map sourceSlot

/-- The source slot that the arbiter grants: the first from the pointer on (02 R43). -/
def lineGrant (s : State) : Option Nat :=
  ((List.range 32).map fun i => (s.tray.linePtr + i) % 32).find? fun n => (lineRequesters s).contains n

/-- Bring a line into the combining buffer of 256 lines; the least recently used line with an empty queue makes place. None where every line has
waiting requests. -/
def holdLine (s : State) (l : Nat) (payer : Option (Nat × Nat)) : Option State :=
  if s.tray.buffer.any (·.line = l) then
    some (setTray s { s.tray with buffer := s.tray.buffer.map fun h => if h.line = l then { h with payer := payer } else h })
  else
    let now := lineNow s l
    let put := fun (st : State) =>
      let s1 := chargeLine st payer l
      setTray s1 { s1.tray with buffer := s1.tray.buffer ++ [{ line := l, payer := payer, bytes := now.1, poison := now.2, usedAt := s1.mono }] }
    if s.tray.buffer.length < 256 then some (put s)
    else
      let idle := s.tray.buffer.filter fun h => (lineQueue s h.line).isEmpty
      match sortBy (fun (a b : HeldLine) => a.usedAt < b.usedAt) idle with
      | [] => none
      | h :: _ => some (put (writeBack s h))

/-- What an operation does to its part of one line: the line's new bytes, the bytes that it returns, and whether poison met it. -/
def lineEffect (p : TPacket) (l : Nat) (old : List Byte) (bad : Bool) : List Byte × Bool × List Byte × Bool :=
  let h := p.hdr
  let a := h.addr % 2 ^ 41
  let lo := max a (64 * l)
  let hi := min (a + touchedLen h) (64 * l + 64)
  let off := lo - 64 * l
  let n := hi - lo
  let mine := (old.drop off).take n
  let new := (p.data.drop (lo - a)).take n
  match h.op with
  | 0 => (old, bad, mine, bad)
  | 2 =>
    let w := widthBytes h.width
    let v := atomicNew (8 * w) h.aop (leNat mine) (leNat (p.data.take w)) (leNat ((p.data.drop w).take w))
    (patch old (leBytes w v) off, bad, mine, bad)
  | 3 => (patch old (reduceBytes h.dtype h.aop mine new) off, bad, [], bad)
  | _ => (patch old new off, bad && n < 64, [], bad && n < 64)

/-- A queued request is answered: the credit is free, and the reply is held. Where its source's state has been reset since the request came (R475), the
new state is left clean. -/
def answerWork (s : State) (w : TrayWork) (status : Nat) (poison : Bool) (data : List Byte) (tenant : Option Nat) : State :=
  let m := w.pkt.base.src
  let x := sourceOf s m
  if idState x w.pkt.hdr.opId = .waiting then
    replyAndHold (setSource s m { x with queued := x.queued - 1 }) w.pkt status poison data tenant
  else sendReply s (replyTo s w.pkt status poison data) tenant

/-- A request has been performed on its last line: the reply leaves and the credit is free (R470, R472). -/
def performed (s : State) (w : TrayWork) : State :=
  answerWork s w Status.ok w.poison w.gathered ((tget s.xport.regions w.region).map (·.tenant))

/-- MKEY_DESTROYs and JOB_CLOSEs that waited for accesses are looked at again. -/
def settleDestroys (s : State) : List Slot → State
  | [] => s
  | x :: r =>
    settleDestroys (if opcodeOf x.cmd = 0x76 && x.phase = .waiting .fabric then destroyTry s x.id (fld x.cmd.w2 31 0) else s) r

/-- Keys of the jobs that are closing. -/
def closingJobs (s : State) : List (Nat × Nat) := (s.host.jobs.filter fun j => j.2.closing).map (·.1)

/-- The first request of a line's queue is performed on that line, when the arbiter grants its source a slot (R472). Which of a source's lines it is, where
several wait, the command says. DEDUCED, log entry 88. -/
def performLine (s : State) (l : Nat) : State :=
  match lineQueue s l with
  | [] => s
  | w :: _ => if !(lineGrant s = some (sourceSlot w)) || !lineServed s l w then s else match holdLine s l (linePayer s w) with
    | none => s
    | some s0 =>
      let s1 := setTray s0 { s0.tray with linePtr := (sourceSlot w + 1) % 32 }
      let now := lineNow s1 l
      let (bytes, bad, got, met) := lineEffect w.pkt l now.1 now.2
      let s2 := putLine (setTray s1 { s1.tray with work := s1.tray.work.erase w }) l bytes bad
      let w1 := { w with nextLine := l + 1, gathered := w.gathered ++ got, poison := w.poison || met }
      let last := (w.pkt.hdr.addr % 2 ^ 41 + touchedLen w.pkt.hdr - 1) / 64
      if l < last then joinLine s2 w1
      else
        let s3 := performed s2 w1
        let s4 := settleDestroys s3 s3.host.slots
        freeAllJobs s4 (closingJobs s4)

/-- TRAY_LINE_OPERATION (R470). -/
def execTrayLineOperation (l : Nat) (s : State) : Host.Outcome State Fault Refusal := quiet s (performLine s l)

/-- COMBINING_WRITEBACK (R471): after 1 µs without an operation. -/
def execCombiningWriteback (l : Nat) (s : State) : Host.Outcome State Fault Refusal :=
  match s.tray.buffer.find? (·.line = l) with
  | none => .next s
  | some h => if (lineQueue s l).isEmpty && h.usedAt + 1000 ≤ s.mono then quiet s (writeBack s h) else .next s

/-- REPLY_EXPIRY (R474): 16 ms after its reply was first sent. -/
def execReplyExpiry (m n : Nat) (s : State) : Host.Outcome State Fault Refusal :=
  let x := sourceOf s m
  match idState x n with
  | .held _ t => if t + 16000000 ≤ s.mono then quiet s (setSource s m { x with ids := tset x.ids n .expired }) else .next s
  | _ => .next s

end Sys2Proof.Machine
end

