-- ==== Sys2Proof/Machine/TrayCmds.lean ====
section
/-!
DEFINITION. The tray commands and the initiator side (16_tray_memory_fabric.md R462, R463, R468, R472, R476–R486).
-/
namespace Sys2Proof.Machine

def peerOf (s : State) (m : Nat) : TrayPeer := tgetD s.tray.peers m .fresh
def setPeer (s : State) (m : Nat) (p : TrayPeer) : State := setTray s { s.tray with peers := tset s.tray.peers m p }

/-- The fabric ID of a slot of the module's tray. -/
def slotId (s : State) (slot : Nat) : Nat := selfId s / 32 * 32 + slot

/-- The lowest OP_ID toward a home still without a reply (Table 16.4). -/
def TrayPeer.below (p : TrayPeer) : Nat := match p.ops with
  | [] => p.nextOp
  | o :: _ => o.opId

/-! ### Frozen jobs (R482, R483) -/

def jobFrozen (s : State) (t j : Nat) : Bool := s.tray.frozen.contains (t, j)

/-- Freeze a job, with its event record (R482). -/
def freezeJob (s : State) (t j : Nat) : State :=
  if jobFrozen s t j then s
  else eventT (setTray s { s.tray with frozen := s.tray.frozen ++ [(t, j)] }) 26 0x71 false (some t) 0

/-- Slots to which a job has sent requests, or which its groups name (R482). -/
def markSlot (s : State) (t j slot : Nat) : State :=
  let m := tgetD s.tray.masks (t, j) 0
  setTray s { s.tray with masks := tset s.tray.masks (t, j) (if bit m slot then m else m + 2 ^ slot) }

/-! ### The end of an operation (R477, R479) -/

/-- Commands that complete when their requests have left (R479). -/
def leavesEarly (op : Nat) : Bool := op = 0x81 || op = 0x83 || op = 0x84

/-- Take an operation without a reply off its list. The credit of a request that has left returns with a late reply; that of one that never left is
free again (R472). -/
def dropTrayOp (s : State) (home : Nat) (o : TrayOp) : State :=
  let p := peerOf s home
  setPeer s home { p with
    ops := p.ops.filter fun x => !(x.opId = o.opId)
    credits := if o.credit && !o.sent then min 16 (p.credits + 1) else p.credits
    lost := if o.credit && o.sent then o.opId :: p.lost else p.lost }

def endCovered (s : State) (o : TrayOp) (ok : Bool) : State :=
  match o.covOp with
  | some k => endOp s k ok
  | none => s

/-- Complete the command of an operation: DONE_COUNTER rises first (R479; 08 R263). -/
def trayFinish (s : State) (o : TrayOp) (status r0 r1 : Nat) : State :=
  match slotById s o.slot with
  | none => s
  | some x => if x.phase = .finished then s else finish (raiseCounter s o.tenant o.doneCounter) o.slot status r0 r1

/-- An operation ends without a confirmation, by TRAY_TARGET_LOST or STALE_OP (R477): a lost LOAD writes its destination poisoned; a STORE, REDUCE or
MCAST_STORE whose completion is posted is reported by an event record; fences report it. -/
def unconfirmed (s : State) (o : TrayOp) (code : Nat) : State :=
  let s1 := if o.cmdOp = 0x80 && code = Status.trayTargetLost then
      refWrite s o.slot o.tenant (refOf o.ref) 0 (List.replicate o.req.hdr.len (0, true)) else s
  let s2 := if leavesEarly o.cmdOp && o.sent then eventT s1 26 0x72 false (some o.tenant) 0 else s1
  endCovered (trayFinish s2 o code 0 0) o false

/-- An operation is lost: its job is frozen (R476, R482). -/
def loseOp (s : State) (home : Nat) (o : TrayOp) : State :=
  freezeJob (unconfirmed (dropTrayOp s home o) o Status.trayTargetLost) o.tenant o.job

def loseAll (s : State) (home : Nat) : List TrayOp → State
  | [] => s
  | o :: r => loseAll (loseOp s home o) home r

/-! ### Transmission (R468, R472, R476, R478, R479) -/

/-- The request data of an operation, read now; none where the source is poisoned. -/
def requestData (s : State) (o : TrayOp) : Option (List Byte) :=
  if o.cmdOp = 0x81 || o.cmdOp = 0x83 || o.cmdOp = 0x84 then
    (if refBad s o.tenant (refOf o.ref) 0 o.req.hdr.len then none else some (refBytes s o.tenant (refOf o.ref) 0 o.req.hdr.len))
  else some o.req.data

/-- The last request of the command has left: a STORE, REDUCE or MCAST_STORE completes (R479). -/
def requestLeft (s : State) (o : TrayOp) : State :=
  if leavesEarly o.cmdOp && !(s.tray.peers.any fun p => p.2.ops.any fun x => x.slot = o.slot && !x.sent) then
    (if o.cmdOp = 0x84 then trayFinish s o Status.ok ((slotById s o.slot).elim 0 (·.aux)) 0 else trayFinish s o Status.ok 0 o.opId)
  else s

/-- A request leaves: its header is completed with a new STAMP, and its source is read (R468, R476, R479). -/
def launchTray (s : State) (home opId entropy : Nat) : Option TPacket × State :=
  match (peerOf s home).ops.find? (·.opId = opId) with
  | none => (none, s)
  | some o =>
    if !o.queued then (none, s)
    else match requestData s o with
      | none => (none, endCovered (trayFinish (dropTrayOp s home o) o Status.operandPoison 0 0) o false)
      | some d =>
        let p := peerOf s home
        let o1 := { o with queued := false, sent := true, firstTx := if o.sent then o.firstTx else s.mono, lastTx := s.mono }
        let s1 := setPeer s home { p with ops := p.ops.map fun x => if x.opId = opId then o1 else x }
        let (b, s2) := stampBase s1 (baseHdr 1 o.req.base.cls home entropy d.length) s.time
        (some { base := b, hdr := { o.req.hdr with ackedBelow := p.below }, data := d }, requestLeft s2 o1)

/-- Operations of a command that are still without a reply, over all homes. -/
def opsOfSlot (s : State) (id : Nat) : List TrayOp := (s.tray.peers.flatMap fun p => p.2.ops).filter fun x => x.slot = id

/-- Bytes that an operation takes into the crossbar as it leaves: those of its source. The payload of a multicast is counted once, as the first of its
requests leaves (02 R33; R481); a retransmission reads its source again (R476). -/
def entryBytes (s : State) (o : TrayOp) : Nat :=
  let mine := opsOfSlot s o.slot
  let entered := mine.length < stageOf s o.slot || mine.any (·.credit)
  if o.cmdOp = 0x84 && !o.credit && entered then 0
  else if o.cmdOp = 0x81 || o.cmdOp = 0x83 || o.cmdOp = 0x84 then o.req.hdr.len
  else o.req.data.length

/-- Put a request on its way: one to the module's own slot enters its own home queues (R478). One whose pair key is not at hand, or that finds no path,
waits, and so does one that its budget holds (17 R499). -/
def emitTray (s : State) (home : Nat) (o : TrayOp) : State :=
  let p := peerOf s home
  let e := trayEntropy (selfId s) o.opId o.attempt
  let mark := fun (st : State) => setPeer st home { p with
    credits := if o.credit then p.credits else p.credits - 1
    ops := p.ops.map fun x => if x.opId = o.opId then { o with queued := true, credit := true } else x }
  let m := entryBytes s o
  if sourceHeld s o.tenant o.req.base.cls m then s
  else if home = selfId s then
    match launchTray (chargeSource (mark s) o.tenant o.req.base.cls o.ref m) home o.opId e with
    | (some k, s1) => trayToSelf s1 k
    | (none, s1) => s1
  else if !keyHeld s home (epochOf s.time) then s
  else
    let n := requestLen o.req.hdr
    match enqueuePacket s home e o.req.base.cls (some o.tenant) false (frameBytes s (32 + n))
        (.tray { o.req with base := baseHdr 1 o.req.base.cls home e n, data := [] }) with
    | none => s
    | some s1 => chargeSource (setPeer s1 home (peerOf (mark s) home)) o.tenant o.req.base.cls o.ref m

/-- Requests toward a home that may go out: in order of ID, each with a credit, below ACKED_BELOW + 256 (R472, R476). -/
def emitTrayAll (s : State) (home : Nat) : List TrayOp → State
  | [] => s
  | o :: r =>
    let p := peerOf s home
    if o.sent || o.queued then emitTrayAll s home r
    else if p.credits = 0 || 256 ≤ (o.opId + 65536 - p.below) % 65536 then s
    else emitTrayAll (emitTray s home o) home r

def trayPump (s : State) (home : Nat) : State := emitTrayAll s home (peerOf s home).ops

/-! ### The commands -/

/-- The request header of a command (Tables 16.4, 16.6). -/
def requestHdr (op aop width dtype len key addr : Nat) : TrayHdr :=
  { type := 0, op := op, aop := aop, width := width, dtype := dtype, opId := 0, ackedBelow := 0, status := 0, poison := false, addr := addr,
    mkey := key, len := len }

/-- OP of a command. -/
def trayOpOf (opcode : Nat) : Nat :=
  match opcode with
  | 0x80 => 0
  | 0x81 => 1
  | 0x82 => 2
  | 0x83 => 3
  | _ => 4

/-- A command's operation toward the home of a slot takes the next OP_ID. A LOAD is no operation that a TRAY_FENCE covers (02 Table 2.7). -/
def addOp (s : State) (c : Cmd) (id : Nat) (ref : Word) (slot : Nat) (h : TrayHdr) (data : List Byte) : State :=
  let t := cmdTenant s c
  let home := slotId s slot
  let p := peerOf s home
  let covered := !(opcodeOf c = 0x80)
  let k := s.host.nextOp
  let s1 := if covered then cover s id .tray none else s
  let o : TrayOp :=
    { opId := p.nextOp, slot := id, tenant := t, job := jobOf c, cmdOp := opcodeOf c, ref := ref, credit := false, queued := false, sent := false,
      attempt := 0, firstTx := 0, lastTx := 0, ran := 0, stopped := 0, covOp := if covered then some k else none,
      doneCounter := if opcodeOf c = 0x82 then 0 else fld c.w5 47 32
      req := { base := baseHdr 1 (classOf c) home 0 0, hdr := { h with opId := p.nextOp }, data := data } }
  let s2 := setPeer s1 home { p with nextOp := wrapAdd 16 p.nextOp 1, ops := p.ops ++ [o] }
  markSlot s2 t (jobOf c) slot

/-- Header of TRAY_LOAD, TRAY_STORE, TRAY_REDUCE and TRAY_ATOMIC. -/
def plainHdr (c : Cmd) : TrayHdr :=
  requestHdr (trayOpOf (opcodeOf c)) (fld c.w2 31 28) (fld c.w2 27 26) (fld c.w2 25 24) (fld c.w2 12 0) (fld c.w2 63 32) (fld c.w3 45 0)

/-- Request data that the command itself carries: the operands of an ATOMIC. -/
def atomicData (c : Cmd) (h : TrayHdr) : List Byte :=
  let w := widthBytes h.width
  leBytes w (c.w4.toNat + c.w5.toNat * 2 ^ 64) ++ (if h.aop = 1 then leBytes w (c.w6.toNat + c.w7.toNat * 2 ^ 64) else [])

/-- Is a home remote while the fabric is not ready (R486 step 9)? -/
def remoteNotReady (s : State) (home : Nat) : Bool := !(home = selfId s) && fabricNotReady s

/-- The checks of a plain tray command, in order (R486). -/
def plainRefusal (s : State) (c : Cmd) (h : TrayHdr) : Option Nat :=
  let t := cmdTenant s c
  let home := slotId s (h.addr / 2 ^ 41)
  let atomic := opcodeOf c = 0x82
  let ref := if atomic then 0 else refCode s t c.w4 h.len
  firstFailure [
    (namesRequest c || trayFormatBad h, Status.trayFormat),
    (!atomic && (4096 ≤ fld c.w5 63 48 || 4096 ≤ fld c.w5 47 32), Status.tagInvalid),
    (jobOf c = 0, Status.trayNoJob),
    (jobFrozen s t (jobOf c), Status.trayJobFrozen),
    (!isMember s home, Status.trayNotMember),
    (trayAlignBad h, Status.trayAlign),
    (!(ref = 0), ref),
    (remoteNotReady s home, Status.fabricNotReady),
    ((opcodeOf c = 0x81 || opcodeOf c = 0x83) && refBad s t (refOf c.w4) 0 h.len, Status.operandPoison)]

/-- A plain tray command starts. DEDUCED, log entry 90. -/
def plainStart (c : Cmd) (id : Nat) (s : State) : State :=
  let h := plainHdr c
  let data := if opcodeOf c = 0x82 then atomicData c h else []
  let s1 := addOp (setPhase s id (.waiting .fabric)) c id (if opcodeOf c = 0x82 then 0 else c.w4) (h.addr / 2 ^ 41) h data
  trayPump s1 (slotId s (h.addr / 2 ^ 41))

/-- A plain tray command is checked when it is presented, and again when a tag lets it start: a job may have frozen meanwhile (R483). DEDUCED, log entry 90. -/
def runPlain (op : Nat) (c : Cmd) (s : State) : State :=
  runCmd op c s fun again id s =>
    if again && !((slotById s id).map (·.phase) = some (.waiting .released)) then s
    else match plainRefusal s c (plainHdr c) with
      | some e => fail s id e
      | none => if again then plainStart c id s else tagGate s id c (if op = 0x82 then 0 else fld c.w5 63 48) false (plainStart c id)

/-- TRAY_LOAD (R479). -/
def execTrayLoad (c : Cmd) (s : State) : Host.Outcome State Fault Refusal := quiet s (runPlain 0x80 c s)

/-- TRAY_STORE (R479). -/
def execTrayStore (c : Cmd) (s : State) : Host.Outcome State Fault Refusal := quiet s (runPlain 0x81 c s)

/-- TRAY_ATOMIC (R467). -/
def execTrayAtomic (c : Cmd) (s : State) : Host.Outcome State Fault Refusal := quiet s (runPlain 0x82 c s)

/-- TRAY_REDUCE (R466). -/
def execTrayReduce (c : Cmd) (s : State) : Host.Outcome State Fault Refusal := quiet s (runPlain 0x83 c s)

/-! ### TRAY_MCAST_STORE (R481) -/

/-- The group that a command names, set by its tenant. -/
def trayGroupOf (s : State) (t g : Nat) : Option TrayGroup := (tget s.tray.groups g).filter fun x => x.tenant = t

/-- The request of a member goes to the member's slot. DESIGN CHOICE: where its address and OFFSET together pass the end of the slot's 2 TiB, the sum is
taken as it is, and the home drops the request, whose SLOT is not its own (R469). DESIGN CHOICE, log entry 89. -/
def mcastHdr (c : Cmd) (m : Nat × Nat) : TrayHdr := requestHdr 4 0 0 0 (fld c.w2 12 0) m.1 ((m.2 + fld c.w3 40 0) % 2 ^ 46)

/-- DESIGN CHOICE, log entry 89. -/
def addMembers (s : State) (c : Cmd) (id : Nat) : List (Nat × Nat) → State
  | [] => s
  | m :: r => addMembers (addOp s c id c.w4 (m.2 / 2 ^ 41) (mcastHdr c m) []) c id r

def pumpPeers (s : State) : List Nat → State
  | [] => s
  | m :: r => pumpPeers (trayPump s m) r

def mcastRefusal (s : State) (c : Cmd) : Option Nat :=
  let t := cmdTenant s c
  let ms := (trayGroupOf s t (fld c.w2 63 56)).elim [] (·.members)
  let len := fld c.w2 12 0
  let homes := ms.map fun m => slotId s (m.2 / 2 ^ 41)
  let ref := refCode s t c.w4 len
  firstFailure [
    (namesRequest c || len = 0 || 4096 < len, Status.trayFormat),
    (4096 ≤ fld c.w5 63 48 || 4096 ≤ fld c.w5 47 32, Status.tagInvalid),
    (jobOf c = 0, Status.trayNoJob),
    (jobFrozen s t (jobOf c), Status.trayJobFrozen),
    (homes.any fun m => !isMember s m, Status.trayNotMember),
    ((trayGroupOf s t (fld c.w2 63 56)).isNone, Status.trayGroupUnknown),
    (!(ref = 0), ref),
    (homes.any (remoteNotReady s), Status.fabricNotReady),
    (refBad s t (refOf c.w4) 0 len, Status.operandPoison)]

/-- The group is read as it stands when the command starts (R481). -/
def mcastStart (c : Cmd) (id : Nat) (s : State) : State :=
  let ms := (trayGroupOf s (cmdTenant s c) (fld c.w2 63 56)).elim [] (·.members)
  let s1 := addMembers (setStage (setPhase s id (.waiting .fabric)) id ms.length) c id ms
  pumpPeers s1 (ms.map fun m => slotId s (m.2 / 2 ^ 41))

/-- DEDUCED, log entry 90. -/
def runTrayMcastStore (c : Cmd) (s : State) : State :=
  runCmd 0x84 c s fun again id s =>
    if again && !((slotById s id).map (·.phase) = some (.waiting .released)) then s
    else match mcastRefusal s c with
      | some e => fail s id e
      | none => if again then mcastStart c id s else tagGate s id c (fld c.w5 63 48) false (mcastStart c id)

/-- TRAY_MCAST_STORE (R481). -/
def execTrayMcastStore (c : Cmd) (s : State) : Host.Outcome State Fault Refusal := quiet s (runTrayMcastStore c s)

/-! ### TRAY_ALLOC (R462) and TRAY_GROUP_SET (R481) -/

/-- DEDUCED, log entry 90. -/
def allocTray (c : Cmd) (id : Nat) (s : State) : State :=
  let t := cmdTenant s c
  let n := c.w2.toNat / 65536
  let stack := (stacksByFree s).headD 0
  if !regionRoom s t false then fail s id Status.mkeyLimit
  else if overQuota s t 1 n then fail s id Status.tierExhausted
  else match freeRun s stack n with
    | none => fail s id Status.tierExhausted
    | some f =>
      let (key, s1) := newRegion s
        { space := 3, location := trayAddr s stack f, length := n * 65536, tenant := t, reduce := flag c.w3 3, atomic := flag c.w3 2,
          write := flag c.w3 1, read := flag c.w3 0, system := false, kind := 0, endpoint := 0, job := jobOf c }
      match takeSpans s1 stack t (regionBack key) (spans f n) with
      | none => fail s id Status.directoryFull
      | some s2 => finish (zeroRun s2 stack f n) id Status.ok key (trayAddr s stack f)

def runTrayAlloc (c : Cmd) (s : State) : State :=
  runCmd 0x85 c s fun _ id s =>
    let b := c.w2.toNat
    match firstFailure [
        (namesRequest c || b < 65536 || 1073741824 < b || !(b % 65536 = 0), Status.trayFormat),
        (jobOf c = 0, Status.trayNoJob),
        (jobFrozen s (cmdTenant s c) (jobOf c), Status.trayJobFrozen)] with
    | some e => fail s id e
    | none => allocTray c id s

/-- TRAY_ALLOC (R462). -/
def execTrayAlloc (c : Cmd) (s : State) : Host.Outcome State Fault Refusal := quiet s (runTrayAlloc c s)

/-- Member entries of 16 bytes (R481): key and tray address. -/
def memberList (s : State) (a n : Nat) : List (Nat × Nat) :=
  (List.range n).map fun i => (bits (s.hostMem.readNat (a + 16 * i) 8) 63 32, s.hostMem.readNat (a + 16 * i + 8) 8 % 2 ^ 46)

def markAll (s : State) (t j : Nat) : List (Nat × Nat) → State
  | [] => s
  | m :: r => markAll (markSlot s t j (m.2 / 2 ^ 41)) t j r

def runTrayGroupSet (c : Cmd) (s : State) : State :=
  runCmd 0x86 c s fun _ id s =>
    let t := cmdTenant s c
    let g := fld c.w2 63 56
    let n := fld c.w2 5 0
    let a := c.w3.toNat
    let ms := memberList s a n
    let slots := ms.map fun m => m.2 / 2 ^ 41
    match firstFailure [
        (namesRequest c || 32 < n, Status.trayFormat),
        (!(a % 64 = 0), Status.operandRange),
        (!(n = 0) && hostBad s a (16 * n), Status.hostReadError),
        (!decide slots.Nodup, Status.trayFormat),
        (jobOf c = 0, Status.trayNoJob),
        (jobFrozen s t (jobOf c), Status.trayJobFrozen),
        (slots.any fun k => !isMember s (slotId s k), Status.trayNotMember)] with
    | some e => fail s id e
    | none =>
      if n = 0 then finish (setTray s { s.tray with groups := tdel s.tray.groups g }) id Status.ok 0 0
      else
        let s1 := setTray s { s.tray with groups := tset s.tray.groups g { tenant := t, job := jobOf c, members := ms } }
        finish (markAll s1 t (jobOf c) ms) id Status.ok n 0

/-- TRAY_GROUP_SET (R481). -/
def execTrayGroupSet (c : Cmd) (s : State) : Host.Outcome State Fault Refusal := quiet s (runTrayGroupSet c s)

/-! ### TRAY_REPLY and the timers (R476, R477, R486) -/

/-- What a reply does to the command of its operation. -/
def replyEffect (s : State) (o : TrayOp) (h : TrayHdr) (data : List Byte) : State :=
  let ok := h.status = Status.ok
  let code := if ok && h.poison then Status.operandPoison else h.status
  if o.cmdOp = 0x80 then
    (if ok then trayFinish (refWrite s o.slot o.tenant (refOf o.ref) 0 (data.map fun b => (b, h.poison))) o code h.len o.opId
     else trayFinish s o code 0 o.opId)
  else if o.cmdOp = 0x82 then
    let old := leNat data
    endCovered (trayFinish s o code (if ok then old % 2 ^ 64 else 0) (if ok then old / 2 ^ 64 else 0)) o ok
  else if h.status = Status.staleOp then unconfirmed s o Status.staleOp
  else endCovered s o ok

/-- A reply reaches the initiator side: the credit returns, the operation ends, and further requests may go out. -/
def takeReply (s : State) (p : TPacket) : State :=
  let home := p.base.src
  let r := peerOf s home
  match r.ops.find? fun o => o.opId = p.hdr.opId && o.sent with
  | none =>
    if r.lost.contains p.hdr.opId then
      trayPump (setPeer s home { r with credits := min 16 (r.credits + 1), lost := r.lost.erase p.hdr.opId }) home
    else s
  | some o =>
    let s1 := setPeer s home { r with credits := min 16 (r.credits + 1), ops := r.ops.filter fun x => !(x.opId = o.opId) }
    let s2 := replyEffect s1 o p.hdr p.data
    let s3 := if p.hdr.status = Status.trayJobFrozen then freezeJob s2 o.tenant o.job else s2
    trayPump s3 home

/-- TRAY_REPLY (R476, R479). A LOAD to host memory writes it. -/
def execTrayReply (p : TPacket) (s : State) : Host.Outcome State Fault Refusal :=
  if !(p.hdr.type = 1) then .next s
  else
    let s1 := takeItem s (.tray p)
    if s1.rel.quarantined then quiet s s1
    else if !(p.base.src / 32 = selfId s / 32) || !isMember s1 p.base.src then quiet s (dropped s1 dropTray)
    else ordinary s (takeReply s1 p)

/-- TRAY_RETRANSMIT_TIMER (R476): 10 µs after the first transmission, and 20 µs after the second. A local operation is never sent again (R478). -/
def execTrayRetransmitTimer (home n : Nat) (s : State) : Host.Outcome State Fault Refusal :=
  match (peerOf s home).ops.find? (·.opId = n) with
  | none => .next s
  | some o =>
    let wait := if o.attempt = 0 then 10000 else 20000
    if o.sent && !o.queued && o.attempt < 2 && !(home = selfId s) && o.lastTx + wait ≤ s.mono then
      quiet s (emitTray s home { o with attempt := o.attempt + 1 })
    else .next s

/-- TRAY_TARGET_LOST (R476): 50 µs of running clock, or a stop of 1,000 ms, which ends a request that has not left too. The clock of each operation
advances with time. DEDUCED, log entry 90. -/
def execTrayTargetLost (home n : Nat) (s : State) : Host.Outcome State Fault Refusal :=
  match (peerOf s home).ops.find? (·.opId = n) with
  | none => .next s
  | some o =>
    if !(home = selfId s) && ((o.sent && 50000 ≤ o.ran) || 1000000000 ≤ o.stopped) then ordinary s (trayPump (loseOp s home o) home) else .next s

/-- Does the 50 µs clock toward a home run: time is held and a path is usable (R476)? -/
def clockRuns (s : State) (home : Nat) : Bool := holdsTime s && !(usablePaths s home).isEmpty

/-- The clocks advance by 1 ns: a request that has been sent counts its running time, and every one the length of a stop. -/
def trayClocks (s : State) : State :=
  setTray s { s.tray with peers := s.tray.peers.map fun e =>
    let on := clockRuns s e.1
    (e.1, { e.2 with ops := e.2.ops.map fun o =>
      if on then { o with ran := if o.sent then o.ran + 1 else o.ran, stopped := 0 } else { o with stopped := o.stopped + 1 } }) }

end Sys2Proof.Machine
end

