-- ==== Sys2Proof/Machine/Shaper.lean ====
section
/-!
DEFINITION. The shaper: gates, credit, and the choice of a link's next frame (17_shaping_and_budgets.md R488–R496, R499–R501).
-/
namespace Sys2Proof.Machine

/-! ### Gate schedules (R494, R495) -/

def gateRec (s : State) (p : Nat) : Option GateRec := s.image.gates.find? (·.port = p)

/-- The cycle C of a schedule. -/
def gateCycle (g : GateRec) : Nat := (g.entries.map (·.1)).sum

/-- The entry whose span contains an offset into the cycle, and the offset at which it ends; `i` and `at'` are where the list begins. -/
def entryAt : List (Nat × Nat) → Nat → Nat → Nat → Option (Nat × Nat)
  | [], _, _, _ => none
  | e :: r, i, at', off => if off < at' + e.1 then some (i, at' + e.1) else entryAt r (i + 1) (at' + e.1) off

/-- The entry in force at fabric time `t`, and the time at which it ends; none before BASE_TIME. -/
def entryNow (g : GateRec) (t : Nat) : Option (Nat × Nat) :=
  if t < g.base || gateCycle g = 0 then none
  else
    let off := (t - g.base) % gateCycle g
    (entryAt g.entries 0 0 off).map fun e => (e.1, t - off + e.2)

/-- Does an entry open a class? -/
def opens (g : GateRec) (i c : Nat) : Bool := bit (g.entries.getD (i % g.entries.length) (0, 0)).2 c

/-- The end of the window of a class from entry `i` on, which ends at `t`: the entries that follow without closing it. -/
def windowEnd (g : GateRec) (c : Nat) : Nat → Nat → Nat → Nat
  | 0, _, t => t
  | n + 1, i, t => if opens g (i + 1) c then windowEnd g c n (i + 1) (t + (g.entries.getD ((i + 1) % g.entries.length) (0, 0)).1) else t

/-- May a frame of a class begin: `start` is the fabric time and `dur` its length on the link, in units of 0.01 ns (R495)? -/
def fitsGate (s : State) (p c start dur : Nat) : Bool :=
  match gateRec s p with
  | none => true
  | some g => match entryNow g s.time with
    | none => true
    | some (i, t) =>
      opens g i c && ((List.range g.entries.length).all (fun j => opens g j c) || start + dur ≤ 100 * windowEnd g c g.entries.length i t)

/-- GATE_ENTRY_CHANGE (R494): the schedule of a port moves to the entry in force. -/
def execGateEntryChange (p : Nat) (s : State) : Host.Outcome State Fault Refusal :=
  match gateRec s p with
  | none => .next s
  | some g => match entryNow g s.time with
    | none => .next s
    | some (i, _) => quiet s { s with shape := { s.shape with gateEntry := tset s.shape.gateEntry p i } }

/-! ### Credit (R490–R492) -/

def shaperRec (s : State) (p c : Nat) : Option ShaperRec := s.image.shapers.find? fun r => r.port = p && r.cls = c

/-- Charged length of a frame (R490). -/
def chargedLen (s : State) (p c bytes : Nat) : Nat := bytes + (shaperRec s p c).elim 0 (·.overhead)

/-- Cycles of the MAC island, at 1.35 GHz, up to a time in ns. -/
def macCycles (ns : Nat) : Nat := ns * 27 / 20

/-- Bring a class's credit up to now, at the rate in force (R491). A SHAPER_RATE knob write then takes effect for the frames that follow (R492).
DEDUCED, log entry 91. -/
def accrue (s : State) (p c : Nat) : State :=
  match shaperRec s p c with
  | none => s
  | some r =>
    let rate := (knobValue s 4 (p * 8 + c)).getD r.rateMbps
    let since := tgetD s.shape.creditAt (p, c) s.mono
    let grown := tgetD s.shape.credit (p, c) 0 + (macCycles s.mono - macCycles since) * (rate * 2 ^ 24 / 10800)
    let s1 := { s with shape := { s.shape with
      credit := tset s.shape.credit (p, c) (min grown (r.burst * 2 ^ 24)), creditAt := tset s.shape.creditAt (p, c) s.mono } }
    match tget s1.mgmt.knobsDue (4, p * 8 + c) with
    | none => s1
    | some v => { s1 with mgmt := { s1.mgmt with
        knobs := tset s1.mgmt.knobs (4, p * 8 + c) v, knobsDue := tdel s1.mgmt.knobsDue (4, p * 8 + c) } }

def accrueAll (s : State) (p : Nat) : List Nat → State
  | [] => s
  | c :: r => accrueAll (accrue s p c) p r

/-- Does a class hold credit for a frame of charged length `n` (R492)? DEDUCED, log entry 91. -/
def creditFor (s : State) (p c n : Nat) : Bool :=
  (shaperRec s p c).isNone || n * 2 ^ 24 ≤ tgetD s.shape.credit (p, c) 0

def spendCredit (s : State) (p c n : Nat) : State :=
  if (shaperRec s p c).isNone then s
  else { s with shape := { s.shape with credit := tset s.shape.credit (p, c) (tgetD s.shape.credit (p, c) 0 - n * 2 ^ 24) } }

/-! ### FRAME_TRANSMIT_SELECT (R489) -/

def queueAt (s : State) (p k c q : Nat) : List Queued := tgetD s.shape.queues (p, k, c, q) []

/-- The first of `n` requesters, from the pointer upward with wrap-around, that is eligible (02 R43). -/
def grantFrom (n ptr : Nat) (ok : Nat → Bool) : Option Nat := ((List.range n).map fun i => (ptr + i) % n).find? ok

/-- When a link's next frame may begin, in units of 0.01 ns of the clock that never steps. -/
def startAt (s : State) (p k : Nat) : Nat := max (100 * s.mono) (tgetD s.shape.busyUntil (p, k) 0)

/-- Time of a frame on its link, in units of 0.01 ns: L × 8 / link rate. -/
def airTime (s : State) (p n : Nat) : Nat := n * 800 / linkRate s p

/-- May the module send packets of KIND 0 and 1: it holds time, and its ID is not contested (15 R435; 14 R415)? -/
def mayTransmit (s : State) : Bool := holdsTime s && s.fab.conflict = [] && s.fab.id.isSome

/-- Is a queue of a class eligible (R489)? -/
def queueEligible (s : State) (p k c q : Nat) : Bool :=
  match queueAt s p k c q with
  | [] => false
  | x :: _ =>
    if c = 8 then true
    else
      let n := chargedLen s p c x.bytes
      let start := startAt s p k
      mayTransmit s && !(tgetD s.fab.paused (p, k) []).contains c &&
      fitsGate s p c (100 * s.time + (start - 100 * s.mono)) (airTime s p n) && creditFor s p c n &&
      (q = 16 || x.exempt || gateOpen s q 3 c 0)

/-- Queues of a class: 17, or the one of link control. -/
def queuesIn (c : Nat) : Nat := if c = 8 then 1 else 17

def classEligible (s : State) (p k c : Nat) : Bool := (List.range (queuesIn c)).any (queueEligible s p k c)

/-- TIME of a HEARTBEAT is the fabric time of its sending (18 Table 18.8). -/
def timed (s : State) : Control → Control
  | .heartbeat l => .heartbeat (l.set 2 s.time)
  | c => c

/-- A frame as it leaves: packets of the transport engine and the tray port are completed; one that is no longer wanted is none. -/
def finalFrame (s : State) (x : Queued) : Option Frame × State :=
  match x.frame.payload with
  | .xport p =>
    if p.hdr.type = 0 || p.hdr.type = 4 then
      match launch s p.hdr.srcEp p.hdr.srcGen p.hdr.serial p.hdr.packet (p.hdr.type = 4) p.base.entropy with
      | (some q, s1) => (some { x.frame with payload := .xport q }, s1)
      | (none, s1) => (none, match sendOfHdr s1 p.hdr.srcEp p.hdr.srcGen p.hdr.serial with
        | some r => abortDue s1 r.id
        | none => s1)
    else
      let (b, s1) := stampBase s p.base s.time
      (some { x.frame with payload := .xport { p with base := b } }, s1)
  | .tray p =>
    if p.hdr.type = 0 then
      match launchTray s p.base.dest p.hdr.opId p.base.entropy with
      | (some q, s1) => (some { x.frame with payload := .tray q }, s1)
      | (none, s1) => (none, trayPump s1 p.base.dest)
    else
      let (b, s1) := stampBase s p.base s.time
      (some { x.frame with payload := .tray { p with base := b } }, s1)
  | .announce b a =>
    let (b1, s1) := stampBase s b s.time
    (some { x.frame with payload := .announce b1 a }, s1)
  | .control b i n c =>
    let (b1, s1) := stampBase s b s.time
    (some { x.frame with payload := .control b1 i n (timed s c) }, s1)
  | _ => (some x.frame, s)

/-- A frame begins: credit, budget and meter are charged, and the link is busy for its length (R490, R492, R499, R500). -/
def beginFrame (s : State) (p k c : Nat) (x : Queued) (f : Frame) : State :=
  let n := chargedLen s p c x.bytes
  let until' := startAt s p k + airTime s p n
  let s1 := { s with
    shape := { s.shape with busyUntil := tset s.shape.busyUntil (p, k) until' }
    fab := { s.fab with sent := (p, k, f) :: s.fab.sent } }
  if c = 8 then s1
  else
    let s2 := spendCredit s1 p c n
    match x.tenant with
    | some t => meterAdd (charge s2 t 3 c 0 n) t 255 4 n
    | none => s2

/-- The choice of the next frame, and its start. -/
def selectFrame (s0 : State) (p k : Nat) : State :=
  let s := accrueAll s0 p (List.range 8)
  match grantFrom 9 (tgetD s.shape.classPtr (p, k) 0) (classEligible s p k) with
  | none => s
  | some c =>
    match grantFrom (queuesIn c) (tgetD s.shape.queuePtr (p, k, c) 0) (queueEligible s p k c) with
    | none => s
    | some q => match queueAt s p k c q with
      | [] => s
      | x :: rest =>
        let s1 := { s with shape := { s.shape with
          queues := tset s.shape.queues (p, k, c, q) rest
          classPtr := tset s.shape.classPtr (p, k) ((c + 1) % 9)
          queuePtr := tset s.shape.queuePtr (p, k, c) ((q + 1) % queuesIn c) } }
        match finalFrame s1 x with
        | (none, s2) => s2
        | (some f, s2) => beginFrame s2 p k c x f

/-- FRAME_TRANSMIT_SELECT (R489): a link that is ON and not busy begins its next frame. In quarantine nothing leaves (18 R527). -/
def execFrameTransmitSelect (p k : Nat) (s : State) : Host.Outcome State Fault Refusal :=
  if linkExists s p k && linkOn s p k && !s.rel.quarantined && startAt s p k < 100 * (s.mono + 1) then ordinary s (selectFrame s p k) else .next s

/-! ### Budget periods (R499) -/

/-- A budget period begins (R499): the knobs that wait for it take effect, its gates receive their grants, and what they held at the crossbar's entry
goes on; the average and the ceiling are set anew (R506). -/
def budgetStart (s : State) : State :=
  let s1 := applyKnobs s [1, 2, 3]
  let s2 := pumpAll (refillBudgets s1) (s.xport.sends.map (·.id))
  let s3 := pumpPeers s2 (s2.tray.peers.map (·.1))
  { s3 with gov := { s3.gov with averageW := averagePower s, ceiling := nextCeiling s.gov (limitW s1) (averagePower s) } }

/-- BUDGET_PERIOD_BOUNDARY (17 R499, R506; knobs 0x0001–0x0003 of 03 Table 3.12). -/
def execBudgetPeriodBoundary (s : State) : Host.Outcome State Fault Refusal :=
  if running s && s.time % 10000 = 0 then quiet s (budgetStart s) else .next s

end Sys2Proof.Machine
end

