-- ==== Sys2Proof/Machine/Health.lean ====
section
/-!
DEFINITION. Health states of parts, spare lanes, the reset of links, and announcements, which tell of them
(18_reliability_and_spares.md R520, R521; 14_fabric_ports_and_addressing.md R403–R406, R414; 03 Table 3.15).
-/
namespace Sys2Proof.Machine

/-! ### Parts (18 Table 18.3) -/

/-- The island that reports of a part, and the part's index in the island's records (20 Table 20.2). -/
def partPlace (part i : Nat) : Nat × Nat :=
  match part with
  | 0 => (i / 17, i % 17)
  | 1 => (i / 9, i % 9)
  | 2 => (36 + i / 18, i % 18)
  | 3 => (i / 68, i % 68)
  | 4 => (24, i)
  | 5 => (21, i)
  | 6 => (i, 0)
  | _ => (36 + i / 4, i % 4)

/-- The spares that may take the place of a part, lowest first (18 Table 18.3). -/
def sparesFor (s : State) (part i : Nat) : List Nat :=
  match part with
  | 0 => [i / 17 * 17 + s.order.dies]
  | 1 => [i / 9 * 9 + 8]
  | 2 => [i / 18 * 18 + 16, i / 18 * 18 + 17]
  | 3 => (List.range 4).map fun k => i / 68 * 68 + 64 + k
  | 4 => [32, 33]
  | 5 => [16, 17]
  | _ => []

def healthOf (s : State) (part i : Nat) : Health := tgetD s.rel.health (part, i) .fresh

def setHealth (s : State) (part i : Nat) (h : Health) : State := { s with rel := { s.rel with health := tset s.rel.health (part, i) h } }

/-- A health state changes, with its event record, which carries the injected mark where an injected detection is the cause (18 R515, R521). -/
def healthBy (s : State) (inj : Bool) (part i : Nat) (st : HealthState) : State :=
  let h := healthOf s part i
  if h.state = st then s
  else
    let (island, ix) := partPlace part i
    eventT (setHealth s part i { h with state := st }) island 0x28 inj none (argIndex st.code ix)

/-- A health state changes. -/
def healthTo (s : State) (part i : Nat) (st : HealthState) : State := healthBy s false part i st

/-- A retirement is recorded in fuses when it completes (18 R521). -/
def fuseMove (s : State) (part i spare : Nat) : State :=
  { s with fuses := { s.fuses with moves := s.fuses.moves ++ [{ part := part, index := i, spare := spare }] } }

/-! ### Announcements (14 R414, Table 14.4) -/

def roleCode (s : State) : Nat := s.image.role.code

/-- LINKS_ON. -/
def linksMask (s : State) : Nat := ((linksOn s).map fun l => 2 ^ (l.1 * 4 + l.2)).sum

def announceOf (s : State) (p k : Nat) : Announce :=
  { installation := s.image.installationId, serial := s.fuses.serial, fabricId := selfId s, role := roleCode s, portDies := s.order.portDies - 1,
    link := p * 4 + k, linksOn := linksMask s, membership := s.fab.epoch }

/-- May a packet of KIND 2 or 3 leave (19 R545; 18 R527)? The first announcements go out as the module enters READY (03 R67). DEDUCED, log entry 93. -/
def mayAnnounce (s : State) : Bool := isReady s && (secretFor s (epochOf s.time)).isSome && !s.rel.quarantined

/-- Send an announcement on a link. -/
def announceOn (s : State) (l : Nat × Nat) : State :=
  if linkOn s l.1 l.2 && mayAnnounce s then
    let a := announceOf s l.1 l.2
    enqueueControl { s with fab := { s.fab with announced := tset s.fab.announced l (s.mono, a) } } l.1 l.2 (frameBytes s 64)
      (.announce (baseHdr 2 7 0x3FFFF 0 64) a)
  else s

def announceAll (s : State) : List (Nat × Nat) → State
  | [] => s
  | l :: r => announceAll (announceOn s l) r

/-- An announcement is due: none was sent yet, 100 ms have passed, or a field has changed (R414). DEDUCED, log entry 93. -/
def announceDue (s : State) (l : Nat × Nat) : Bool :=
  match tget s.fab.announced l with
  | none => true
  | some (t, a) => t + 100000000 ≤ s.mono || !decide (a = announceOf s l.1 l.2)

/-- A field of the announcement changes: it is sent at once on every link that is ON. -/
def announceChanges (s : State) : State := announceAll s ((linksOn s).filter (announceDue s))

/-! ### Links (14 R403–R406) -/

/-- Logical lanes of a link, by their number on the port die (Table 14.1). -/
def lanesOf (s : State) (p k : Nat) : List Nat :=
  let n := 4 / linksOf s p
  (List.range n).map fun i => p % 4 * 4 + k * n + i

/-- The link that holds logical lane `n` of port die `d`. -/
def linkOfLane (s : State) (d n : Nat) : Nat × Nat :=
  let p := d * 4 + n / 4
  (p, n % 4 / (4 / linksOf s p))

/-- The physical lane of a logical lane. -/
def physOf (s : State) (d n : Nat) : Nat := ((s.fab.spareLane.find? fun e => e.1.1 = d && e.2 = n).map (·.1.2)).getD n

/-- The lowest-numbered free spare lane of a port die. -/
def freeSpareLane (s : State) (d : Nat) : Option Nat :=
  [16, 17].find? fun w => (tget s.fab.spareLane (d, w)).isNone && !((healthOf s 2 (d * 18 + w)).state = .retired)

/-- The destination of a packet of KIND 0 or 1, its ENTROPY and its class. -/
def packetPath (x : Frame) : Option BaseHdr := pairHdr x.payload

/-- A request of the tray port goes back to its list, to be sent when a path is there. -/
def unqueueTray (s : State) (home opId : Nat) : State :=
  let p := peerOf s home
  setPeer s home { p with ops := p.ops.map fun o => if o.opId = opId then { o with queued := false } else o }

/-- A frame that was queued on a link that has failed goes by another path (03 Table 3.15). With none, a message fails (15 R448), a tray request waits
(16 R476), and an answer is dropped, which a retransmission will ask for again. -/
def requeueOne (s : State) (cls q : Nat) (x : Queued) : State :=
  match packetPath x.frame with
  | none => s
  | some b => match pathOf s b.dest b.entropy with
    | some r => enqueue s r.port r.sub cls q { x with frame := { x.frame with link := r.farPort * 4 + r.farSub } }
    | none => match x.frame.payload with
      | .xport p =>
        if p.hdr.type = 0 || p.hdr.type = 4 then
          (match sendOfHdr s p.hdr.srcEp p.hdr.srcGen p.hdr.serial with
          | some r => failSend s r Status.peerUnreachable
          | none => s)
        else s
      | .tray p => if p.hdr.type = 0 then unqueueTray s p.base.dest p.hdr.opId else s
      | _ => s

def requeueAll (s : State) (cls q : Nat) : List Queued → State
  | [] => s
  | x :: r => requeueAll (requeueOne s cls q x) cls q r

def requeueLists (s : State) : List ((Nat × Nat × Nat × Nat) × List Queued) → State
  | [] => s
  | e :: r => requeueLists (requeueAll s e.1.2.2.1 e.1.2.2.2 e.2) r

/-- The egress queues of a link that no longer carries frames are emptied onto other paths. DEDUCED, log entry 99. -/
def requeueLink (s : State) (p k : Nat) : State :=
  let mine := s.shape.queues.filter fun e => e.1.1 = p && e.1.2.1 = k
  let rest := s.shape.queues.filter fun e => !(e.1.1 = p && e.1.2.1 = k)
  requeueLists { s with shape := { s.shape with queues := rest } } mine

/-- The clean reset state of a link (02 R49): nothing paused, receive buffers empty. -/
def cleanLink (s : State) (p k : Nat) : State :=
  { s with fab := { s.fab with
    paused := tdel s.fab.paused (p, k)
    rxFill := s.fab.rxFill.filter fun e => !(e.1.1 = p && e.1.2.1 = k)
    rxPaused := s.fab.rxPaused.filter fun e => !(e.1 = p && e.2.1 = k)
    trainSince := tset s.fab.trainSince (p, k) s.mono } }

/-- A link changes status; one that leaves ON gives up its queues, and every announcement that tells of it goes out (R414). -/
def linkTo (s : State) (p k : Nat) (x : FnState) : State :=
  let was := linkOn s p k
  let s0 := moveFn s (.link p k) x
  let s1 := if x.st = .on && !s0.fab.everOn.contains (p, k) then { s0 with fab := { s0.fab with everOn := (p, k) :: s0.fab.everOn } } else s0
  let s2 := if x.st = .starting then cleanLink s1 p k else s1
  let s3 := if was && !(x.st = .on) then requeueLink s2 p k else s2
  announceChanges s3

/-- A port reset of one link (03 R75): it shows STOPPING and starts again once its shut-down completes. DEDUCED, log entry 99. -/
def resetLink (s : State) (p k : Nat) : State :=
  match (fnState s (.link p k)).st with
  | .on => linkTo s p k { st := .stopping, latch := true }
  | .starting => linkTo s p k { st := .stopping, latch := true }
  | _ => s

/-- Retire the lane on which a logical lane lies, onto the lowest free spare of its die; with none, the link becomes ABSENT (R405). `reset` says that
the link is reset, `inj` that an injected detection is the cause. -/
def substituteLane (s : State) (inj : Bool) (d n : Nat) (reset : Bool) : State :=
  let was := physOf s d n
  let l := linkOfLane s d n
  match freeSpareLane s d with
  | none => linkTo (healthBy s inj 2 (d * 18 + was) .exhausted) l.1 l.2 (fnState s (.link l.1 l.2)).retire
  | some w =>
    let s1 := healthBy s inj 2 (d * 18 + was) .retired
    let s2 := fuseMove { s1 with rel := { s1.rel with spares := s1.rel.spares ++ [(2, d * 18 + w)] } } 2 (d * 18 + was) (d * 18 + w)
    let kept := s2.fab.spareLane.filter fun e => !(e.1.1 = d && e.2 = n)
    let s3 := { s2 with fab := { s2.fab with spareLane := tset kept (d, w) n, laneFails := tdel s2.fab.laneFails (d, n) } }
    let s4 := eventT s3 (36 + d) 0x65 inj none (argIndex 0 was)
    if reset then resetLink s4 l.1 l.2 else s4

/-- A training attempt has failed on some lanes: a lane's second failure in a row retires it, and the link is reset (R405, 03 Table 3.15). -/
def failLanes (s : State) (d : Nat) : List Nat → State
  | [] => s
  | n :: r =>
    let c := tgetD s.fab.laneFails (d, n) 0 + 1
    let s1 := { s with fab := { s.fab with laneFails := tset s.fab.laneFails (d, n) c } }
    failLanes (if 2 ≤ c then substituteLane s1 false d n true else s1) d r

end Sys2Proof.Machine
end

