-- ==== Sys2Proof/Machine/Loans.lean ====
section
/-!
DEFINITION. Loans of stack memory between modules of a tray, ageing, pressure, and the loss of tiers
(06_kv_pages_and_tiers.md R175, R179, R186–R195; 09_experts_and_weight_streaming.md R286).
-/
namespace Sys2Proof.Machine

/-! ### Loss of tiers (R175, R194, R195) -/

/-- Moves toward a location that is lost end where they began, and old runs there are forgotten. -/
def stopMoves (s : State) (loc : Nat) : State :=
  let hit := s.tier.moves.filter fun m => m.2.run.loc = loc
  let s1 := hit.foldl (fun st m => match tget st.tier.dir m.1 with
    | some e => setEntry (freeRunOf st m.2.run) m.1 { e with st := .resident, pins := e.pins.erase .promotion }
    | none => freeRunOf st m.2.run) s
  let gone := s1.tier.drains.filter fun d => d.run.loc = loc
  let s2 := gone.foldl (fun st d => freeRunOf st d.run) s1
  setTier s2 { s2.tier with moves := s2.tier.moves.filter fun m => !(m.2.run.loc = loc), drains := s2.tier.drains.filter fun d => !(d.run.loc = loc) }

/-- Every object in a location is lost. -/
def loseLoc (s : State) (loc : Nat) : State :=
  let s1 := loseRuns (stopMoves s loc) fun _ e => e.run.loc = loc
  loseObjects s1 ((s1.tier.dir.filter fun e => e.2.run.loc = loc).map (·.1))

/-- The loss of the host link detaches every T3 extent and drops what it held (R175). -/
def detachT3 (s : State) : State :=
  let s1 := loseLoc s 20
  setTier s1 { s1.tier with t3 := [] }

/-! ### The lender (R190–R192, R194) -/

/-- Two modules of one tray (14_fabric_ports_and_addressing.md R412). -/
def sameTray (a b : Nat) : Bool := a / 32 = b / 32

/-- Whole grants for which a stack has room; `n` bounds them. -/
def grantsOn (s : State) (loc : Nat) : Nat → Nat
  | 0 => 0
  | n + 1 => match takeRun s loc 16384 with
    | some (_, s1) => 1 + grantsOn s1 loc n
    | none => 0

/-- The offerable count (R190). -/
def offerable (s : State) : Nat :=
  let usable := 20 * stackSlabs s
  let cap := ((loanOfferNow s + 1) * usable - 1) / 1000
  let inUse := ((List.range 20).map (usedAt s)).sum
  min ((cap - inUse) / 16384) ((List.range 20).map fun l => grantsOn s l 64).sum

/-- The region of a grant (06_kv_pages_and_tiers.md R190). -/
def grantRegion (s : State) (stack slab : Nat) : Region :=
  { space := 3, location := trayAddr s stack slab, length := 2 ^ 30, tenant := 0, reduce := false, atomic := false, write := true, read := true,
    system := true, kind := 2, endpoint := 0, job := 0 }

/-- Lend the slabs of a stack from one on: their region and their runs. -/
def lendRun (s : State) (borrower stack slab : Nat) : Option (Lent × State) :=
  let p := newRegion s (grantRegion s stack slab)
  (takeSpans p.2 stack 16 (regionBack p.1) (spans slab 16384)).map fun s2 =>
    let g : Lent := { id := s2.tier.nextGrant, borrower := borrower, stack := stack, slab := slab, key := p.1, deadline := none,
                      dirs := regionDirs s2 p.1 }
    (g, setTier s2 { s2.tier with lent := s2.tier.lent ++ [g], nextGrant := s2.tier.nextGrant + 1 })

/-- Lend a grant to a borrower: its run, its region and its key. DEDUCED, log entry 57. -/
def lend (s : State) (borrower : Nat) : Option (Lent × State) :=
  match bigRun s 16384 (stacksByFree s) with
  | none => none
  | some x => if regionRoom s 0 true then lendRun s borrower x.1 x.2 else none

/-- A loan message (Table 6.7). -/
def loanMsg (s : State) (type grants stack id key addr deadline : Nat) : LoanMsg :=
  { type := type, grants := grants, stack := stack, sender := selfId s, grantId := id, key := key, addr := addr, deadline := deadline }

/-- LOAN_ASK_ARRIVAL (R191): GRANT while the offerable count is above zero, else DECLINE. -/
def execLoanAskArrival (m : LoanMsg) (s : State) : Host.Outcome State Fault Refusal :=
  let s0 := sysTaken s (.loan m)
  let no := quiet s (sysSend s0 m.sender (.loan (loanMsg s0 3 1 0 0 0 0 0)))
  if offerable s0 = 0 then no
  else match lend s0 m.sender with
    | none => no
    | some (g, s1) =>
      quiet s (sysSend (eventT s1 21 0x41 false none 0) m.sender
        (.loan (loanMsg s1 2 1 g.stack g.id g.key (trayAddr s1 g.stack g.slab) 0)))

/-- A grant ends: its key's generation rises, its slabs are free, and the borrower hears REVOKED (R194). -/
def revoke (s : State) (g : Lent) : State :=
  let s1 := destroySpace3 s (g.key % 2 ^ 24)
  let s2 := setTier s1 { s1.tier with lent := s1.tier.lent.filter fun x => x.id ≠ g.id }
  sysSend s2 g.borrower (.loan (loanMsg s2 6 1 g.stack g.id 0 (trayAddr s g.stack g.slab) 0))

/-- RETURN (R194). -/
def execReturnGrant (m : LoanMsg) (s : State) : Host.Outcome State Fault Refusal :=
  let s0 := sysTaken s (.loan m)
  match s0.tier.lent.find? fun g => g.id = m.grantId && g.borrower = m.sender with
  | some g => quiet s (revoke s0 g)
  | none => quiet s s0

/-- Recall grants, newest first, until what stays lent keeps occupancy at the threshold; `n` bounds them (R192). -/
def recallDown (s : State) : Nat → State
  | 0 => s
  | n + 1 =>
    let back := 16384 * (s.tier.lent.filter fun g => g.deadline ≠ none).length
    let use := ((List.range 20).map (usedAt s)).sum - back
    if 1000 * use / (20 * stackSlabs s) ≤ loanOfferNow s || (s.tier.lent.all fun g => g.deadline ≠ none) then s
    else recallDown (recallNewest s) n

/-! ### The borrower (R191, R193, R194) -/

/-- Free slabs in held grants. -/
def heldFree (s : State) : Nat := (heldUse s).2 - (heldUse s).1

/-- The lender to ask: the highest offered count, the lower fabric ID on a tie (R191). DESIGN CHOICE, log entry 56. -/
def bestLender (s : State) : Option Nat :=
  ((sortBy (fun a b => a.2 > b.2 || (a.2 = b.2 && a.1 < b.1))
    (s.tier.offered.filter fun o => 0 < o.2 && isMember s o.1 && sameTray o.1 (selfId s))).head?).map (·.1)

/-- Ask for a grant where R191 says so. DEDUCED, log entry 57. -/
def tryAsk (s : State) : State :=
  if s.tier.ask.isNone && 900 < occupancy s && heldFree s < 16384 then
    match bestLender s with
    | some l => sysSend (setTier s { s.tier with ask := some l }) l (.loan (loanMsg s 1 1 0 0 0 0 0))
    | none => s
  else s

/-- LOAN_GRANT_ARRIVAL (R191). -/
def execLoanGrantArrival (m : LoanMsg) (s : State) : Host.Outcome State Fault Refusal :=
  let s0 := sysTaken s (.loan m)
  let g : Held := { lender := m.sender, id := m.grantId, stack := m.stack, key := m.key, addr := m.addr, idle := 0, deadline := none }
  quiet s (tryAsk (setTier s0 { s0.tier with held := s0.tier.held ++ [g], ask := if s0.tier.ask = some m.sender then none else s0.tier.ask }))

/-- LOAN_OFFER_ARRIVAL (R190, R191). -/
def execLoanOfferArrival (m : LoanMsg) (s : State) : Host.Outcome State Fault Refusal :=
  let s0 := sysTaken s (.loan m)
  quiet s (tryAsk (setTier s0 { s0.tier with offered := tset s0.tier.offered m.sender m.grants }))

/-- LOAN_DECLINE_ARRIVAL (R191). -/
def execLoanDeclineArrival (m : LoanMsg) (s : State) : Host.Outcome State Fault Refusal :=
  let s0 := sysTaken s (.loan m)
  quiet s (tryAsk (setTier s0 { s0.tier with ask := if s0.tier.ask = some m.sender then none else s0.tier.ask }))

/-- Objects of a location in the order in which a recall empties it: weight runs, then pages by index and request handle (R193, R286). -/
def recallOrder (s : State) (loc : Nat) : List (Nat × DirEntry) :=
  let key := fun (e : Nat × DirEntry) => if e.2.kind = 3 then (0, 0, 0) else (1, e.2.page, e.2.back)
  let before : Nat × DirEntry → Nat × DirEntry → Bool := fun a b =>
    let x := key a
    let y := key b
    if x.1 ≠ y.1 then x.1 < y.1 else if x.2.1 ≠ y.2.1 then x.2.1 < y.2.1 else if x.2.2 ≠ y.2.2 then x.2.2 < y.2.2
    else if a.2.layer ≠ b.2.layer then a.2.layer < b.2.layer else a.1 < b.1
  sortBy before (s.tier.dir.filter fun e => e.2.run.loc = loc && e.2.st = .resident)

/-- Placement that skips T2 (R193). -/
def placeNoT2 (s : State) (t n : Nat) (among : List Nat) (drop : Bool) : Except Short (Run × State) :=
  let s0 := setTier s { s.tier with held := s.tier.held.map fun g => { g with deadline := some (g.deadline.getD 0) } }
  match place s0 t n among true drop with
  | none => .error { code := Status.tierExhausted, noRun := (takeFirst s n among).isNone }
  | some (r, s1) => .ok (r, setTier s1 { s1.tier with held := s.tier.held })

/-- An object for which a recall finds no room is dropped at once, and a weight run of an adapter lost (R193, 09 R286). -/
def dropRecalled (s : State) (i : Nat) (e : DirEntry) : State :=
  if e.kind = 3 && 65536 ≤ e.back then loseRuns s fun j _ => decide (j = i) else loseObject s i

/-- Begin to move one object out of a recalled grant, or drop it. Up into T1 it moves as a promotion does, down into T3 as a demotion: a pinned or persistent
object waits, and so does one without room that may not be dropped (Table 6.6). DEDUCED, log entry 57. -/
def evacuate (s : State) (i : Nat) : State :=
  match tget s.tier.dir i with
  | none => s
  | some e =>
    if !(e.st = .resident) then s
    else match placeNoT2 s e.tenant e.run.slabs (stacksFor s e.kind e.back e.layer e.page) (decide (e.kind ≤ 2)) with
    | .error x => if movable s i e then dropRecalled (unplaced s x) i e else s
    | .ok (r, s1) =>
      match tget s1.tier.dir i with
      | none => freeRunOf s1 r
      | some e1 =>
        let up := tierOfLoc r.loc < 2
        if !up && !movable s i e then s
        else
          let s2 := setEntry s1 i { e1 with st := if up then .promoting else .demoting, pins := if up then e1.pins ++ [.promotion] else e1.pins }
          setTier s2 { s2.tier with moves := tset s2.tier.moves i { run := r, tier := tierOfLoc r.loc, slot := none } }

/-- Move out what a grant under recall holds (R193). -/
def emptyGrant (s : State) (loc : Nat) : State := ((recallOrder s loc).map (·.1)).foldl evacuate s

/-- DEMOTION_PLACED (Table 6.6). An object that arrives in a grant under recall is moved out of it (R193). -/
def execDemotionPlaced (i : Nat) (s : State) : Host.Outcome State Fault Refusal :=
  let s1 := movePlaced s i .demoting
  let recalled := fun (e : DirEntry) => s1.tier.held.any fun g => grantLoc g.lender g.id = e.run.loc && g.deadline.isSome
  quiet s (if (tget s1.tier.dir i).elim false recalled then evacuate s1 i else s1)

/-- RECALL (R193). -/
def execRecall (m : LoanMsg) (s : State) : Host.Outcome State Fault Refusal :=
  let s0 := sysTaken s (.loan m)
  if s0.tier.held.any fun g => g.lender = m.sender && g.id = m.grantId then
    let held := s0.tier.held.map fun g => if g.lender = m.sender && g.id = m.grantId then { g with deadline := some m.deadline } else g
    let s1 := setTier s0 { s0.tier with held := held }
    quiet s (emptyGrant s1 (grantLoc m.sender m.grantId))
  else quiet s s0

/-- Send RETURN for a held grant, which the module holds no longer. -/
def returnHeld (s : State) (g : Held) : State :=
  let s1 := setTier s { s.tier with held := s.tier.held.filter fun x => !(x.lender = g.lender && x.id = g.id) }
  sysSend s1 g.lender (.loan (loanMsg s1 5 1 g.stack g.id 0 g.addr 0))

/-- RECALL_EMPTY (R193): an empty grant goes back; what waited in one that is not, for a pin to be released, begins to move. -/
def execRecallEmpty (lender id : Nat) (s : State) : Host.Outcome State Fault Refusal :=
  match s.tier.held.find? fun g => g.lender = lender && g.id = id with
  | some g =>
    if g.deadline.isNone then .next s
    else if usedAt s (grantLoc lender id) = 0 then quiet s (returnHeld s g)
    else quiet s (emptyGrant s (grantLoc lender id))
  | none => .next s

/-- RECALL_DEADLINE_EXPIRY (R194): the lender revokes its grant; a borrower drops what it has not moved. -/
def execRecallDeadlineExpiry (id : Nat) (s : State) : Host.Outcome State Fault Refusal :=
  let due := fun (d : Option Nat) => d.elim false (· ≤ s.time)
  let s1 := (s.tier.lent.filter fun g => g.id = id && due g.deadline).foldl revoke s
  quiet s ((s.tier.held.filter fun g => g.id = id && due g.deadline).foldl (fun st g => loseLoc st (grantLoc g.lender g.id)) s1)

/-- A held grant is gone: what it holds is lost (R194, R195). -/
def loseGrant (s : State) (lender id : Nat) : State :=
  let s1 := loseLoc s (grantLoc lender id)
  setTier s1 { s1.tier with held := s1.tier.held.filter fun x => !(x.lender = lender && x.id = id) }

/-- REVOKED (R194). -/
def execRevoked (m : LoanMsg) (s : State) : Host.Outcome State Fault Refusal :=
  let s0 := sysTaken s (.loan m)
  if s0.tier.held.any fun g => g.lender = m.sender && g.id = m.grantId then quiet s (loseGrant s0 m.sender m.grantId) else quiet s s0

/-- A membership that fences modules ends the loans with them (R195). -/
def fenceLoans (s : State) : State :=
  let s1 := (s.tier.lent.filter fun g => !isMember s g.borrower).foldl revoke s
  let s2 := (s1.tier.held.filter fun g => !isMember s g.lender).foldl (fun st g => loseGrant st g.lender g.id) s1
  setTier s2 { s2.tier with
    offered := s2.tier.offered.filter fun o => isMember s o.1
    ask := s2.tier.ask.bind fun l => if isMember s l then some l else none }

/-! ### AGE_EPOCH (R179, R190–R192) and PRESSURE_PARK (R186) -/

/-- AGE of every entry that ages rises by one. -/
def ageAll (s : State) : State :=
  let older := fun (e : Nat × DirEntry) =>
    if e.2.st = .resident && e.2.pins = [] && !e.2.persist && !unsealedPinned s e.1 then (e.1, { e.2 with age := satAdd 16 e.2.age 1 }) else e
  setTier s { s.tier with dir := s.tier.dir.map older }

/-- OFFER to every module of the tray, where the count has changed (R190). -/
def sendOffers (s : State) : State :=
  let n := offerable s
  if s.tier.lastOffer = some n then s
  else
    let peers := ((membersNow s).map (·.1)).filter fun m => sameTray m (selfId s) && !(m = selfId s)
    peers.foldl (fun st m => sysSend st m (.loan (loanMsg st 0 n 0 0 0 0 0))) (setTier s { s.tier with lastOffer := some n })

/-- Grants that have stayed empty for ten epochs go back (R191). -/
def ageGrants (s : State) : State :=
  let held := s.tier.held.map fun g => { g with idle := if usedAt s (grantLoc g.lender g.id) = 0 then g.idle + 1 else 0 }
  let s1 := setTier s { s.tier with held := held }
  (held.filter fun g => 10 ≤ g.idle && g.deadline = none).foldl returnHeld s1

/-- The composition that an object's slabs are charged to (20 R573): that of the request whose page it is, else 255. -/
def slabComposition (s : State) (e : DirEntry) : Nat :=
  if e.kind = 0 then (ownedOf s e.back).elim 255 (·.record.composition) else 255

/-- Each tenant's slabs in T1, and in T2 and T3, are charged for the epoch (20 Table 20.6, classes 5 and 6). Work of the module's own is not. -/
def meterSlabs (s : State) : List (Nat × DirEntry) → State
  | [] => s
  | (_, e) :: r =>
    meterSlabs (if 16 ≤ e.tenant || 4 ≤ e.kind || e.tier = 0 then s
      else meterAdd s e.tenant (slabComposition s e) (if e.tier = 1 then 5 else 6) (e.run.slabs * 1000)) r

/-- One age epoch. -/
def ageEpoch (s : State) : State :=
  let before := loanOfferNow s
  let s1 := ageAll (applyKnobs s [5])
  let s2 := if loanOfferNow s1 < before then recallDown s1 1280 else s1
  let s3 := meterSlabs s2 s2.tier.dir
  ageGrants (tryAsk (sendOffers s3))

/-- AGE_EPOCH (R179): at fabric times that are multiples of 1 ms. -/
def execAgeEpoch (s : State) : Host.Outcome State Fault Refusal :=
  if running s && s.time % 1000000 = 0 then quiet s (ageEpoch s) else .next s

/-- Is a request idle (R186)? DEDUCED, log entry 58. -/
def idleRequest (s : State) (o : Owned) : Bool :=
  o.record.phase = 4 && o.handoff.isNone && o.lastStart + 100000000 ≤ s.mono

/-- Park the first idle request in victim order (R186). A generation or prefill module hands over one at a time. DEDUCED, log entry 58. -/
def parkOne (s : State) : State :=
  match (victimRequests s none).find? fun e => idleRequest s e.2 with
  | none => s
  | some (h, o) =>
    let s1 := eventT s 21 0x30 false (some (handleTenant h)) 0
    if s.image.role.cachePool then phaseStep s1 o 5 .none
    else if poolNow s = [] || s.req.owned.any (fun e => e.2.handoff.elim false fun x => x.cause = 2) then s
    else startHandoff s1 h (headOf s h) 5 none 2

/-- PRESSURE_PARK (R186): above 950 per mille, until below 900. -/
def execPressurePark (s : State) : Host.Outcome State Fault Refusal :=
  let n := occupancy s
  let on := if 950 < n then true else if n < 900 then false else s.tier.parking
  let s1 := setTier s { s.tier with parking := on }
  if on then quiet s (parkOne s1) else quiet s s1

end Sys2Proof.Machine
end

