-- ==== Sys2Proof/Machine/Fabric.lean ====
section
/-!
DEFINITION. Discovery, the fabric manager's messages, membership and quarantine, fabric time, and the links
(14_fabric_ports_and_addressing.md R405–R407, R414–R425; 18_reliability_and_spares.md R524, R527).
-/
namespace Sys2Proof.Machine

/-! ### Discovery (R414, R415) -/

/-- ANNOUNCEMENT_SEND (R414): due every 100 ms on each link, and whenever a field has changed. -/
def execAnnouncementSend (p k : Nat) (s : State) : Host.Outcome State Fault Refusal :=
  if linkExists s p k && announceDue s (p, k) then quiet s (announceOn s (p, k)) else .next s

/-- An accepted announcement (R415): the link's neighbour, and whether it contests the module's ID. -/
def acceptAnnounce (s : State) (p k : Nat) (a : Announce) : State :=
  let s1 := setFab s { s.fab with neighbours := tset s.fab.neighbours (p, k) a }
  if s1.fab.id = some a.fabricId then
    (if a.serial = s1.fuses.serial then s1
     else eventA (setFab s1 { s1.fab with conflict := (p, k) :: s1.fab.conflict.filter fun l => !(l = (p, k)) }) 36 0x61 a.fabricId)
  else setFab s1 { s1.fab with conflict := s1.fab.conflict.filter fun l => !(l = (p, k)) }

/-- ANNOUNCEMENT (R415). -/
def execAnnouncement (p k : Nat) (a : Announce) (s : State) : Host.Outcome State Fault Refusal :=
  let s1 := takeItem s (.announce p k a)
  if s1.rel.quarantined then quiet s s1
  else if !(a.installation = s1.image.installationId) then quiet s (dropped s1 dropAnnounce)
  else quiet s (acceptAnnounce s1 p k a)

/-! ### Messages of the fabric manager (R416–R420) -/

/-- Tray requests that waited for a path, time or a key may go out. -/
def pumpTray (s : State) : State := pumpPeers s (s.tray.peers.map (·.1))

/-- A control message is taken from its buffer; in quarantine it is ignored and counted (R416). -/
def withControl (s : State) (c : Control) (k : State → State) : State :=
  let s1 := takeItem s (.control c)
  if s1.rel.quarantined then dropped s1 dropQuarantine else k s1

/-- ASSIGN (R416): only for this module's serial number, and only while it holds no ID or one in conflict. DEDUCED, log entry 94. -/
def assignId (s : State) (serial id pre : Nat) : State :=
  if serial = s.fuses.serial && id < 0x3FFFF && (s.fab.id.isNone || !(s.fab.conflict = [])) then
    announceChanges (setFab s { s.fab with id := some id, conflict := [], pfx := pre })
  else dropped s dropAssign

/-- ASSIGN (R416). -/
def execAssign (serial id pre : Nat) (s : State) : Host.Outcome State Fault Refusal :=
  quiet s (withControl s (.assign serial id pre) fun s1 => assignId s1 serial id pre)

/-- Write entries whole, from an index on, within the table. DEDUCED, log entry 94. -/
def putRoutes (t : Tab Nat (List RoutePath)) (limit : Nat) : Nat → List (List RoutePath) → Tab Nat (List RoutePath)
  | _, [] => t
  | i, e :: r => putRoutes (if i < limit then tset t i (e.take 16) else t) limit (i + 1) r

/-- Solicit the next hops that slot entries name, under ENCAP 1 (R409). -/
def solicit (s : State) : List (Nat × RoutePath) → State
  | [] => s
  | (slot, r) :: l =>
    solicit (if linkOn s r.port r.sub then
      enqueueControl s r.port r.sub 90 (.solicitation (linkAddress s (selfId s / 32 * 32 + slot) r.farPort r.farSub)) else s) l

/-- ROUTE_UPDATE (R420). -/
def updateRoutes (s : State) (slotTable : Bool) (first : Nat) (es : List (List RoutePath)) : State :=
  if slotTable then
    let s1 := setFab s { s.fab with slotRoutes := putRoutes s.fab.slotRoutes 32 first es }
    let hops := (List.range es.length).flatMap fun i => (es.getD i []).map fun r => (first + i, r)
    pumpTray (if s.image.fabric.encap = 1 then solicit s1 hops else s1)
  else pumpTray (setFab s { s.fab with trayRoutes := putRoutes s.fab.trayRoutes 8192 first es })

/-- ROUTE_UPDATE (R416, R420). -/
def execRouteUpdate (slotTable : Bool) (first : Nat) (es : List (List RoutePath)) (s : State) : Host.Outcome State Fault Refusal :=
  quiet s (withControl s (.routeUpdate slotTable first es) fun s1 => updateRoutes s1 slotTable first es)

/-- FRAGMENT_DISCARD (R416): fragments of a message that is incomplete after 100 ms. -/
def execFragmentDiscard (subtype : Nat) (s : State) : Host.Outcome State Fault Refusal :=
  quiet s (setFab s { s.fab with fragments := s.fab.fragments.filter fun x => !(x.subtype = subtype && x.since + 100000000 ≤ s.mono) })

/-! ### Membership (R417; 18 R526, R527) -/

/-- Work in hand on the module's units ends: entries on the Ladles, packets, tray operations, steps, queries, handoffs, moves and loads, with what they had
reserved. -/
def clearWork (s0 : State) : State :=
  let s1 := (s0.req.recving.map (·.1)).foldl discardRecving (endMoves s0)
  let s := (s1.comp.adapters.filter fun v => v.st = .loading).foldl (fun st v => loadFailed st v Status.quarantined) s1
  let peers := s.tray.peers.map fun e => (e.1, { e.2 with ops := [], lost := [] })
  { s with
    host := { s.host with ops := [] }
    comp := { s.comp with ladles := [], running := [], whisk := [], waitTags := [], sampling := [], samples := [] }
    req := { s.req with kept := [], heldMsgs := [], earlyEnds := [], repairing := [], issued := [], asks := [], known := [], recving := [],
                        recovering := [], recovered := [], retry := []
                        owned := s.req.owned.map fun e => (e.1, { e.2 with handoff := none }) }
    fab := { s.fab with inbox := [], fragments := [], rxFill := [], rxPaused := [] }
    xport := { s.xport with sends := [], recvs := [], miss := [] }
    tray := { s.tray with work := [], peers := peers }
    shape := { s.shape with queues := [] } }

/-- Quarantine (18 R527): fabric egress stops, and work in hand ends. -/
def quarantine (s : State) : State :=
  let s1 := eventT { s with rel := { s.rel with quarantined := true } } 25 0x67 false none 0
  clearWork (failAll s1 Status.quarantined s1.host.slots)

/-- Every operation toward a home that is no member ends, and the state toward it is fresh (16 R472, R476). DEDUCED, log entry 95. -/
def fencePeers (s : State) : List Nat → State
  | [] => s
  | m :: r =>
    if isMember s m then fencePeers s r
    else
      let s1 := loseAll s m (peerOf s m).ops
      fencePeers (setPeer s1 m { peerOf s1 m with credits := 16, ops := [], lost := [] }) r

/-- Jobs in whose masks a fenced module's slot stands freeze (16 R482). -/
def freezeMasks (s : State) (slots : List Nat) : List ((Nat × Nat) × Nat) → State
  | [] => s
  | e :: r => freezeMasks (if slots.any (fun k => bit e.2 k) then freezeJob s e.1.1 e.1.2 else s) slots r

/-- What the fence of modules means to the transport and the tray (15 R448, R449; 16 R475, R476, R482). -/
def fenceTraffic (s : State) (gone : List Nat) : State :=
  let s1 := failEach s Status.peerUnreachable (s.xport.sends.filter fun r => !isMember s r.dest)
  let s2 := abandonAll s1 (s1.xport.recvs.filter fun r => !isMember s1 r.src)
  let s3 := fencePeers s2 (s2.tray.peers.map (·.1))
  let s4 := setTray s3 { s3.tray with sources := s3.tray.sources.filter fun (x : Nat × TraySource) => isMember s3 x.1 }
  freezeMasks s4 ((gone.filter fun m => sameTray m (selfId s4)).map (· % 32)) s4.tray.masks

/-- Adopt a membership (R417): every unit sees it at once. DEDUCED, log entry 95. -/
def adoptMembership (s : State) (epoch : Nat) (members : List (Nat × Nat)) : State :=
  let oldPool := poolNow s
  let before := (membersNow s).map (·.1)
  let s1 := eventA (setFab s { s.fab with epoch := epoch, members := members, entered := if s.fab.epoch = 0 then epoch else s.fab.entered })
    25 0x60 (epoch % 65536)
  if !isMember s1 (selfId s1) then quarantine s1
  else
    let gone := before.filter fun m => !isMember s1 m && !(m = selfId s1)
    announceChanges (afterMembership (repairAll (fenceLoans (fenceTraffic s1 gone)) oldPool))

/-- MEMBERSHIP (R417): adopted only if its epoch is greater than the module's. A LOAD that is lost may poison host memory (16 R477). -/
def execMembership (epoch : Nat) (members : List (Nat × Nat)) (s : State) : Host.Outcome State Fault Refusal :=
  ordinary s (withControl s (.membership epoch members) fun s1 => if s1.fab.epoch < epoch then adoptMembership s1 epoch members else s1)

/-! ### Heartbeats (18 R524, Table 18.8) -/

def countHealth (s : State) (f : HealthState → Bool) : Nat := (s.rel.health.filter fun e => f e.2.state).length

/-- DEDUCED, log entry 96. -/
def heartbeatWords (s : State) : List Nat :=
  let suspect := countHealth s fun x => x = .suspect || x = .retiring
  let exhausted := countHealth s fun x => x = .exhausted
  let near := s.fab.neighbours.take 64
  [s.fuses.serial, s.fab.epoch, s.time, (s.rel.heartbeats + 1) % 2 ^ 32 * 2 ^ 32 + suspect % 2 ^ 16 * 2 ^ 16 + exhausted % 2 ^ 16, timeCount s 1,
    timeCount s 2, near.length] ++ near.map fun e => e.2.fabricId * 2 ^ 46 + (e.1.1 * 4 + e.1.2) * 2 ^ 40

/-- HEARTBEAT (18 R524): every 1 ms of fabric time, from 1 ms after the first authenticated KIND 3 packet. DEDUCED, log entry 96. -/
def execHeartbeat (s : State) : Host.Outcome State Fault Refusal :=
  match s.rel.kind3At with
  | none => .next s
  | some t =>
    let last := if s.rel.heartbeats = 0 then t else s.rel.lastBeat
    if !s.rel.quarantined && last + 1000000 ≤ s.time then
      let w := heartbeatWords s
      quiet s (sendControlMessage { s with rel := { s.rel with heartbeats := s.rel.heartbeats + 1, lastBeat := s.time } } (.heartbeat w) (8 * w.length))
    else .next s

/-! ### Fabric time (R421–R424) -/

/-- Does a forward step from `a` to `b` cross a boundary of a period: one after `a` and before `b`? -/
def crosses (a b p : Nat) : Bool := 0 < p && a / p < (b - 1) / p

/-- Boundaries of a gate schedule that a step crosses move it to the entry in force (17 R494). -/
def stepGates (s : State) : List GateRec → State
  | [] => s
  | g :: r => stepGates (match entryNow g s.time with
      | some (i, _) => { s with shape := { s.shape with gateEntry := tset s.shape.gateEntry g.port i } }
      | none => s) r

/-- The boundaries that a forward step crosses occur once at the step (R422). DESIGN CHOICE, log entry 97. DESIGN CHOICE, log entry 97. -/
def crossBoundaries (s : State) (old : Nat) : State :=
  let s1 := if running s && crosses old s.time 10000 then budgetStart s else s
  let s2 := if running s1 && crosses old s1.time 1000000 then ageEpoch s1 else s1
  let p := dumpPeriodNow s2 * 1000
  let s3 := match s2.image.dump with
    | none => s2
    | some d => if isReady s2 && s2.boot.stop = none && crosses old s2.time p then dumpSetOut s2 d ((s2.time - 1) / p) else s2
  stepGates s3 s3.image.gates

/-- AUX of TIME_STEP (20 Table 20.2): the step in µs, signed, saturating. -/
def stepAux (old new : Nat) : Nat :=
  let d : Int := ((new : Int) - (old : Int)) / 1000
  unsignedOf 16 (max (-32768) (min 32767 d))

def dieSyncOf (s : State) (d : Nat) : DieSync := tgetD s.fab.dieSync d .fresh

/-- Port dies that hold lock, lowest first. -/
def lockedDies (s : State) : List Nat := (List.range 4).filter fun d => (dieSyncOf s d).locked

/-- The MAC island that distributes fabric time: that of the lowest-numbered port die that holds lock (02 R31), and without one that of port die 0. DESIGN CHOICE,
log entry 92. -/
def timeIsland (s : State) : Nat := 36 + (lockedDies s).headD 0

/-- Fabric time steps (R422). DESIGN CHOICE, log entry 97. DESIGN CHOICE, log entry 97. -/
def stepTime (s : State) (t : Nat) : State :=
  let s1 := eventA { s with time := t } (timeIsland s) 0x62 (stepAux s.time t)
  let s2 := setFab s1 { s1.fab with offset := 0 }
  if s.time < t then crossBoundaries s2 s.time else s2

/-- What a port die has seen is set; the module holds lock while some die does. -/
def setDie (s : State) (d : Nat) (x : DieSync) : State :=
  let s1 := setFab s { s.fab with dieSync := tset s.fab.dieSync d x }
  setFab s1 { s1.fab with locked := !(lockedDies s1 = []) }

/-- A port die's lock is acquired or lost, with the event record of its MAC island. DESIGN CHOICE, log entry 92. DESIGN CHOICE, log entry 92. -/
def setLock (s : State) (d : Nat) (on : Bool) : State :=
  let x := dieSyncOf s d
  if x.locked = on then s else eventA (setDie s d { x with locked := on, good := if on then x.good else 0 }) (36 + d) 0x63 (b2n on)

/-- A sync message (R422). The offset is the module's time less the master's; the die that distributes time steps it. -/
def takeSync (s : State) (i : PtpInfo) : State :=
  let d := i.port / 4
  let off := i.offset.natAbs
  let x := dieSyncOf s d
  let good := if off ≤ 10 then x.good + 1 else 0
  let s1 := setDie (setFab s { s.fab with lastSync := s.mono, grandmaster := false, offset := if timeIsland s = 36 + d then i.offset else s.fab.offset }) d { x with good := good, last := s.mono }
  if x.locked then
    if 1000 < off then
      let s2 := setLock s1 d false
      if timeIsland s1 = 36 + d then stepTime s2 i.masterTime else s2
    else if 100 < off then setLock s1 d false
    else s1
  else if 16 ≤ good then
    let s2 := setLock s1 d true
    if timeIsland s2 = 36 + d then stepTime s2 i.masterTime else s2
  else s1

/-- PTP_MESSAGE (R421, R422): what waited for time may go on. A dump at a crossed boundary may write host memory. -/
def execPtpMessage (i : PtpInfo) (s : State) : Host.Outcome State Fault Refusal :=
  if !running s then .next s
  else
    let s1 := takeItem s .ptp
    if s1.rel.quarantined then quiet s s1
    else
      let s2 := setFab s1 { s1.fab with elected := i.elected }
      clocked s (pumpTray (if i.sync then takeSync s2 i else s2))

/-- LOCK_LOSS_TIMEOUT (R422): a port die that holds lock has had no sync message for 8 intervals of 2^−7 s. -/
def execLockLossTimeout (s : State) : Host.Outcome State Fault Refusal :=
  quiet s (((lockedDies s).filter fun d => (dieSyncOf s d).last + 62500000 ≤ s.mono).foldl (fun st d => setLock st d false) s)

/-- No PTP master is visible: no lock, and no sync message for 8 intervals. -/
def noMaster (s : State) : Bool := !s.fab.locked && (s.fab.lastSync = 0 || s.fab.lastSync + 62500000 ≤ s.mono)

/-- The module becomes its own grandmaster, and its nearest whole second is aligned to the edge (R424). -/
def takePulse (s : State) : State :=
  let second := (s.time + 500000000) / 1000000000 * 1000000000
  let s1 := if s.fab.grandmaster then s else eventA (setFab s { s.fab with grandmaster := true }) (timeIsland s) 0x63 2
  if second = s1.time then s1 else stepTime s1 second

/-- PPS_IN_PULSE (R424; 21 Table 21.7): a pulse of 100 ns to 500 ms. -/
def execPpsInPulse (ns : Nat) (s : State) : Host.Outcome State Fault Refusal :=
  if ns < 100 || 500000000 < ns || !running s then .next s
  else
    let s1 := setFab s { s.fab with ppsAt := some s.mono }
    if noMaster s1 && !s1.rel.quarantined then clocked s (pumpTray (takePulse s1)) else quiet s s1

/-! ### Links (R405–R407, R409, R425) -/

/-- PFC_FRAME (R407): the partner pauses and releases classes. DEDUCED, log entry 98. -/
def execPfcFrame (p k : Nat) (classes : List (Nat × Bool)) (s : State) : Host.Outcome State Fault Refusal :=
  let s1 := takeItem s (.pfc p k classes)
  if linkExists s1 p k && linkOn s1 p k then
    let put := fun (l : List Nat) (e : Nat × Bool) => if 8 ≤ e.1 then l else if e.2 then e.1 :: l.filter (fun c => !(c = e.1)) else l.filter fun c => !(c = e.1)
    quiet s (setFab s1 { s1.fab with paused := tset s1.fab.paused (p, k) (classes.foldl put (tgetD s1.fab.paused (p, k) [])) })
  else quiet s s1

/-- NEIGHBOUR_SOLICITATION (R409): under ENCAP 1 the module answers for the addresses of its links. -/
def execNeighbourSolicitation (p k addr : Nat) (s : State) : Host.Outcome State Fault Refusal :=
  let s1 := takeItem s (.solicitation p k addr)
  let mine := s1.fab.id.isSome && (allLinks s1).any fun l => linkAddress s1 (selfId s1) l.1 l.2 = addr
  if s1.image.fabric.encap = 1 && mine && linkOn s1 p k && !s1.rel.quarantined then quiet s (enqueueControl s1 p k 90 (.advertisement addr))
  else quiet s s1

/-- LINK_TRAINED (R406): training has ended with the frame error rate in bounds; the link is ON. -/
def execLinkTrained (p k : Nat) (s : State) : Host.Outcome State Fault Refusal :=
  if linkExists s p k && (fnState s (.link p k)).st = .starting then
    let lanes := lanesOf s p k
    let s1 := setFab s { s.fab with laneFails := s.fab.laneFails.filter fun e => !(e.1.1 = p / 4 && lanes.contains e.1.2) }
    quiet s (pumpTray (linkTo s1 p k (fnState s1 (.link p k)).initDone))
  else .next s

/-- LINK_TRAINING_RETRY (R405, R406): an attempt of 500 ms has failed, on the lanes that `bad` lists. -/
def execLinkTrainingRetry (p k : Nat) (bad : List Nat) (s : State) : Host.Outcome State Fault Refusal :=
  if linkExists s p k && (fnState s (.link p k)).st = .starting && tgetD s.fab.trainSince (p, k) 0 + 500000000 ≤ s.mono then
    let s1 := setFab s { s.fab with trainSince := tset s.fab.trainSince (p, k) s.mono }
    fusing s (failLanes s1 (p / 4) ((lanesOf s1 p k).filter bad.contains))
  else .next s

/-- LINK_FAILURE (03 Table 3.15): the link is reset and retrains; what it had queued goes by other paths. -/
def execLinkFailure (p k : Nat) (s : State) : Host.Outcome State Fault Refusal :=
  if linkExists s p k then quiet s (resetLink s p k) else .next s

/-- The event that PORT_CONTROL applies (R425). DESIGN CHOICE, log entry 92. DESIGN CHOICE, log entry 92. -/
def portEvent (c : Cmd) (x : FnState) : FnState := if flag c.w2 1 then x.disable else if flag c.w2 0 then x.enable else x

def runPortControl (c : Cmd) (s : State) : State :=
  runCmd 0xB1 c s fun _ id s =>
    let p := fld c.w2 63 60
    let k := fld c.w2 59 58
    let x := fnState s (.link p k)
    if !linkExists s p k || x.st = .absent then fail s id Status.portUnavailable
    else
      let s1 := linkTo s p k (portEvent c x)
      finish s1 id Status.ok (fnState s1 (.link p k)).st.code 0

/-- PORT_CONTROL (R425). -/
def execPortControl (c : Cmd) (s : State) : Host.Outcome State Fault Refusal := quiet s (runPortControl c s)

/-! ### Keys (15 R436; 19 R544, R545) -/

/-- KEY_DERIVED (R436; 19 R546): the key enters the cache of 4,096, and what waited for it proceeds. -/
def execKeyDerived (peer epoch : Nat) (s : State) : Host.Outcome State Fault Refusal :=
  if (secretFor s epoch).isNone then .next s
  else
    let mine := fun (m : MissFrame) => match pairHdr m.frame.payload with
      | some b => b.src = peer && epochOf b.stamp = epoch
      | none => false
    let keys := s.xport.keys.filter fun k => !(k = (peer, epoch))
    let kept := if keys.length < 4096 then keys else keys.drop 1
    let s1 := setXport s { s.xport with keys := kept ++ [(peer, epoch)], miss := s.xport.miss.filter fun m => !mine m }
    let s2 := rearrive s1 (s.xport.miss.filter mine)
    quiet s (trayPump (pumpAll s2 (sendsTo s2 peer)) peer)

/-- DOMAIN_SECRET_ACTIVATION (19 R545): a secret has come into force; the first announcement goes out on every ON link. -/
def execDomainSecretActivation (s : State) : Host.Outcome State Fault Refusal :=
  if (secretFor s (epochOf s.time)).isSome then quiet s (pumpTray (announceAll s (linksOn s))) else .next s

end Sys2Proof.Machine
end

