-- ==== Sys2Proof/Machine/Press.lean ====
section
/-!
DEFINITION. The Press: symbols, tables, blocks, streams and the codec commands (13_formats_quantisation_compression.md R382–R401).
-/
namespace Sys2Proof.Machine

/-! ### Symbols (R385) -/

/-- A run of `n` zero bytes: run symbols for the set bits of weight 2 or more from the most significant down, symbol 0 for a bit of weight 1. -/
def runSymbols (n : Nat) : List Nat :=
  if n = 0 then [] else (List.range 13).filterMap fun i => if bit n (12 - i) then some (if i = 12 then 0 else 255 + (12 - i)) else none

/-- The symbols of a block before its END: `z` zeros are pending. -/
def symbolsFrom : Nat → List Byte → List Nat
  | z, [] => runSymbols z
  | z, b :: r => if b = 0 then symbolsFrom (z + 1) r else runSymbols z ++ b.toNat :: symbolsFrom 0 r

/-- END. -/
def endSymbol : Nat := 268

def symbolsOf (b : List Byte) : List Nat := symbolsFrom 0 b ++ [endSymbol]

/-- The bytes that a symbol stands for. -/
def symbolBytes (x : Nat) : List Byte := if x < 256 then [BitVec.ofNat 8 x] else List.replicate (2 ^ (x - 255)) 0

/-! ### Tables (R386–R389) -/

/-- Symbols with codes, in the order of R386. -/
def codeOrder (lengths : List Nat) : List (Nat × Nat) :=
  sortBy (fun (a b : Nat × Nat) => a.1 < b.1 || (a.1 = b.1 && a.2 < b.2))
    ((List.range 269).filterMap fun i => let l := lengths.getD i 0; if l = 0 then none else some (l, i))

/-- Canonical codes: length, code, symbol. -/
def codesFrom : Nat → Nat → List (Nat × Nat) → List (Nat × Nat × Nat)
  | _, _, [] => []
  | len, next, (l, x) :: r => (l, next * 2 ^ (l - len), x) :: codesFrom l (next * 2 ^ (l - len) + 1) r

def codesOf (lengths : List Nat) : List (Nat × Nat × Nat) :=
  match codeOrder lengths with
  | [] => []
  | (l, x) :: r => codesFrom l 0 ((l, x) :: r)

/-- A code's bits, most significant first. -/
def codeBits (len code : Nat) : List Bool := (List.range len).map fun i => bit code (len - 1 - i)

/-- The bit string of a list of symbols. -/
def bitsOfSymbols (codes : List (Nat × Nat × Nat)) (l : List Nat) : List Bool :=
  l.flatMap fun x => match codes.find? fun c => c.2.2 = x with
    | some c => codeBits c.1 c.2.1
    | none => []

/-- Pack bits: bit i is bit (i mod 8) of byte i / 8. -/
def packBits (l : List Bool) : List Byte :=
  (List.range (ceilDiv l.length 8)).map fun i => BitVec.ofNat 8 (((List.range 8).map fun j => b2n (l.getD (8 * i + j) false) * 2 ^ j).sum)

/-- Have all symbols of a block codes? -/
def codable (lengths : List Nat) (l : List Nat) : Bool := l.all fun x => lengths.getD x 0 ≠ 0

/-- Validity of the lengths (R388). -/
def lengthsOk (lengths : List Nat) : Bool :=
  lengths.getD endSymbol 0 ≠ 0 &&
    decide (((List.range 269).map fun i => let l := lengths.getD i 0; if l = 0 then 0 else 2 ^ (15 - l)).sum ≤ 2 ^ 15)

/-- Bytes 8–191 of a table image (Table 13.3). -/
def tableTail (lengths : List Nat) : List Byte :=
  List.replicate 8 0 ++ (List.range 135).map (fun i =>
    BitVec.ofNat 8 (lengths.getD (2 * i) 0 % 16 + (if i = 134 then 0 else lengths.getD (2 * i + 1) 0 % 16 * 16))) ++ List.replicate 41 0

def tableImage (lengths : List Nat) (gen : Nat) : List Byte :=
  leBytes 8 (gen % 16 * 2 ^ 60 + crc32c (tableTail lengths)) ++ tableTail lengths

/-- The lengths that an image gives. -/
def imageLengths (b : List Byte) : List Nat :=
  (List.range 269).map fun i => let x := (b.getD (16 + i / 2) 0).toNat; if i % 2 = 0 then x % 16 else x / 16

def imageOk (b : List Byte) : Bool := crc32c (b.drop 8) = leNat (b.take 4) && lengthsOk (imageLengths b)

/-- A coin of package-merge: its weight, its lowest symbol, the symbols that it holds. -/
abbrev Coin := Nat × Nat × List Nat

/-- DEDUCED, log entry 79. -/
def coinBefore (a b : Coin) : Bool := a.1 < b.1 || (a.1 = b.1 && a.2.1 < b.2.1)

/-- Pair the coins of a level into packages. -/
def packages : List Coin → List Coin
  | a :: b :: r => (a.1 + b.1, min a.2.1 b.2.1, a.2.2 ++ b.2.2) :: packages r
  | _ => []

def mergeCoins (leaves : List Coin) : Nat → List Coin → List Coin
  | 0, l => l
  | n + 1, l => mergeCoins leaves n (sortBy coinBefore (leaves ++ packages l))

/-- The lengths of the optimal prefix code limited to 15 bits, by package-merge (R389). DEDUCED, log entry 79. -/
def buildLengths (counts : List Nat) : List Nat :=
  let leaves := sortBy coinBefore ((List.range 269).map fun i => (counts.getD i 0 + 1, i, [i]))
  let all := ((mergeCoins leaves 14 leaves).take 536).flatMap (·.2.2)
  (List.range 269).map fun i => all.count i

/-- Count the symbols of an input's blocks, one END each (R389). -/
def symbolCounts (blocks : List (List Byte)) : List Nat :=
  let all := blocks.flatMap symbolsOf
  (List.range 269).map fun i => all.count i

/-! ### Encoding (R390, R391, R397) -/

/-- A block header (Table 13.4). -/
def blockHeader (coded raw mode gen crc : Nat) : List Byte :=
  leBytes 8 (coded % 2 ^ 13 * 2 ^ 51 + raw % 2 ^ 13 * 2 ^ 38 + mode % 4 * 2 ^ 36 + gen % 16 * 2 ^ 32) ++ leBytes 8 (crc % 2 ^ 32 * 2 ^ 32)

def padTo (n : Nat) (l : List Byte) : List Byte := l ++ List.replicate (roundUp l.length n - l.length) 0

/-- An encoded block: its bytes, its mode, and whether its lines are tagged poisoned. -/
structure Encoded where
  bytes : List Byte
  mode : Nat
  poison : Bool
deriving DecidableEq, Repr

/-- Encode one block in the first mode that applies. -/
def encodeBlock (lengths : List Nat) (gen : Nat) (b : List Byte) (bad : Bool) : Encoded :=
  let crc := crc32c b
  let raw := { bytes := blockHeader b.length b.length 0 0 crc ++ padTo 16 b, mode := 0, poison := false : Encoded }
  if bad then { bytes := blockHeader b.length b.length 0 0 (2 ^ 32 - 1 - crc) ++ padTo 16 b, mode := 0, poison := true }
  else if b.all (· = 0) then { bytes := blockHeader 0 b.length 2 0 crc, mode := 2, poison := false }
  else
    let syms := symbolsOf b
    let payload := packBits (bitsOfSymbols (codesOf lengths) syms)
    if codable lengths syms && payload.length < b.length then
      { bytes := blockHeader payload.length b.length 1 gen crc ++ padTo 16 payload, mode := 1, poison := false }
    else raw

/-- The blocks of an input, with whether a line of each is poisoned (R384). -/
def inputBlocks (v : Blob × Nat) (n : Nat) : List (List Byte × Bool) :=
  (List.range (ceilDiv n 4096)).map fun i =>
    let len := min 4096 (n - 4096 * i)
    (blobBytes v.1 (v.2 + 4096 * i) len, blobBad v.1 (v.2 + 4096 * i) len)

/-! ### Decoding (R395, R396) -/

/-- Walk the bits of a payload: the bytes decoded and the bits used, where END comes after exactly `raw` bytes. `acc` holds the code so far. -/
def decodeBits (codes : List (Nat × Nat × Nat)) (raw : Nat) : List Bool → Nat → Nat → Nat → List Byte → Option (List Byte × Nat)
  | [], _, _, _, _ => none
  | b :: r, used, len, acc, out =>
    let len1 := len + 1
    let acc1 := 2 * acc + b2n b
    match codes.find? fun c => c.1 = len1 && c.2.1 = acc1 with
    | some (_, _, x) =>
      if x = endSymbol then (if out.length = raw then some (out, used + 1) else none)
      else
        let out1 := out ++ symbolBytes x
        if raw < out1.length then none else decodeBits codes raw r (used + 1) 0 0 out1
    | none => if 15 ≤ len1 then none else decodeBits codes raw r (used + 1) len1 acc1 out

def bitsOfBytes (l : List Byte) : List Bool := l.flatMap fun b => (List.range 8).map fun i => bit b.toNat i

/-- Decode a coded payload with a table. -/
def decodeCoded (lengths : List Nat) (raw : Nat) (payload : List Byte) : Option (List Byte) :=
  let bs := bitsOfBytes payload
  match decodeBits (codesOf lengths) raw bs 0 0 0 [] with
  | none => none
  | some (out, used) => if ceilDiv used 8 = payload.length && (bs.drop used).all (!·) then some out else none

/-- A block of a coded input: its bytes where it is good, the generation on whose slot it takes a reference, and where the next one begins. -/
structure Decoded where
  out : Option (List Byte)
  gen : Option Nat
  next : Option Nat
deriving DecidableEq, Repr

/-- The slots of a stream. -/
def Press.slots (x : Press) : List PressSlot := x.slotA.toList ++ x.slotB.toList

def Press.slotOfGen (x : Press) (g : Nat) : Option PressSlot := x.slots.find? fun y => y.gen = g

/-- Decode the block at an offset of the input (Table 13.5). -/
def decodeBlock (x : Press) (v : Blob × Nat) (n off : Nat) : Decoded :=
  if n < off + 16 then { out := none, gen := none, next := none }
  else
    let w0 := leNat (blobBytes v.1 (v.2 + off) 8)
    let crc := leNat (blobBytes v.1 (v.2 + off + 12) 4)
    let coded := bits w0 63 51
    let raw := bits w0 50 38
    let mode := bits w0 37 36
    let gen := bits w0 35 32
    if mode = 3 || raw = 0 || 4096 < raw || 4096 < coded || n < off + 16 + coded then { out := none, gen := none, next := none }
    else
      let payload := blobBytes v.1 (v.2 + off + 16) coded
      let bad := blobBad v.1 (v.2 + off) (16 + coded)
      let slot := if mode = 1 then x.slotOfGen gen else none
      let body := match mode with
        | 0 => if coded = raw then some payload else none
        | 2 => if coded = 0 then some (List.replicate raw (0 : Byte)) else none
        | _ => slot.bind fun y => decodeCoded y.lengths raw payload
      let ok := fun (b : List Byte) => !bad && decide (crc32c b = crc)
      { out := body.filter ok, gen := slot.map (·.gen), next := some (off + 16 + roundUp coded 16) }

/-- Decode `blocks` blocks in turn; after one that cannot be located every later one is poisoned. -/
def decodeBlocks (x : Press) (v : Blob × Nat) (n : Nat) : Nat → Option Nat → List Decoded
  | 0, _ => []
  | k + 1, none => { out := none, gen := none, next := none } :: decodeBlocks x v n k none
  | k + 1, some off => let d := decodeBlock x v n off; d :: decodeBlocks x v n k d.next

/-- The bytes of a block slot (R396): a good block's bytes alone, or 4,096 zeros tagged poisoned. -/
def slotBytes (d : Decoded) : List (Byte × Bool) :=
  match d.out with
  | some b => clean b
  | none => List.replicate 4096 (0, true)

/-! ### Streams (R383, R392, R393) -/

def setPress (s : State) (t n : Nat) (x : Press) : State := { s with comp := { s.comp with press := tset s.comp.press (t, n) x } }

/-- The stream that a command finds: none once its close has started (R401). -/
def pressOf (s : State) (t n : Nat) : Option Press := (tget s.comp.press (t, n)).filter fun x => x.closing.isNone

/-- The newest table. -/
def Press.newest (x : Press) : Option PressSlot := if x.newestB then x.slotB else x.slotA

/-- Does the next install go into slot B: an empty slot, else the one that does not hold the newest table (R392)? -/
def Press.toB (x : Press) : Bool := if x.slotA.isNone then false else if x.slotB.isNone then true else !x.newestB

/-- Blocks queued for the destination of the next install. -/
def Press.waitingOn (x : Press) : Nat := ((if x.toB then x.slotB else x.slotA).map (·.queued)).getD 0

/-- Put a table into its slot; it becomes the newest. -/
def Press.install (x : Press) (lengths : List Nat) (gen : Nat) : Press :=
  let y : PressSlot := { lengths := lengths, gen := gen, queued := 0 }
  if x.toB then { x with slotB := some y, newestB := true } else { x with slotA := some y, newestB := false }

/-- The generation that a build installs (R392). -/
def Press.nextGen (x : Press) : Nat := (x.newest.map fun y => (y.gen + 1) % 16).getD 0

/-- Add `n` references to the slot of a generation. -/
def Press.refer (x : Press) (g n : Nat) : Press :=
  let f := fun (y : PressSlot) => if y.gen = g then { y with queued := y.queued + n } else y
  { x with slotA := x.slotA.map f, slotB := x.slotB.map f }

/-- Release `n` references. -/
def Press.release (x : Press) (g n : Nat) : Press :=
  let f := fun (y : PressSlot) => if y.gen = g then { y with queued := y.queued - n } else y
  { x with slotA := x.slotA.map f, slotB := x.slotB.map f }

/-! ### Installs (R392, R394) -/

/-- Carry out the first install of a stream: a generation that a slot holds refuses it; a build's encode goes on. Called where the destination's count
is zero. -/
def commitInstall (s : State) (t n : Nat) (x : Press) : State :=
  match x.installs with
  | [] => s
  | i :: r =>
    let g := i.gen.getD x.nextGen
    if i.gen.isSome && (x.slotOfGen g).isSome then fail (setPress s t n { x with installs := r }) i.slot Status.pressGenHeld
    else
      let s1 := setPress s t n { x.install i.lengths g with installs := r }
      if i.build then setStage s1 i.slot 2 else finish s1 i.slot Status.ok (b2n x.toB) 0

/-- Queue an install; it is carried out at once where none is ahead of it and its slot's count is zero. -/
def queueInstall (s : State) (t n : Nat) (x : Press) (i : Install) : State :=
  let x1 := { x with installs := x.installs ++ [i] }
  if x.installs = [] && x.waitingOn = 0 then commitInstall s t n x1 else await (setPress s t n x1) i.slot .engine

/-- PRESS_INSTALL_COMMIT (R394): the install that has come to its turn commits once its slot's count of queued blocks is zero. -/
def execPressInstallCommit (t n : Nat) (s : State) : Host.Outcome State Fault Refusal :=
  match tget s.comp.press (t, n) with
  | some x => if x.waitingOn = 0 then quiet s (commitInstall s t n x) else .next s
  | none => .next s

/-- PRESS_INSTALL_WAIT (R394): an install that has waited 10 ms writes an event record, once, and goes on waiting. -/
def execPressInstallWait (t n : Nat) (s : State) : Host.Outcome State Fault Refusal :=
  match tget s.comp.press (t, n) with
  | some x => match x.installs with
    | i :: r =>
      if !i.recorded && i.since + 10000000 ≤ s.mono then
        quiet s (eventT (setPress s t n { x with installs := { i with recorded := true } :: r }) 23 0x44 false (some t) 0)
      else .next s
    | [] => .next s
  | none => .next s

/-! ### PRESS_STREAM_OPEN, PRESS_STREAM_CLOSE -/

def runPressStreamOpen (c : Cmd) (s : State) : State :=
  runCmd 0x60 c s fun _ id s =>
    let t := cmdTenant s c
    let mine := (s.comp.press.filter fun e => e.1.1 = t).map fun e => e.1.2
    let n := idFor s id (freeNumber 1 mine) mine
    if 1024 ≤ mine.length || 4096 ≤ s.comp.press.length || 65536 ≤ n then fail s id Status.pressStreamLimit
    else finish (setPress s t n { slotA := none, slotB := none, newestB := false, installs := [], closing := none }) id Status.ok n 0

/-- PRESS_STREAM_OPEN (R383). -/
def execPressStreamOpen (c : Cmd) (s : State) : Host.Outcome State Fault Refusal := quiet s (runPressStreamOpen c s)

/-- Does a codec command name the stream? -/
def namesPress (c : Cmd) (n : Nat) : Bool :=
  ((opcodeOf c = 0x62 || opcodeOf c = 0x63) && fld c.w4 63 48 = n) || ((opcodeOf c = 0x64 || opcodeOf c = 0x65) && fld c.w3 63 48 = n) ||
  (opcodeOf c = 0x61 && fld c.w2 15 0 = n)

/-- Has a command that names the stream started before slot `id` and not completed? -/
def pressBusy (s : State) (t n id : Nat) : Bool :=
  s.host.slots.any fun y => startedBefore s id y && y.inHand && cmdTenant s y.cmd = t && namesPress y.cmd n

/-- The close is over, or waits for the commands that started before it. -/
def closeStream (s : State) (t n id : Nat) : State :=
  if pressBusy s t n id then await s id .earlier
  else finish { s with comp := { s.comp with press := tdel s.comp.press (t, n) } } id Status.ok 0 (stageOf s id)

/-- Every waiting install ends (R401). -/
def endInstalls (s : State) (l : List Install) : State := l.foldl (fun st i => fail st i.slot Status.pressInstallEnded) s

def runPressStreamClose (c : Cmd) (s : State) : State :=
  runCmd 0x61 c s fun again id s =>
    let t := cmdTenant s c
    let n := fld c.w2 15 0
    match tget s.comp.press (t, n) with
    | none => fail s id Status.pressStreamUnknown
    | some x =>
      if again && x.closing = some id then closeStream s t n id
      else if x.closing.isSome then fail s id Status.pressStreamUnknown
      else
        let s1 := endInstalls (setPress s t n { x with installs := [], closing := some id }) x.installs
        closeStream (setStage s1 id x.installs.length) t n id

/-- PRESS_STREAM_CLOSE (R401). -/
def execPressStreamClose (c : Cmd) (s : State) : Host.Outcome State Fault Refusal := quiet s (runPressStreamClose c s)

/-! ### PRESS_ENCODE, PRESS_DECODE -/

/-- Blocks queued by a command in hand, by generation, which its completion releases: packed into the results kept for it. -/
def keepResults (s : State) (id status r0 r1 counter gen : Nat) : State :=
  { s with comp := { s.comp with samples := tset s.comp.samples id (status, r0, r1, counter, gen) } }

/-- The last block is written: references are released, DONE_COUNTER rises, the command completes. `refs` gives the references by generation. -/
def finishPress (s : State) (id t n : Nat) (refs : List (Nat × Nat)) : State :=
  let r := tgetD s.comp.samples id (0, 0, 0, 0, 0)
  let s1 := { s with comp := { s.comp with samples := tdel s.comp.samples id } }
  let s2 := match tget s1.comp.press (t, n) with
    | some x => setPress s1 t n (refs.foldl (fun y g => y.release g.1 g.2) x)
    | none => s1
  finish (raiseCounter s2 t r.2.2.2.1) id r.1 r.2.1 r.2.2.1

/-- References packed into one number: generation + 16 × count for each of two slots. -/
def packRefs (l : List (Nat × Nat)) : Nat := l.foldr (fun g acc => g.1 + 16 * (g.2 + 2 ^ 16 * acc)) 0

def unpackRefs (x : Nat) : List (Nat × Nat) :=
  [(x % 16, x / 16 % 2 ^ 16), (x / 2 ^ 20 % 16, x / 2 ^ 24 % 2 ^ 16)]

/-- Encode the input with the newest table: blocks take their references, and the outputs are written. -/
def encodeWork (s : State) (id : Nat) (c : Cmd) (t n : Nat) (x : Press) : State :=
  match x.newest with
  | none => fail s id Status.pressNoTable
  | some y =>
    let len := fld c.w4 31 0
    let r := refOf c.w2
    let bs := (inputBlocks (refView s t r len) len).map fun b => encodeBlock y.lengths y.gen b.1 b.2
    let out := bs.flatMap fun b => b.bytes.map fun z => (z, b.poison)
    let status := if bs.any (·.poison) then Status.pressBlockPoison else Status.ok
    let r0 := out.length * 2 ^ 32 + (bs.filter (·.mode = 0)).length
    let r1 := y.gen * 2 ^ 32 + (bs.filter (·.mode = 2)).length
    let s1 := refWrite (touchRef s t r) id t (refOf c.w3) 0 out
    let s2 := setPress s1 t n (x.refer y.gen bs.length)
    let s3 := meterAdd s2 t 255 3 (96 * bs.length)
    await (setStage (keepResults s3 id status r0 r1 (fld c.w5 47 32) (packRefs [(y.gen, bs.length)])) id 3) id .engine

/-- The copy engine reads a command's input: tensors of T2 and T3 are staged (06 R172, R174), while its gates and the Press's output credits let the
traffic pass (02 R34, R35; 17 R499). DESIGN CHOICE, log entry 133. -/
def pressGate (s : State) (id : Nat) (c : Cmd) (k : State → State) : State :=
  let t := cmdTenant s c
  if mayMove s t (classOf c) (List.range 20) then k (readNamed (chargeTraffic s t (classOf c) (List.range 20)) t (refTensor (refOf c.w2)))
  else await s id .engine

/-- Check 1 of R400 for an encode or a decode. -/
def codecFields (c : Cmd) (encode : Bool) : Bool :=
  let n := fld c.w4 31 0
  if encode then 1 ≤ n && n ≤ 67108864 else 16 ≤ n && n ≤ 16384 * 4112 && 1 ≤ fld c.w6 31 0 && fld c.w6 31 0 ≤ 16384

def encodeBody (c : Cmd) (id : Nat) (s : State) : State :=
  let t := cmdTenant s c
  let n := fld c.w4 63 48
  let len := fld c.w4 31 0
  let build := flag c.w4 47
  match pressOf s t n with
  | none => fail s id (if codecFields c true then Status.pressStreamUnknown else Status.pressLength)
  | some x =>
    match firstCode [orCode (codecFields c true) Status.pressLength, camRef s t (refOf c.w2) len,
        camRef s t (refOf c.w3) (ceilDiv len 4096 * 4112), orCode (build || x.newest.isSome) Status.pressNoTable] with
    | some e => fail s id e
    | none =>
      if build then
        let counts := symbolCounts ((inputBlocks (refView s t (refOf c.w2) len) len).map (·.1))
        let i : Install := { slot := id, lengths := buildLengths counts, gen := none, since := s.mono, recorded := false, build := true }
        let s1 := queueInstall (setStage s id 1) t n x i
        match tget s1.comp.press (t, n) with
        | some x1 => if stageOf s1 id = 2 then pressGate s1 id c fun s => encodeWork s id c t n x1 else s1
        | none => s1
      else pressGate s id c fun s => encodeWork s id c t n x

def runPressEncode (c : Cmd) (s : State) : State :=
  runCmd 0x62 c s fun again id s =>
    let t := cmdTenant s c
    let n := fld c.w4 63 48
    match stageOf s id with
    | 3 => finishPress s id t n (unpackRefs (tgetD s.comp.samples id (0, 0, 0, 0, 0)).2.2.2.2)
    | 2 => match tget s.comp.press (t, n) with
      | some x => pressGate s id c fun s => encodeWork s id c t n x
      | none => fail s id Status.pressStreamUnknown
    | 1 => s
    | _ =>
      if !counterOk (fld c.w5 47 32) then fail s id Status.tagInvalid
      else tagGate s id c (fld c.w5 63 48) again (encodeBody c id)

/-- PRESS_ENCODE (R389–R393, R397). -/
def execPressEncode (c : Cmd) (s : State) : Host.Outcome State Fault Refusal := ordinary s (runPressEncode c s)

/-- Write the slots of decoded blocks in turn. -/
def writeSlots (s : State) (id t : Nat) (r : Ref) : Nat → List Decoded → State
  | _, [] => s
  | i, d :: l => writeSlots (refWrite s id t r (4096 * i) (slotBytes d)) id t r (i + 1) l

def decodeBody (c : Cmd) (id : Nat) (s : State) : State :=
  let t := cmdTenant s c
  let n := fld c.w4 63 48
  let len := fld c.w4 31 0
  let blocks := fld c.w6 31 0
  match pressOf s t n with
  | none => fail s id (if codecFields c false then Status.pressStreamUnknown else Status.pressLength)
  | some x =>
    match firstCode [orCode (codecFields c false) Status.pressLength, camRef s t (refOf c.w2) len, camRef s t (refOf c.w3) (blocks * 4096)] with
    | some e => fail s id e
    | none => pressGate s id c fun s =>
      let ds := decodeBlocks x (refView s t (refOf c.w2) len) len blocks (some 0)
      let bad := (List.range ds.length).filter fun i => (ds[i]?).any fun d => d.out.isNone
      let written := (ds.map fun d => d.out.elim 4096 (·.length)).sum
      let status := if bad = [] then Status.ok else Status.pressBlockPoison
      let refs := x.slots.map fun y => (y.gen, (ds.filter fun d => d.gen = some y.gen).length)
      let s1 := writeSlots (touchRef s t (refOf c.w2)) id t (refOf c.w3) 0 ds
      let s2 := setPress s1 t n (refs.foldl (fun y g => y.refer g.1 g.2) x)
      let s3 := meterAdd s2 t 255 3 (96 * blocks)
      await (setStage (keepResults s3 id status (written * 2 ^ 32 + bad.length) (bad.headD 0xFFFFFFFF) (fld c.w5 47 32) (packRefs refs)) id 3) id .engine

def runPressDecode (c : Cmd) (s : State) : State :=
  runCmd 0x63 c s fun again id s =>
    if stageOf s id = 3 then
      finishPress s id (cmdTenant s c) (fld c.w4 63 48) (unpackRefs (tgetD s.comp.samples id (0, 0, 0, 0, 0)).2.2.2.2)
    else if !counterOk (fld c.w5 47 32) then fail s id Status.tagInvalid
    else tagGate s id c (fld c.w5 63 48) again (decodeBody c id)

/-- PRESS_DECODE (R393, R395, R396). -/
def execPressDecode (c : Cmd) (s : State) : Host.Outcome State Fault Refusal := ordinary s (runPressDecode c s)

/-! ### PRESS_TABLE_INSTALL, PRESS_TABLE_READ -/

def runPressTableInstall (c : Cmd) (s : State) : State :=
  runCmd 0x64 c s fun again id s =>
    let t := cmdTenant s c
    let n := fld c.w3 63 48
    let a := c.w2.toNat
    let img := s.hostMem.readBytes a 192
    let g := bits (leNat (img.take 8)) 63 60
    if again then s
    else if !(a % 64 = 0) then fail s id Status.operandRange
    else match pressOf s t n with
      | none => fail s id Status.pressStreamUnknown
      | some x =>
        if hostBad s a 192 || !imageOk img then fail s id Status.pressTableFormat
        else if x.installs = [] && (x.slotOfGen g).isSome then fail s id Status.pressGenHeld
        else queueInstall s t n x { slot := id, lengths := imageLengths img, gen := some g, since := s.mono, recorded := false, build := false }

/-- PRESS_TABLE_INSTALL (R388, R392, R394). -/
def execPressTableInstall (c : Cmd) (s : State) : Host.Outcome State Fault Refusal := quiet s (runPressTableInstall c s)

def runPressTableRead (c : Cmd) (s : State) : State :=
  runCmd 0x65 c s fun _ id s =>
    let t := cmdTenant s c
    let a := c.w2.toNat
    if !(a % 64 = 0) then fail s id Status.operandRange
    else match pressOf s t (fld c.w3 63 48) with
      | none => fail s id Status.pressStreamUnknown
      | some x => match x.slotOfGen (fld c.w3 3 0) with
        | none => fail s id Status.pressGenAbsent
        | some y => finish (refWrite s id t (.host a) 0 (clean (tableImage y.lengths y.gen))) id Status.ok 0 0

/-- PRESS_TABLE_READ. -/
def execPressTableRead (c : Cmd) (s : State) : Host.Outcome State Fault Refusal := ordinary s (runPressTableRead c s)

/-- A tenant reset frees the tenant's streams (R401). -/
def resetPress (s : State) (t : Nat) : State := { s with comp := { s.comp with press := s.comp.press.filter fun e => e.1.1 ≠ t } }

end Sys2Proof.Machine
end

