-- ==== Sys2Proof/Machine/Vector.lean ====
section
/-!
DEFINITION. Vector indices, the walk of the Skimmers, the merge, and the vector search commands (12_vector_search.md).
-/
namespace Sys2Proof.Machine

/-! ### Versions (R351–R356) -/

def IxVer.isAt (v : IxVer) (t i n : Nat) : Bool := v.tenant = t && v.index = i && v.version = n

def ixVer (s : State) (t i n : Nat) : Option IxVer := s.comp.indices.find? (·.isAt t i n)

def setIndices (s : State) (l : List IxVer) : State := { s with comp := { s.comp with indices := l } }

def setIxVer (s : State) (v : IxVer) : State :=
  setIndices s (s.comp.indices.map fun x => if x.isAt v.tenant v.index v.version then v else x)

/-- The CURRENT version of an index. -/
def ixCurrent (s : State) (t i : Nat) : Option IxVer := s.comp.indices.find? fun v => v.tenant = t && v.index = i && v.st = .current

def IxVer.fmt (v : IxVer) : Fmt := fmtOrF32 v.elem
def IxVer.vbytes (v : IxVer) : Nat := v.dim * (v.fmt.width / 8)
def IxVer.recordBytes (v : IxVer) : Nat := v.vbytes + roundUp (32 + 4 * v.degreeMax) 64

/-- Runs of a partition (R355): whole runs of 64 slabs, a last run of the fewest slabs, and the tombstone bitmap. -/
def partRuns (recordBytes count : Nat) : List Nat :=
  let per := 4194304 / recordBytes
  let rest := count % per
  let bitmap := ceilDiv (ceilDiv count 8) 65536
  List.replicate (count / per) 64 ++ (if rest = 0 then [] else [ceilDiv (rest * recordBytes) 65536]) ++
    List.replicate (bitmap / 64) 64 ++ (if bitmap % 64 = 0 then [] else [bitmap % 64])

def indexBack (i n : Nat) : Nat := 2 ^ 48 + i * 2 ^ 32 + n

/-- Place runs on one stack, in T1, without dropping a page. -/
def placeOn (s : State) (t back stack : Nat) : List Nat → Except Short (List Nat × State)
  | [] => .ok ([], s)
  | n :: r =>
    match placeEntry s t n [stack] false false 3 0 0 back true with
    | .error e => .error e
    | .ok (i, s1) => match placeOn s1 t back stack r with
      | .error e => .error e
      | .ok (l, s2) => .ok (i :: l, s2)

/-- Place every partition; where one does not fit the state is as before. -/
def placeParts (s : State) (v : IxVer) : List (Nat × Part) → Except Short (List Nat × State)
  | [] => .ok ([], s)
  | (k, p) :: r =>
    match placeOn s v.tenant (indexBack v.index v.version) k (partRuns v.recordBytes p.count) with
    | .error e => .error e
    | .ok (l, s1) => match placeParts s1 v r with
      | .error e => .error e
      | .ok (l2, s2) => .ok (l ++ l2, s2)

def zipIndex (l : List Part) : List (Nat × Part) := (List.range l.length).zip l

/-- Free a version's runs. -/
def freeIxVer (s : State) (v : IxVer) : State :=
  let s1 := freeEntries s v.dirs
  setIndices s1 (s1.comp.indices.filter fun x => !x.isAt v.tenant v.index v.version)

/-- Does the module hold indices (R351)? -/
def holdsIndices (s : State) : Bool := s.image.role = .c || s.image.role = .s

/-! ### INDEX_CREATE (R353) -/

/-- The version that a descriptor describes (Table 12.1). -/
def descriptorOf (t : Nat) (m : Memory) (a : Nat) : IxVer :=
  let w0 := m.readWord a
  { tenant := t, index := fld w0 63 48, version := fld w0 47 32, dim := fld w0 31 19, elem := fld w0 18 15, metric := fld w0 14 13,
    degreeMax := fld w0 12 6, st := .loading, deleteSeq := 0, dirs := []
    parts := (List.range 20).map fun k =>
      let x := m.readWord (a + 64 + 16 * k)
      { count := fld x 63 32, entry := fld x 31 0, crc := fld (m.readWord (a + 72 + 16 * k)) 63 32, loaded := 0, records := Blob.zeros, tomb := [] } }

/-- DEDUCED, log entry 76. -/
def IxVer.formatOk (v : IxVer) : Bool :=
  v.index ≠ 0 && v.version ≠ 0 && 64 ≤ v.dim && v.dim ≤ 4096 && v.dim % 64 = 0 && 1 ≤ v.elem && v.elem ≤ 6 && v.metric ≤ 2 && 1 ≤ v.degreeMax &&
  v.degreeMax ≤ 64 && v.parts.all fun p => p.count ≤ 134217728 && (if p.count = 0 then p.entry = 0 else p.entry < p.count)

/-- Are the limits of R351 reached? -/
def ixLimit (s : State) (t i : Nat) : Bool :=
  2 ≤ (s.comp.indices.filter fun v => v.tenant = t && v.index = i).length || 64 ≤ (s.comp.indices.filter (·.tenant = t)).length ||
  256 ≤ s.comp.indices.length

/-- DEDUCED, log entry 76. -/
def createBody (c : Cmd) (id : Nat) (s : State) : State :=
  let t := cmdTenant s c
  let a := c.w2.toNat
  let v := descriptorOf t s.hostMem a
  if !holdsIndices s then fail s id Status.opcodeInvalid
  else if !(a % 64 = 0) then fail s id Status.operandRange
  else if hostBad s a 384 then fail s id Status.hostReadError
  else if !v.formatOk then fail s id Status.vsearchParam
  else if (ixVer s t v.index v.version).isSome then fail s id Status.vindexExists
  else if ixLimit s t v.index then fail s id Status.vindexLimit
  else match placeParts s v (zipIndex v.parts) with
    | .error e => fail (unplaced s e) id Status.vindexNoRoom
    | .ok (dirs, s1) =>
      let slabs := (v.parts.map fun p => (partRuns v.recordBytes p.count).sum).sum
      finish (setIndices s1 (s1.comp.indices ++ [{ v with dirs := dirs }])) id Status.ok slabs 0

def runIndexCreate (c : Cmd) (s : State) : State := runCmd 0x58 c s fun _ id s => createBody c id s

/-- INDEX_CREATE (R353, Table 12.3). -/
def execIndexCreate (c : Cmd) (s : State) : Host.Outcome State Fault Refusal := quiet s (runIndexCreate c s)

/-! ### INDEX_LOAD_PART (R357) -/

/-- Is a record as R357 asks? `a` is where it begins, `own` its local ID. DEDUCED, log entry 16. -/
def recordOkAt (m : Memory) (v : IxVer) (count own a : Nat) : Bool :=
  let nb := a + v.vbytes
  let w3 := m.readNat (nb + 24) 8
  let deg := bits w3 63 57
  deg ≤ v.degreeMax && bits w3 56 0 = 0 && (List.range v.degreeMax).all fun j =>
    let x := m.readNat (nb + 32 + 4 * j) 4
    bits x 31 27 = 0 && (deg ≤ j || (x < count && x ≠ own))

/-- Bytes of host memory, each with its poison. -/
def hostBytes (s : State) (a n : Nat) : List (Byte × Bool) :=
  let v := refView s 0 (.host a) n
  (List.range n).map fun i => (blobByte v.1 (a + i), blobBad v.1 (a + i) 1)

def setPart (v : IxVer) (k : Nat) (p : Part) : IxVer := { v with parts := v.parts.set k p }

def loadPartBody (c : Cmd) (id : Nat) (s : State) : State :=
  let t := cmdTenant s c
  let a := c.w2.toNat
  let i := fld c.w3 63 48
  let n := fld c.w3 47 32
  let k := fld c.w3 31 27
  let first := fld c.w4 63 32
  let cnt := fld c.w4 31 0
  if !holdsIndices s then fail s id Status.opcodeInvalid
  else if !(a % 64 = 0) then fail s id Status.operandRange
  else if 20 ≤ k || cnt = 0 || 1048576 < cnt || i = 0 || n = 0 then fail s id Status.vsearchParam
  else match ixVer s t i n with
    | none => fail s id Status.vindexUnknown
    | some v => match v.parts[k]? with
      | none => fail s id Status.vsearchParam
      | some p =>
        if !(v.st = .loading) || !(first = p.loaded) || p.count < first + cnt then fail s id Status.vindexState
        else if !(List.range cnt).all (fun j => recordOkAt s.hostMem v p.count (first + j) (a + j * v.recordBytes)) then
          fail s id Status.vindexFormat
        else
          let recs := blobWrite p.records (first * v.recordBytes) (hostBytes s a (cnt * v.recordBytes))
          finish (setIxVer s (setPart v k { p with loaded := first + cnt, records := recs })) id Status.ok (first + cnt) 0

def runIndexLoadPart (c : Cmd) (s : State) : State := runCmd 0x59 c s fun _ id s => loadPartBody c id s

/-- INDEX_LOAD_PART (R357). -/
def execIndexLoadPart (c : Cmd) (s : State) : Host.Outcome State Fault Refusal := quiet s (runIndexLoadPart c s)

/-! ### INDEX_COMMIT, INDEX_RETIRE, INDEX_QUERY (Table 12.3) -/

/-- Does every partition's CRC hold? -/
def IxVer.crcOk (v : IxVer) : Bool := v.parts.all fun p => crc32c (blobBytes p.records 0 (p.count * v.recordBytes)) = p.crc

/-- A version becomes CURRENT; the one before it retires. -/
def makeCurrent (s : State) (v : IxVer) : State :=
  let old := fun (x : IxVer) => if x.tenant = v.tenant && x.index = v.index && x.st = .current then { x with st := .retiring } else x
  setIxVer (setIndices s (s.comp.indices.map old)) { v with st := .current }

def commitBody (c : Cmd) (id : Nat) (s : State) : State :=
  let t := cmdTenant s c
  let current := flag c.w3 0
  if !holdsIndices s then fail s id Status.opcodeInvalid
  else match ixVer s t (fld c.w2 31 16) (fld c.w2 15 0) with
    | none => fail s id Status.vindexUnknown
    | some v => match v.st with
      | .loading =>
        if v.parts.any fun p => p.loaded < p.count then fail s id Status.vindexState
        else if !v.crcOk then fail (freeIxVer s v) id Status.vindexIntegrity
        else finish (if current then makeCurrent s v else setIxVer s { v with st := .held }) id Status.ok 0 0
      | .held => if current then finish (makeCurrent s v) id Status.ok 0 0 else fail s id Status.vindexState
      | _ => fail s id Status.vindexState

def runIndexCommit (c : Cmd) (s : State) : State := runCmd 0x5A c s fun _ id s => commitBody c id s

/-- INDEX_COMMIT (Table 12.3). -/
def execIndexCommit (c : Cmd) (s : State) : Host.Outcome State Fault Refusal := quiet s (runIndexCommit c s)

def runIndexRetire (c : Cmd) (s : State) : State :=
  runCmd 0x5B c s fun _ id s =>
    if !holdsIndices s then fail s id Status.opcodeInvalid
    else match ixVer s (cmdTenant s c) (fld c.w2 31 16) (fld c.w2 15 0) with
      | none => fail s id Status.vindexUnknown
      | some v => finish (setIxVer s { v with st := .retiring }) id Status.ok 0 0

/-- INDEX_RETIRE (Table 12.3). -/
def execIndexRetire (c : Cmd) (s : State) : Host.Outcome State Fault Refusal := quiet s (runIndexRetire c s)

/-- INDEX_VERSION_FREE (Table 12.3): a retiring version that no started command reads. A command reads it within one step of this model. -/
def execIndexVersionFree (t i n : Nat) (s : State) : Host.Outcome State Fault Refusal :=
  match ixVer s t i n with
  | some v => if v.st = .retiring then quiet s (freeIxVer s v) else .next s
  | none => .next s

/-- Vectors and tombstones of a version. -/
def IxVer.counts (v : IxVer) : Nat × Nat := ((v.parts.map (·.count)).sum, (v.parts.map fun p => p.tomb.length).sum)

def queryBody (c : Cmd) (id : Nat) (s : State) : State :=
  let t := cmdTenant s c
  let i := fld c.w2 31 16
  let n := fld c.w2 15 0
  let cur := (ixCurrent s t i).elim 0 (·.version)
  if !holdsIndices s then fail s id Status.opcodeInvalid
  else match (if n = 0 then ixCurrent s t i else ixVer s t i n) with
    | none => finish s id Status.ok (cur * 2 ^ 40) 0
    | some v => finish s id Status.ok (v.st.code * 2 ^ 56 + cur * 2 ^ 40 + v.deleteSeq) (v.counts.1 * 2 ^ 32 + v.counts.2)

def runIndexQuery (c : Cmd) (s : State) : State := runCmd 0x5E c s fun _ id s => queryBody c id s

/-- INDEX_QUERY (Table 12.4). -/
def execIndexQuery (c : Cmd) (s : State) : Host.Outcome State Fault Refusal := quiet s (runIndexQuery c s)

/-! ### Distances (R361) -/

/-- The sum of the terms of one lane of 64, in ascending order. -/
def laneTotal (l : List Num) (j : Nat) : Num := ((List.range (ceilDiv l.length 64)).filterMap fun i => l[j + 64 * i]?).foldl add32 .zero

/-- Terms summed in 64 lanes and the pairwise tree. -/
def laneSum (l : List Num) : Num := pairwise ((List.range 64).map (laneTotal l))

/-- An exact sum. -/
def exactSum (l : List Num) : Num := l.foldl Num.add .zero

/-- The dot product of two vectors. -/
def dotVec (f : Fmt) (a b : List Num) : Num := if f = .int8 then exactSum (List.zipWith Num.mul a b) else laneSum (List.zipWith mul32 a b)

/-- The squared Euclidean distance of two vectors, before its last rounding. -/
def euclid (f : Fmt) (a b : List Num) : Num :=
  let d := List.zipWith (fun x y => if f = .int8 then Num.sub x y else r32 (Num.sub x y)) a b
  if f = .int8 then exactSum (d.map fun x => Num.mul x x) else laneSum (d.map fun x => mul32 x x)

/-- dist(q, v): a NaN becomes positive infinity. -/
def distance (v : IxVer) (q : List Num) (qinv invNorm : Num) (x : List Num) : Num :=
  let d := match v.metric with
    | 0 => Num.neg (r32 (dotVec v.fmt q x))
    | 1 => r32 (Num.sub .one (r32 (Num.mul (r32 (Num.mul (dotVec v.fmt q x) qinv)) invNorm)))
    | _ => r32 (euclid v.fmt q x)
  if d = .nan then .inf false else d

/-! ### The walk (R362–R364) -/

/-- A candidate or a result: distance, local ID, whether it was expanded. -/
structure Cand where
  d : Num
  n : Nat
  done : Bool
deriving DecidableEq, Repr

/-- The order of R361 within a partition. -/
def candBefore (a b : Cand) : Bool := Num.lt a.d b.d || (!Num.lt b.d a.d && a.n < b.n)

/-- The filter of a search (R364). -/
inductive Filter where
  | all
  | attr (mask value : Nat)
  | tag (banks : List Nat) (space : Nat)
deriving DecidableEq, Repr

/-- What a walk reads: its partition, its query and its parameters. -/
structure WEnv where
  s : State
  v : IxVer
  p : Part
  q : List Num
  qinv : Num
  f : Filter
  k : Nat
  l : Nat
  budget : Nat

/-- What a walk has done so far. -/
structure Walk where
  cands : List Cand
  res : List Cand
  seen : List Nat
  expansions : Nat
  distances : Nat
  tombs : Nat
  filtered : Nat
  poison : Bool
deriving DecidableEq, Repr

def Walk.empty : Walk := { cands := [], res := [], seen := [], expansions := 0, distances := 0, tombs := 0, filtered := 0, poison := false }

/-- Where a vector's record and its node block lie. -/
def WEnv.recAt (e : WEnv) (n : Nat) : Nat := n * e.v.recordBytes
def WEnv.nodeAt (e : WEnv) (n : Nat) : Nat := e.recAt n + e.v.vbytes

def WEnv.node (e : WEnv) (n off len : Nat) : Nat := leNat (blobBytes e.p.records (e.nodeAt n + off) len)

/-- The elements of a vector. -/
def vectorAt (b : Blob) (f : Fmt) (at' dim : Nat) : List Num := (List.range dim).map fun i => (elemAt b f at' i).1

def WEnv.vecBad (e : WEnv) (n : Nat) : Bool := blobBad e.p.records (e.recAt n) e.v.vbytes
def WEnv.nodeBad (e : WEnv) (n : Nat) : Bool := blobBad e.p.records (e.nodeAt n) (e.v.recordBytes - e.v.vbytes)

def WEnv.dist (e : WEnv) (n : Nat) : Num :=
  distance e.v e.q e.qinv (Fp.f32.decode (bits (e.node n 16 8) 63 32)) (vectorAt e.p.records e.v.fmt (e.recAt n) e.v.dim)

def WEnv.passes (e : WEnv) (n : Nat) : Bool :=
  match e.f with
  | .all => true
  | .attr mask value => decide (e.node n 8 8 &&& mask = value)
  | .tag banks space => !(camMatches e.s (space * 2 ^ 32 + e.node n 16 4) banks).isEmpty

/-- `visit` (R362). A vector whose line is poisoned counts as a tombstone for the results (R368). DEDUCED, log entry 77. -/
def WEnv.visit (e : WEnv) (n : Nat) (y : Walk) : Walk :=
  let x : Cand := { d := e.dist n, n := n, done := false }
  let dead := e.p.tomb.contains n
  let bad := e.vecBad n
  let room := y.cands.length < e.l
  let ahead := fun (l : List Cand) => match l.getLast? with
    | some z => candBefore x z
    | none => false
  let cands :=
    if room then insertBy candBefore x y.cands
    else if ahead y.cands then insertBy candBefore x y.cands.dropLast else y.cands
  let y1 := { y with cands := cands, seen := n :: y.seen, distances := y.distances + 1, tombs := y.tombs + b2n dead, poison := y.poison || bad }
  if !dead && !bad && (y.res.length < e.k || ahead y.res) then
    if e.passes n then { y1 with res := (insertBy candBefore x y.res).take e.k } else { y1 with filtered := y1.filtered + 1 }
  else y1

/-- Visit the neighbours of a vector that were not seen, in stored order. -/
def WEnv.visitAll (e : WEnv) : List Nat → Walk → Walk
  | [], y => y
  | n :: r, y => e.visitAll r (if y.seen.contains n then y else e.visit n y)

def WEnv.neighbours (e : WEnv) (n : Nat) : List Nat := (List.range (bits (e.node n 24 8) 63 57)).map fun j => e.node n (32 + 4 * j) 4 % 2 ^ 27

/-- The loop of the walk; the first argument bounds its turns. A node whose block is poisoned is not expanded (R368). DEDUCED, log entry 77. -/
def WEnv.loop (e : WEnv) : Nat → Walk → Walk
  | 0, y => y
  | f + 1, y =>
    if y.expansions < e.budget then
      match y.cands.find? fun c => !c.done with
      | none => y
      | some c =>
        let y1 := { y with cands := y.cands.map fun (z : Cand) => if z.n = c.n then ({ z with done := true } : Cand) else z }
        if e.nodeBad c.n then e.loop f { y1 with poison := true }
        else e.loop f (e.visitAll (e.neighbours c.n) { y1 with expansions := y1.expansions + 1 })
    else y

/-- A walk of one partition (R362, R363). -/
def WEnv.walk (e : WEnv) : Walk := if e.p.count = 0 then .empty else e.loop (65 * e.budget + 2) (e.visit e.p.entry .empty)

/-! ### Search (R365, R366, R370) -/

/-- Is a partition skipped: its island is not ON, or its Skimmer is retired (R368)? -/
def partDown (s : State) (k : Nat) : Bool :=
  !((fnState s (.island k)).st = .on) ||
  match (tgetD s.rel.health (6, k) .fresh).state with
  | .retired => true
  | .exhausted => true
  | _ => false

/-- What the partitions of a query have done: the last list of each, and the counts of all. -/
structure Found where
  lists : Tab Nat (List Cand)
  expansions : Nat
  distances : Nat
  tombs : Nat
  filtered : Nat
  poison : Bool
  /-- Bytes that each stack's Skimmer has read. -/
  bytes : Tab Nat Nat

/-- Walk the named partitions; the list of each replaces the one that it had. -/
def walkParts (e : WEnv) : List (Nat × Part) → Found → Found
  | [], y => y
  | (k, p) :: r, y =>
    let w := { e with p := p }.walk
    walkParts e r { lists := tset y.lists k w.res, expansions := y.expansions + w.expansions, distances := y.distances + w.distances,
                    tombs := y.tombs + w.tombs, filtered := y.filtered + w.filtered, poison := y.poison || w.poison
                    bytes := tupd y.bytes k 0 (· + (w.expansions * (e.v.recordBytes - e.v.vbytes) + w.distances * e.v.vbytes)) }

/-- The merge (R366): partition, candidate, in the order of R361. -/
def mergeLists (k : Nat) (l : Tab Nat (List Cand)) : List (Nat × Cand) :=
  let all := l.flatMap fun e => e.2.map fun c => (e.1, c)
  (sortBy (fun (a b : Nat × Cand) => Num.lt a.2.d b.2.d ||
    (!Num.lt b.2.d a.2.d && a.1 * 2 ^ 27 + a.2.n < b.1 * 2 ^ 27 + b.2.n)) all).take k

/-- Attempts of a query (R365): extensions follow while it is short. `n` bounds them. Answers the attempts made and the final queue size. -/
def attempts (e : WEnv) (parts : List (Nat × Part)) : Nat → Nat → Found → Nat × Nat × Found
  | 0, made, y => (made, e.l, y)
  | n + 1, made, y =>
    if (mergeLists e.k y.lists).length < e.k && e.l < 1024 then
      let e1 := { e with l := min 1024 (2 * e.l), budget := min 4095 (2 * e.budget) }
      let again := parts.filter fun x => (tgetD y.lists x.1 []).length < e.k
      attempts e1 parts n (made + 1) (walkParts e1 again y)
    else (made, e.l, y)

/-- The fields of VECTOR_SEARCH (Table 12.5). -/
structure SearchArgs where
  index : Nat
  version : Nat
  target : Nat
  k : Nat
  queue : Nat
  budget : Nat
  extend : Nat
  filter : Nat
  queries : Nat
  mask : Word
  value : Word
deriving DecidableEq, Repr

def searchArgs (c : Cmd) : SearchArgs :=
  { index := fld c.w4 63 48, version := fld c.w4 47 32, target := fld c.w4 31 14, k := fld c.w5 63 53, queue := fld c.w5 52 42, budget := fld c.w5 41 30,
    extend := fld c.w5 29 27, filter := fld c.w5 26 25, queries := fld c.w5 24 16, mask := c.w6, value := c.w7 }

def SearchArgs.ok (x : SearchArgs) : Bool :=
  1 ≤ x.k && x.k ≤ 1024 && x.k ≤ x.queue && x.queue ≤ 1024 && 1 ≤ x.budget && x.filter ≤ 2 && 1 ≤ x.queries && x.queries ≤ 256 && x.index ≠ 0

def SearchArgs.tagBanks (x : SearchArgs) : List Nat := maskBanks (fld x.mask 63 32)

def SearchArgs.filt (x : SearchArgs) : Filter :=
  match x.filter with
  | 0 => .all
  | 1 => .attr x.mask.toNat x.value.toNat
  | _ => .tag x.tagBanks (fld x.mask 31 0)

/-- Bytes of the result blocks (R370). -/
def SearchArgs.outBytes (x : SearchArgs) : Nat := x.queries * (64 + 16 * x.k)

/-- The version that a search or a delete takes (R358). -/
def searchVersion (s : State) (t i n : Nat) : Option IxVer :=
  if n = 0 then ixCurrent s t i else (ixVer s t i n).filter fun v => v.st = .current || v.st = .held

/-- Item 2–5 checks of R346 for the filter banks. -/
def tagChecks (s : State) (t : Nat) (x : SearchArgs) : Option Nat :=
  if x.filter = 2 then
    firstCode (bankChecks s t x.tagBanks true ++ [orCode (x.tagBanks.all fun b => (bankOf s b).width = 1) Status.camWidthMismatch])
  else none

/-- The result block of one query, and what it adds to the completion: missing, short, poison, expansions. -/
structure QueryOut where
  bytes : List Byte
  traffic : Tab Nat Nat
  missing : Bool
  short : Bool
  poison : Bool
  expansions : Nat

/-- One query, whose vector stands in `b` at `at'`. -/
def searchOne (s : State) (v : IxVer) (x : SearchArgs) (b : Blob) (at' : Nat) : QueryOut :=
  let q := vectorAt b v.fmt at' v.dim
  let all := zipIndex v.parts
  let parts := all.filter fun e => !partDown s e.1
  let missing := ((all.filter fun e => partDown s e.1).map fun e => 2 ^ e.1).sum
  let e : WEnv := { s := s, v := v, p := { count := 0, entry := 0, crc := 0, loaded := 0, records := Blob.zeros, tomb := [] }, q := q,
                    qinv := recipSqrt (dotVec v.fmt q q), f := x.filt, k := x.k, l := x.queue, budget := x.budget }
  let y0 := walkParts e parts { lists := [], expansions := 0, distances := 0, tombs := 0, filtered := 0, poison := false, bytes := [] }
  let r := attempts e parts x.extend 1 y0
  let y := r.2.2
  let best := mergeLists x.k y.lists
  let short := best.length < x.k
  let w0 := best.length * 2 ^ 53 + b2n short * 2 ^ 52 + b2n y.poison * 2 ^ 51 + r.1 * 2 ^ 44 + r.2.1 * 2 ^ 33 + missing
  let entry := fun (z : Nat × Cand) =>
    let pe := { e with p := (v.parts.getD z.1 e.p) }
    leBytes 8 (pe.node z.2.n 0 8) ++ leBytes 4 (z.1 * 2 ^ 27 + z.2.n) ++ leBytes 4 (Fp.f32.encode z.2.d)
  { bytes := leBytes 8 w0 ++ leBytes 8 (v.deleteSeq % 2 ^ 32 * 2 ^ 32 + y.expansions % 2 ^ 32) ++
      leBytes 8 (y.distances % 2 ^ 32 * 2 ^ 32 + y.tombs % 2 ^ 32) ++ leBytes 8 (y.filtered % 2 ^ 32 * 2 ^ 32) ++ List.replicate 32 0 ++
      best.flatMap entry ++ List.replicate (16 * (x.k - best.length)) 0
    traffic := y.bytes, missing := !(missing = 0), short := short, poison := y.poison, expansions := y.expansions }

/-- What a command of this chapter that may run elsewhere answers: status, results, and bytes with their poison; and the bytes that each stack's Skimmer
read. -/
structure Answer where
  status : Nat
  r0 : Nat
  r1 : Nat
  out : List (Byte × Bool)
  traffic : Tab Nat Nat
deriving DecidableEq, Repr

def Answer.code (e : Nat) : Answer := { status := e, r0 := 0, r1 := 0, out := [], traffic := [] }

/-- VECTOR_SEARCH on the module that holds the index: the query vectors stand in `b` from `at'` on, `len` bytes of them at least. -/
def searchHere (s : State) (t : Nat) (x : SearchArgs) (b : Blob) (at' : Nat) (len : Option Nat) : Answer :=
  if !holdsIndices s then Answer.code Status.opcodeInvalid
  else if !x.ok then Answer.code Status.vsearchParam
  else match searchVersion s t x.index x.version with
    | none => Answer.code Status.vindexUnknown
    | some v => match tagChecks s t x with
      | some e => Answer.code e
      | none =>
        if len.elim false (· < x.queries * v.vbytes) then Answer.code Status.operandRange
        else
          let outs := (List.range x.queries).map fun i =>
            (searchOne s v x b (at' + i * v.vbytes), blobBad b (at' + i * v.vbytes) v.vbytes)
          { status := if outs.any (·.1.missing) then Status.vsearchPartitionDown else if outs.any (·.1.poison) then Status.vsearchPoison else Status.ok
            r0 := (outs.filter (·.1.missing)).length * 2 ^ 32 + (outs.filter (·.1.short)).length
            r1 := (outs.map (·.1.expansions)).sum % 2 ^ 32
            out := outs.flatMap fun o => o.1.bytes.map fun y => (y, o.2)
            traffic := outs.flatMap (·.1.traffic) }

/-- Input bytes of a command that goes to another module: as far as the object reaches, `n` at most. -/
def carryInput (s : State) (t : Nat) (r : Ref) (n : Nat) : List (Byte × Bool) :=
  let len := match r with
    | .tensor id off => min n (((tget s.tier.tensors (t, id)).elim 0 (·.bytes)) - off)
    | _ => n
  let v := refView s t r len
  (List.range len).map fun i => (blobByte v.1 (v.2 + i), blobBad v.1 (v.2 + i) 1)

/-- The object that carried bytes make. -/
def carriedBlob (l : List (Byte × Bool)) : Blob := blobWrite Blob.zeros 0 l

/-- The Skimmer cycles of a search that ran are charged to the tenant (20_counters_and_metering.md R573, Table 20.6). Their number is not stated: a free
value. DESIGN CHOICE, log entry 78. What the Skimmers read counts against the stack-bandwidth budget (R349, 17 R498). -/
def meterWalks (s : State) (t cls : Nat) (a : Answer) : State :=
  if a.out = [] then s
  else
    let s1 := a.traffic.foldl (fun st e => charge st t 1 cls e.1 e.2) s
    meterAdd { s1 with free := s1.free + 1 } t 255 1 (Config.freeWord s1.free).toNat

/-- Does a stack-bandwidth gate hold the walks (R349; 17 R499), or the move of a bank that their filter searches (11 R342)? -/
def walksHeld (s : State) (c : Cmd) : Bool :=
  ((searchArgs c).filter = 2 && (searchArgs c).tagBanks.any (bankMoving s)) ||
  !mayMove s (cmdTenant s c) (classOf c) ((List.range 20).filter fun k => !partDown s k)

/-- Send a command with its input to the module that TARGET names (R369). -/
def sendTarget (s : State) (id : Nat) (c : Cmd) (target : Nat) (input : List (Byte × Bool)) : State :=
  let s1 := sysSend s target (.search (asForwarded s id c) input)
  modSlot s1 id fun x => { x with phase := .waiting .remote, sentAt := if x.sentTo = none then s.mono else x.sentAt, sentTo := some target }

/-- An answer becomes the command's completion, its bytes written to where `r` points. -/
def takeOutput (s : State) (id t : Nat) (r : Option Ref) (a : Answer) (fwd : Bool) : State :=
  let s1 := match r with
    | some x => if a.out = [] then s else refWrite s id t x 0 a.out
    | none => s
  finishWith s1 id a.status a.r0 a.r1 fwd

def isRemote (s : State) (target : Nat) : Bool := !(target = 0x3FFFF) && !(target = selfId s)

def vectorSearchBody (c : Cmd) (again : Bool) (id : Nat) (s : State) : State :=
  let t := cmdTenant s c
  let x := searchArgs c
  let r := refOf c.w2
  let waiting := again && (slotById s id).any fun y => y.phase = .waiting .remote
  if waiting then s
  else if isRemote s x.target then
    if !isMember s x.target then fail s id Status.vsearchTarget
    else if !x.ok then fail s id Status.vsearchParam
    else match firstCode [camRef s t r 0, camRef s t (refOf c.w3) x.outBytes] with
      | some e => fail s id e
      | none => sendTarget s id c x.target (carryInput s t r (x.queries * 16384))
  else
    let v := searchVersion s t x.index x.version
    let inBytes := x.queries * v.elim 0 (·.vbytes)
    let view := refView s t r inBytes
    let a := searchHere s t x view.1 view.2 none
    match (if a.out = [] then none else firstCode [camRef s t r inBytes, camRef s t (refOf c.w3) x.outBytes]) with
    | some e => fail s id e
    | none =>
      if !(a.out = []) && walksHeld s c then await s id .engine
      else takeOutput (meterWalks s t (classOf c) a) id t (some (refOf c.w3)) a false

def runVectorSearch (c : Cmd) (s : State) : State :=
  runCmd 0x5C c s fun again id s => vectorSearchBody c again id (readNamed s (cmdTenant s c) (refTensor (refOf c.w2)))

/-- VECTOR_SEARCH (R369–R371). -/
def execVectorSearch (c : Cmd) (s : State) : Host.Outcome State Fault Refusal := ordinary s (runVectorSearch c s)

/-! ### VECTOR_DELETE (R359, R360) -/

structure DeleteArgs where
  index : Nat
  version : Nat
  target : Nat
  count : Nat
deriving DecidableEq, Repr

def deleteArgs (c : Cmd) : DeleteArgs := { index := fld c.w2 31 16, version := fld c.w2 15 0, target := fld c.w2 63 46, count := fld c.w4 31 0 }

def DeleteArgs.ok (x : DeleteArgs) : Bool := x.index ≠ 0 && 1 ≤ x.count && x.count ≤ 65536

/-- Does the version hold the vector? -/
def IxVer.has (v : IxVer) (id : Nat) : Bool := (v.parts[id / 2 ^ 27]?).any fun p => id % 2 ^ 27 < p.count

/-- Set tombstone bits in turn: newly set, already set, and the version after. -/
def bury (v : IxVer) : List Nat → Nat × Nat → (Nat × Nat) × IxVer
  | [], n => (n, v)
  | id :: r, n =>
    match v.parts[id / 2 ^ 27]? with
    | none => bury v r n
    | some p =>
      if p.tomb.contains (id % 2 ^ 27) then bury v r (n.1, n.2 + 1)
      else bury (setPart v (id / 2 ^ 27) { p with tomb := p.tomb ++ [id % 2 ^ 27] }) r (n.1 + 1, n.2)

/-- VECTOR_DELETE on the module that holds the index. -/
def deleteHere (s : State) (t : Nat) (x : DeleteArgs) (ids : List Nat) : Answer × State :=
  if !holdsIndices s then (Answer.code Status.opcodeInvalid, s)
  else if !x.ok then (Answer.code Status.vsearchParam, s)
  else match searchVersion s t x.index x.version with
    | none => (Answer.code Status.vindexUnknown, s)
    | some v =>
      if !ids.all v.has then (Answer.code Status.vectorIdRange, s)
      else
        let b := bury { v with deleteSeq := wrapAdd 32 v.deleteSeq 1 } ids (0, 0)
        ({ status := Status.ok, r0 := b.1.1, r1 := b.2.deleteSeq * 2 ^ 32 + b.1.2, out := [], traffic := [] }, setIxVer s b.2)

/-- The IDs that an operand's bytes hold. -/
def idsOf (l : List (Byte × Bool)) (n : Nat) : List Nat := (List.range n).map fun i => leNat (((l.drop (4 * i)).take 4).map (·.1))

def vectorDeleteBody (c : Cmd) (again : Bool) (id : Nat) (s : State) : State :=
  let t := cmdTenant s c
  let x := deleteArgs c
  let r := refOf c.w3
  let waiting := again && (slotById s id).any fun y => y.phase = .waiting .remote
  if waiting then s
  else if isRemote s x.target then
    if !isMember s x.target then fail s id Status.vsearchTarget
    else if !x.ok then fail s id Status.vsearchParam
    else match camRef s t r (4 * x.count) with
      | some e => fail s id e
      | none => sendTarget s id c x.target (carryInput s t r (4 * x.count))
  else
    let a := deleteHere s t x (idsOf (carryInput s t r (4 * x.count)) x.count)
    match (if a.1.status = Status.ok then camRef s t r (4 * x.count) else none) with
    | some e => fail s id e
    | none => takeOutput a.2 id t none a.1 false

def runVectorDelete (c : Cmd) (s : State) : State :=
  runCmd 0x5D c s fun again id s => vectorDeleteBody c again id (readNamed s (cmdTenant s c) (refTensor (refOf c.w3)))

/-- VECTOR_DELETE (R359, R360). -/
def execVectorDelete (c : Cmd) (s : State) : Host.Outcome State Fault Refusal := quiet s (runVectorDelete c s)

/-- VECTOR_SEARCH and VECTOR_DELETE that another module has sent here with their input run, and the answer goes back (R369). -/
def runTarget (s : State) (c : Cmd) (input : List (Byte × Bool)) : State :=
  match c.src with
  | none => s
  | some (m, t) =>
    let back := { c with src := none }
    if opcodeOf c = 0x5C then
      let x := searchArgs c
      let a := searchHere s t x (carriedBlob input) 0 (some input.length)
      sysSend (meterWalks s t (classOf c) a) m (.found back a.status a.r0 a.r1 a.out)
    else
      let x := deleteArgs c
      let a := deleteHere s t x (idsOf input x.count)
      sysSend a.2 m (.found back a.1.status a.1.r0 a.1.r1 [])

/-- A tenant reset frees the tenant's versions (R371). -/
def resetIndices (s : State) (t : Nat) : State := (s.comp.indices.filter (·.tenant = t)).foldl freeIxVer s

end Sys2Proof.Machine
end

