-- ==== Sys2Proof/Machine/Resets.lean ====
section
/-!
DEFINITION. Resets below the module's: the host interface, a tenant, a function; and the completion of shut-downs
(03_configuration_image_and_startup.md R75, R76, Table 3.15; 04_host_queues.md R82, R86, R90, R99; 02 R48, R49; 05 R161).
-/
namespace Sys2Proof.Machine

/-! ### The host interface (04 R82) -/

/-- A function's registers after the loss of the link. HOST_CQ_DROPPED counts on; HOST_CTR_SEL is not in the tables that R82 names. PRESUMED, log entry 27. -/
def FuncRegs.lost (f : FuncRegs) : FuncRegs := { FuncRegs.reset with dropped := f.dropped, ctrSel := f.ctrSel, ctrHi := f.ctrHi }

/-- A Kettle ring after the loss of the link: its registers at reset but KETTLE_LOST, which the module writes. -/
def Kettle.afterLoss (k : Kettle) : Kettle := { Kettle.reset with fn := k.fn, lost := k.lost }

/-- A queue pair goes OFF with its registers at reset. -/
def queueOff (s : State) (k : Nat × Nat) : State :=
  let was := (queueOf s k.1 k.2).fn
  moveFn (setQueue s k.1 k.2 { QueuePair.reset with fn := was }) (.queue k.1 k.2) .clean

def queuesOff (s : State) : List (Nat × Nat) → State
  | [] => s
  | k :: r => queuesOff (queueOff s k) r

/-- A ring goes OFF: its staged and open words are counted lost (R118). -/
def kettleOff (s : State) (fn : Nat) : State :=
  let s1 := discardRing s fn
  moveFn (setKettle s1 fn (kettleOf s1 fn).afterLoss) (.kettle fn) .clean

def kettlesOff (s : State) : List Nat → State
  | [] => s
  | fn :: r => kettlesOff (kettleOff s fn) r

/-- Slots of the host's own queues after the loss: started commands go on without a completion; those fetched and not started, and those whose
completion is due, are gone and counted. -/
def dropHostSlots (s : State) : State :=
  let own := fun (x : Slot) => decide (x.cmd.src = none)
  let gone := s.host.slots.filter fun x => own x && !x.dead && decide (x.phase = .finished)
  let kept := s.host.slots.filter fun x => !(own x && decide (x.phase = .finished))
  let s1 := { s with host := { s.host with slots := kept.map fun x => if own x then { x with dead := true } else x, due := [] } }
  let s2 := gone.foldl (fun st x => countDropped st x.cmd.fn) s1
  failAll s2 Status.commandAborted (s2.host.slots.filter fun x => own x && x.inHand && x.notStarted && x.sentTo.isNone)

/-- Close each tenant endpoint whose context lies in host memory (15_message_transport.md R432). -/
def closeOutside (s : State) : List Nat → State
  | [] => s
  | n :: r => closeOutside (if inHostMemory s n && (epOf s n).closer.isNone then closeEndpoint s n none else s) r

/-- Loss of the host link (R82; 06 R175; 09 R295; 15 R432). PRESUMED, log entry 27. -/
def linkLost (s : State) : State :=
  let s1 := dropHostSlots { s with host := { s.host with
    link := { s.host.link with up := false }, fetchPtr := 0, numVFs := 0, bar := 0, vfBar := 0 } }
  let s2 := { s1 with host := { s1.host with funcs := s1.host.funcs.map fun e => (e.1, e.2.lost) } }
  let s3 := kettlesOff (queuesOff s2 (s2.host.queues.map (·.1))) (s2.host.kettles.map (·.1))
  let s4 := loseHostStreams (detachT3 s3)
  setXport (closeOutside s4 (openEps s4)) { (closeOutside s4 (openEps s4)).xport with ctxArea := none }

/-- PERST_N (04 R82): honoured from step 5 of start-up (21_power_pins_package.md Table 21.5). -/
def execPerstN (s : State) : Host.Outcome State Fault Refusal :=
  let s0 := { s with boot := { s.boot with perstN := false } }
  if imageInForce s && s.boot.stop = none then quiet s (linkLost s0) else quiet s s0

/-! ### The work of a tenant (03 Table 3.15; 05 R161; 07 R234; 15 R429; 16 R484) -/

/-- FINISH with FAILED for an owned request: it follows whatever step of a handoff is outstanding. -/
def failOwned (s : State) (h : Nat) : State :=
  match ownedOf s h with
  | none => s
  | some o =>
    let step := match o.handoff with
      | some x => if x.st = .aborting then x.step + 2 else if x.st = .draining then o.record.step + 1 else x.step + 1
      | none => o.record.step + 1
    let s1 := endHeld s h Status.requestFinal 8 true
    let s2 := match o.handoff with
      | some x => unpinAll s1 h x.pinned
      | none => s1
    freeOwned (issue s2 { stepOf s2 o.record 7 with newPhase := 8, step := step } .none) h

def failAllOwned (s : State) : List Nat → State
  | [] => s
  | h :: r => failAllOwned (failOwned s h) r

/-- FINISH with FAILED for a request that the module heads while it is RECOVERING (05 R161): it follows the START_RECOVERY or CLAIM that is under
way, as far as the entry here has not applied it. -/
def failRecovering (s : State) (h : Nat) : State :=
  match tget s.req.ledger (h, 1) with
  | none => s
  | some e =>
    let s1 := dropRecovery (endHeld s h Status.requestFinal 8 true) h
    let x := { stepOf s1 e.record 7 with newPhase := 8 }
    let claiming := (tget s.req.recovering h).any (·.claiming)
    if e.record.phase = 6 then issue s1 (if claiming then { x with step := e.record.step + 2, epoch := e.record.epoch + 1 } else x) .none
    else issue s1 (if claiming then x else { x with step := e.record.step + 2 }) .none

def failAllRecovering (s : State) : List Nat → State
  | [] => s
  | h :: r => failAllRecovering (failRecovering s h) r

/-- A handoff toward the module ends. Where its CLAIM is under way, FINISH with FAILED follows the CLAIM, whose commit would make the module the owner. -/
def endRecving (s : State) (h : Nat) : State :=
  match tget s.req.recving h with
  | none => s
  | some v =>
    let s1 := discardRecving s h
    if v.st = .receiving then s1
    else issue s1 { stepOf s1 v.offer.record 7 with newPhase := 8, step := v.offer.step + 2, epoch := v.offer.epoch + 1 } .none

def endAllRecving (s : State) : List Nat → State
  | [] => s
  | h :: r => endAllRecving (endRecving s h) r

/-- A tray operation of the tenant ends with COMMAND_ABORTED (16 R484). -/
def abortTrayOp (s : State) (home : Nat) (o : TrayOp) : State :=
  endCovered (trayFinish (dropTrayOp s home o) o Status.commandAborted 0 0) o false

def abortTrayOps (s : State) (home : Nat) : List TrayOp → State
  | [] => s
  | o :: r => abortTrayOps (abortTrayOp s home o) home r

def abortTray (s : State) (t : Nat) : List Nat → State
  | [] => s
  | m :: r => abortTray (abortTrayOps s m ((peerOf s m).ops.filter fun o => o.tenant = t)) t r

/-- A queued request on a region of the tenant is answered with MKEY_INVALID (16 R484). -/
def refuseWork (s : State) : List TrayWork → State
  | [] => s
  | w :: r =>
    refuseWork (answerWork (setTray s { s.tray with work := s.tray.work.erase w }) w Status.mkeyInvalid false [] none) r

/-- Destroy the tenant's memory regions; runs of its tray regions are freed (15 R433, 16 R484). -/
def dropRegions (s : State) : List (Nat × Region) → State
  | [] => s
  | e :: r =>
    let key := keyOf s e.1
    let s1 := destroyRegion s e.1
    dropRegions (if e.2.space = 3 then freeSpace3 s1 key else s1) r

def closeEndpoints (s : State) : List Nat → State
  | [] => s
  | n :: r => closeEndpoints (if (epOf s n).closer.isNone then closeEndpoint s n none else s) r

def disableQueues (s : State) (fn : Nat) : List (Nat × Nat) → State
  | [] => s
  | k :: r => disableQueues (if k.1 = fn then disableFn s (.queue k.1 k.2) else s) fn r

/-- Commands of the tenant that are still in hand end with COMMAND_ABORTED. -/
def abortSlots (s : State) (t : Nat) : State :=
  let mine := s.host.slots.filter fun x => x.inHand && cmdTenant s x.cmd = t
  failAll (leaveTags s (mine.map (·.id))) Status.commandAborted mine

/-- End the tenant's work on every unit. DEDUCED, log entry 25. -/
def endTenantWork (s : State) (t : Nat) : State :=
  let s1 := match tenantRec s t with
    | some r => disableQueues s r.function (s.host.queues.map (·.1))
    | none => s
  let s2 := failAllOwned s1 ((s1.req.owned.map (·.1)).filter fun h => handleTenant h = t)
  let s3 := failAllRecovering s2 ((s2.req.recovering.map (·.1)).filter fun h => handleTenant h = t)
  let s4 := endAllRecving s3 ((s3.req.recving.map (·.1)).filter fun h => handleTenant h = t)
  let s5 := abortLadles s4 t
  let s6 := closeEndpoints s5 ((openEps s5).filter fun n => (epOf s5 n).tenant = t)
  let s7 := abortTray s6 t (s6.tray.peers.map (·.1))
  let mine := s7.xport.regions.filter fun r => !r.2.system && r.2.tenant = t && r.2.kind = 0
  let s8 := refuseWork s7 (s7.tray.work.filter fun w => mine.any fun r => r.1 = w.region)
  let s9 := dropRegions s8 mine
  let s10 := setTray s9 { s9.tray with
    groups := s9.tray.groups.filter fun (g : Nat × TrayGroup) => !(g.2.tenant = t)
    masks := s9.tray.masks.filter fun (m : (Nat × Nat) × Nat) => !(m.1.1 = t)
    frozen := s9.tray.frozen.filter fun (f : Nat × Nat) => !(f.1 = t) }
  abortSlots s10 t

/-! ### A tenant's shut-down -/

def dropSets (s : State) : List Nat → State
  | [] => s
  | ix :: r => dropSets (dropSet s ix) r

def freeConstraints (s : State) : List Constraint → State
  | [] => s
  | k :: r => freeConstraints (freeConstraint s k) r

/-- Everything that the tenant holds on the module is freed, and its memory key is replaced (03 Table 3.15; 06; 09; 10; 11 R347; 12; 13 R401; 19 R543).
Ledger copies stay (R76). -/
def freeTenant (s : State) (t : Nat) : State :=
  let s1 := dropSets s ((s.tier.prefixes.filter fun p => p.2.tenant = t).map (·.1))
  let s2 := freeConstraints s1 (s1.comp.constraints.filter fun k => k.tenant = t)
  let s3 := resetPress (resetIndices (resetAdapters s2 t) t) t
  let s4 := resetBanks s3 t
  let s5 := freeDrains s4 (s4.tier.drains.filter fun d => (tget s4.tier.dir d.dir).elim false fun e => e.tenant = t)
  let s6 := freeEntries s5 ((s5.tier.dir.filter fun e => e.2.tenant = t).map (·.1))
  { s6 with
    tier := { s6.tier with
      tensors := s6.tier.tensors.filter fun e => e.1.1 ≠ t
      models := s6.tier.models.filter fun m => m.tenant ≠ t
      streams := s6.tier.streams.filter fun e => e.2.tenant ≠ t }
    req := { s6.req with replicas := s6.req.replicas.filter fun e => handleTenant e.1.1 ≠ t }
    host := { s6.host with
      jobs := s6.host.jobs.filter fun e => e.1.1 ≠ t
      batches := s6.host.batches.filter fun e => e.1.1 ≠ t }
    xport := { s6.xport with
      tags := s6.xport.tags.filter fun e => e.1.1 ≠ t
      counters := s6.xport.counters.filter fun e => e.1.1 ≠ t }
    tele := { s6.tele with draftKept := s6.tele.draftKept.filter fun e => handleTenant e.1.1 ≠ t }
    sec := { s6.sec with keyGen := tupd s6.sec.keyGen t 0 (· + 1), drbg := s6.sec.drbg + 1 } }

/-- A function's queue pairs are OFF, in their clean reset state (04 R87). -/
def shutQueues (s : State) (fn : Nat) : List (Nat × Nat) → State
  | [] => s
  | k :: r =>
    let s1 := if k.1 = fn then
        let s0 := abandonSlots s k.1 k.2
        change (setQueue s0 k.1 k.2 (queueOf s0 k.1 k.2).cleanState) (.queue k.1 k.2) .clean
      else s
    shutQueues s1 fn r

/-- Every TENANT_RESET that names the tenant completes (04 R99). -/
def resetsDone (s : State) (t : Nat) : List Slot → State
  | [] => s
  | x :: r => resetsDone (if opcodeOf x.cmd = 0xB0 && x.phase = .waiting .earlier && fld x.cmd.w2 3 0 = t then finish s x.id Status.ok 0 0 else s) t r

/-- A tenant leaves STOPPING from its clean reset state (02 R49). DEDUCED, log entry 25. -/
def tenantShut (s : State) (t : Nat) : State :=
  let s1 := freeTenant (endTenantWork s t) t
  let s2 := match tenantRec s1 t with
    | some r => shutQueues s1 r.function (s1.host.queues.map (·.1))
    | none => s1
  let s3 := change s2 (.tenant t) (fnState s2 (.tenant t)).shutDone
  let s4 := if (fnState s3 (.tenant t)).st = .starting then enterStarting s3 (.tenant t) else s3
  resetsDone s4 t s4.host.slots

/-- The tenant reset begins (03 Table 3.15): the tenant shows STOPPING, and its work ends. DEDUCED, log entry 26. -/
def resetTenant (s : State) (t : Nat) : State :=
  endTenantWork (change s (.tenant t) (fnState s (.tenant t)).disable) t

/-- DEDUCED, log entry 26. -/
def tenantResetBody (c : Cmd) (again : Bool) (id : Nat) (s : State) : State :=
  let t := fld c.w2 3 0
  if again then s
  else if t = cmdTenant s c then fail s id Status.opcodeNotPermitted
  else if (tenantRec s t).isNone then fail s id Status.tenantUnknown
  else if (fnState s (.tenant t)).st = .off then finish (freeTenant (endTenantWork s t) t) id Status.ok 0 0
  else resetTenant (setPhase s id (.waiting .earlier)) t

def runTenantReset (c : Cmd) (s : State) : State := runCmd 0xB0 c s (tenantResetBody c)

/-- TENANT_RESET (04 R99). -/
def execTenantReset (c : Cmd) (s : State) : Host.Outcome State Fault Refusal := quiet s (runTenantReset c s)

/-- The function's own registers after a function-level reset: queue pairs and the Kettle ring OFF in their clean reset state, of which the base and
size registers are no part (04 R87); everything else at reset but HOST_CQ_DROPPED. PRESUMED, log entry 28. -/
def resetFunction (s : State) (fn : Nat) : State :=
  let s1 := discardRing (shutQueues s fn (s.host.queues.map (·.1))) fn
  let s2 := moveFn (setKettle s1 fn { (kettleOf s1 fn).cleanState with lost := (kettleOf s1 fn).lost }) (.kettle fn) .clean
  let s3 := setFunc s2 fn { FuncRegs.reset with dropped := (funcOf s2 fn).dropped }
  if fn = 0 then { s3 with mgmt := { s3.mgmt with phys := .reset } } else s3

/-- FUNCTION_LEVEL_RESET (03 Table 3.15; 04 R80, R86). PRESUMED, log entry 28. -/
def execFunctionLevelReset (fn : Nat) (s : State) : Host.Outcome State Fault Refusal :=
  if imageInForce s && s.boot.stop = none && fn ≤ 16 then
    let s1 := match tenantOfFn s fn with
      | some r =>
        if (fnState s (.tenant r.tenant)).st = .off then freeTenant (endTenantWork s r.tenant) r.tenant else resetTenant s r.tenant
      | none => s
    quiet s (resetFunction s1 fn)
  else .next s

end Sys2Proof.Machine
end

