-- ==== Sys2Proof/Machine/IslandReset.lean ====
section
/-!
DEFINITION. Health scores, retirement onto spares, and island resets (18_reliability_and_spares.md R518–R523).
-/
namespace Sys2Proof.Machine

/-! ### Parts and their spares (Table 18.3) -/

/-- Does the ordering code have the part? A stack has one die more than its active ones (00_scope.md Table 0.1). -/
def partExists (s : State) (part i : Nat) : Bool :=
  match part with
  | 0 => i < 340 && i % 17 ≤ s.order.dies
  | 1 => i < 180
  | 2 => i < s.order.portDies * 18
  | 3 => i < 1360
  | 4 => i < 34
  | 5 => i < 18
  | 6 => i < 20
  | 7 => i < s.order.ports
  | _ => false

/-- The part for whose move a spare is reserved. -/
def reservedBy (s : State) (part w : Nat) : Option Nat :=
  (s.rel.health.find? fun e => e.1.1 = part && e.2.spare = some w).map (·.1.2)

/-- Is a spare free: neither used, nor reserved, nor itself retired? -/
def spareFree (s : State) (part w : Nat) : Bool :=
  !s.rel.spares.contains (part, w) && (reservedBy s part w).isNone &&
    match (healthOf s part w).state with
    | .ok => true
    | .suspect => true
    | _ => false

/-- The free spare that a part would take. -/
def freeSpare (s : State) (part i : Nat) : Option Nat := (sparesFor s part i).find? fun w => !(w = i) && spareFree s part w

/-- Is the part a spare that holds no logical index? -/
def idleSpare (s : State) (part i : Nat) : Bool := (sparesFor s part i).contains i && !s.rel.spares.contains (part, i)

/-- The logical Ladle at a physical position (07_ladle_engines.md R211). -/
def ladleAtPos (s : State) (i : Nat) : Option Nat :=
  ((List.range 8).map fun k => i / 9 * 8 + k).find? fun l => tgetD s.rel.ladleAt l (l % 8) = i % 9

/-! ### Scores (R520) -/

/-- The weight of an event by the KIND of R513. -/
def kindWeight : Nat → Nat
  | 0 => 1
  | 1 => 1024
  | 2 => 4
  | 3 => 32
  | _ => 0

/-- HEALTH_DEFAULTS as shipped (Table 18.3). -/
def shippedHealth (part : Nat) : HealthRec :=
  match part with
  | 0 => { part := 0, windowMs := 60000, suspect := 256, retire := 2048 }
  | 1 => { part := 1, windowMs := 60000, suspect := 64, retire := 1024 }
  | 2 => { part := 2, windowMs := 10000, suspect := 128, retire := 1024 }
  | 3 => { part := 3, windowMs := 10000, suspect := 128, retire := 1024 }
  | 4 => { part := 4, windowMs := 60000, suspect := 32, retire := 1024 }
  | 5 => { part := 5, windowMs := 60000, suspect := 16, retire := 1024 }
  | 6 => { part := 6, windowMs := 60000, suspect := 64, retire := 1024 }
  | p => { part := p, windowMs := 10000, suspect := 256, retire := 4096 }

/-- WINDOW_MS, SUSPECT and RETIRE of a part kind. -/
def healthFigures (s : State) (part : Nat) : HealthRec :=
  match s.image.health.find? (·.part = part) with
  | some r => r
  | none => (s.image.vendorHealth.find? (·.part = part)).getD (shippedHealth part)

def Health.score (h : Health) : Nat := min 65535 h.windows.sum

/-! ### Retirement (R521, Tables 18.5–18.7) -/

/-- A bank with no spare left becomes ABSENT: each of its valid entries is handled as a poisoned one (11_associative_search.md R342). -/
def loseBank (s : State) (b : Nat) : State :=
  let rows := (bankOf s b).entries.map fun e => e.1 * (bankOf s b).width
  moveFn (rows.foldl (fun st r => poisonEntry st b r) s) (.bank b) (fnState s (.bank b)).retire

def resetPort (s : State) (p : Nat) : State := ((List.range (linksOf s p)).foldl fun st k => resetLink st p k) s

/-- The no-spare outcome (Table 18.6): a die-to-die link runs at half width until the next start. -/
def noSpare (s : State) (inj : Bool) (part i : Nat) : State :=
  let h := healthOf s part i
  let s1 := healthBy (setHealth s part i { h with spare := none, moving := false }) inj part i .exhausted
  match part with
  | 3 => { s1 with rel := { s1.rel with halfWidth := if s1.rel.halfWidth.contains (i / 68) then s1.rel.halfWidth else i / 68 :: s1.rel.halfWidth } }
  | 4 => loseBank s1 (logicalOf s1 4 i)
  | 7 => resetPort (setHealth s1 7 i { healthOf s1 7 i with windows := [] }) i
  | _ => s1

/-- Reserve a spare and become RETIRING, or take the no-spare outcome. DEDUCED, log entry 106. -/
def beginRetire (s : State) (inj : Bool) (part i : Nat) : State :=
  match freeSpare s part i with
  | some w => healthBy (setHealth s part i { healthOf s part i with spare := some w, moving := false }) inj part i .retiring
  | none => noSpare s inj part i

/-- A spare is RETIRED without having taken an index; it is fused under its own index, so that later starts leave it out. DEDUCED, log entry 106. -/
def retireSpare (s : State) (inj : Bool) (part w : Nat) : State := fuseMove (healthBy s inj part w .retired) part w w

/-- Another die of the stack is RETIRING (Table 18.7). -/
def copyUnderWay (s : State) (i : Nat) : Bool :=
  s.rel.health.any fun e => e.1.1 = 0 && e.1.2 / 17 = i / 17 && !(e.1.2 = i) && e.2.state = .retiring

/-- A score has reached RETIRE. -/
def retireDue (s : State) (inj : Bool) (part i : Nat) : State :=
  if idleSpare s part i then
    let s1 := retireSpare s inj part i
    match reservedBy s part i with
    | none => s1
    | some k =>
      let s2 := setHealth s1 part k { healthOf s1 part k with spare := none, moving := false }
      if part = 0 then noSpare s2 inj 0 k else beginRetire s2 inj part k
  else if part = 0 && copyUnderWay s i then healthBy s inj 0 i .suspect
  else if part = 2 then
    match freeSpareLane s (i / 18) with
    | some _ => substituteLane (healthBy s inj 2 i .retiring) inj (i / 18) (laneCarried s (i / 18) (i % 18)) true
    | none => substituteLane s inj (i / 18) (laneCarried s (i / 18) (i % 18)) true
  else beginRetire s inj part i
where
  /-- The logical lane that a physical lane carries. -/
  laneCarried (s : State) (d w : Nat) : Nat := tgetD s.fab.spareLane (d, w) w

/-- The score of a part is compared with its figures (Table 18.5). -/
def reEval (s : State) (inj : Bool) (part i : Nat) : State :=
  let h := healthOf s part i
  let f := healthFigures s part
  match h.state with
  | .ok => if f.retire ≤ h.score then retireDue s inj part i else if f.suspect ≤ h.score then healthBy s inj part i .suspect else s
  | .suspect => if f.retire ≤ h.score then retireDue s inj part i else if f.suspect ≤ h.score then s else healthBy s inj part i .ok
  | _ => s

def reEvalAll (s : State) (part : Nat) : List Nat → State
  | [] => s
  | i :: r => reEvalAll (reEval s false part i) part r

/-- An event counts against a part. -/
def addScore (s : State) (inj : Bool) (part i w : Nat) : State :=
  let h := healthOf s part i
  let windows := match h.windows with
    | [] => [w]
    | x :: r => (x + w) :: r
  reEval (setHealth s part i { h with windows := windows }) inj part i

/-! ### Island resets (R518, Table 18.4) -/

/-- Slots whose work an island reset ends. -/
def endSlots (s : State) (inj : Bool) (l : List Slot) : State :=
  let ids := l.map (·.id)
  let s1 := if inj then setSlots s (s.host.slots.map fun x => if ids.contains x.id then { x with injected := true } else x) else s
  failAll (leaveTags s1 ids) Status.islandReset l

/-- Entries of a Ladle that its save areas do not hold. -/
def unsaved (x : Ladle) : List QEntry :=
  let held := fun (e : QEntry) =>
    (decide (x.budgetArea = some e) && !(x.st = .saving && !x.cause)) || (decide (x.urgencyArea = some e) && !(x.st = .saving && x.cause))
  (x.queue ++ x.running.toList).filter (!held ·)

/-- A Ladle of the die that is reset: a command that was being restored is saved as before. -/
def haltLadle (x : Ladle) : Ladle :=
  match x.running with
  | some e => if x.st = .restoring then { x with st := .idle, running := none, queue := e :: x.queue } else x
  | none => x

/-- Commands whose entries are lost end on every Ladle. -/
def loseCommands (s : State) (inj : Bool) (ids : List Nat) : State :=
  let mine := fun (e : QEntry) => ids.contains e.slot
  let s0 := dropAll s mine
  let s1 := { s0 with comp := { s0.comp with running := s0.comp.running.filter fun e => !ids.contains e.1 } }
  endSlots s1 inj (s1.host.slots.filter fun x => ids.contains x.id && x.inHand)

/-- A base die is reset: stack contents and the save area survive; the arbiters' pointers stand at 0 (02 R43). DEDUCED, log entry 105. -/
def resetDie (s : State) (inj : Bool) (i : Nat) : State :=
  let mine := fun (l : Nat) => decide (l / 8 = i)
  let lost := (s.comp.ladles.filter fun e => mine e.1).flatMap fun e => unsaved e.2
  let s1 := loseCommands s inj (lost.map (·.slot)).eraseDups
  { s1 with comp := { s1.comp with ladles := s1.comp.ladles.map fun e => if mine e.1 then (e.1, { haltLadle e.2 with ptr := 0 }) else e } }

/-- The crossbar is reset: moves and loads in flight end, with the commands that wait on them. -/
def resetXbar (s : State) (inj : Bool) : State :=
  let waiting := s.tier.moves.filterMap fun m => m.2.slot
  let s1 := endSlots (endMoves s) inj (s.host.slots.filter fun x => waiting.contains x.id && x.inHand)
  (s1.comp.adapters.filter fun v => v.st = .loading).foldl (fun st v => loadFailed st v Status.islandReset) s1

/-- Does a Whisk hold the command, rather than an engine, the fabric or another module? -/
def heldInWhisk (x : Slot) : Bool :=
  match x.phase with
  | .waiting .engine => false
  | .waiting .fabric => false
  | .waiting .remote => false
  | .waiting _ => true
  | _ => false

/-- The sequencer is reset: host commands held in Whisks end; ledger steps and handoffs in flight are issued again (05_request_state_and_ownership.md R137). -/
def resetSequencer (s : State) (inj : Bool) : State :=
  let s1 := loseCommands s inj (s.comp.whisk.map fun w => w.2.slot).eraseDups
  let s2 := endSlots s1 inj (s1.host.slots.filter heldInWhisk)
  queryAgain (reissueAll s2 s2.req.issued) s2.req.asks

/-- Commands of a range of opcodes that an engine has in hand end. -/
def endOpcodes (s : State) (inj : Bool) (lo hi : Nat) : State :=
  endSlots s inj (s.host.slots.filter fun x => x.inHand && lo ≤ opcodeOf x.cmd && opcodeOf x.cmd ≤ hi)

/-- The Press is reset: blocks and installs in hand end; its tables stay. -/
def resetPressIsland (s : State) (inj : Bool) : State :=
  let s1 := endOpcodes s inj 0x60 0x65
  let still := fun (x : Option PressSlot) => x.map fun y => { y with queued := 0 }
  { s1 with comp := { s1.comp with
    press := s1.comp.press.map fun e => (e.1, { e.2 with slotA := still e.2.slotA, slotB := still e.2.slotB, installs := [], closing := none }) } }

/-- Packets that wait for a unit are dropped, and are resent by their senders. -/
def dropItems (s : State) (mine : Inbound → Bool) : State :=
  ((s.fab.inbox.filter fun x => mine x.item).foldl fun st x => takeItem st x.item) s

/-- Requests that the tray port had queued are forgotten; held lines are written back. -/
def resetTrayPort (s : State) : State :=
  let s1 := dropItems s fun i => match i with
    | .tray _ => true
    | _ => false
  let s2 := writeBackAll s1 s1.tray.buffer
  let forget := fun (x : TraySource) => { x with ids := x.ids.filter fun e => !decide (e.2 = .waiting), queued := 0 }
  setTray s2 { s2.tray with work := [], linePtr := 0, sources := s2.tray.sources.map fun e => (e.1, forget e.2) }

/-- Packets queued on the links are dropped, and their senders may send them again. -/
def resetShaper (s : State) : State :=
  let still := fun (x : TxPacket) => { x with queued := false }
  let s1 := setXport s { s.xport with sends := s.xport.sends.map fun r =>
    { r with packets := r.packets.map fun e => (e.1, still e.2), abortPkt := still r.abortPkt } }
  let s2 := setTray s1 { s1.tray with peers := s1.tray.peers.map fun e => (e.1, { e.2 with ops := e.2.ops.map fun o => { o with queued := false } }) }
  { s2 with shape := { s2.shape with queues := [], classPtr := [], queuePtr := [] } }

/-- The work of an island that is reset (Table 18.4). DEDUCED, log entry 105. -/
def islandWork (s : State) (inj : Bool) (i : Nat) : State :=
  if i < 20 then resetDie s inj i
  else match i with
    | 20 => resetXbar s inj
    | 21 => resetSequencer s inj
    | 22 => endSlots s inj (s.host.slots.filter fun x => x.phase = .waiting .engine && 0x40 ≤ opcodeOf x.cmd && opcodeOf x.cmd ≤ 0x43)
    | 23 => resetPressIsland s inj
    | 24 => endSlots s inj (s.host.slots.filter fun x => x.phase = .waiting .engine && 0x50 ≤ opcodeOf x.cmd && opcodeOf x.cmd ≤ 0x56)
    | 25 =>
      let s1 := dropItems s fun x => match x with
        | .xport _ => true
        | _ => false
      setXport s1 { s1.xport with miss := [] }
    | 26 => resetTrayPort s
    | 27 => resetShaper s
    | 28 => setXport s { s.xport with keys := [] }
    | 29 => linkLost s
    | 31 => s.host.kettles.foldl (fun st e => discardRing st e.1) s
    | _ => if 32 ≤ i then (List.range 4).foldl (fun st k => resetPort st ((i - 32) % 4 * 4 + k)) s else s

/-! ### Shut-down complete (02 R48, R49) -/

/-- A Kettle ring leaves STOPPING; with LATCH set its checks are made again (04 R88). KETTLE_LOST stands until the next
STARTING (04 R118). -/
def kettleShut (s : State) (fn : Nat) : State :=
  let x := fnState s (.kettle fn)
  let k := kettleOf s fn
  let s0 := setKettle s fn { k.cleanState with lost := k.lost }
  if x.latch then
    match kettleRefusal s0 fn with
    | some c => refuseKettle (change s0 (.kettle fn) .clean) fn c
    | none => change (enterStarting s0 (.kettle fn)) (.kettle fn) x.shutDone
  else change s0 (.kettle fn) x.shutDone

/-- The clean reset state of an island, a Ladle or a bank as it leaves STOPPING: whatever work the island has, it ends. The links of a port die that is
reset are reset when that begins. DESIGN CHOICE, log entry 29. -/
def restoreClean (s : State) (f : FnId) : State :=
  match f with
  | .ladle l => { s with comp := { s.comp with ladles := tmod s.comp.ladles l fun x => { x with ptr := 0 } } }
  | .bank b => { s with comp := { s.comp with banks := tdel s.comp.banks b } }
  | .island i =>
    let s1 := if thas s.rel.inReset i && 32 ≤ i then s else islandWork s false i
    { s1 with rel := { s1.rel with inReset := tdel s1.rel.inReset i } }
  | _ => s

/-- Has the function finished its work? A Ladle holds no running or saved command (07 R212); a queue pair no slot (04 R90). -/
def workEnded (s : State) (f : FnId) : Bool :=
  match f with
  | .ladle l => (ladleOf s l).running.isNone && !ladleFrozen s l
  | .queue fn q => queueSlots s fn q = []
  | _ => true

/-- A STOPPING function leaves that status (02 Table 2.11). DESIGN CHOICE, log entry 29. -/
def shutFn (s : State) (f : FnId) : State :=
  if !((fnState s f).st = .stopping) || !workEnded s f then s
  else match f with
    | .queue fn q => queueShut s fn q
    | .kettle fn => kettleShut s fn
    | .tenant t => tenantShut s t
    | .link p k => linkTo s p k (fnState s f).shutDone
    | _ =>
      let s1 := restoreClean s f
      let x := (fnState s f).shutDone
      change (if x.st = .starting then enterStarting s1 f else s1) f x

/-- SHUTDOWN_COMPLETE (02 R49). -/
def execShutdownComplete (f : FnId) (s : State) : Host.Outcome State Fault Refusal := ordinary s (shutFn s f)

/-- Counters of an island are cleared by its reset (20_counters_and_metering.md R563). DEDUCED, log entry 104. -/
def clearCounters (s : State) (i : Nat) : State :=
  { s with tele := { s.tele with
    events := s.tele.events.filter fun e => e.1.1 ≠ i
    injected := s.tele.injected.filter fun e => e.1.1 ≠ i
    pctrs := s.tele.pctrs.filter fun e => e.1.1 ≠ i
    topdown := s.tele.topdown.filter fun e => !(i < 20 && e.1.1 / 8 = i)
    pend := s.tele.pend.filter fun e => !(i < 20 && e.1.1 / 8 = i)
    resets := tupd s.tele.resets i 0 (· + 1) } }

/-- Moves of the island's parts go back to their beginning (Table 18.7). -/
def haltMoves (s : State) (i : Nat) : State :=
  { s with rel := { s.rel with health := s.rel.health.map fun e =>
    if (partPlace e.1.1 e.1.2).1 = i then (e.1, { e.2 with moving := false }) else e } }

/-- The reliability manager resets an island (R518; 03 Table 3.15). Island 30 is the module's own reset. DEDUCED, log entry 104. -/
def resetIsland (s : State) (inj : Bool) (i : Nat) : State :=
  let f := FnId.island i
  let x := fnState s f
  if i = 30 || 40 ≤ i || !(x.st = .on || x.st = .starting) then s
  else
    let s1 := eventT (haltMoves (clearCounters (islandWork s inj i) i) i) i 0x2A inj none 0
    moveFn { s1 with rel := { s1.rel with inReset := tset s1.rel.inReset i s.mono } } f { st := .stopping, latch := true }

/-! ### Moves (R522, R523) -/

/-- The logical function of a Ladle moves to its spare: ABSENT at the old place, then STARTING and ON at the new one (07 R212). -/
def moveLadle (s : State) (i w : Nat) : State :=
  match ladleAtPos s i with
  | none => s
  | some l =>
    let f := FnId.ladle l
    let s1 := moveFn s f (fnState s f).retire
    let s2 := { s1 with rel := { s1.rel with ladleAt := tset s1.rel.ladleAt l (w % 9) } }
    moveFn (moveFn s2 f { st := .starting, latch := false }) f { st := .on, latch := false }

/-- Is the part at its job boundary (18 Spares)? A Ladle has no entry that has started and not ended. -/
def atBoundary (s : State) (part i : Nat) : Bool :=
  match part with
  | 1 => match ladleAtPos s i with
    | some l =>
      let x := ladleOf s l
      x.running.isNone && !(x.st = .saving) && x.budgetArea.isNone && x.urgencyArea.isNone
    | none => true
  | _ => true

/-- May a move begin or end: the part is RETIRING, its island is ON and the module is in no quarantine? -/
def moveReady (s : State) (part i : Nat) : Bool :=
  (healthOf s part i).state = .retiring && !s.rel.quarantined && running s && (fnState s (.island (partPlace part i).1)).st = .on

/-- SPARE_MOVE_BEGIN. -/
def beginMove (s : State) (part i : Nat) : State :=
  if moveReady s part i && atBoundary s part i then setHealth s part i { healthOf s part i with moving := true } else s

def beginMoves (s : State) : List (Nat × Nat) → State
  | [] => s
  | k :: r => beginMoves (beginMove s k.1 k.2) r

/-- The spare takes the index: RETIRED, fused, with an event record. -/
def moveDone (s : State) (part i w : Nat) : State :=
  let s1 := if part = 1 then moveLadle s i w else s
  let s2 := healthBy (setHealth s1 part i { healthOf s1 part i with spare := none, moving := false }) false part i .retired
  let s3 := fuseMove { s2 with rel := { s2.rel with spares := s2.rel.spares ++ [(part, w)], whiskFails := if part = 5 then tdel s2.rel.whiskFails i else s2.rel.whiskFails } } part i w
  let at' := partPlace part i
  let s4 := eventT s3 at'.1 0x29 false none (argIndex 0 at'.2)
  if part = 0 then reEvalAll s4 0 ((List.range 17).map fun k => i / 17 * 17 + k) else s4

/-- A spare fails its move: it is RETIRED; the next is taken. A die's copy is abandoned with its only spare. -/
def moveFailed (s : State) (part i w : Nat) : State :=
  let s1 := retireSpare s false part w
  let s2 := setHealth s1 part i { healthOf s1 part i with spare := none, moving := false }
  match freeSpare s2 part i with
  | some v => setHealth s2 part i { healthOf s2 part i with spare := some v }
  | none => noSpare s2 false part i

/-- SPARE_MOVE_COMPLETE. -/
def endMove (s : State) (part i : Nat) (ok : Bool) : State :=
  let h := healthOf s part i
  match h.spare with
  | none => s
  | some w => if moveReady s part i && h.moving then (if ok then moveDone s part i w else moveFailed s part i w) else s

def execSpareMoveBegin (part i : Nat) (s : State) : Host.Outcome State Fault Refusal := quiet s (beginMove s part i)

def execSpareMoveComplete (part i : Nat) (ok : Bool) (s : State) : Host.Outcome State Fault Refusal := fusing s (endMove s part i ok)

/-- ISLAND_RESET_COMPLETE (R518): the island restarts from its clean reset state and is ON; senders send again what it dropped, and moves of its parts
begin again (Table 18.7). -/
def islandBack (s : State) (i : Nat) : State :=
  let f := FnId.island i
  if thas s.rel.inReset i && (fnState s f).st = .stopping then
    let s1 := shutFn s f
    let s2 := if (fnState s1 f).st = .starting then initFn s1 f else s1
    let s3 := if 25 ≤ i && i ≤ 27 then (pumpAll s2 (s2.xport.sends.map (·.id)) |> fun st => pumpPeers st (st.tray.peers.map (·.1))) else s2
    beginMoves s3 ((s3.rel.health.filter fun e => (partPlace e.1.1 e.1.2).1 = i && e.2.state = .retiring).map (·.1))
  else s

def execIslandResetComplete (i : Nat) (s : State) : Host.Outcome State Fault Refusal := quiet s (islandBack s i)

/-! ### Sub-windows (R520) -/

/-- Length of a sub-window in ns. -/
def subWindow (s : State) (part : Nat) : Nat := max 1 (ceilDiv (healthFigures s part).windowMs 16) * 1000000

/-- A sub-window boundary of a part kind: the windows move on and every score is recomputed. -/
def subwindowTurn (s : State) (part : Nat) : State :=
  let n := s.time / subWindow s part
  let k := n - tgetD s.rel.subwindow part 0
  if k = 0 then s
  else
    let turn := fun (h : Health) => { h with windows := (List.replicate (min 16 k) 0 ++ h.windows).take 16 }
    let health := s.rel.health.map fun e => if e.1.1 = part then (e.1, turn e.2) else e
    let s1 := { s with rel := { s.rel with subwindow := tset s.rel.subwindow part n, health := health } }
    reEvalAll s1 part ((s1.rel.health.filter fun e => e.1.1 = part).map fun e => e.1.2)

/-- HEALTH_SUBWINDOW (R520). -/
def execHealthSubwindow (part : Nat) (s : State) : Host.Outcome State Fault Refusal :=
  if running s && part < 8 then fusing s (subwindowTurn s part) else .next s

/-- MEMORY_SCRUB (R516): the stack's controller has scrubbed every line; what it finds arrives as detections. -/
def execMemoryScrub (stack : Nat) (s : State) : Host.Outcome State Fault Refusal :=
  if running s && (fnState s (.island stack)).st = .on && stack < 20 then
    quiet s { s with rel := { s.rel with scrubbed := tset s.rel.scrubbed stack s.mono } }
  else .next s

end Sys2Proof.Machine
end

