-- ==== Sys2Proof/Machine/Reliability.lean ====
section
/-!
DEFINITION. Detectors, their injection, poison from uncorrectable lines, and the security sensors (18_reliability_and_spares.md R512–R519, R513–R515;
19_security.md R553–R556; 11_associative_search.md R340, R341; 02 R35).
-/
namespace Sys2Proof.Machine

/-! ### Detections (R512) -/

/-- KINDs that a detector can make (Table 18.1). -/
def kindsOf (detector : Nat) : List Nat :=
  match detector with
  | 0x01 => [0, 1]
  | 0x02 => [0, 1]
  | 0x03 => [1]
  | 0x04 => [2, 3]
  | 0x05 => [0, 1]
  | 0x06 => [1]
  | 0x07 => [0, 1]
  | 0x08 => [0, 1, 2]
  | 0x09 => [1]
  | 0x0A => [0, 1]
  | 0x0B => [1]
  | d => if 0x10 ≤ d && d ≤ 0x14 then [4] else []

/-- The part that a detector scores, where its kind follows from the detector. -/
def detectorPart (detector : Nat) : Option Nat :=
  match detector with
  | 0x01 => some 0
  | 0x04 => some 3
  | 0x05 => some 2
  | 0x07 => some 4
  | 0x08 => some 5
  | 0x0B => some 6
  | _ => none

/-- The part that a detection scores: an SRAM's is the Ladle, Whisk or bank that holds it. -/
def scoredPart (d : Detected) : Option (Nat × Nat) :=
  if d.detector = 0x02 then d.part else (detectorPart d.detector).map fun p => (p, d.index)

/-- INDEX of the record: the part within its island (20_counters_and_metering.md Table 20.2). -/
def detectIndex (d : Detected) : Nat := (scoredPart d).elim 0 fun p => (partPlace p.1 p.2).2

/-- The instance by which INJECT names the detector (R513). -/
def injectIndex (d : Detected) : Nat :=
  if d.detector = 0x02 || d.detector = 0x03 || d.detector = 0x06 then d.island
  else if (detectorPart d.detector).isSome then d.index else 0

/-- The injection that makes a detection. DEDUCED, log entry 101. -/
def injectionFor (s : State) (detector index kind : Nat) : Option Injection :=
  s.rel.injections.find? fun x => x.detector = detector && x.index = index && x.kind = kind

/-- One detection of an injection has been recorded; the last completes its INJECT. -/
def countInjected (s : State) (x : Injection) : State :=
  let rest := s.rel.injections.erase x
  if x.left ≤ 1 then finish { s with rel := { s.rel with injections := rest } } x.slot Status.ok x.total 0
  else { s with rel := { s.rel with injections := { x with left := x.left - 1 } :: rest } }

def markBlob (b : Blob) (line : Nat) (v : Bool) : Blob :=
  if b.bad.contains line = v then b else if v then { b with bad := line :: b.bad } else { b with bad := b.bad.filter (· ≠ line) }

/-- Is the line marked as poisoned? -/
def marked (s : State) (x : MemPlace) : Bool :=
  match x with
  | .page dir line => (tget s.tier.data dir).elim false fun b => b.bad.contains line
  | .tensor t id line => (tget s.tier.tensors (t, id)).elim false fun y => y.blob.bad.contains line
  | .adapter t a n line => s.comp.adapters.any fun v => v.tenant = t && v.adapter = a && v.version = n && v.content.bad.contains line
  | .partition t ix n k line => s.comp.indices.any fun v =>
    v.tenant = t && v.index = ix && v.version = n && (v.parts[k]?).elim false fun p => p.records.bad.contains line
  | .tray line => s.tray.bad.contains line
  | _ => false

/-- Set or clear the poison marker of a line. -/
def markLine (s : State) (x : MemPlace) (v : Bool) : State :=
  match x with
  | .page dir line => setTier s { s.tier with data := tmod s.tier.data dir fun b => markBlob b line v }
  | .tensor t id line => setTier s { s.tier with tensors := tmod s.tier.tensors (t, id) fun y => { y with blob := markBlob y.blob line v } }
  | .adapter t a n line => { s with comp := { s.comp with adapters := s.comp.adapters.map fun w =>
      if w.tenant = t && w.adapter = a && w.version = n then { w with content := markBlob w.content line v } else w } }
  | .partition t ix n k line =>
    let parts := fun (l : List Part) => match l[k]? with
      | some p => l.set k { p with records := markBlob p.records line v }
      | none => l
    { s with comp := { s.comp with indices := s.comp.indices.map fun w =>
      if w.tenant = t && w.index = ix && w.version = n then { w with parts := parts w.parts } else w } }
  | .tray line =>
    setTray s { s.tray with bad := if s.tray.bad.contains line = v then s.tray.bad else if v then line :: s.tray.bad else s.tray.bad.filter (· ≠ line) }
  | _ => s

/-- What an uncorrectable line does to the data in it (R516): it is written back with its poison marker. DEDUCED, log entry 102. -/
def poisonLine (s : State) (x : MemPlace) : State := markLine s x true

/-- A running command forms its results again, from its operands as they now read: its output lines and its status follow (07 R246; 08 R274). -/
def produceAgain (s : State) (c : Cmd) : State :=
  match opcodeOf c with
  | 0x30 => runGemm c s
  | 0x31 => runGemv c s
  | 0x32 => runGatherRows c s
  | 0x33 => runVector c s
  | 0x38 => runAttendDecode c s
  | 0x39 => runAttendPrefill c s
  | 0x3A => runSoftmaxCombine c s
  | 0x3B => runAttendBwd c s
  | 0xA3 => runExpertApply c s
  | _ => s

/-- A running command has read a poisoned line: the output lines that depend on it are written as poisoned, and it completes with OPERAND_POISON (07 R246).
DEDUCED, log entry 102. -/
def poisonRunning (s : State) (x : Slot) (r : Running) (place : MemPlace) : State :=
  let s1 := produceAgain (markLine { s with comp := { s.comp with running := tset s.comp.running x.id { r with waits := true } } } place true) x.cmd
  let s2 := { s1 with comp := { s1.comp with running := tmod s1.comp.running x.id fun q =>
    { q with waits := r.waits, left := r.left, preempts := r.preempts, cycles := r.cycles
             status := if r.waits then q.status else if q.status = Status.ok || q.status = Status.nonfinite then Status.operandPoison else q.status } } }
  if marked s place then s2 else markLine s2 place false

/-- The command that read a poisoned word (Table 18.2): a running one forms its results from the poisoned line, a SEND fails its message. What is stored keeps
its value (R513): `poisonLine` marks it where it is poisoned itself. DEDUCED, log entry 102. -/
def poisonReader (s : State) (inj : Bool) (d : Detected) : State :=
  match d.reader.bind fun c => s.host.slots.find? fun x => decide (x.cmd = c) && x.inHand with
  | none => s
  | some x =>
    let s1 := if inj then modSlot s x.id fun y => { y with injected := true } else s
    match tget s1.comp.running x.id with
    | some r => poisonRunning s1 x r d.place
    | none => match s1.xport.sends.find? fun r => r.slot = x.id && !r.completed with
      | some r => failAndAbort s1 r Status.operandPoison
      | none => s

/-- A directory entry in a poisoned line (Table 18.2): a page is dropped, a weight run of an adapter is lost, a tensor run keeps its lines poisoned. -/
def poisonDirEntry (s : State) (inj : Bool) (i : Nat) : State :=
  match tget s.tier.dir i with
  | none => s
  | some e =>
    if e.kind ≤ 2 then loseObject s i
    else if s.comp.adapters.any fun v => v.dirs.contains i || v.fresh.contains i then loseRuns s fun j _ => decide (j = i)
    else if inj then s
    else
      let hit := fun (t : (Nat × Nat) × Tensor) => if t.2.dirs.contains i then (t.1, poisonRun t.2 e.page) else t
      setTier s { s.tier with tensors := s.tier.tensors.map hit }

/-- What the module does where a poisoned line held its own records (Table 18.2). DEDUCED, log entry 103. -/
def poisonRecord (s : State) (inj : Bool) (x : MemPlace) : State :=
  match x with
  | .entry i => poisonDirEntry s inj i
  | .ledger h copy => setEntryAt s h copy none
  | .list h => failOwned s h
  | .log h => if (ownedOf s h).isSome then askTail s h .refresh else s
  | _ => s

/-- A Whisk's step has failed (R519): it is executed again, and the third failure in a row retires the Whisk at once. -/
def whiskFailed (s : State) (inj : Bool) (d : Detected) : State :=
  let n := if d.first then 1 else tgetD s.rel.whiskFails d.index 0 + 1
  let s1 := { s with rel := { s.rel with whiskFails := tset s.rel.whiskFails d.index n } }
  if n < 3 then s1
  else
    let st := (healthOf s1 5 d.index).state
    let s2 := if st = .ok || st = .suspect then retireDue s1 inj 5 d.index else s1
    if (healthOf s2 5 d.index).state = .retiring then setHealth s2 5 d.index { healthOf s2 5 d.index with moving := true } else s2

/-- The response of Table 18.1. DEDUCED, log entry 107. -/
def respond (s : State) (inj : Bool) (d : Detected) : State :=
  match d.detector with
  | 0x01 =>
    if d.kind = 1 then
      let s1 := poisonReader (if inj then s else poisonLine s d.place) inj d
      poisonRecord s1 inj d.place
    else s
  | 0x02 => if d.kind = 1 then (if d.control then resetIsland s inj d.island else poisonReader s inj d) else s
  | 0x03 => resetIsland s inj d.island
  | 0x07 => if d.kind = 1 && !inj then poisonEntry s (logicalOf s 4 d.index) d.row else s
  | 0x08 => if d.kind = 0 then s else whiskFailed s inj d
  | _ => s

/-- A detection: its record and counter, its part's score, its response (R512, R515). DEDUCED, log entry 103. -/
def detectOne (s : State) (d : Detected) : State :=
  let m := injectionFor s d.detector (injectIndex d) d.kind
  let inj := m.isSome
  let s1 := eventT s d.island (0x10 + d.detector) inj none (argIndex d.kind (detectIndex d))
  let s2 := match scoredPart d with
    | some p => if m.elim true (·.score) then addScore s1 inj p.1 p.2 (kindWeight d.kind) else s1
    | none => s1
  let s3 := respond s2 inj d
  match m with
  | some x => countInjected s3 x
  | none => s3

/-- Retries of a die-to-die lane in the last 1 ms, with one more now. -/
def retriesNow (s : State) (i : Nat) : List Nat := s.mono :: (tgetD s.rel.retries i []).filter fun t => s.mono < t + 1000000

/-- A detection. The 16th retry of a die-to-die lane in 1 ms is followed by the link's retraining, a detection of its own (Table 18.1). -/
def detect (s : State) (d : Detected) : State :=
  let s1 := detectOne s d
  if d.detector = 0x04 && d.kind = 2 then
    let l := retriesNow s d.index
    let put := fun (st : State) (x : List Nat) => { st with rel := { st.rel with retries := tset st.rel.retries d.index x } }
    if 16 ≤ l.length then detectOne (put s1 []) { d with kind := 3 } else put s1 l
  else s1

/-- Can the detection happen: the module runs on an image, and the island has the detector, the part and the KIND? -/
def detectable (s : State) (d : Detected) : Bool :=
  imageInForce s && s.boot.stop = none && d.island < 40 && !islandAbsent s.order d.island && d.detector ≤ 0x0B &&
    (detectorCodes d.island).contains (0x10 + d.detector) && (kindsOf d.detector).contains d.kind &&
    (scoredPart d).elim true fun p => partExists s p.1 p.2

/-- Does the detection reset the module (R518)? DEDUCED, log entry 30. -/
def resetsModule (d : Detected) : Bool := d.island = 30 && ((d.detector = 0x02 && d.kind = 1 && d.control) || d.detector = 0x03)

/-- DETECTION (R512). -/
def execDetection (d : Detected) (s : State) : Host.Outcome State Fault Refusal :=
  if detectable s d then
    if resetsModule d then .next (s.afterReset (moduleReset (detect s d)))
    else fusing s (detect s d)
  else .next s

/-- Does a unit of the island hold a credit that is not returned: an entry at a Ladle of the die, a move, a tray operation, a message, a frame that waits on
a link? The bridges' credits of the other islands (02 R29) are not held in the state. DEDUCED, log entry 135. -/
def creditHeld (s : State) (i : Nat) : Bool :=
  if i < 20 then s.comp.ladles.any fun e => e.1 / 8 = i && (e.2.running.isSome || !(e.2.queue = []))
  else match i with
    | 20 => !(s.tier.moves = [])
    | 25 => !(s.xport.sends = [])
    | 26 => s.tray.peers.any fun e => e.2.credits < 16
    | 27 => s.shape.queues.any fun e => !(e.2 = [])
    | _ => true

/-- CREDIT_WATCH_TIMEOUT (02 R35): a credit that is not returned within its bound is a detector event, and nothing more. DEDUCED, log entry 135. -/
def execCreditWatchTimeout (island : Nat) (s : State) : Host.Outcome State Fault Refusal :=
  let d : Detected := { detector := 0x06, island := island, index := 0, kind := 1, part := none, control := false, place := .nothing, row := 0,
                        first := false, reader := none }
  if creditHeld s island && detectable s d then quiet s (detect s d) else .next s

/-- One row of each bank is compared with its shadow (11 R340): the physical banks that differ, and whether the shadow is uncorrectable. -/
def rowDiffs (s : State) (row : Nat) : List (Nat × Bool) → State
  | [] => s
  | (b, bad) :: r =>
    let d : Detected := { detector := 0x07, island := 24, index := b, kind := if bad then 1 else 0, part := none, control := false, place := .nothing,
                          row := row, first := false, reader := none }
    rowDiffs (if detectable s d && !((healthOf s 4 b).state = .retired) then detect s d else s) row r

/-- CAM_ROW_CHECK (11 R340). -/
def execCamRowCheck (diff : List (Nat × Bool)) (s : State) : Host.Outcome State Fault Refusal :=
  if imageInForce s && s.boot.stop = none then
    let s1 := rowDiffs s s.comp.checkRow diff
    fusing s { s1 with comp := { s1.comp with checkRow := (s.comp.checkRow + 1) % 4096 } }
  else .next s

/-! ### INJECT (R513, R514) -/

/-- Does the instance exist, and is it not ABSENT? -/
def injectTarget (s : State) (detector index : Nat) : Bool :=
  match detectorPart detector with
  | some p => partExists s p index && !((healthOf s p index).state = .retired)
  | none =>
    if detector = 0x02 || detector = 0x03 || detector = 0x06 then index < 40 && !islandAbsent s.order index && !((fnState s (.island index)).st = .absent)
    else index = 0

/-- DEDUCED, log entry 101. -/
def injectBody (c : Cmd) (again : Bool) (id : Nat) (s : State) : State :=
  let detector := fld c.w2 63 56
  let index := fld c.w2 55 40
  let kind := fld c.w2 39 32
  let count := fld c.w2 31 16
  let sensor := 0x10 ≤ detector && detector ≤ 0x14
  if again then s
  else if !(if sensor then s.image.injectSensors else s.image.injectDetectors) then fail s id Status.injectForbidden
  else if !(kindsOf detector).contains kind || !injectTarget s detector index then fail s id Status.injectTarget
  else if count = 0 then finish s id Status.ok 0 0
  else
    let x : Injection := { detector := detector, index := index, kind := kind, left := count, total := count, score := flag c.w2 0, slot := id }
    await { s with rel := { s.rel with injections := s.rel.injections ++ [x] } } id .engine

def runInject (c : Cmd) (s : State) : State := runCmd 0xB2 c s (injectBody c)

/-- INJECT (R513). -/
def execInject (c : Cmd) (s : State) : Host.Outcome State Fault Refusal := quiet s (runInject c s)

/-! ### Security sensors (19 R553–R556) -/

/-- The response of a sensor class: RESET until the owner records are in force, and in HELD. -/
def sensorResponse (s : State) (sensor : Nat) : Nat :=
  if imageInForce s then ((s.image.sensors.find? fun r => r.1 = sensor).map (·.2)).getD 1 else 1

/-- RESET and ERASE (Table 19.7). A stop that is under way goes on; an ERASE zeroises at once. -/
def alarm (s : State) (response : Nat) : State :=
  let s1 := { s with sec := { s.sec with alarmN := false, response := some response } }
  if response = 2 then
    let s2 := zeroise (emergencyStop s1 .sensorErase)
    { s2 with sec := { s2.sec with eraseDue := true } }
  else emergencyStop s1 .sensorReset

/-- A trip that no injection made: the strongest response in force applies (R554). DEDUCED, log entry 107. -/
def trip (s : State) (sensor : Nat) : State :=
  let mine := sensorResponse s sensor
  let before := s.sec.response.getD 0
  let applied := max mine before
  let s1 := eventT { s with sec := { s.sec with lastTrip := some (sensor, applied) } } 28 (0x20 + sensor) false none (argIndex applied 0)
  if before < mine then alarm s1 mine else s1

/-- SENSOR_TRIP (19 R553). An injected trip reports that it would erase, and does nothing more (R556, R515). -/
def sensorTripped (s : State) (sensor : Nat) : State :=
  match injectionFor s (0x10 + sensor) 0 4 with
  | some x => countInjected (eventT s 28 (0x20 + sensor) true none (argIndex 3 0)) x
  | none => trip s sensor

def execSensorTrip (sensor : Nat) (s : State) : Host.Outcome State Fault Refusal :=
  if s.boot.state = .reset || 4 < sensor then .next s else quiet s (sensorTripped s sensor)

end Sys2Proof.Machine
end

