-- ==== Sys2Proof/Machine/Sieve.lean ====
section
/-!
DEFINITION. The Sieve: parameters, the generator, the fixed order, speculative verification, SAMPLE and DRAFT_RESET
(10_sieve_sampler.md R297–R304, R312–R322).
-/
namespace Sys2Proof.Machine

/-! ### Parameters and state (R297, R299) -/

/-- The fields of Table 10.1. -/
structure SParams where
  temperature : Num
  topP : Num
  minP : Num
  repetition : Num
  presence : Num
  frequency : Num
  topK : Nat
  window : Nat
  prompt : Bool
  endEnable : Bool
  ckind : Nat
  constraint : Nat
  endToken : Nat
  gstate : Nat
  draftMax : Nat
  draftLen : Nat
  fullRejects : Nat
  suspended : Bool
  proposed : Nat
  accepted : Nat
deriving DecidableEq, Repr

/-- Read the sampler state of a record (W11–W18). -/
def paramsOf (w : List Word) : SParams :=
  let x := fun i => w.getD i 0
  let f := fun i hi lo => Fp.f32.decode (fld (x i) hi lo)
  { temperature := f 0 63 32, topP := f 0 31 0, minP := f 1 63 32, repetition := f 1 31 0, presence := f 2 63 32, frequency := f 2 31 0,
    topK := fld (x 3) 63 53, window := fld (x 3) 52 40, prompt := flag (x 3) 39, endEnable := flag (x 3) 38, ckind := fld (x 3) 37 36,
    constraint := fld (x 3) 35 20, endToken := fld (x 3) 19 0, gstate := fld (x 4) 63 48, draftMax := fld (x 4) 47 43,
    draftLen := fld (x 4) 42 38, fullRejects := fld (x 4) 37 34, suspended := flag (x 4) 33, proposed := fld (x 5) 63 32,
    accepted := fld (x 5) 31 0 }

/-- The state words that hold the changed state fields; no parameter field changes (R298). -/
def SParams.store (p : SParams) (w : List Word) : List Word :=
  let w4 := word (p.gstate % 2 ^ 16 * 2 ^ 48 + p.draftMax % 32 * 2 ^ 43 + p.draftLen % 32 * 2 ^ 38 + p.fullRejects % 16 * 2 ^ 34 +
    b2n p.suspended * 2 ^ 33)
  let w5 := word (p.proposed % 2 ^ 32 * 2 ^ 32 + p.accepted % 2 ^ 32)
  [w.getD 0 0, w.getD 1 0, w.getD 2 0, w.getD 3 0, w4, w5, w.getD 6 0, w.getD 7 0]

/-- Are the fields within Table 10.1 (R299)? -/
def SParams.inRange (p : SParams) : Bool :=
  p.temperature.finite && Num.le .zero p.temperature && Num.lt .zero p.topP && Num.le p.topP .one && Num.le .zero p.minP &&
  Num.lt p.minP .one && p.repetition.finite && Num.lt .zero p.repetition && p.presence.finite && p.frequency.finite &&
  p.topK ≤ 1024 && p.window ≤ 4096 && !(p.ckind = 3) && p.draftMax ≤ 16 && p.draftLen ≤ 16 && p.fullRejects ≤ 8

/-- The constraint that the parameters name, as the step finds it: one of the kind that CKIND says (R311). -/
def constraintFor (s : State) (t : Nat) (p : SParams) : Option Constraint :=
  if p.ckind = 0 then none else (constraintOf s t p.constraint).filter fun k => k.kind = p.ckind

/-- Does the check of R299 pass? -/
def paramsOk (p : SParams) (vocab : Nat) (k : Option Constraint) : Bool :=
  p.inRange && (!p.endEnable || p.endToken < vocab) && (!(p.ckind = 2) || k.elim true fun x => p.gstate < x.states.length)

/-! ### The generator (R300) -/

/-- `draw_word`: 64-bit wrapping arithmetic and `mix` of R126; its 32-bit result. -/
def drawWord (seed pos lane : Nat) : Nat :=
  let a := pos * 0x9E3779B97F4A7C15 % 2 ^ 64
  let b := lane * 0xC2B2AE3D27D4EB4F % 2 ^ 64
  mix ((seed % 2 ^ 64) ^^^ a ^^^ b) % 2 ^ 32

/-! ### The fixed order (R301) -/

/-- Nearest integer of a number that is not below zero, ties to even; 0 for what is not finite. -/
def roundNat : Num → Nat
  | .fin false m e => if 0 ≤ e then m <<< e.toNat else rneShift m (-e).toNat
  | _ => 0

/-- The least integer not below a number that is not negative. -/
def ceilNat : Num → Nat
  | .fin false m e => if 0 ≤ e then m <<< e.toNat else ceilDiv m (2 ^ (-e).toNat)
  | _ => 0

/-- The greatest integer not above a number that is not negative. -/
def floorNat : Num → Nat
  | .fin false m e => if 0 ≤ e then m <<< e.toNat else m >>> (-e).toNat
  | _ => 0

/-- The penalties of one token with `c` occurrences in the window, and the temperature (R301). -/
def adjustOne (p : SParams) (c : Nat) (l : Num) : Num :=
  let l1 :=
    if c = 0 then l
    else
      let a := if Num.lt .zero l then r32 (Num.div l p.repetition) else r32 (Num.mul l p.repetition)
      r32 (Num.sub (r32 (Num.sub a p.presence)) (r32 (Num.mul p.frequency (.ofNat c))))
  if Num.lt .zero p.temperature then r32 (Num.div l1 p.temperature) else l1

/-- The distribution of a position: the final candidates in ascending ID with their weights. `width` counts the candidates after top-k. -/
structure Dist where
  cand : List (Nat × Nat)
  fallback : Bool
  width : Nat
deriving DecidableEq, Repr

def byId (l : List (Nat × Nat)) : List (Nat × Nat) := sortBy (fun a b => a.1 < b.1) l

/-- The shortest leading part whose weights reach a bound. -/
def leading (need : Nat) : Nat → List (Nat × Nat) → List (Nat × Nat)
  | _, [] => []
  | acc, x :: r => if need ≤ acc + x.2 then [x] else x :: leading need (acc + x.2) r

def weightSum (l : List (Nat × Nat)) : Nat := (l.map (·.2)).sum

/-- Candidates of a positive temperature: top-k, weights, top-p, min-p (R301). -/
def weighted (p : SParams) (cand : List (Nat × Num)) : Dist :=
  let order := sortBy (fun (a b : Nat × Num) => Num.lt b.2 a.2 || (!Num.lt a.2 b.2 && a.1 < b.1)) cand
  let kept := if p.topK = 0 then order else order.take p.topK
  let m := (kept.head?.map (·.2)).getD .zero
  let w := kept.map fun x => (x.1, roundNat (Num.mul (expCr (r32 (Num.sub x.2 m))) (.ofNat (2 ^ 32))))
  let w1 :=
    if Num.lt p.topP .one then
      leading (ceilNat (Num.mul p.topP (.ofNat (weightSum w)))) 0 (sortBy (fun a b => b.2 < a.2 || (a.2 = b.2 && a.1 < b.1)) w)
    else w
  let w2 := if Num.lt .zero p.minP then w1.filter fun x => Num.le (Num.mul p.minP (.ofNat (2 ^ 32))) (.ofNat x.2) else w1
  { cand := byId (w2.filter fun x => 0 < x.2), fallback := false, width := kept.length }

/-- The lowest ID among the greatest logits. -/
def greatest : List (Nat × Num) → Option (Nat × Num)
  | [] => none
  | x :: r => match greatest r with
    | none => some x
    | some y => if Num.lt x.2 y.2 || (!Num.lt y.2 x.2 && y.1 < x.1) then some y else some x

/-- The distribution of a position (R301, R304): none where the mask allows no token. Greedy sampling has the chosen token alone (R312). -/
def distOf (p : SParams) (vocab : Nat) (allowed : Nat → Bool) (count : Nat → Nat) (given : List (Nat × Num)) : Option Dist :=
  if !(List.range vocab).any allowed then none
  else
    let cand := (given.filter fun x => x.1 < vocab && x.2.finite && allowed x.1).filterMap fun x =>
      let l := adjustOne p (count x.1) x.2
      if l.finite then some (x.1, l) else none
    match greatest cand with
    | none => some { cand := ((List.range vocab).filter allowed).map fun i => (i, 1), fallback := true, width := 0 }
    | some g =>
      if Num.lt .zero p.temperature then some (weighted p cand)
      else some { cand := [(g.1, 2 ^ 32)], fallback := false, width := cand.length }

/-- `draw` (R301): the lowest ID whose running sum lies above (r × z) >> 32. -/
def drawAt (t : Nat) : Nat → List (Nat × Nat) → Nat
  | _, [] => 0
  | acc, x :: r => if t < acc + x.2 then x.1 else drawAt t (acc + x.2) r

def draw (cand : List (Nat × Nat)) (r : Nat) : Nat := drawAt ((r * weightSum cand) >>> 32) 0 cand

/-! ### Verification (R312, R313) -/

/-- A draft entry (R318): its Q, its token, and its Q list. -/
structure Draft where
  q : Num
  token : Nat
  list : List (Nat × Num)
deriving DecidableEq, Repr

/-- Is the draft accepted (R312)? -/
def Draft.accepted (d : Draft) (cand : List (Nat × Nat)) (r1 : Nat) : Bool :=
  let w := ((cand.find? fun x => x.1 = d.token).map (·.2)).getD 0
  Num.lt (Num.mul (.ofNat (r1 * weightSum cand)) d.q) (.ofNat (w * 2 ^ 32))

/-- The draft's probability of a token (R313). -/
def Draft.prob (d : Draft) (i : Nat) : Num :=
  if d.list = [] then (if i = d.token then d.q else .zero) else ((d.list.find? fun x => x.1 = i).map (·.2)).getD .zero

/-- The candidates from which a rejected position is drawn (R313). -/
def Draft.residual (d : Draft) (cand : List (Nat × Nat)) : List (Nat × Nat) :=
  let z := weightSum cand
  let r := (cand.map fun x => (x.1, x.2 - floorNat (Num.mul (d.prob x.1) (.ofNat z)))).filter fun x => 0 < x.2
  if r = [] then cand else r

/-! ### Input blocks (R318) -/

/-- A member's block: the header of Table 10.8, and where its parts lie. -/
structure SMember where
  handle : Nat
  expect : Nat
  intake : Nat
  fmt : Nat
  drafts : Nat
  vocab : Nat
  listLen : Nat
  off : Nat
  draftList : List Draft
  /-- Q_COUNT of each draft. -/
  qCounts : List Nat
  secOff : Nat
  secBytes : Nat
  fin : Nat
  bad : Bool
deriving DecidableEq, Repr

/-- Has the block a size: a known INTAKE, and a known FMT of a full intake? -/
def sizedIntake (intake fmt : Nat) : Bool := intake = 1 || (intake = 0 && wideFmt fmt)

/-- The doubleword at an offset of an operand. -/
def refWord (s : State) (t : Nat) (r : Ref) (off : Nat) : Nat := leNat (refBytes s t r off 8)

/-- Read drafts, and their Q lists from `at'` on. -/
def readDrafts (s : State) (t : Nat) (r : Ref) (off : Nat) : Nat → Nat → Nat → List Draft
  | 0, _, _ => []
  | n + 1, i, q =>
    let w0 := refWord s t r (off + 16 * i)
    let cnt := refWord s t r (off + 16 * i + 8) % 2 ^ 11
    let l := (List.range cnt).map fun j =>
      let x := refWord s t r (q + 8 * j)
      (x % 2 ^ 20, Fp.f32.decode (bits x 63 32))
    { q := Fp.f32.decode (bits w0 63 32), token := w0 % 2 ^ 20, list := l } :: readDrafts s t r off n (i + 1) (q + 8 * cnt)

/-- The block at an offset; none where a part lies beyond the object. A header without a size ends at itself. DEDUCED, log entry 70. -/
def readMember (s : State) (t : Nat) (r : Ref) (old : Bool) (off : Nat) : Option SMember :=
  if (codeOf (refCheck s t r (off + 64) false old)).isSome then none
  else
    let w1 := refWord s t r (off + 8)
    let w2 := refWord s t r (off + 16)
    let intake := bits w1 31 30
    let fmt := bits w1 29 26
    let n := bits w1 25 21
    let vocab := bits w1 20 0
    let ll := bits w2 63 32
    let base : SMember :=
      { handle := refWord s t r off, expect := bits w1 63 32, intake := intake, fmt := fmt, drafts := n, vocab := vocab, listLen := ll, off := off,
        draftList := [], qCounts := [], secOff := 0, secBytes := 0, fin := off + 64, bad := refBad s t r off 64 }
    if !sizedIntake intake fmt then some base
    else
      let dAt := off + 64
      let qAt := dAt + roundUp (16 * n) 64
      if (codeOf (refCheck s t r qAt false old)).isSome then none
      else
        let qc := (List.range n).map fun i => refWord s t r (dAt + 16 * i + 8) % 2 ^ 11
        let sAt := qAt + roundUp (8 * qc.sum) 64
        let each := if intake = 0 then vocab * ((fmtOrF32 fmt).width / 8) else 8 * ll
        let fin := sAt + roundUp (each * (n + 1)) 64
        if (codeOf (refCheck s t r fin false old)).isSome then none
        else some { base with draftList := readDrafts s t r dAt n 0 qAt, qCounts := qc, secOff := sAt, secBytes := each, fin := fin,
                              bad := refBad s t r off (fin - off) }

/-- Blocks in batch order: none where one lies beyond the object. After a block without a size no further one can be found. DEDUCED, log entry 70. -/
def readMembers (s : State) (t : Nat) (r : Ref) (old : Bool) : Nat → Nat → Option (List (Option SMember))
  | 0, _ => some []
  | n + 1, off => match readMember s t r old off with
    | none => none
    | some m =>
      if !sizedIntake m.intake m.fmt then some (some m :: List.replicate n none)
      else (readMembers s t r old n m.fin).map fun l => some m :: l

/-- The logits that section `j` of a block gives, by token. -/
def sectionLogits (s : State) (t : Nat) (r : Ref) (m : SMember) (j : Nat) : List (Nat × Num) :=
  let at' := m.secOff + j * m.secBytes
  if m.intake = 0 then
    let v := refView s t r m.fin
    (List.range m.vocab).map fun i => (i, (elemAt v.1 (fmtOrF32 m.fmt) (v.2 + at') i).1)
  else (List.range m.listLen).map fun i =>
    let x := refWord s t r (at' + 8 * i)
    (x % 2 ^ 20, Fp.f32.decode (bits x 63 32))

/-! ### Refusals (R299, R320, R321) -/

def noRepeats (l : List Nat) : Bool := decide l.Nodup

/-- Is the intake as Table 10.8 says, its list tokens below VOCAB and listed once? -/
def intakeOk (s : State) (t : Nat) (r : Ref) (m : SMember) : Bool :=
  1 ≤ m.vocab && m.vocab ≤ 1048576 && sizedIntake m.intake m.fmt &&
  (if m.intake = 0 then m.listLen = 0
   else m.fmt = 0 && 1 ≤ m.listLen && m.listLen ≤ 65536 && (List.range (m.drafts + 1)).all fun j =>
     let l := (sectionLogits s t r m j).map (·.1)
     l.all (fun i => i < m.vocab) && noRepeats l)

/-- Is a draft as Table 10.10 says? -/
def draftOk (vocab : Nat) (d : Draft) (count : Nat) : Bool :=
  let ts := d.list.map (·.1)
  d.token < vocab && d.q.finite && Num.lt .zero d.q && Num.le d.q .one && count ≤ 1024 && ts.all (fun i => i < vocab) && noRepeats ts &&
    d.list.all (fun x => Num.le .zero x.2 && Num.le x.2 .one) && (count = 0 || ts.contains d.token)

def draftsOk (m : SMember) (phase : Nat) : Bool :=
  m.drafts ≤ 16 && (m.drafts = 0 || !(phase = 1)) && (List.range m.drafts).all fun i =>
    match m.draftList[i]? with
    | some d => draftOk m.vocab d (m.qCounts.getD i 0)
    | none => false

/-- Does the owner accept SAMPLE for the request in its phase (R320)? -/
def samplePhase (s : State) (o : Owned) : Bool :=
  let ph := o.record.phase
  ((ph = 2 || ph = 4) && decide (s.image.role ≠ .p)) || (ph = 1 && o.lastDone && o.record.logged = o.record.promptTokens)

/-- The refusal of a member (Table 10.10; 18_reliability_and_spares.md Table 18.2 for poison). DEDUCED, log entry 71. -/
def sampleRefusal (s : State) (id t : Nat) (r : Ref) (h : Nat) (m : Option SMember) : Option Nat :=
  match ownedOf s h, m with
  | none, _ => some (goneStatus s id h)
  | some _, none => some Status.intakeInvalid
  | some o, some m =>
    let p := paramsOf o.record.sampler
    let k := constraintFor s t p
    firstCode [
      orCode (m.handle = h) Status.operandRange,
      orCode (samplePhase s o) Status.phaseInvalid,
      orCode (!(o.record.firstMissing < o.record.logged)) Status.recomputeRequired,
      orCode (!(m.expect < o.record.logged)) Status.positionPast,
      orCode (!(o.record.logged < m.expect)) Status.positionAhead,
      orCode (paramsOk p m.vocab k) Status.samplerParam,
      orCode (intakeOk s t r m && k.elim true fun x => x.vocab = m.vocab) Status.intakeInvalid,
      orCode (p.ckind = 0 || k.isSome) Status.constraintAbsent,
      orCode (draftsOk m o.record.phase) Status.draftInvalid,
      orCode (!m.bad) Status.operandPoison]

/-! ### A step (R312–R315) -/

/-- What a step has done so far. -/
structure StepOut where
  tokens : List Nat
  gstate : Nat
  accepted : Nat
  fallback : Bool
  stop : Bool
  status : Nat
  nonfinite : Nat
  cycles : Nat
deriving DecidableEq, Repr

/-- What a step reads and does not change. -/
structure SEnv where
  p : SParams
  m : SMember
  k : Option Constraint
  o : Owned
  tenant : Nat
  input : Ref
  /-- Drafts that the step verifies (R312). -/
  d : Nat

/-- Occurrences of a token in the penalty window of a position (R302); drafts accepted in the step count as logged. -/
def SEnv.count (e : SEnv) (y : StepOut) (pos i : Nat) : Nat :=
  let from' := max (if e.p.prompt then 0 else e.o.record.promptTokens) (pos - e.p.window)
  let w := ((e.o.log ++ y.tokens).drop from').take (pos - from')
  if e.p.window = 0 then 0 else w.count i

/-- Runs of the mask of a grammar state, for its set-up (Table 10.11). -/
def SEnv.runs (e : SEnv) (st : Nat) : Nat :=
  match e.k.bind fun k => if e.p.ckind = 2 then k.states[st]? else none with
  | some (0, n, _) => n
  | _ => 0

/-- Cycles of one position (Table 10.11). -/
def SEnv.cycles (e : SEnv) (st width : Nat) : Nat :=
  let n := ceilDiv (if e.m.intake = 0 then e.m.vocab else e.m.listLen) 512
  let n1 := ceilDiv width 512
  ceilDiv e.p.window 64 + ceilDiv (e.runs st) 8 + n + (if e.p.topK = 0 then 0 else 2 * n) + n1 + (if Num.lt e.p.topP .one then 3 * n1 else 0) + n1 + 96

/-- Emit a token (R309, R314): the grammar moves on, or the step ends without it. The Bool says whether the step may go on. -/
def SEnv.emit (e : SEnv) (s : State) (y : StepOut) (x : Nat) (acc : Bool) : StepOut × Bool :=
  let next := if e.p.ckind = 2 then e.k.bind fun k => nextState s k y.gstate x else some y.gstate
  match next with
  | none => ({ y with status := Status.grammarNoTransition }, false)
  | some g =>
    let logged := e.o.record.logged + y.tokens.length + 1
    let stop := (e.p.endEnable && x = e.p.endToken) || e.o.record.promptTokens + e.o.record.tokenLimit ≤ logged
    ({ y with tokens := y.tokens ++ [x], gstate := g, accepted := y.accepted + b2n acc, stop := stop }, acc && !stop)

/-- Positions `j`, `j + 1`, … of a step: `n` of them remain (R312–R314). -/
def SEnv.positions (e : SEnv) (s : State) : Nat → Nat → StepOut → StepOut
  | 0, _, y => y
  | n + 1, j, y =>
    let pos := e.o.record.logged + j
    let given := sectionLogits s e.tenant e.input e.m j
    let y0 := { y with nonfinite := y.nonfinite + (given.filter fun (x : Nat × Num) => !x.2.finite).length }
    match distOf e.p e.m.vocab (maskAllows e.p.ckind e.k y.gstate) (e.count y pos) given with
    | none => { y0 with status := Status.constraintDeadEnd, cycles := y0.cycles + e.cycles y.gstate 0 }
    | some x =>
      let y1 := { y0 with fallback := y0.fallback || x.fallback, cycles := y0.cycles + e.cycles y.gstate x.width }
      match (if j < e.d then e.m.draftList[j]? else none) with
      | none => (e.emit s y1 (draw x.cand (drawWord e.o.record.seed pos 0)) false).1
      | some d =>
        if d.accepted x.cand (drawWord e.o.record.seed pos 1) then
          let r := e.emit s y1 d.token true
          if r.2 then e.positions s n (j + 1) r.1 else r.1
        else (e.emit s y1 (draw (d.residual x.cand) (drawWord e.o.record.seed pos 0)) false).1

/-- The draft state after a step that emitted tokens (R315, Table 10.5). -/
def SParams.afterStep (p : SParams) (d acc gstate : Nat) : SParams :=
  let q := { p with gstate := gstate }
  if d = 0 then q
  else
    let q1 := { q with proposed := satAdd 32 p.proposed d, accepted := satAdd 32 p.accepted acc }
    if d ≤ acc then { q1 with draftLen := min p.draftMax (p.draftLen + 1), fullRejects := 0, suspended := false }
    else if 0 < acc then { q1 with fullRejects := 0, suspended := false }
    else if p.fullRejects < 7 then { q1 with draftLen := max 1 (p.draftLen / 2), fullRejects := p.fullRejects + 1, suspended := false }
    else { q1 with draftLen := max 1 (p.draftLen / 2), fullRejects := 8, suspended := true }

/-! ### Output records (Table 10.9) -/

def sampleRecord (h status : Nat) (p : SParams) (logged : Nat) (y : StepOut) : List Byte :=
  let w1 := status % 2 ^ 16 * 2 ^ 48 + y.tokens.length % 32 * 2 ^ 43 + y.accepted % 32 * 2 ^ 38 + p.draftLen % 32 * 2 ^ 33 +
    b2n p.suspended * 2 ^ 32 + b2n y.fallback * 2 ^ 31 + b2n y.stop * 2 ^ 30 + p.gstate % 2 ^ 16
  leBytes 8 h ++ leBytes 8 w1 ++ leBytes 8 (logged % 2 ^ 32 * 2 ^ 32 + y.nonfinite % 2 ^ 32) ++
    (List.range 17).flatMap (fun i => leBytes 4 (y.tokens.getD i 0)) ++ List.replicate 36 0

/-- A step that does nothing. -/
def StepOut.none (g : Nat) : StepOut :=
  { tokens := [], gstate := g, accepted := 0, fallback := false, stop := false, status := Status.ok, nonfinite := 0, cycles := 0 }

/-! ### SAMPLE (R319–R321) -/

/-- One more member has run. -/
def Sampling.add (y : Sampling) (i status : Nat) (rec' : List Byte) (x : StepOut) : Sampling :=
  { y with next := i + 1, out := y.out ++ rec', fallbacks := y.fallbacks + b2n x.fallback, tokens := y.tokens + x.tokens.length
           failed := y.failed + (if status = Status.ok then 0 else 1)
           first := match y.first with
             | some f => some f
             | Option.none => if status = Status.ok then Option.none else some (i, status) }

/-- LOG_APPEND of a member's tokens, and FINISH where the step met a stop condition (R319). -/
def appendStep (s : State) (id : Nat) (o : Owned) (tokens : List Nat) (sampler : List Word) (stop : Bool) : State :=
  let x := { stepOf s o.record 2 with logged := o.record.logged + tokens.length, payload := LPayload.append tokens sampler }
  let s1 := ownStep s { o with log := o.log ++ tokens } x (.command id)
    fun r => { r with logged := r.logged + tokens.length, sampler := sampler }
  match ownedOf s1 o.record.handle with
  | some o1 => if stop then finishStep s1 o1 7 (.command id) else s1
  | none => s1

/-- One member's step, whose cycles are charged when it ends (R322). DEDUCED, log entry 71. -/
def sampleMember (id t cls : Nat) (input : Ref) (i h : Nat) (m : Option SMember) (s : State) (y : Sampling) : State × Sampling :=
  match sampleRefusal s id t input h m, ownedOf s h, m with
  | some code, some o, _ =>
    let p := paramsOf o.record.sampler
    (s, y.add i code (sampleRecord h code p o.record.logged (StepOut.none p.gstate)) (StepOut.none 0))
  | some code, none, _ => (s, y.add i code (sampleRecord h code (paramsOf []) 0 (StepOut.none 0)) (StepOut.none 0))
  | none, some o, some m =>
    let p := paramsOf o.record.sampler
    let e : SEnv := { p := p, m := m, k := constraintFor s t p, o := o, tenant := t, input := input,
                      d := if p.suspended then 0 else min m.drafts p.draftLen }
    let x := e.positions s (e.d + 1) 0 (StepOut.none p.gstate)
    let p1 := if x.tokens = [] then p else p.afterStep e.d x.accepted x.gstate
    let s1 := meterAdd (chargeTraffic (charge s t 4 cls 0 x.cycles) t cls (List.range 20)) t o.record.composition 2 x.cycles
    let s2 := if x.tokens = [] then s1 else appendStep { s1 with tele := s1.tele.decideDrafts h x.tokens.length } id o x.tokens (p1.store o.record.sampler) x.stop
    (s2, y.add i x.status (sampleRecord h x.status p1 (o.record.logged + x.tokens.length) x) x)
  | none, _, _ => (s, { y with next := i + 1 })

/-- Members in turn, while the gate of the lane is open (R322). -/
def sampleMembers (id t cls : Nat) (input : Ref) : Nat → List (Nat × Option SMember) → State → Sampling → State × Sampling
  | _, [], s, y => (s, y)
  | i, m :: r, s, y =>
    if !gateOpen s t 4 cls 0 || !mayMove s t cls [] then (s, y)
    else
      let p := sampleMember id t cls input i m.1 m.2 s y
      sampleMembers id t cls input (i + 1) r p.1 p.2

/-- PREFILLED members that are not refused move to DECODE first (05 R158). -/
def startSample (s : State) (id t : Nat) (input : Ref) : List (Nat × Option SMember) → State
  | [] => s
  | m :: r =>
    match sampleRefusal s id t input m.1 m.2, ownedOf s m.1 with
    | none, some o => startSample (if o.record.phase = 2 then phaseStep s o 4 (.command id) else s) id t input r
    | _, _ => startSample s id t input r

/-- A SAMPLE or DRAFT_RESET of one of the requests arrived earlier and its step has not run (R319). -/
def sampleAhead (s : State) (id : Nat) : Bool :=
  s.host.slots.any fun y => arrivedBefore s id y && (opcodeOf y.cmd = 0x40 || opcodeOf y.cmd = 0x41) && y.aux < 2 &&
    (slotMembers s id).any (arrivedSlot y)

/-- Does a step of the command search a grammar bank that is moving onto a spare (11_associative_search.md R342)? -/
def grammarHeld (s : State) (id t : Nat) : Bool :=
  ((slotMembers s id).any fun h => (ownedOf s h).any fun o => (paramsOf o.record.sampler).ckind = 2) && (banksOf s t 2).any (bankMoving s)

/-- The steps of a SAMPLE have committed: DONE_COUNTER rises and the command completes. DEDUCED, log entry 72. -/
def finishSample (s : State) (id : Nat) (c : Cmd) : State :=
  let y := tgetD s.comp.sampling id .fresh
  let s1 := { s with comp := { s.comp with sampling := tdel s.comp.sampling id } }
  let status := y.first.elim Status.ok (·.2)
  let missed := (slotMembers s id).head?.bind (ownedOf s)
  let r0 := if status = Status.recomputeRequired && !isBatch c then missed.elim 0 (·.record.firstMissing) else y.fallbacks * 2 ^ 32 + y.tokens
  finish (raiseCounter s1 (cmdTenant s c) (fld c.w5 47 32)) id status r0 ((y.first.elim 0xFFFFFFFF (·.1)) * 2 ^ 32 + y.failed)

/-- The members whose steps have not run: while the gate is open their steps, and after the last the records and the wait for the ledger. -/
def sampleWork (s : State) (id : Nat) (c : Cmd) (t : Nat) (ms : List (Nat × Option SMember)) : State :=
  let y0 := tgetD s.comp.sampling id .fresh
  let p := sampleMembers id t (classOf c) (refOf c.w2) y0.next (ms.drop y0.next) s y0
  let s1 := { p.1 with comp := { p.1.comp with sampling := tset p.1.comp.sampling id p.2 } }
  if p.2.next < ms.length then await s1 id .engine
  else
    let s2 := setStage (refWrite s1 id t (refOf c.w3) 0 (clean p.2.out)) id 2
    if stepsPending s2 id then await s2 id .ledger else finishSample s2 id c

/-- DEDUCED, log entry 72. DESIGN CHOICE, log entry 133. -/
def sampleBody (s0 : State) (id : Nat) (c : Cmd) : State :=
  let t := cmdTenant s0 c
  let names := refTensor (refOf c.w2) ++ refTensor (refOf c.w3)
  let s := readNamed s0 t names
  let old := slotStarted s id
  let ms := slotMembers s id
  match codeOf (refCheck s t (refOf c.w2) 64 false old), codeOf (refCheck s t (refOf c.w3) (128 * ms.length) false old) with
  | some e, _ => fail s id e
  | none, some e => fail s id e
  | none, none => match readMembers s t (refOf c.w2) old ms.length 0 with
    | none => fail s id Status.operandRange
    | some bs =>
      let pairs := ms.zip bs
      if thas s.comp.sampling id then sampleWork s id c t pairs
      else
        let s1 := pinRead (startSample s id t (refOf c.w2) pairs) id (tensorDirs s t names)
        if stepsPending s1 id then await s1 id .ledger else sampleWork (touchRef s1 t (refOf c.w2)) id c t pairs

def runSample (c : Cmd) (s : State) : State :=
  runCmd 0x40 c s fun again id s => routed s id c again fun passed s =>
    if stageOf s id = 2 then (if stepsPending s id then s else finishSample s id c)
    else if stepsPending s id && !thas s.comp.sampling id then s
    else if !counterOk (fld c.w5 47 32) then fail s id Status.tagInvalid
    else tagGate s id c (fld c.w5 63 48) passed fun s =>
      if sampleAhead s id then await s id .earlier
      else if grammarHeld s id (cmdTenant s c) then await s id .engine
      else sampleBody s id c

/-- SAMPLE (R317–R321). -/
def execSample (c : Cmd) (s : State) : Host.Outcome State Fault Refusal := ordinary s (runSample c s)

/-! ### DRAFT_RESET (R316) -/

def runDraftReset (c : Cmd) (s : State) : State :=
  runCmd 0x41 c s fun again id s => routed s id c again fun _ s => withOwned s id c fun o =>
    if sampleAhead s id then await s id .earlier
    else
      let p := paramsOf o.record.sampler
      let w := ({ p with draftLen := p.draftMax, fullRejects := 0, suspended := false } : SParams).store o.record.sampler
      finish (setOwned s (handleOf c) { o with record := { o.record with sampler := w } }) id Status.ok p.draftMax 0

/-- DRAFT_RESET (R316). -/
def execDraftReset (c : Cmd) (s : State) : Host.Outcome State Fault Refusal := quiet s (runDraftReset c s)

end Sys2Proof.Machine
end

