-- ==== Sys2Proof/Machine/Run.lean ====
section
/-!
DEFINITION. Commands that arrive from another module: forwarded ones (01_serving_roles.md R11–R14), and mirrored ones on a shadow
(18_reliability_and_spares.md R530, R531).
-/
namespace Sys2Proof.Machine

/-- SHADOW_CONTROL: is START refused (R530)? -/
def shadowRefused (s : State) (m : Nat) : Bool :=
  !isMember s m || !((membersNow s).any fun x => x.1 = m && x.2 = roleCode s) || s.rel.primaryTo.isSome || s.rel.shadowOf.isSome

def shadowBody (c : Cmd) (id : Nat) (s : State) : State :=
  let m := fld c.w2 63 46
  if flag c.w2 1 then finish { s with rel := { s.rel with primaryTo := none } } id Status.ok 0 0
  else if flag c.w2 0 then
    if shadowRefused s m then fail s id Status.shadowState
    else finish { s with rel := { s.rel with primaryTo := some m, mirrorSeq := 0 } } id Status.ok 0 0
  else finish s id Status.ok 0 0

def runShadowControl (c : Cmd) (s : State) : State := runCmd 0xB3 c s fun _ id s => shadowBody c id s

/-- SHADOW_CONTROL (R530). Every mirrored command is sent as it starts, so STOP completes at once. -/
def execShadowControl (c : Cmd) (s : State) : Host.Outcome State Fault Refusal := quiet s (runShadowControl c s)

/-- Run a command that came from another module, by its opcode (04_host_queues.md Table 4.6): one that names a request or a batch, or one of
Table 18.10. A PREFILL_CHUNK runs by its own row, which brings the entries to write. -/
def runHost (c : Cmd) (s : State) : State :=
  match opcodeOf c with
  | 0x12 => runHandoff c s
  | 0x13 => runPark c s
  | 0x14 => runResume c s
  | 0x15 => runCancel c s
  | 0x16 => runQuery c s
  | 0x17 => runLogRead c s
  | 0x18 => runRecordRead c s
  | 0x20 => runPagePromote c s
  | 0x21 => runPageDemote c s
  | 0x22 => runPagePin c s
  | 0x23 => runPageUnpin c s
  | 0x24 => runPageDrop c s
  | 0x25 => runPrefixLookup c s
  | 0x26 => runPrefixPublish c s
  | 0x30 => runGemm c s
  | 0x31 => runGemv c s
  | 0x32 => runGatherRows c s
  | 0x33 => runVector c s
  | 0x34 => runTensorAlloc c s
  | 0x35 => runTensorFree c s
  | 0x38 => runAttendDecode c s
  | 0x39 => runAttendPrefill c s
  | 0x3A => runSoftmaxCombine c s
  | 0x3B => runAttendBwd c s
  | 0x40 => runSample c s
  | 0x41 => runDraftReset c s
  | 0x5C => runVectorSearch c s
  | 0x60 => runPressStreamOpen c s
  | 0x61 => runPressStreamClose c s
  | 0x62 => runPressEncode c s
  | 0x63 => runPressDecode c s
  | 0x64 => runPressTableInstall c s
  | 0xA3 => runExpertApply c s
  | _ => s

/-- Is the command in a slot already? -/
def inSlot (s : State) (c : Cmd) : Bool := s.host.slots.any fun x => decide (x.cmd = c) && !(x.phase = .finished)

/-- A command that this module has passed on, and that comes back, is taken anew (01 R14). -/
def dropPassed (s : State) (c : Cmd) : State :=
  (s.host.slots.filter fun x => decide (x.cmd = c) && x.sentTo.isSome && x.inHand).foldl (fun st x => dropSlot (forget st x.id) x.id) s

/-- A command that another module sent takes a slot with the members that it brings (01 R11). -/
def accept (s : State) (c : Cmd) (members : List Nat) : Nat × State :=
  let p := takeSlot s c
  (p.1, modSlot p.2 p.1 fun x => { x with members := members })

/-- A forwarded command: it runs, is held, or goes on to the owner (01 R13, R14). VECTOR_SEARCH and VECTOR_DELETE bring their input and run at once
(12_vector_search.md R369). DEDUCED, log entry 40. DESIGN CHOICE, log entry 119. -/
def arrive (s : State) (c : Cmd) (members : List Nat) (input : List (Byte × Bool)) : State :=
  let s1 := dropPassed (sysTaken (sysTaken s (.command c members)) (.search c input)) c
  if c.src.isNone then s1
  else if opcodeOf c = 0x5C || opcodeOf c = 0x5D then runTarget s1 c input
  else runHost c (if inSlot s1 c then s1 else (accept s1 c members).2)

/-- FORWARDED_COMMAND_ARRIVAL (01 R14). -/
def execForwardedCommandArrival (c : Cmd) (members : List Nat) (input : List (Byte × Bool)) (s : State) : Host.Outcome State Fault Refusal :=
  ordinary s (arrive s c members input)

/-! ### The shadow (R531) -/

/-- The command as the shadow runs it: WAIT_TAG and DONE_COUNTER are ignored, and a VECTOR_SEARCH runs here. DEDUCED, log entry 108. -/
def asShadow (s : State) (c : Cmd) : Cmd :=
  let o := opcodeOf c
  if o = 0x3A || o = 0x62 || o = 0x63 then { c with w5 := word (c.w5.toNat % 2 ^ 32) }
  else if o = 0x5C then { c with w4 := word (fld c.w4 63 32 * 2 ^ 32 + selfId s * 2 ^ 14 + fld c.w4 13 0) }
  else c

/-- A mirrored command arrives: a gap in the sequence clears the clean count. Sequence number 0 begins the shadowing. The command runs on the input
bytes that it brings; `digest` is the primary's and `given` the ID that the primary returned. DEDUCED, log entry 108. -/
def takeMirrored (s : State) (seq : Nat) (c : Cmd) (inputs : List Host.Cell) (given digest : Nat) : State :=
  match c.src with
  | none => s
  | some (m, _) =>
    let begins := seq = 0 || s.rel.shadowOf ≠ some m
    let s1 := if !begins && !(seq = s.rel.shadowSeq) then eventA { s with rel := { s.rel with clean := 0 } } 21 0xB0 (cidOf c) else s
    let s2 := { s1 with rel := { s1.rel with
      shadowOf := some m, shadowSeq := wrapAdd 32 seq 1
      clean := if begins then 0 else s1.rel.clean
      admitted := if begins then false else s1.rel.admitted } }
    let c1 := asShadow s c
    let p := accept s2 c1 []
    let x : Mirror := { peer := m, seq := seq, expect := some digest, given := given, out := [] }
    let s3 := { p.2 with rel := { p.2.rel with mirrors := tset p.2.rel.mirrors p.1 x }, hostMem := Memory.place [] inputs
                         host := { p.2.host with badLines := [], link := { p.2.host.link with up := true } } }
    let s4 := runHost c1 s3
    { s4 with host := { s4.host with badLines := s.host.badLines, link := s.host.link } }

/-- MIRRORED_COMMAND (R531). -/
def execMirroredCommand (seq : Nat) (c : Cmd) (inputs : List Host.Cell) (given digest : Nat) (s : State) : Host.Outcome State Fault Refusal :=
  if isReady s && !s.rel.quarantined then quiet s (takeMirrored s seq c inputs given digest) else .next s

end Sys2Proof.Machine
end

