-- ==== Sys2Proof/Machine/Start.lean ====
section
/-!
DEFINITION. Start-up (03_configuration_image_and_startup.md R62–R70, Table 3.10): MODULE_START, FABRIC_TRAINING_END and ENTER_READY.
-/
namespace Sys2Proof.Machine

/-- May step 1 begin (03 R64; 21_power_pins_package.md R583, R590, R593; 17 R508)? -/
def mayStart (s : State) : Bool :=
  s.boot.state = .reset && s.boot.stop = none && !s.boot.thermalHold && !s.boot.scanHold && s.boot.startFrom ≤ s.mono

/-- At each start in BLANK a bank with a blown fuse and no completion fuse is marked as spoiled (19_security.md R538). -/
def markSpoiled (f : Fuses) : Fuses :=
  if f.lifecycle = 0 then
    { f with banks := f.banks.map fun b => if b.blown && !b.complete then { b with spoiled := true } else b }
  else f

/-- The management island runs from step 1 on (03 Table 3.10). -/
def startManagement (s : State) : State :=
  moveFn (moveFn s (.island 30) { st := .starting, latch := false }) (.island 30) { st := .on, latch := false }

/-- Step 1 (03 Table 3.10; 19 R536, R538, Table 19.7 step 6; 21 Table 21.5): lifecycle, strap, ALARM_N; after an ERASE one TAMPER_COUNT fuse is
blown, and the device seed enters the key store. Fabric time begins at 0 (14_fabric_ports_and_addressing.md R421). DEDUCED, log entry 23. -/
def stepOne (s : State) (b : BoardStart) : State :=
  let f := markSpoiled s.fuses
  let f1 := if s.sec.eraseDue then { f with tamperCount := min 255 (f.tamperCount + 1) } else f
  startManagement { s with
    fuses := f1
    nvm := match b.nvm with
      | none => s.nvm
      | some l => Memory.place [] l
    nvmFitted := b.nvmOk
    time := 0
    boot := { s.boot with resetN := true, pwrOk := true, mgmtAddr := b.addr, step := 1, reason := 0, detail := 0 }
    sec := { s.sec with lifecycle := f1.lifecycle, keys := b.seedOk, alarmN := true, eraseDue := false, response := none } }

/-- The moves that fuses record (18_reliability_and_spares.md R521; 07 R211; 14 R405) are mapped again. -/
def mapMove (s : State) (m : FusedMove) : State :=
  let s1 := { s with rel := { s.rel with
    health := tset s.rel.health (m.part, m.index) { Health.fresh with state := .retired }
    spares := s.rel.spares ++ [(m.part, m.spare)] } }
  if m.index = m.spare then s1
  else match m.part with
  | 1 => { s1 with rel := { s1.rel with ladleAt := tset s1.rel.ladleAt (m.index / 9 * 8 + m.index % 9) (m.spare % 9) } }
  | 2 =>
    let d := m.index / 18
    let n := physOrigin s1 d (m.index % 18)
    let kept := s1.fab.spareLane.filter fun e => !(e.1.1 = d && e.2 = n)
    { s1 with fab := { s1.fab with spareLane := tset kept (d, m.spare % 18) n } }
  | _ => s1
where
  /-- The logical lane that a physical lane carries. -/
  physOrigin (s : State) (d w : Nat) : Nat := tgetD s.fab.spareLane (d, w) w

def mapMoves (s : State) : List FusedMove → State
  | [] => s
  | m :: r => mapMoves (mapMove s m) r

/-- Dies and lanes that a retraining brings onto a spare (03 R65): the lowest that is free takes the place of each. DEDUCED, log entry 136. -/
def bringSpares (s : State) : List (Nat × Nat) → State
  | [] => s
  | k :: r => bringSpares (match (sparesFor s k.1 k.2).find? fun w => !s.rel.spares.contains (k.1, w) with
      | some w => mapMove s { part := k.1, index := k.2, spare := w }
      | none => s) r

/-- A function begins initialisation. -/
def beginFn (s : State) (f : FnId) : State := enterStarting (moveFn s f { st := .starting, latch := false }) f

def beginFns (s : State) : List FnId → State
  | [] => s
  | f :: r => beginFns (beginFn s f) r

/-- Is the port trained at start-up (03 Table 3.8; with no PORT record it is enabled)? DEDUCED, log entry 22. -/
def portEnabled (s : State) (p : Nat) : Bool := ((s.image.ports.find? (·.port = p)).map (·.enable)).getD true

/-- Islands, Ladles and banks that the ordering code has, but for the management island, which runs already. -/
def ownFns (s : State) : List FnId :=
  ((List.range 40).filter fun i => !islandAbsent s.order i && !(i = 30)).map FnId.island ++ (List.range 160).map FnId.ladle ++ (List.range 32).map FnId.bank

/-- Links by their fitted ports: those of an enabled port begin training, the others are ABSENT (14 R404). DEDUCED, log entry 22. -/
def startLinks (s : State) : List (Nat × Nat) → State
  | [] => s
  | l :: r =>
    let s1 :=
      if portEnabled s l.1 then cleanLink (moveFn s (.link l.1 l.2) { st := .starting, latch := false }) l.1 l.2
      else moveFn s (.link l.1 l.2) { st := .absent, latch := false }
    startLinks s1 r

/-- Steps 5 to 7 and the beginning of step 8 on a verified image (03 Table 3.10): fresh keys, retirements mapped and spares brought in (R65), system objects
placed, functions in STARTING, links training. DEDUCED, log entry 20. DEDUCED, log entry 23. -/
def configure (s : State) (i : Image) (retrained : List (Nat × Nat)) : State :=
  let s1 := { s with
    image := i
    sec := { s.sec with
      keys := true
      drbg := s.sec.drbg + 1
      keyGen := (List.range 18).map fun k => (k, tgetD s.sec.keyGen k 0 + 1) }
    tier := { s.tier with used := (List.range 20).map fun k => (k, 0, systemSlabs i + if k = 0 then ringSlabs i else 0) }
    boot := { s.boot with state := .training, step := 8, trainStart := s.mono, trainEnded := false }
    shape := { s.shape with creditAt := i.shapers.map fun r => ((r.port, r.cls), s.mono) } }
  let s2 := bringSpares (mapMoves s1 s1.fuses.moves) retrained
  startLinks (beginFns s2 (ownFns s2)) (allLinks s2)

/-- Steps 2 and 3: the module drives the NVM pins from the beginning of the one to the end of the other (R54). -/
def nvmStep (s : State) (step : Nat) : State := { s with boot := { s.boot with step := step, nvmPins := step = 2 || step = 3 } }

/-- Steps 2 to 6 (03 R62, R65): HELD at the first failure. Where several stacks fail their second training, the lowest index is reported: DESIGN CHOICE,
log entry 142. DEDUCED, log entry 20. DEDUCED, log entry 136. DESIGN CHOICE, log entry 142. -/
def runStart (s0 : State) (b : BoardStart) : State :=
  if !b.seedOk then holdAt s0 1 Status.identityDerivation 0
  else if !b.entropyOk then holdAt s0 1 Status.entropyFailure 0
  else if !b.nvmOk then holdAt (nvmStep s0 2) 2 Status.imageNvm 0
  else if !b.sectionsOk then holdAt (nvmStep s0 3) 3 Status.imageNvm 0
  else
    let s := nvmStep (nvmStep s0 3) 4
    match verifyImage s.nvm s.fuses s.fuses.lifecycle s.order.ports with
    | .held step reason detail part => holdAt { s with image := part } step reason detail
    | .good i =>
      match leastOf b.failedStacks with
      | some k => holdAt { s with image := i } 6 Status.stackTraining k
      | none => configure s i b.retrained

/-- MODULE_START (03 R64): the pins are high. Steps 1 to 7 run and step 8 begins, or the module holds. -/
def execModuleStart (b : BoardStart) (s : State) : Host.Outcome State Fault Refusal :=
  if mayStart s then
      let t := runStart (stepOne s b) b
      .next { t with pending := s.pending, hostMem := s.hostMem, order := s.order, mono := s.mono, fuses := s.fuses.blow t.fuses
                     nvm := b.nvm.elim s.nvm (Memory.place []) }
  else .next { s with boot := { s.boot with resetN := true, pwrOk := true } }

/-- FABRIC_TRAINING_END (03 R66): 500 ms after step 8 began. -/
def execFabricTrainingEnd (s : State) : Host.Outcome State Fault Refusal :=
  if s.boot.state = .training && s.boot.stop = none && s.boot.trainStart + 500000000 ≤ s.mono then
    quiet s { s with boot := { s.boot with trainEnded := true } }
  else .next s

/-- Islands, Ladles and banks that show STARTING finish initialising. -/
def readyFns (s : State) : List FnId → State
  | [] => s
  | f :: r => readyFns (initFn s f) r

/-- The fused versions rise to the SVN of each section that asks for it, as far as its 64 fuses go (03 R63). DEDUCED, log entry 24. -/
def commitVersions (i : Image) (f : Fuses) : Fuses :=
  let up := fun (fused : Nat) (x : Option SectionRec) => match x with
    | some r => if r.commit then max fused (min 64 r.svn) else fused
    | none => fused
  { f with vendorSvn := up f.vendorSvn i.vendor, ownerSvn := up f.ownerSvn i.owner }

/-- The module is in READY: the fabric ID of the image, where it gives one, stands (14 R416), and every link that is ON announces (03 R67). -/
def enterReadyState (s : State) : State :=
  let s1 := { s with
    boot := { s.boot with state := .ready, step := 9, readyAt := s.mono }
    fab := { s.fab with id := if s.image.fabricId = 0x3FFFF then s.fab.id else some s.image.fabricId }
    fuses := commitVersions s.image s.fuses }
  let s2 := readyFns s1 (ownFns s1)
  announceAll s2 (linksOn s2)

/-- ENTER_READY (03 R67): at the end of step 8. DEDUCED, log entry 24. -/
def execEnterReady (s : State) : Host.Outcome State Fault Refusal :=
  if s.boot.state = .training && s.boot.stop = none && s.boot.trainEnded then fusing s (enterReadyState s) else .next s

end Sys2Proof.Machine
end

