-- ==== Sys2Proof/Machine/Security.lean ====
section
/-!
DEFINITION. Lifecycle, domain secrets, security requests, attestation and sessions (19_security.md R536–R558).
-/
namespace Sys2Proof.Machine

/-! ### Requests and responses (R548) -/

/-- Send a response. -/
def respondSec (s : State) (p : Path) (code status tag : Nat) (body : List Byte) : State :=
  { s with sec := { s.sec with responses := s.sec.responses ++ [{ path := p, code := code, status := status, tag := tag, body := body }] } }

/-- A request on the management port keeps the session open (R558). -/
def noteRequest (s : State) (p : Path) : State :=
  match p with
  | .mgmt => { s with sec := { s.sec with session := s.sec.session.map fun _ => s.mono } }
  | .phys => s

/-- A request that a path carries (R548; 03 R68, R70): the management port from the end of step 1, the physical function from the end of step 5. -/
def request (s : State) (p : Path) (f : State → State) : Host.Outcome State Fault Refusal :=
  if mgmtReachable s p then quiet s (f (noteRequest s p)) else .next s

def bytesOf256 (x : BitVec 256) : List Byte := leBytes 32 x.toNat
def bytesOf384 (x : BitVec 384) : List Byte := (leBytes 48 x.toNat).reverse

/-! ### Authorisation (R549) -/

/-- Lengths of the two signatures (Table 19.4 Note 1). -/
def sigLengthsOk (rsa slh : List Byte) : Bool := rsa.length = 384 && slh.length = 16224

/-- What both signatures cover: CODE, SERIAL, the signed nonce and the body. DEDUCED, log entry 109. -/
def signedDigest (s : State) (code : Nat) (nonce : BitVec 256) (body : List Byte) : BitVec 384 :=
  Config.sha384 (leBytes 1 code ++ leBytes 8 s.fuses.serial ++ bytesOf256 nonce ++ body)

def verified (key : List Byte) (digest : BitVec 384) (rsa slh : List Byte) : Bool :=
  Config.rsaPssVerify key digest rsa && Config.slhDsaVerify key digest slh

/-- The KEY_BLOCK of the verified owner section, and whether a request is signed under it. -/
def ownerSigned (s : State) (code : Nat) (nonce : BitVec 256) (body rsa slh : List Byte) : Bool :=
  match s.image.owner with
  | some r => verified r.keyBlock (signedDigest s code nonce body) rsa slh
  | none => false

/-- Is the nonce that of the latest GET_IDENTITY, not yet used and at most 60 s old? -/
def nonceGood (s : State) (n : BitVec 256) : Bool :=
  match s.sec.nonce with
  | some (x, at') => x = n && s.mono ≤ at' + 60000000000
  | none => false

/-- The nonce is spent by the request that names it. -/
def spendNonce (s : State) : State := { s with sec := { s.sec with nonce := none } }

/-- A request signed over the nonce of GET_IDENTITY: a stale nonce, a failed signature, or `k` on the state with the nonce spent. DEDUCED, log entry 109. -/
def authorised (s : State) (p : Path) (code tag : Nat) (nonce : BitVec 256) (good : Bool) (k : State → State) : State :=
  if !nonceGood s nonce then respondSec s p code Status.nonceStale tag []
  else if !good then respondSec (spendNonce s) p code Status.signatureInvalid tag []
  else k (spendNonce s)

/-! ### GET_IDENTITY (Table 19.4) -/

/-- The label under which a key is derived from the device seed (R540). -/
def keyLabel : Nat → String
  | 0 => "SN-ID-RSA"
  | 1 => "SN-ID-SLH"
  | 2 => "SN-WRAP-KEM"
  | _ => "SN-WRAP-RSA"

/-- The bytes from which a key pair is generated (R540): the seed is the same at every start, and so are they. -/
def derivedKey (s : State) (which : Nat) : List Byte :=
  Config.seedKey (Config.deviceSeed s.fuses.serial) ((keyLabel which).toList.map fun c => BitVec.ofNat 8 c.toNat)

def publicKey (s : State) (which n : Nat) : List Byte := (List.range n).map (Config.publicKeyByte (derivedKey s which) which)

def identityBody (s : State) (nonce : BitVec 256) : List Byte :=
  leBytes 8 s.fuses.serial ++ leBytes 4 Config.enterprise ++ leBytes 1 s.sec.lifecycle ++ [0, 0, 0] ++ publicKey s 0 392 ++ publicKey s 1 48 ++
    publicKey s 2 1568 ++ publicKey s 3 392 ++ bytesOf256 nonce

/-- DEDUCED, log entry 111. -/
def getIdentity (s : State) (p : Path) (tag : Nat) : State :=
  if !s.sec.keys then respondSec s p 0x01 Status.identityDerivation tag []
  else
    let n := Config.nonce s.sec.drbg
    respondSec { s with sec := { s.sec with drbg := s.sec.drbg + 1, nonce := some (n, s.mono) } } p 0x01 Status.ok tag (identityBody s n)

/-- GET_IDENTITY (R548). -/
def execGetIdentity (p : Path) (tag : Nat) (s : State) : Host.Outcome State Fault Refusal := request s p fun s => getIdentity s p tag

/-! ### Attestation (R551) -/

/-- The report (Table 19.5). -/
def reportBody (s : State) (nonce : BitVec 256) : List Byte :=
  let sec := fun (x : Option SectionRec) (f : SectionRec → Nat) => x.elim 0 f
  let digest := fun (x : Option SectionRec) => bytesOf384 (x.elim 0 (·.digest))
  bytesOf256 nonce ++ leBytes 8 s.fuses.serial ++
    leBytes 8 (s.sec.lifecycle % 256 * 2 ^ 56 + s.fuses.vendorSvn % 256 * 2 ^ 48 + s.fuses.ownerSvn % 256 * 2 ^ 40 + s.fuses.tamperCount % 256 * 2 ^ 32 +
      s.boot.state.code * 2 ^ 24 + roleCode s * 2 ^ 20 + selfId s % 2 ^ 18) ++
    leBytes 8 s.fab.epoch ++ leBytes 8 s.time ++ digest s.image.vendor ++ digest s.image.owner ++ bytesOf384 s.fuses.vendorKeyHash ++
    bytesOf384 (s.fuses.ownerKeyHash.getD 0) ++ leBytes 8 (sec s.image.vendor (·.buildId)) ++ leBytes 8 (sec s.image.owner (·.buildId)) ++
    leBytes 8 (sec s.image.vendor (·.svn) % 256 * 2 ^ 56 + sec s.image.owner (·.svn) % 256 * 2 ^ 48) ++ List.replicate 40 0

/-- The first request of the queue is being signed: its report is formed as the signing begins. -/
def beginSigning (s : State) : State :=
  match s.sec.attest with
  | [] => s
  | x :: r => if x.report = [] then { s with sec := { s.sec with attest := { x with report := reportBody s x.nonce } :: r } } else s

/-- Is the module PROVISIONED or in PRODUCTION? -/
def inService (s : State) : Bool := s.sec.lifecycle = 1 || s.sec.lifecycle = 2

def takeAttest (s : State) (p : Path) (tag : Nat) (nonce : BitVec 256) : State :=
  if !inService s then respondSec s p 0x02 Status.lifecycleState tag []
  else if !s.sec.keys then respondSec s p 0x02 Status.identityDerivation tag []
  else if 5 ≤ s.sec.attest.length then respondSec s p 0x02 Status.secBusy tag []
  else beginSigning { s with sec := { s.sec with attest := s.sec.attest ++ [{ path := p, tag := tag, nonce := nonce, report := [] }] } }

/-- ATTEST (R551). -/
def execAttest (p : Path) (tag : Nat) (nonce : BitVec 256) (s : State) : Host.Outcome State Fault Refusal :=
  request s p fun s => takeAttest s p tag nonce

def signature (s : State) (which n : Nat) (report : List Byte) : List Byte :=
  (List.range n).map (Config.signatureByte (derivedKey s which) which (Config.sha384 report))

/-- The signing under way ends: the response leaves, and the next request begins. -/
def endSigning (s : State) : State :=
  match s.sec.attest with
  | [] => s
  | x :: r =>
    let body := x.report ++ signature s 0 384 x.report ++ signature s 1 35664 x.report
    beginSigning (respondSec { s with sec := { s.sec with attest := r } } x.path 0x02 Status.ok x.tag body)

/-- ATTEST_SIGNATURE_COMPLETE (R551). -/
def execAttestSignatureComplete (s : State) : Host.Outcome State Fault Refusal := if alive s then quiet s (endSigning s) else .next s

/-! ### The lifecycle (R537, R538) -/

/-- The first owner-hash bank that is neither spoiled nor used. -/
def freshBank (f : Fuses) : Option Nat := (List.range f.banks.length).find? fun k => (f.banks[k]?).any fun b => !b.blown && !b.complete && !b.spoiled

/-- Blow the hash of a KEY_BLOCK into a bank, its completion fuse, and one lifecycle fuse. DESIGN CHOICE, log entry 114. -/
def fuseOwner (f : Fuses) (k : Nat) (keyBlock : List Byte) : Fuses :=
  let b : OwnerBank := { hash := Config.sha384 keyBlock, blown := true, complete := true, spoiled := false }
  { f with banks := f.banks.set k b, lifecycle := f.lifecycle + 1 }

/-- DEDUCED, log entry 110. DESIGN CHOICE, log entry 114. -/
def takeProvision (s : State) (p : Path) (tag : Nat) (nonce : BitVec 256) (keyBlock rsa slh : List Byte) : State :=
  if !(keyBlock.length = 440) || !sigLengthsOk rsa slh then respondSec s p 0x03 Status.secRequestFormat tag []
  else if !(s.sec.lifecycle = 0 && s.fuses.lifecycle = 0 && s.boot.state = .held) then respondSec s p 0x03 Status.lifecycleState tag []
  else
    authorised s p 0x03 tag nonce (verified keyBlock (signedDigest s 0x03 nonce keyBlock) rsa slh) fun s =>
      match freshBank s.fuses with
      | none => respondSec s p 0x03 Status.provisionExhausted tag []
      | some k => respondSec { s with fuses := fuseOwner s.fuses k keyBlock } p 0x03 Status.ok tag []

/-- PROVISION (R537, R538). -/
def execProvision (p : Path) (tag : Nat) (nonce : BitVec 256) (keyBlock rsa slh : List Byte) (s : State) : Host.Outcome State Fault Refusal :=
  if mgmtReachable s p then fusing s (takeProvision (noteRequest s p) p tag nonce keyBlock rsa slh) else .next s

/-- Is the transition listed in Table 19.2, by the fuses that are blown? DEDUCED, log entry 110. -/
def advanceListed (s : State) (target : Nat) : Bool :=
  (s.fuses.lifecycle = 1 && target = 2) || ((s.fuses.lifecycle = 1 || s.fuses.lifecycle = 2) && target = 3)

def takeAdvance (s : State) (p : Path) (tag : Nat) (nonce : BitVec 256) (target : Nat) (rsa slh : List Byte) : State :=
  if !sigLengthsOk rsa slh || 256 ≤ target then respondSec s p 0x04 Status.secRequestFormat tag []
  else if !inService s || !advanceListed s target then respondSec s p 0x04 Status.lifecycleState tag []
  else
    authorised s p 0x04 tag nonce (ownerSigned s 0x04 nonce (leBytes 8 target) rsa slh) fun s =>
      let s1 := respondSec s p 0x04 Status.ok tag []
      if target = 3 then zeroise { s1 with fuses := { s1.fuses with lifecycle := 3 } }
      else { s1 with fuses := { s1.fuses with lifecycle := s1.fuses.lifecycle + 1 } }

/-- ADVANCE (R537). An ADVANCE to RETURNED that is done zeroises the key store and resets the module. -/
def execAdvance (p : Path) (tag : Nat) (nonce : BitVec 256) (target : Nat) (rsa slh : List Byte) (s : State) : Host.Outcome State Fault Refusal :=
  if mgmtReachable s p then
    let t := takeAdvance (noteRequest s p) p tag nonce target rsa slh
    if t.fuses.lifecycle = 3 && !(s.fuses.lifecycle = 3) then
      .next (s.afterReset (moduleReset t))
    else fusing s t
  else .next s

/-! ### Domain secrets (R544, R550) -/

/-- The slot that an install overwrites: the held secret with the lower ACTIVATE, where both slots are full. DEDUCED, log entry 112. -/
def overwritten (s : State) : Option DomainSecret :=
  if s.sec.domain.length < 2 then none
  else s.sec.domain.foldl (fun b d => match b with
    | none => some d
    | some x => if d.activate < x.activate then some d else some x) none

/-- Is an install refused (R544)? -/
def domainRefused (s : State) (activate : Nat) : Bool :=
  let e := epochOf s.time
  !(s.sec.domain = []) &&
    (activate ≤ e ||
      match overwritten s with
      | none => false
      | some o => secretFor s e = some o || (secretFor s e).any fun n => s.time < n.activate * 2 ^ 40 + 10000000)

/-- Install a secret: the keys of the overwritten one leave the cache; the first announcements go out if it is in force (R545). DEDUCED, log entry 112. -/
def installDomain (s : State) (d : DomainSecret) : State :=
  let old := overwritten s
  let keys := match old with
    | none => s.xport.keys
    | some o => s.xport.keys.filter fun k => !(secretFor s k.2 = some o)
  let kept := match old with
    | none => s.sec.domain
    | some o => s.sec.domain.erase o
  let before := (secretFor s (epochOf s.time)).isSome
  let s1 := setXport { s with sec := { s.sec with domain := kept ++ [d] } } { s.xport with keys := keys }
  if !before && (secretFor s1 (epochOf s1.time)).isSome then pumpTray (announceAll s1 (linksOn s1)) else s1

/-- KEK (R550): HKDF-SHA-384 of the two unwrapped values, under 48 zero bytes of salt and the info 0x03 and SERIAL. -/
def kekOf (serial : Nat) (a b : List Byte) : BitVec 256 :=
  Config.hkdfExpand (Config.hkdfExtract (List.replicate 48 0) (a ++ b)) (3 :: (leBytes 8 serial).reverse)

/-- The secret in the sealed box, opened under KEK with a nonce of 12 zero bytes (R550). -/
def unwrapped (s : State) (kem oaep box : List Byte) : Option (BitVec 256) :=
  (Config.oaepOpen (derivedKey s 3) oaep).bind fun v =>
    Config.gcmOpen (kekOf s.fuses.serial (Config.kemOpen (derivedKey s 2) kem) v) (List.replicate 12 0) box

def takeDomain (s : State) (p : Path) (tag serial activate : Nat) (kem oaep box rsa slh : List Byte) : State :=
  let done := fun (st : State) (code : Nat) => respondSec st p 0x05 code tag []
  let body := leBytes 8 serial ++ leBytes 8 activate ++ kem ++ oaep ++ box
  if !(kem.length = 1568) || !(oaep.length = 384) || !(box.length = 48) || !sigLengthsOk rsa slh then done s Status.secRequestFormat
  else if !inService s || !imageInForce s then done s Status.lifecycleState
  else if !ownerSigned s 0x05 0 body rsa slh then done s Status.signatureInvalid
  else if !s.sec.keys then done s Status.identityDerivation
  else if !(serial = s.fuses.serial) then done s Status.signatureInvalid
  else match unwrapped s kem oaep box with
    | none => done s Status.signatureInvalid
    | some x =>
      if domainRefused s (activate % 2 ^ 24) then done s Status.domainEpoch
      else done (installDomain s { activate := activate % 2 ^ 24, secret := x }) Status.ok

/-- SET_DOMAIN (R544, R550). -/
def execSetDomain (p : Path) (tag serial activate : Nat) (kem oaep sealedSecret rsa slh : List Byte) (s : State) : Host.Outcome State Fault Refusal :=
  request s p fun s => takeDomain s p tag serial activate kem oaep sealedSecret rsa slh

/-! ### Sessions (R558) -/

/-- DEDUCED, log entry 111. -/
def takeSessionOpen (s : State) (p : Path) (tag : Nat) (nonce : BitVec 256) (rsa slh : List Byte) : State :=
  if !sigLengthsOk rsa slh || !(p = .mgmt) then respondSec s p 0x06 Status.secRequestFormat tag []
  else
    authorised s p 0x06 tag nonce (ownerSigned s 0x06 nonce [] rsa slh) fun s =>
      respondSec { s with sec := { s.sec with session := some s.mono } } p 0x06 Status.ok tag []

/-- SESSION_OPEN (R558). -/
def execSessionOpen (p : Path) (tag : Nat) (nonce : BitVec 256) (rsa slh : List Byte) (s : State) : Host.Outcome State Fault Refusal :=
  request s p fun s => takeSessionOpen s p tag nonce rsa slh

def takeSessionClose (s : State) (p : Path) (tag : Nat) : State :=
  if !(p = .mgmt) then respondSec s p 0x07 Status.secRequestFormat tag []
  else respondSec { s with sec := { s.sec with session := none } } p 0x07 Status.ok tag []

/-- SESSION_CLOSE (R558). -/
def execSessionClose (p : Path) (tag : Nat) (s : State) : Host.Outcome State Fault Refusal := request s p fun s => takeSessionClose s p tag

/-- SESSION_TIMEOUT (R558): 60 s without a request. -/
def execSessionTimeout (s : State) : Host.Outcome State Fault Refusal :=
  match s.sec.session with
  | some t => if t + 60000000000 ≤ s.mono then quiet s { s with sec := { s.sec with session := none } } else .next s
  | none => .next s

/-! ### MEM_READ (R558) -/

/-- The directory entry whose run covers a slab of a stack. -/
def slabEntry (s : State) (stack slab : Nat) : Option (Nat × DirEntry) :=
  s.tier.dir.find? fun e => e.2.run.loc = stack && e.2.run.first ≤ slab && slab < e.2.run.first + e.2.run.slabs

/-- A byte of a tensor's run: stripe `j` of the tensor lies in run `j mod q` (07_ladle_engines.md R222). -/
def tensorByte (x : Tensor) (run off : Nat) : Byte :=
  let q := min 20 (ceilDiv x.bytes 65536)
  blobByte x.blob (((off / 65536) * q + run) * 65536 + off % 65536)

/-- What a stack holds at a byte in clear, and whose key protects its line (R542): the tenant of the object there, or 16 for the system key. None where the
model keeps no content. DESIGN CHOICE, log entry 113. -/
def clearByte (s : State) (stack off : Nat) : Option (Nat × Byte) :=
  let slab := off / 65536
  let base := systemSlabs s.image
  if stack = 0 && base ≤ slab && slab < base + ringSlabs s.image then some (16, s.tele.dumpRing.read (off - base * 65536))
  else (slabEntry s stack slab).bind fun (d, e) =>
    let at' := off - e.run.first * 65536
    if e.kind ≤ 2 then (tget s.tier.data d).map fun b => (e.tenant, blobByte b at')
    else match s.tier.tensors.find? fun t => t.2.dirs.contains d with
      | some t => some (e.tenant, tensorByte t.2 e.page at')
      | none =>
        if s.xport.regions.any fun r => r.2.space = 3 && (regionDirs s (keyOf s r.1)).contains d then
          some (e.tenant, ((lineNow s ((stack * 2 ^ 36 + off) / 64)).1).getD (off % 64) 0)
        else none

/-- The memory key in force of an owner (R539, R543). -/
def memoryKey (s : State) (owner : Nat) : BitVec 512 := Config.memoryKey s.fuses.serial owner (tgetD s.sec.keyGen owner 0)

/-- Tweak of a stack's line (R542): the stack index in [40:36], the line address in [35:6]. -/
def lineTweak (stack off : Nat) : Nat := stack * 2 ^ 36 + off / 64 * 64

/-- A byte of a stack decrypted under the key of an owner (R542): in clear under the key that protects its line, and under any other what decrypting that
line's ciphertext gives. DESIGN CHOICE, log entry 113. -/
def stackByte (s : State) (stack owner off i : Nat) : Byte :=
  match clearByte s stack off with
  | none => Config.freeByte s.free i
  | some (o, b) =>
    if o = owner then b
    else
      let line := (List.range 64).map fun j => (clearByte s stack (off / 64 * 64 + j)).elim 0 (·.2)
      let tweak := lineTweak stack off
      (Config.xtsDecrypt (memoryKey s owner) tweak (Config.xtsEncrypt (memoryKey s o) tweak line)).getD (off % 64) 0

/-- DESIGN CHOICE, log entry 113. -/
def stackRead (s : State) (stack key off n : Nat) : List Byte :=
  (List.range n).map fun i => stackByte s stack (if key = 0xFF then 16 else key) (off + i) i

def takeMemRead (s : State) (p : Path) (tag stack key off len : Nat) : State :=
  let done := fun (st : State) (code : Nat) (body : List Byte) => respondSec st p 0x08 code tag body
  if !(p = .mgmt) || s.sec.session.isNone then done s Status.sessionRequired []
  else if 20 ≤ stack || (16 ≤ key && !(key = 0xFF)) || !(off % 64 = 0) || len < 64 || 4096 < len || s.order.stackBytes < off + len then
    done s Status.secRequestFormat []
  else done { s with free := s.free + 1 } Status.ok (stackRead s stack key off len)

/-- MEM_READ (R558). -/
def execMemRead (p : Path) (tag stack key off len : Nat) (s : State) : Host.Outcome State Fault Refusal :=
  request s p fun s => takeMemRead s p tag stack key off len

end Sys2Proof.Machine
end

