-- ==== Sys2Proof/Machine/Dispatch.lean ====
section
/-!
DEFINITION. What each command does: one arm for each constructor of `Instr`, each a direct call of its meaning.
-/
namespace Sys2Proof.Machine

def exec (i : Instr) (s : State) : Host.Outcome State Fault Refusal :=
  match i with
  | .moduleStart b => Sys2Proof.Machine.execModuleStart b s
  | .fabricTrainingEnd => Sys2Proof.Machine.execFabricTrainingEnd s
  | .enterReady => Sys2Proof.Machine.execEnterReady s
  | .emergencyStop cause => Sys2Proof.Machine.execEmergencyStop cause s
  | .stopRampEnd => Sys2Proof.Machine.execStopRampEnd s
  | .modResetLow ns => Sys2Proof.Machine.execModResetLow ns s
  | .pwrOkLow ns => Sys2Proof.Machine.execPwrOkLow ns s
  | .perstN => Sys2Proof.Machine.execPerstN s
  | .hostLinkTrained width rate flit => Sys2Proof.Machine.execHostLinkTrained width rate flit s
  | .sensorTrip sensor => Sys2Proof.Machine.execSensorTrip sensor s
  | .junctionThrottle sensor tj => Sys2Proof.Machine.execJunctionThrottle sensor tj s
  | .thermalStopRelease ns => Sys2Proof.Machine.execThermalStopRelease ns s
  | .boundaryScanInstruction code => Sys2Proof.Machine.execBoundaryScanInstruction code s
  | .internalTestSelect => Sys2Proof.Machine.execInternalTestSelect s
  | .ppsInPulse ns => Sys2Proof.Machine.execPpsInPulse ns s
  | .entropyHealthFail => Sys2Proof.Machine.execEntropyHealthFail s
  | .governorStep demand => Sys2Proof.Machine.execGovernorStep demand s
  | .governorCalibrate => Sys2Proof.Machine.execGovernorCalibrate s
  | .avsRailRead samples => Sys2Proof.Machine.execAvsRailRead samples s
  | .budgetPeriodBoundary => Sys2Proof.Machine.execBudgetPeriodBoundary s
  | .ageEpoch => Sys2Proof.Machine.execAgeEpoch s
  | .pressurePark => Sys2Proof.Machine.execPressurePark s
  | .demotionPlaced dir => Sys2Proof.Machine.execDemotionPlaced dir s
  | .promotionPlaced dir => Sys2Proof.Machine.execPromotionPlaced dir s
  | .oldRunDrained dir => Sys2Proof.Machine.execOldRunDrained dir s
  | .dumpBoundary => Sys2Proof.Machine.execDumpBoundary s
  | .healthSubwindow part => Sys2Proof.Machine.execHealthSubwindow part s
  | .memoryScrub stack => Sys2Proof.Machine.execMemoryScrub stack s
  | .camRowCheck diff => Sys2Proof.Machine.execCamRowCheck diff s
  | .detection d => Sys2Proof.Machine.execDetection d s
  | .islandResetComplete island => Sys2Proof.Machine.execIslandResetComplete island s
  | .spareMoveBegin part k => Sys2Proof.Machine.execSpareMoveBegin part k s
  | .spareMoveComplete part k ok => Sys2Proof.Machine.execSpareMoveComplete part k ok s
  | .creditWatchTimeout island => Sys2Proof.Machine.execCreditWatchTimeout island s
  | .functionEnable f => Sys2Proof.Machine.execFunctionEnable f s
  | .functionDisable f => Sys2Proof.Machine.execFunctionDisable f s
  | .initialisationComplete f => Sys2Proof.Machine.execInitialisationComplete f s
  | .shutdownComplete f => Sys2Proof.Machine.execShutdownComplete f s
  | .tenantEnable fn => Sys2Proof.Machine.execTenantEnable fn s
  | .tenantDisable fn => Sys2Proof.Machine.execTenantDisable fn s
  | .queueEnable fn q => Sys2Proof.Machine.execQueueEnable fn q s
  | .queueDisable fn q => Sys2Proof.Machine.execQueueDisable fn q s
  | .queueShutdownTimeout fn q => Sys2Proof.Machine.execQueueShutdownTimeout fn q s
  | .queueConfigWrite fn q off v => Sys2Proof.Machine.execQueueConfigWrite fn q off v s
  | .sqTailDoorbell fn q v placed bad => Sys2Proof.Machine.execSqTailDoorbell fn q v placed bad s
  | .cqHeadDoorbell fn q v => Sys2Proof.Machine.execCqHeadDoorbell fn q v s
  | .commandFetch => Sys2Proof.Machine.execCommandFetch s
  | .completionPost fn q => Sys2Proof.Machine.execCompletionPost fn q s
  | .interruptCoalesceTimer fn vector => Sys2Proof.Machine.execInterruptCoalesceTimer fn vector s
  | .irqMaskWrite fn m v => Sys2Proof.Machine.execIrqMaskWrite fn m v s
  | .kettleFlushTimer fn => Sys2Proof.Machine.execKettleFlushTimer fn s
  | .kettleWordWrite fn parityBad => Sys2Proof.Machine.execKettleWordWrite fn parityBad s
  | .kettleEnable fn => Sys2Proof.Machine.execKettleEnable fn s
  | .kettleDisable fn => Sys2Proof.Machine.execKettleDisable fn s
  | .kettleConfigWrite fn off v => Sys2Proof.Machine.execKettleConfigWrite fn off v s
  | .kettleHeadWrite fn v => Sys2Proof.Machine.execKettleHeadWrite fn v s
  | .knobWrite p v => Sys2Proof.Machine.execKnobWrite p v s
  | .pctrCfgWrite p v => Sys2Proof.Machine.execPctrCfgWrite p v s
  | .dumpHeadWrite p v => Sys2Proof.Machine.execDumpHeadWrite p v s
  | .mgmtCtrLoRead p => Sys2Proof.Machine.execMgmtCtrLoRead p s
  | .hostCtrLoRead fn => Sys2Proof.Machine.execHostCtrLoRead fn s
  | .mgmtTimeLoRead p => Sys2Proof.Machine.execMgmtTimeLoRead p s
  | .mgmtRailVRead p => Sys2Proof.Machine.execMgmtRailVRead p s
  | .registerWrite r off v => Sys2Proof.Machine.execRegisterWrite r off v s
  | .nop c => Sys2Proof.Machine.execNop c s
  | .jobOpen c => Sys2Proof.Machine.execJobOpen c s
  | .jobClose c => Sys2Proof.Machine.execJobClose c s
  | .batchRegister c => Sys2Proof.Machine.execBatchRegister c s
  | .batchRelease c => Sys2Proof.Machine.execBatchRelease c s
  | .tenantReset c => Sys2Proof.Machine.execTenantReset c s
  | .queueFence c => Sys2Proof.Machine.execQueueFence c s
  | .placeFence c => Sys2Proof.Machine.execPlaceFence c s
  | .trayFence c => Sys2Proof.Machine.execTrayFence c s
  | .fenceComplete c => Sys2Proof.Machine.execFenceComplete c s
  | .forwardRetryTimer r => Sys2Proof.Machine.execForwardRetryTimer r s
  | .forwardTimeout r => Sys2Proof.Machine.execForwardTimeout r s
  | .forwardedCommandArrival c members input => Sys2Proof.Machine.execForwardedCommandArrival c members input s
  | .forwardedCompletionArrival c status r0 r1 data => Sys2Proof.Machine.execForwardedCompletionArrival c status r0 r1 data s
  | .admitRequest c => Sys2Proof.Machine.execAdmitRequest c s
  | .prefillChunk c kv => Sys2Proof.Machine.execPrefillChunk c kv s
  | .handoff c => Sys2Proof.Machine.execHandoff c s
  | .park c => Sys2Proof.Machine.execPark c s
  | .resume c => Sys2Proof.Machine.execResume c s
  | .cancel c => Sys2Proof.Machine.execCancel c s
  | .query c => Sys2Proof.Machine.execQuery c s
  | .logRead c => Sys2Proof.Machine.execLogRead c s
  | .recordRead c => Sys2Proof.Machine.execRecordRead c s
  | .ledgerStepResendTimer h => Sys2Proof.Machine.execLedgerStepResendTimer h s
  | .ledgerStepArrival copy x => Sys2Proof.Machine.execLedgerStepArrival copy x s
  | .ledgerNotice n => Sys2Proof.Machine.execLedgerNotice n s
  | .ledgerQuery h src form => Sys2Proof.Machine.execLedgerQuery h src form s
  | .ledgerQueryRetryTimer h => Sys2Proof.Machine.execLedgerQueryRetryTimer h s
  | .ledgerAnswer n => Sys2Proof.Machine.execLedgerAnswer n s
  | .ledgerErase h => Sys2Proof.Machine.execLedgerErase h s
  | .repairCopyArrival copy r log => Sys2Proof.Machine.execRepairCopyArrival copy r log s
  | .endOfRepair epoch src => Sys2Proof.Machine.execEndOfRepair epoch src s
  | .headFreezeEnd h => Sys2Proof.Machine.execHeadFreezeEnd h s
  | .offer o => Sys2Proof.Machine.execOffer o s
  | .placed h sender body => Sys2Proof.Machine.execPlaced h sender body s
  | .handoffRefuse h sender body => Sys2Proof.Machine.execHandoffRefuse h sender body s
  | .lastPageSent h => Sys2Proof.Machine.execLastPageSent h s
  | .handoffPagePlaced h p => Sys2Proof.Machine.execHandoffPagePlaced h p s
  | .replicaArrival h p => Sys2Proof.Machine.execReplicaArrival h p s
  | .allPagesPlaced r => Sys2Proof.Machine.execAllPagesPlaced r s
  | .orphanTimerExpiry h => Sys2Proof.Machine.execOrphanTimerExpiry h s
  | .recoveryClaim h survivors => Sys2Proof.Machine.execRecoveryClaim h survivors s
  | .pagePromote c => Sys2Proof.Machine.execPagePromote c s
  | .pageDemote c => Sys2Proof.Machine.execPageDemote c s
  | .pagePin c => Sys2Proof.Machine.execPagePin c s
  | .pageUnpin c => Sys2Proof.Machine.execPageUnpin c s
  | .pageDrop c => Sys2Proof.Machine.execPageDrop c s
  | .prefixLookup c => Sys2Proof.Machine.execPrefixLookup c s
  | .prefixPublish c => Sys2Proof.Machine.execPrefixPublish c s
  | .prefixRelease c => Sys2Proof.Machine.execPrefixRelease c s
  | .windowOpen c => Sys2Proof.Machine.execWindowOpen c s
  | .windowAdvance c => Sys2Proof.Machine.execWindowAdvance c s
  | .windowClose c => Sys2Proof.Machine.execWindowClose c s
  | .windowSlotFill stream => Sys2Proof.Machine.execWindowSlotFill stream s
  | .t3Attach c => Sys2Proof.Machine.execT3Attach c s
  | .tierQuery c => Sys2Proof.Machine.execTierQuery c s
  | .modelDefine c => Sys2Proof.Machine.execModelDefine c s
  | .loanAskArrival m => Sys2Proof.Machine.execLoanAskArrival m s
  | .loanGrantArrival m => Sys2Proof.Machine.execLoanGrantArrival m s
  | .loanOfferArrival m => Sys2Proof.Machine.execLoanOfferArrival m s
  | .loanDeclineArrival m => Sys2Proof.Machine.execLoanDeclineArrival m s
  | .recall m => Sys2Proof.Machine.execRecall m s
  | .recallEmpty lender id => Sys2Proof.Machine.execRecallEmpty lender id s
  | .returnGrant m => Sys2Proof.Machine.execReturnGrant m s
  | .recallDeadlineExpiry id => Sys2Proof.Machine.execRecallDeadlineExpiry id s
  | .revoked m => Sys2Proof.Machine.execRevoked m s
  | .gemm c => Sys2Proof.Machine.execGemm c s
  | .gemv c => Sys2Proof.Machine.execGemv c s
  | .gatherRows c => Sys2Proof.Machine.execGatherRows c s
  | .vector c => Sys2Proof.Machine.execVector c s
  | .tensorAlloc c => Sys2Proof.Machine.execTensorAlloc c s
  | .tensorFree c => Sys2Proof.Machine.execTensorFree c s
  | .ladleEntryStart l => Sys2Proof.Machine.execLadleEntryStart l s
  | .ladleEntryComplete l => Sys2Proof.Machine.execLadleEntryComplete l s
  | .ladlePreempt l => Sys2Proof.Machine.execLadlePreempt l s
  | .ladleSaveComplete l => Sys2Proof.Machine.execLadleSaveComplete l s
  | .ladleRestoreComplete l => Sys2Proof.Machine.execLadleRestoreComplete l s
  | .attendDecode c => Sys2Proof.Machine.execAttendDecode c s
  | .attendPrefill c => Sys2Proof.Machine.execAttendPrefill c s
  | .softmaxCombine c => Sys2Proof.Machine.execSoftmaxCombine c s
  | .attendBwd c => Sys2Proof.Machine.execAttendBwd c s
  | .adapterLoad c => Sys2Proof.Machine.execAdapterLoad c s
  | .adapterRoomAvailable tenant adapter version => Sys2Proof.Machine.execAdapterRoomAvailable tenant adapter version s
  | .adapterLoadComplete tenant adapter version => Sys2Proof.Machine.execAdapterLoadComplete tenant adapter version s
  | .adapterRetire c => Sys2Proof.Machine.execAdapterRetire c s
  | .adapterVersionFree tenant adapter version => Sys2Proof.Machine.execAdapterVersionFree tenant adapter version s
  | .adapterQuery c => Sys2Proof.Machine.execAdapterQuery c s
  | .expertApply c => Sys2Proof.Machine.execExpertApply c s
  | .sample c => Sys2Proof.Machine.execSample c s
  | .draftReset c => Sys2Proof.Machine.execDraftReset c s
  | .constraintLoad c => Sys2Proof.Machine.execConstraintLoad c s
  | .constraintRetire c => Sys2Proof.Machine.execConstraintRetire c s
  | .camBankSetup c => Sys2Proof.Machine.execCamBankSetup c s
  | .camWrite c => Sys2Proof.Machine.execCamWrite c s
  | .camInvalidate c => Sys2Proof.Machine.execCamInvalidate c s
  | .camSearch c => Sys2Proof.Machine.execCamSearch c s
  | .camNext c => Sys2Proof.Machine.execCamNext c s
  | .camCursorFree c => Sys2Proof.Machine.execCamCursorFree c s
  | .camRead c => Sys2Proof.Machine.execCamRead c s
  | .indexCreate c => Sys2Proof.Machine.execIndexCreate c s
  | .indexLoadPart c => Sys2Proof.Machine.execIndexLoadPart c s
  | .indexCommit c => Sys2Proof.Machine.execIndexCommit c s
  | .indexRetire c => Sys2Proof.Machine.execIndexRetire c s
  | .indexVersionFree tenant index version => Sys2Proof.Machine.execIndexVersionFree tenant index version s
  | .vectorSearch c => Sys2Proof.Machine.execVectorSearch c s
  | .vectorDelete c => Sys2Proof.Machine.execVectorDelete c s
  | .indexQuery c => Sys2Proof.Machine.execIndexQuery c s
  | .pressStreamOpen c => Sys2Proof.Machine.execPressStreamOpen c s
  | .pressStreamClose c => Sys2Proof.Machine.execPressStreamClose c s
  | .pressEncode c => Sys2Proof.Machine.execPressEncode c s
  | .pressDecode c => Sys2Proof.Machine.execPressDecode c s
  | .pressTableInstall c => Sys2Proof.Machine.execPressTableInstall c s
  | .pressInstallCommit tenant stream => Sys2Proof.Machine.execPressInstallCommit tenant stream s
  | .pressInstallWait tenant stream => Sys2Proof.Machine.execPressInstallWait tenant stream s
  | .pressTableRead c => Sys2Proof.Machine.execPressTableRead c s
  | .epOpen c => Sys2Proof.Machine.execEpOpen c s
  | .epClose c => Sys2Proof.Machine.execEpClose c s
  | .endpointQuarantineEnd region index => Sys2Proof.Machine.execEndpointQuarantineEnd region index s
  | .send c => Sys2Proof.Machine.execSend c s
  | .counterTrigger tenant counter => Sys2Proof.Machine.execCounterTrigger tenant counter s
  | .recv c => Sys2Proof.Machine.execRecv c s
  | .flush c => Sys2Proof.Machine.execFlush c s
  | .mkeyCreate c => Sys2Proof.Machine.execMkeyCreate c s
  | .mkeyDestroy c => Sys2Proof.Machine.execMkeyDestroy c s
  | .ctrSet c => Sys2Proof.Machine.execCtrSet c s
  | .xportCtxAttach c => Sys2Proof.Machine.execXportCtxAttach c s
  | .contextFetchComplete ep => Sys2Proof.Machine.execContextFetchComplete ep s
  | .keyDerived peer epoch => Sys2Proof.Machine.execKeyDerived peer epoch s
  | .frameReceive port sub f => Sys2Proof.Machine.execFrameReceive port sub f s
  | .data p => Sys2Proof.Machine.execData p s
  | .ackCoalesceTimer src srcEp srcGen serial => Sys2Proof.Machine.execAckCoalesceTimer src srcEp srcGen serial s
  | .ack p => Sys2Proof.Machine.execAck p s
  | .notReady p => Sys2Proof.Machine.execNotReady p s
  | .notReadyRetry send packet => Sys2Proof.Machine.execNotReadyRetry send packet s
  | .notReadyTimeout send packet => Sys2Proof.Machine.execNotReadyTimeout send packet s
  | .refuse p => Sys2Proof.Machine.execRefuse p s
  | .abort p => Sys2Proof.Machine.execAbort p s
  | .retransmitTimer send packet => Sys2Proof.Machine.execRetransmitTimer send packet s
  | .deliveryTimeout send packet => Sys2Proof.Machine.execDeliveryTimeout send packet s
  | .completionTableExpiry src srcEp srcGen serial => Sys2Proof.Machine.execCompletionTableExpiry src srcEp srcGen serial s
  | .trayLoad c => Sys2Proof.Machine.execTrayLoad c s
  | .trayStore c => Sys2Proof.Machine.execTrayStore c s
  | .trayAtomic c => Sys2Proof.Machine.execTrayAtomic c s
  | .trayReduce c => Sys2Proof.Machine.execTrayReduce c s
  | .trayMcastStore c => Sys2Proof.Machine.execTrayMcastStore c s
  | .trayAlloc c => Sys2Proof.Machine.execTrayAlloc c s
  | .trayGroupSet c => Sys2Proof.Machine.execTrayGroupSet c s
  | .trayRequest p => Sys2Proof.Machine.execTrayRequest p s
  | .trayLineOperation line => Sys2Proof.Machine.execTrayLineOperation line s
  | .combiningWriteback line => Sys2Proof.Machine.execCombiningWriteback line s
  | .trayReply p => Sys2Proof.Machine.execTrayReply p s
  | .trayRetransmitTimer home opId => Sys2Proof.Machine.execTrayRetransmitTimer home opId s
  | .trayTargetLost home opId => Sys2Proof.Machine.execTrayTargetLost home opId s
  | .replyExpiry src opId => Sys2Proof.Machine.execReplyExpiry src opId s
  | .announcementSend port sub => Sys2Proof.Machine.execAnnouncementSend port sub s
  | .announcement port sub a => Sys2Proof.Machine.execAnnouncement port sub a s
  | .assign serial id pfx => Sys2Proof.Machine.execAssign serial id pfx s
  | .routeUpdate slotTable first entries => Sys2Proof.Machine.execRouteUpdate slotTable first entries s
  | .membership epoch members => Sys2Proof.Machine.execMembership epoch members s
  | .fragmentDiscard subtype => Sys2Proof.Machine.execFragmentDiscard subtype s
  | .heartbeat => Sys2Proof.Machine.execHeartbeat s
  | .ptpMessage p => Sys2Proof.Machine.execPtpMessage p s
  | .lockLossTimeout => Sys2Proof.Machine.execLockLossTimeout s
  | .pfcFrame port sub classes => Sys2Proof.Machine.execPfcFrame port sub classes s
  | .neighbourSolicitation port sub addr => Sys2Proof.Machine.execNeighbourSolicitation port sub addr s
  | .linkTrained port sub => Sys2Proof.Machine.execLinkTrained port sub s
  | .linkTrainingRetry port sub badLanes => Sys2Proof.Machine.execLinkTrainingRetry port sub badLanes s
  | .linkFailure port sub => Sys2Proof.Machine.execLinkFailure port sub s
  | .portControl c => Sys2Proof.Machine.execPortControl c s
  | .frameTransmitSelect port sub => Sys2Proof.Machine.execFrameTransmitSelect port sub s
  | .gateEntryChange port => Sys2Proof.Machine.execGateEntryChange port s
  | .domainSecretActivation => Sys2Proof.Machine.execDomainSecretActivation s
  | .inject c => Sys2Proof.Machine.execInject c s
  | .shadowControl c => Sys2Proof.Machine.execShadowControl c s
  | .mirroredCommand seq c inputs given digest => Sys2Proof.Machine.execMirroredCommand seq c inputs given digest s
  | .getIdentity p tag => Sys2Proof.Machine.execGetIdentity p tag s
  | .attest p tag nonce => Sys2Proof.Machine.execAttest p tag nonce s
  | .provision p tag nonce keyBlock rsa slh => Sys2Proof.Machine.execProvision p tag nonce keyBlock rsa slh s
  | .advance p tag nonce target rsa slh => Sys2Proof.Machine.execAdvance p tag nonce target rsa slh s
  | .setDomain p tag serial activate kem oaep sealedSecret rsa slh => Sys2Proof.Machine.execSetDomain p tag serial activate kem oaep sealedSecret rsa slh s
  | .sessionOpen p tag nonce rsa slh => Sys2Proof.Machine.execSessionOpen p tag nonce rsa slh s
  | .sessionClose p tag => Sys2Proof.Machine.execSessionClose p tag s
  | .sessionTimeout => Sys2Proof.Machine.execSessionTimeout s
  | .memRead p tag stack tenant off len => Sys2Proof.Machine.execMemRead p tag stack tenant off len s
  | .functionLevelReset fn => Sys2Proof.Machine.execFunctionLevelReset fn s
  | .windowSlotFilled stream layer => Sys2Proof.Machine.execWindowSlotFilled stream layer s
  | .waitReleaseReport c => Sys2Proof.Machine.execWaitReleaseReport c s
  | .systemEndpointRetry => Sys2Proof.Machine.execSystemEndpointRetry s
  | .attestSignatureComplete => Sys2Proof.Machine.execAttestSignatureComplete s

end Sys2Proof.Machine
end

