-- ==== Sys2Proof/Machine/Tick.lean ====
section
/-!
DEFINITION. What a nanosecond without a command does: the clocks advance, and what counts time counts it (00_scope.md R5; 02 R31; 05 R140; 16 R476;
18 R532; 20 R564, R565).
-/
namespace Sys2Proof.Machine

/-! ### Programmable counters (20 R564, R565) -/

/-- Cycles of an island that end in the nanosecond after `t` ns. -/
def cyclesIn (i t : Nat) : Nat := (t + 1) * islandMhz i / 1000 - t * islandMhz i / 1000

/-- Is the handle's tenant the one that the filter names? -/
def filtered (filter : Option Nat) (tenant : Nat) : Bool := filter.all (· = tenant)

/-- The condition of Table 20.4, for one tenant where the filter is set. Those that hang on timing inside the island are free values within their
ranges; a signal that carries no tenant presents 0 under a filter. DESIGN CHOICE, log entry 13. -/
def conditionOf (s : State) (island signal : Nat) (filter : Option Nat) : Nat :=
  let ladles := (List.range 8).map fun k => ladleOf s (8 * island + k)
  let timed := fun (most : Nat) => if filter.isSome then 0 else min most (Config.condition island signal s.time)
  let die := fun (e : (Nat × Nat) × List Nat) => decide (36 + e.1.1 / 4 = island)
  if island < 20 then
    match signal with
    | 0x100 => min 255 ((ladles.map fun x => (x.queue.filter fun e => filtered filter (laneTenant e.lane)).length).sum / 32)
    | 0x101 => timed 10
    | 0x102 => (ladles.filter fun x => x.st = .running && x.running.any fun e => filtered filter (laneTenant e.lane)).length
    | 0x103 => timed 16
    | _ => 0
  else match island, signal with
    | 20, 0x110 => timed 255
    | 21, 0x120 =>
      let owned := s.req.owned.filter fun e => e.2.record.phase = 3 && filtered filter (handleTenant e.1)
      let headed := s.req.recovering.filter fun e => filtered filter (handleTenant e.1)
      min 255 ((owned.length + headed.length) / 64)
    | 25, 0x130 => if filter.isSome then 0 else min 255 (s.xport.miss.length / 16)
    | 26, 0x140 =>
      let mine := s.tray.work.filter fun w => filter.isNone || (tget s.xport.regions w.region).any fun r => filtered filter r.tenant
      min 255 (((mine.map (·.nextLine)).eraseDups.map fun l => (mine.filter fun w => w.nextLine = l).length).foldl max 0)
    | 27, 0x150 => timed 8
    | i, 0x160 => if 36 ≤ i && filter.isNone then min 8 ((s.fab.paused.filter die).flatMap (·.2)).eraseDups.length else 0
    | _, _ => 0

/-- One counter over `n` cycles in which its signal presents `v`. -/
def Pctr.run (p : Pctr) (n v : Nat) : Pctr :=
  if !p.enable || n = 0 then p
  else if p.edge then
    let at' := max 1 p.threshold
    { p with count := if at' ≤ v && p.last < at' then wrapAdd 48 p.count 1 else p.count, last := v }
  else if p.threshold ≤ v then { p with count := wrapAdd 48 p.count n, last := v }
  else { p with last := v }

/-- A counter's nanosecond: an event signal presents 0 except in the cycles of its events, which `countEvent` counts. -/
def pctrNs (s : State) (island : Nat) (p : Pctr) : Pctr :=
  let n := cyclesIn island s.mono
  if p.signal < 0x100 then (if p.edge || 0 < p.threshold then p else p.run n 0)
  else p.run n (conditionOf s island p.signal (if p.filter then some p.tenant else none))

def pctrsNs (s : State) : State :=
  { s with tele := { s.tele with pctrs := s.tele.pctrs.map fun e => (e.1, pctrNs s e.1.1 e.2) } }

/-! ### Top-down counters of the Ladles (20 R567) -/

/-- Is a Ladle ON: it and its base die? -/
def ladleOn (s : State) (l : Nat) : Bool := (fnState s (.ladle l)).st = .on && (fnState s (.island (l / 8))).st = .on

/-- What issue slot `k` of a Ladle does in a cycle (07 Table 7.6): 0 it issues an operation, 1 front-starved, 2 back-starved. While a command is saved or
restored, slots 2 and 3 are back-starved and slots 0 and 1 front-starved (Note 1). -/
def slotClass (s : State) (l : Nat) (x : Ladle) (cycle k : Nat) : Nat :=
  match x.st, x.running with
  | .running, some e => if k = 0 && (partOf s e).1 = 5 && (Config.slotUse cycle l k).val = 0 then 1 else (Config.slotUse cycle l k).val
  | .saving, _ => if 2 ≤ k then 2 else 1
  | .restoring, _ => if 2 ≤ k then 2 else 1
  | _, _ => 1

/-- One issue slot's cycle: it is counted, and one that issued is held in PEND. -/
def slotCycle (s : State) (l : Nat) (x : Ladle) (cycle : Nat) (t : Tele) (k : Nat) : Tele :=
  match slotClass s l x cycle k, x.running with
  | 0, some e => { t with pend := tupd t.pend (l, e.slot, k) 0 (· + 1) }
  | 2, _ => t.addTop l (12 + k) 1
  | _, _ => t.addTop l (8 + k) 1

/-- A Ladle's cycles of the nanosecond. -/
def ladleNs (s : State) (t : Tele) (l : Nat) : Tele :=
  if ladleOn s l then
    (List.range (cyclesIn (l / 8) s.mono)).foldl (fun t c => (List.range 4).foldl (slotCycle s l (ladleOf s l) (s.mono * 4 + c)) (t.addTop l 25 1)) t
  else t

/-- Slot-cycles of commands that ended before they completed are wasted. -/
def Tele.sweep (t : Tele) (running : List Nat) : Tele :=
  (((t.pend.map (·.1.2.1)) ++ t.draftHeld.map (·.1.1)).eraseDups.filter fun id => !running.contains id).foldl (fun t id => t.endCommand id false) t

/-- The top-down counters of all Ladles. DESIGN CHOICE, log entry 138. -/
def topdownNs (s : State) : State :=
  { s with tele := (List.range 160).foldl (ladleNs s) (s.tele.sweep (s.comp.running.map (·.1))) }

/-! ### Productive time (18 R532) -/

/-- Is work held by a move of Table 18.6: a Ladle from its retirement on, a die-to-die lane, a bank or a Whisk during its move? -/
def moveHolds (s : State) : Bool :=
  s.rel.health.any fun e => e.2.state = .retiring && (e.1.1 = 1 || ((e.1.1 = 3 || e.1.1 = 4 || e.1.1 = 5) && e.2.moving))

/-- Is a link that was ON in STARTING? -/
def linkRetrains (s : State) : Bool := s.fab.everOn.any fun l => (fnState s (.link l.1 l.2)).st = .starting

/-- The counts of R532, from READY on; quarantine stops them. -/
def productiveNs (s : State) : State :=
  if isReady s && !s.rel.quarantined then
    let recovery := !(s.req.recovering = [])
    let island := !(s.rel.inReset = [])
    let spare := moveHolds s
    let link := linkRetrains s
    let r := s.rel
    { s with rel := { r with
      tReady := r.tReady + 1
      tRecovery := r.tRecovery + b2n recovery
      tIsland := r.tIsland + b2n island
      tSpare := r.tSpare + b2n spare
      tLink := r.tLink + b2n link
      tLost := r.tLost + b2n (recovery || island || spare || link) } }
  else s

/-- Does fabric time slew in this nanosecond: by 1 ns in each 10,000, which is 100 ppm (14 R422)? It slews within a microsecond, so that the slew neither skips nor
repeats a boundary of a period. DESIGN CHOICE, log entry 97. -/
def slewDue (s : State) : Bool := !(s.fab.offset = 0) && s.fab.slewAt + 10000 ≤ s.mono && 2 ≤ s.time % 1000 && s.time % 1000 < 997

/-- The two clocks: fabric time, and one that never steps (02 R31). -/
def clockNs (s : State) : State :=
  if slewDue s then
    let ahead := decide (0 < s.fab.offset)
    { s with time := if ahead then s.time else s.time + 2, mono := s.mono + 1
             fab := { s.fab with slewAt := s.mono, offset := if ahead then s.fab.offset - 1 else s.fab.offset + 1 } }
  else { s with time := s.time + 1, mono := s.mono + 1 }

/-- PPS_OUT (14 R424, 21 Table 21.7): it rises at a whole second of fabric time while the module holds lock or is grandmaster, and is high for 100 ms. -/
def ppsNs (s : State) : State :=
  let at' := s.time % 1000000000
  let high := running s && (if at' = 0 then s.fab.locked || s.fab.grandmaster else s.boot.ppsOut && at' < 100000000)
  { s with boot := { s.boot with ppsOut := high } }

/-- One nanosecond passes. DESIGN CHOICE, log entry 2. -/
def tick (s : State) : State :=
  let u := ppsNs (clockNs s)
  u.keepHost (beginDrained (trayClocks (productiveNs (topdownNs (pctrsNs u)))))

end Sys2Proof.Machine
end

