-- ==== Sys2Proof/Machine/Step.lean ====
section
/-!
DEFINITION. One step of the block: the command at the front of the queue takes effect. On an empty queue one nanosecond passes.
-/
namespace Sys2Proof.Machine

/-- One step: the front command's effect on the state with the rest of the queue; on an empty queue, the passage of 1 ns
(00_scope.md R5; DESIGN CHOICE, log entry 2). DESIGN CHOICE, log entry 2. -/
def step (s : State) : Host.Outcome State Fault Refusal :=
  match s.pending with
  | [] => .next (tick s)
  | i :: r => exec i { s with pending := r }

/-- The state with the command that a word spells put at the front of its queue. DESIGN CHOICE, log entry 1. -/
def State.withFetchWord (s : State) (nbits w : Nat) : State :=
  match decodeTableWord nbits w with
  | none => s
  | some i => { s with pending := i :: s.pending }

end Sys2Proof.Machine
end

