-- ==== Sys2Proof/Machine/Registers.lean ====
section
/-!
DEFINITION. What the registers read, and which block of a function's BAR an access reaches (00_scope.md R4, R5; 03_configuration_image_and_startup.md R70,
Table 3.11; 04_host_queues.md R83–R85, Tables 4.2–4.4, 4.10; 07 Table 7.2; 11 Table 11.2; 14 Table 14.7; 17 Table 17.2; 18 Table 18.11; 19 Table 19.8; 20
Table 20.7, R574, R575; 21 Table 21.9). The reads that latch have rows of their own, whose answers stand in `host.readData`. Reserved bits and write-only
registers read zero (R4, R5).
-/
namespace Sys2Proof.Machine

/-- A function's own block (Table 4.3; 20 R575). The write-only HOST_FUNC_CTL, and every other offset, reads zero. -/
def funcRead (s : State) (fn off : Nat) : Nat :=
  let f := funcOf s fn
  let ctr := (tenantOfFn s fn).any (·.counterRead)
  match off with
  | 0x0000 => 2 ^ 16 + fn * 2 ^ 8
  | 0x0004 => match tenantOfFn s fn with
    | some r => r.tenant * 2 ^ 16 + 8 + (fnState s (.tenant r.tenant)).st.code
    | none => 0
  | 0x0010 => b2n s.host.link.flit * 2 ^ 16 + s.host.link.width * 2 ^ 8 + s.host.link.rate
  | 0x0014 => f.dropped
  | 0x0020 => f.maskLo
  | 0x0024 => f.maskHi
  | 0x0028 => b2n f.maskKettle * 2 + b2n f.maskFunc
  | 0x0100 => if ctr then f.ctrSel else 0
  | 0x0104 => if ctr then hostCtrItem s ((tenantOfFn s fn).elim 0 (·.tenant)) f.ctrSel % 2 ^ 32 else 0
  | 0x0108 => if ctr then f.ctrHi else 0
  | _ => 0

/-- A queue pair's page (Table 4.4). The write-only HOST_Q_CTL reads zero, and so does the page of a queue that the tenant does not have (R83, R85). -/
def queueRead (s : State) (fn q off : Nat) : Nat :=
  let p := queueOf s fn q
  if !pageExists s fn q then 0
  else match off with
  | 0x000 => p.sqTail
  | 0x004 => p.cqHead
  | 0x00C => p.sqHead * 2 ^ 16 + p.fn.st.code
  | 0x010 => p.sqBase % 2 ^ 32
  | 0x014 => p.sqBase / 2 ^ 32
  | 0x018 => p.cqBase % 2 ^ 32
  | 0x01C => p.cqBase / 2 ^ 32
  | 0x020 => p.cqLog * 2 ^ 8 + p.sqLog
  | 0x024 => p.code
  | _ => 0

/-- A function's Kettle block (Table 4.10); without a tenant it reads zero (R83). -/
def kettleRead (s : State) (fn off : Nat) : Nat :=
  let k := kettleOf s fn
  if !kettleExists s fn then 0
  else match off with
  | 0x000 => k.base % 2 ^ 32
  | 0x004 => k.base / 2 ^ 32
  | 0x008 => k.sizeLog
  | 0x010 => k.code * 2 ^ 16 + k.fn.st.code
  | 0x014 => k.tail
  | 0x018 => k.head
  | 0x01C => k.lost
  | 0x020 => k.poison
  | _ => 0

/-- A function's MSI-X table, and from offset 0x8000 on its pending-bit array (Table 4.2, R110). PRESUMED, log entry 130. -/
def msixRead (s : State) (fn off : Nat) : Nat :=
  let f := funcOf s fn
  let n := off / 16
  if 0x8000 ≤ off then ((List.range 32).map fun i => b2n (f.vecPending.contains ((off - 0x8000) * 8 + i)) * 2 ^ i).sum
  else if 66 ≤ n then 0
  else match off % 16 with
  | 0 => tgetD f.vecAddr n 0 % 2 ^ 32
  | 4 => tgetD f.vecAddr n 0 / 2 ^ 32
  | 8 => tgetD f.vecData n 0
  | _ => b2n (f.vecMasked.contains n)

/-- The SR-IOV capability and the BARs of the physical function (R83, R84): TotalVFs is 16. PRESUMED, log entry 130. -/
def sriovRead (s : State) (off : Nat) : Nat :=
  match off with
  | 0x0C => 16 * 2 ^ 16 + 16
  | 0x10 => s.host.numVFs
  | 0x24 => s.host.vfBar % 2 ^ 32
  | 0x28 => s.host.vfBar / 2 ^ 32
  | 0x110 => s.host.bar % 2 ^ 32
  | 0x114 => s.host.bar / 2 ^ 32
  | _ => 0

/-! ### The MGMT block -/

/-- MGMT_LDL_STATUS of a stack (07 Table 7.2). -/
def ladleStatusWord (s : State) (k : Nat) : Nat := ((List.range 8).map fun q => (fnState s (.ladle (8 * k + q))).st.code * 2 ^ (4 * q)).sum

/-- The code of MGMT_CAM_BANK.WIDTH (11 Table 11.2). -/
def widthField (w : Nat) : Nat := if w = 1 then 0 else if w = 2 then 1 else 2

/-- The tenant to which a bank is granted (03 Table 3.7). -/
def bankTenant (s : State) (n : Nat) : Option Nat := (s.image.tenants.find? fun r => bit r.camBanks n).map (·.tenant)

/-- MGMT_CAM_BANK of a logical bank (11 Table 11.2). -/
def bankWord (s : State) (n : Nat) : Nat :=
  let b := bankOf s n
  let absent := (fnState s (.bank n)).st = .absent
  match bankTenant s n with
  | none => if absent then 4 * 2 ^ 29 else 0
  | some t => (if absent then 4 else 2) * 2 ^ 29 + t * 2 ^ 24 + b.use * 2 ^ 22 + widthField b.width * 2 ^ 20 +
      (b.entries.filter fun e => !e.2.poison).length

/-- MGMT_PORT of a port (14 Table 14.7). -/
def portWord (s : State) (p : Nat) : Nat :=
  ((s.image.ports.find? (·.port = p)).elim 0 (·.breakout)) * 2 ^ 18 + ((List.range 4).map fun k => (fnState s (.link p k)).st.code * 2 ^ (4 * k)).sum

/-- MGMT_LANES of a port die (14 Table 14.7). -/
def lanesWord (s : State) (d : Nat) : Nat := tgetD s.fab.spareLane (d, 17) 255 * 2 ^ 8 + tgetD s.fab.spareLane (d, 16) 255

/-- MGMT_FABRIC_ID (14 Table 14.7). -/
def fabricIdWord (s : State) : Nat :=
  b2n s.fab.id.isSome * 2 ^ 31 + b2n s.fab.locked * 2 ^ 30 + b2n s.fab.grandmaster * 2 ^ 29 + selfId s

/-- MGMT_HEALTH_VAL (18 Table 18.11, R534). -/
def healthWord (s : State) (part i : Nat) : Nat :=
  if partExists s part i then (healthOf s part i).state.code * 2 ^ 29 + (healthOf s part i).score else 0

/-- How many of some spares are free. -/
def freeCount (s : State) (part : Nat) (l : List Nat) : Nat := (l.filter (spareFree s part)).length

/-- MGMT_SPARES (18 Table 18.11). -/
def sparesWord (s : State) : Nat :=
  freeCount s 0 ((List.range 20).map fun k => k * 17 + s.order.dies) * 2 ^ 24 + freeCount s 1 ((List.range 20).map fun k => k * 9 + 8) * 2 ^ 16 +
    freeCount s 5 [16, 17] * 2 ^ 12 + freeCount s 4 [32, 33] * 2 ^ 8 +
    freeCount s 2 ((List.range s.order.portDies).flatMap fun d => [d * 18 + 16, d * 18 + 17])

/-- MGMT_REL_STATUS (18 Table 18.11). -/
def relWord (s : State) : Nat :=
  b2n s.rel.quarantined * 2 ^ 31 + b2n s.rel.shadowOf.isSome * 2 ^ 30 + b2n s.rel.admitted * 2 ^ 29 + b2n s.rel.primaryTo.isSome * 2 ^ 28 +
    s.rel.clean % 2 ^ 28

/-- MGMT_SEC_STATUS (19 Table 19.8). -/
def securityWord (s : State) : Nat :=
  let epoch := epochOf s.time
  let trip := match s.sec.lastTrip with
    | some (sensor, response) => 2 ^ 20 + sensor * 2 ^ 17 + response * 2 ^ 15
    | none => 0
  s.sec.lifecycle * 2 ^ 30 + b2n (s.sec.domain.any fun d => epoch < d.activate) * 2 ^ 23 + b2n (secretFor s epoch).isSome * 2 ^ 22 +
    b2n s.sec.session.isSome * 2 ^ 21 + trip + s.fuses.tamperCount

/-- MGMT_PCTR_CFG of the selected counter (20 Table 20.7 Note 1). -/
def pctrWord (s : State) (r : PathRegs) : Nat :=
  let c := tgetD s.tele.pctrs (r.pctrIsland, r.pctrIndex) .reset
  b2n c.enable * 2 ^ 31 + b2n c.edge * 2 ^ 30 + b2n c.filter * 2 ^ 29 + c.tenant * 2 ^ 25 + c.signal * 2 ^ 16 + c.threshold * 2 ^ 8

/-- MGMT_JOBS of a tenant (20 Table 20.7; 04 R103). -/
def jobsWord (s : State) (t : Nat) : Nat := tgetD s.host.jobHigh t 0 * 2 ^ 16 + (jobIds s t).length

/-- MGMT_RAIL_V of the selected rail (21 Table 21.9). -/
def railWord (s : State) (r : Nat) : Nat :=
  match railReadings s r with
  | x :: _ => if r ≤ 9 then b2n (railValid s r) * 2 ^ 31 + x.mv % 2 ^ 16 else 0
  | [] => 0

/-- A register of one of the arrays of the MGMT block: `none` where the offset lies in none of them. -/
def mgmtArray (s : State) (off : Nat) : Option Nat :=
  if 0x0100 ≤ off && off < 0x0150 then some (ladleStatusWord s ((off - 0x0100) / 4))
  else if 0x0200 ≤ off && off < 0x0280 then some (bankWord s ((off - 0x0200) / 4))
  else if 0x0300 ≤ off && off < 0x0340 then some (portWord s ((off - 0x0300) / 4))
  else if 0x0340 ≤ off && off < 0x0350 then some (lanesWord s ((off - 0x0340) / 4))
  else if 0x0740 ≤ off && off < 0x0780 then some (jobsWord s ((off - 0x0740) / 4))
  else none

/-- A register of the MGMT block by one path. -/
def mgmtRead (s : State) (p : Path) (off : Nat) : Nat :=
  let r := pathRegs s p
  match mgmtArray s off with
  | some x => x
  | none => match off with
    | 0x0000 => s.boot.state.code * 2 ^ 28 + s.boot.step * 2 ^ 24 + s.boot.reason
    | 0x0004 => s.boot.detail
    | 0x0010 => r.knob * 2 ^ 16 + r.knobIndex
    | 0x0014 => (knobValue s r.knob r.knobIndex).getD 0
    | 0x0018 => r.knobResult
    | 0x0380 => fabricIdWord s
    | 0x0384 => s.fab.epoch % 2 ^ 32
    | 0x0388 => s.fab.epoch / 2 ^ 32
    | 0x0400 => s.gov.state * 2 ^ 29 + s.gov.duty * 2 ^ 16 + s.gov.current / 1000
    | 0x0404 => s.gov.averageW * 2 ^ 16 + limitW s
    | 0x0408 => s.gov.ceiling / 1000
    | 0x040C => s.gov.ballast
    | 0x0500 => r.healthPart * 2 ^ 24 + r.healthIndex
    | 0x0504 => healthWord s r.healthPart r.healthIndex
    | 0x0508 => sparesWord s
    | 0x0510 => r.timeSel
    | 0x0514 => timeCount s r.timeSel % 2 ^ 32
    | 0x0518 => s.mgmt.timeHi
    | 0x0520 => relWord s
    | 0x0600 => securityWord s
    | 0x0700 => r.ctrIsland * 2 ^ 24 + r.ctrItem
    | 0x0704 => ctrItem s r.ctrIsland r.ctrItem % 2 ^ 32
    | 0x0708 => s.mgmt.ctrHi
    | 0x0710 => r.pctrIsland * 2 ^ 24 + r.pctrIndex
    | 0x0714 => pctrWord s r
    | 0x0720 => s.tele.dumpTail
    | 0x0724 => s.tele.dumpHead
    | 0x0728 => s.tele.dumpSkipped
    | 0x0800 => s.gov.tjSensor * 2 ^ 16 + unsignedOf 16 s.gov.tj
    | 0x0804 => r.railSel
    | 0x0808 => railWord s r.railSel
    | 0x080C => s.mgmt.railI
    | _ => 0

/-- What a 32-bit register reads. Before READY the physical function exposes the MGMT block alone (03 R68), and a block that cannot be reached reads zero. -/
def registerRead (s : State) (x : RegSpace) (off : Nat) : Nat :=
  match x with
  | .mgmt p => if mgmtReachable s p then mgmtRead s p off else 0
  | .sriov => sriovRead s off
  | .msix fn => if s.host.link.up then msixRead s fn off else 0
  | .func fn => if isReady s && s.host.link.up then funcRead s fn off else 0
  | .queue fn q => if isReady s && s.host.link.up then queueRead s fn q off else 0
  | .kettle fn => if isReady s && s.host.link.up then kettleRead s fn off else 0

/-! ### The BAR (R84, R85, Table 4.2) -/

/-- The block that an offset of a function's BAR reaches, and the offset in it. Virtual functions reach no MGMT block. -/
def barSpace (fn off : Nat) : Option (RegSpace × Nat) :=
  if off < 0x1000 then some (.func fn, off)
  else if 0x10000 ≤ off && off < 0x50000 then some (.queue fn ((off - 0x10000) / 0x1000), off % 0x1000)
  else if 0x50000 ≤ off && off < 0x51000 then some (.kettle fn, off - 0x50000)
  else if 0x60000 ≤ off && off < 0x70000 then (if fn = 0 then some (.mgmt .phys, off - 0x60000) else none)
  else if 0x70000 ≤ off && off < 0x70800 then some (.msix fn, off - 0x70000)
  else if 0x78000 ≤ off && off < 0x78010 then some (.msix fn, off - 0x70000)
  else none

/-- An access of `width` bytes to a function's BAR reads a register only where it is 32 bits wide and aligned (R85). The MSI-X structures are no registers of
R85; this model reads them in the same way. PRESUMED, log entry 130. -/
def barRead (s : State) (fn off width : Nat) : Nat :=
  if !(width = 4) || !(off % 4 = 0) then 0
  else match barSpace fn off with
    | some x => registerRead s x.1 x.2
    | none => 0

/-- The row of the block that a write to a control register is: DISABLE wins over ENABLE (Tables 4.3, 4.4, 4.10). -/
def controlWrite (v : Nat) (enable disable : Instr) : Option Instr := if bit v 1 then some disable else if bit v 0 then some enable else none

/-- The command that a 32-bit write to a register is; a tail doorbell comes with no entries placed. -/
def writeCommand (x : RegSpace) (off v : Nat) : Option Instr :=
  match x with
  | .func fn => match off with
    | 0x0008 => controlWrite v (.tenantEnable fn) (.tenantDisable fn)
    | 0x0020 => some (.irqMaskWrite fn .lo v)
    | 0x0024 => some (.irqMaskWrite fn .hi v)
    | 0x0028 => some (.irqMaskWrite fn .evt v)
    | _ => some (.registerWrite x off v)
  | .queue fn q => match off with
    | 0x000 => some (.sqTailDoorbell fn q v [] [])
    | 0x004 => some (.cqHeadDoorbell fn q v)
    | 0x008 => controlWrite v (.queueEnable fn q) (.queueDisable fn q)
    | _ => some (.queueConfigWrite fn q off v)
  | .kettle fn => match off with
    | 0x00C => controlWrite v (.kettleEnable fn) (.kettleDisable fn)
    | 0x018 => some (.kettleHeadWrite fn v)
    | _ => some (.kettleConfigWrite fn off v)
  | .msix fn => if off % 16 = 12 && off / 16 < 66 then some (.irqMaskWrite fn (.msix (off / 16)) v) else some (.registerWrite x off v)
  | .sriov => some (.registerWrite x off v)
  | .mgmt p => match off with
    | 0x0014 => some (.knobWrite p v)
    | 0x0714 => some (.pctrCfgWrite p v)
    | 0x0724 => some (.dumpHeadWrite p v)
    | _ => some (.registerWrite x off v)

/-- The command that a write of `width` bytes to a function's BAR is: none where it is not 32 bits wide and aligned, or reaches no block (R85, Table 4.2). -/
def barWrite (fn off width v : Nat) : Option Instr :=
  if !(width = 4) || !(off % 4 = 0) then none
  else (barSpace fn off).bind fun x => writeCommand x.1 x.2 v

end Sys2Proof.Machine
end

