-- ==== Sys2Proof/Safety.lean ====
section
/-!
DEFINITION. The terms in which claims about runs of the block are made: a step that answers a next state, the rows that may change what every other
row leaves alone, and a host command that starts.
-/
namespace Sys2Proof
open Machine

/-- The step answers a next state: neither a fault nor a refusal. -/
def Goes (o : Host.Outcome State Fault Refusal) : Prop := ∃ t, o = .next t

/-- `t` is reached from `s` in `n` steps. -/
def Reaches : Nat → State → State → Prop
  | 0, s, t => s = t
  | n + 1, s, t => ∃ u, step s = .next u ∧ Reaches n u t

/-- The two byte memories that State lists, host memory and the NVM, are in canonical form. -/
def MemoriesWf (s : State) : Prop := s.hostMem.wf = true ∧ s.nvm.wf = true

/-- A safe run: whatever is reached steps on, with its memories in canonical form. -/
def SafeFrom (s : State) : Prop := ∀ n t, Reaches n s t → Goes (step t) ∧ MemoriesWf t

/-! ### Which rows may change what -/

/-- Rows that may write host memory: outputs of commands, completions, Kettle words, hardware dumps, and what the host itself has placed when it
rings a doorbell. -/
def writesHost : Instr → Bool
  | .ppsInPulse _ => true
  | .dumpBoundary => true
  | .shutdownComplete _ => true
  | .sqTailDoorbell _ _ _ _ _ => true
  | .completionPost _ _ => true
  | .kettleWordWrite _ _ => true
  | .forwardedCommandArrival _ _ _ => true
  | .forwardedCompletionArrival _ _ _ _ _ => true
  | .ledgerAnswer _ => true
  | .gemm _ => true
  | .gemv _ => true
  | .gatherRows _ => true
  | .vector _ => true
  | .attendDecode _ => true
  | .attendPrefill _ => true
  | .softmaxCombine _ => true
  | .attendBwd _ => true
  | .expertApply _ => true
  | .sample _ => true
  | .camRead _ => true
  | .vectorSearch _ => true
  | .pressEncode _ => true
  | .pressDecode _ => true
  | .pressTableRead _ => true
  | .data _ => true
  | .trayReply _ => true
  | .trayTargetLost _ _ => true
  | .membership _ _ => true
  | .ptpMessage _ => true
  | .frameTransmitSelect _ _ => true
  | _ => false

/-- Rows that may blow fuses (03 R63; 18 R521; 19 R537, R538, Table 19.7). -/
def blowsFuses : Instr → Bool
  | .moduleStart _ => true
  | .enterReady => true
  | .healthSubwindow _ => true
  | .camRowCheck _ => true
  | .detection _ => true
  | .spareMoveComplete _ _ _ => true
  | .linkTrainingRetry _ _ _ => true
  | .provision _ _ _ _ _ _ => true
  | .advance _ _ _ _ _ _ => true
  | _ => false

/-- Rows at which fabric time may step (14 R421, R422, R424). -/
def stepsTime : Instr → Bool
  | .moduleStart _ => true
  | .ppsInPulse _ => true
  | .ptpMessage _ => true
  | _ => false

/-- Rows that may end in a module reset (03 R75; 17 R508; 19 R537). -/
def resetsAll : Instr → Bool
  | .stopRampEnd => true
  | .detection _ => true
  | .advance _ _ _ _ _ _ => true
  | _ => false

/-- What one command can do to the parts of the state that only some rows may change. -/
inductive Change (i : Instr) (s : State) : State → Prop
  | quiet (u : State) : Change i s (s.keepHost u)
  | ordinary (u : State) : writesHost i = true → Change i s (s.keep u)
  | clocked (u : State) : stepsTime i = true → writesHost i = true → Change i s { s.keep u with time := u.time }
  | fusing (u : State) : blowsFuses i = true → Change i s { s.keepHost u with fuses := s.fuses.blow u.fuses }
  | afterReset (u : State) : resetsAll i = true → Change i s (s.afterReset u)
  | start (b : BoardStart) (u : State) : i = .moduleStart b →
      Change i s { u with pending := s.pending, hostMem := s.hostMem, order := s.order, mono := s.mono, fuses := s.fuses.blow u.fuses
                          nvm := b.nvm.elim s.nvm (Memory.place []) }

/-! ### Host commands -/

/-- The command of OPCODE `op` starts in slot `id` of `s1`: it is the first of its queue that has not started, nothing holds it back, and the
checks of the accepting module pass (02 R36, R38; 04 R92, R599). `s1` is `s`, with a slot taken where the command had none. -/
def Starts (op : Nat) (c : Cmd) (s : State) (id : Nat) (s1 : State) : Prop :=
  opcodeOf c = op ∧ claim s c = some (id, s1) ∧ hostChecks s1 c = none

/-- The state in which the command's own rule begins: its members noted (04 R107) and, on a primary, the command mirrored (18 R530). -/
def begun (s1 : State) (id : Nat) (c : Cmd) : State := mirrorStart (noteMembers s1 id c) id c

/-- The state in which a command that may be forwarded runs here, once it is known that its members are owned here (01 R11). -/
def here (s1 : State) (id : Nat) (c : Cmd) : State :=
  noteStart (noteArrival (keepGone (begun s1 id c) id) id) id

/-- The command starts, and runs on this module. -/
def StartsHere (op : Nat) (c : Cmd) (s : State) (id : Nat) (s1 : State) : Prop :=
  Starts op c s id s1 ∧ routeOf (begun s1 id c) id c = .here

/-- The command starts, names one request and no batch, and runs on this module. -/
def OneHere (op : Nat) (c : Cmd) (s : State) (id : Nat) (s1 : State) : Prop := StartsHere op c s id s1 ∧ isBatch c = false

/-! ### Outputs of commands -/

/-- What is written where `r` points can be read back: host memory is in canonical form, and so are the cells of a tensor whose unwritten bytes are
zeros. -/
def Writable (s : State) (t : Nat) (r : Ref) : Prop :=
  s.hostMem.wf = true ∧ ∀ id off x, r = .tensor id off → tget s.tier.tensors (t, id) = some x → x.blob.fill.isSome = true ∨ Memory.wf x.blob.cells = true

/-- From `s` to `w` the bytes `bs`, each with its poison, have been written where `r` points, and no other byte of a tensor or of host memory has
changed (07 R237, R246). While the host link is down a write to host memory is not placed (02 R41, 04 R82). -/
def Wrote (s w : State) (t : Nat) (r : Ref) (bs : List (Byte × Bool)) : Prop :=
  match r with
  | .tensor id off => ∃ x y : Tensor, tget s.tier.tensors (t, id) = some x ∧ tget w.tier.tensors (t, id) = some y ∧ y.bytes = x.bytes ∧
      y.blob.bad = badAfter x.blob.bad off bs ∧
      (∀ a, blobByte y.blob a = if off ≤ a ∧ a < off + bs.length then (bs.getD (a - off) (0, false)).1 else blobByte x.blob a) ∧
      (∀ k, k ≠ (t, id) → tget w.tier.tensors k = tget s.tier.tensors k) ∧ w.hostMem = s.hostMem
  | .host at' => w.tier.tensors = s.tier.tensors ∧ ∀ a, w.hostMem.read a =
      if s.host.link.up = true ∧ at' ≤ a ∧ a < at' + bs.length then (bs.getD (a - at') (0, false)).1 else s.hostMem.read a
  | _ => False

/-- No read of these objects fails (06 R174, R194). -/
def Readable (s : State) (dirs : List Nat) : Prop := ∀ i ∈ dirs, (tget s.tier.dir i).elim false (readFails s) = false

/-- Every Ladle has room for a command's entries, and none waits (07 R224). -/
def HasRoom (s : State) (c : Cmd) : Prop := s.comp.whisk = [] ∧ ∀ l, roomFor (ladleOf s l) (laneOf s c) = true

/-- An entry of a command stands in the queue of a Ladle, or waits for room in it (07 R224). -/
def EntryIssued (w : State) (l : Nat) (e : QEntry) : Prop := e ∈ (ladleOf w l).queue ∨ (l, e) ∈ w.comp.whisk

end Sys2Proof
end

