-- ==== Sys2Proof/WellFormed.lean ====
section
/-!
DEFINITION. Which commands are well formed: every operand within the field that the manual gives it. A command that is not
well formed has no counterpart at the block's pins, registers, links or queues.
-/
namespace Sys2Proof

/-! ### Bounds of the fields -/

/-- A value of an `n`-bit field. -/
def fits (n x : Nat) : Bool := x < 2 ^ n
/-- A function number (04_host_queues.md R83). -/
def okFn (x : Nat) : Bool := x ≤ 16
/-- A queue pair of a function (04 R83). -/
def okQueue (x : Nat) : Bool := x < 64
/-- A tenant (01_serving_roles.md R16). -/
def okTenant (x : Nat) : Bool := x < 16
/-- A fabric ID (14_fabric_ports_and_addressing.md R412). -/
def okModule (x : Nat) : Bool := fits 18 x
/-- A stack (02_module_organisation.md Table 2.1). -/
def okStack (x : Nat) : Bool := x < 20
/-- An island (02 Table 2.2). -/
def okIsland (x : Nat) : Bool := x < 40
/-- A Ladle (02 Table 2.1: eight active on each of 20 stacks). -/
def okLadle (x : Nat) : Bool := x < 160
/-- A CAM bank, spares included (11_associative_search.md). -/
def okBank (x : Nat) : Bool := x < 34
/-- A port and a link of it (14 R405). -/
def okLink (p k : Nat) : Bool := p < 16 && k < 4
/-- An MSI-X vector of a function (04 R110). -/
def okVector (x : Nat) : Bool := x < 66
/-- A health part class (18_reliability_and_spares.md Table 18.3). -/
def okPart (x : Nat) : Bool := x < 8
/-- A security sensor class (19_security.md Table 19.6). -/
def okSensor (x : Nat) : Bool := x ≤ 4
/-- A byte offset of a 4-byte or 8-byte register in a 4 KiB page (04 Tables 4.3, 4.4, 4.10). -/
def okOffset (x : Nat) : Bool := x < 4096 && x % 4 = 0
/-- Host memory cells: 64-bit addresses (04 R101). -/
def okCells (l : List (Nat × BitVec 8)) : Bool := l.all fun c => fits 64 c.1
/-- Commands of a queue (04 Table 4.5), or of another module (01 R11). Queue number 64 marks the CANCELs that JOB_CLOSE issues (log entry 39). -/
def Cmd.ok (c : Cmd) : Bool := okFn c.fn && (okQueue c.q || (c.q = 64 && c.src.isSome)) && c.src.all fun x => okModule x.1 && okTenant x.2
/-- A host command whose OPCODE is that of its row (04 Table 4.6). -/
def Cmd.is (c : Cmd) (op : Nat) : Bool := c.ok && fld c.w0 7 0 = op
/-- A function that is enabled as a whole (02 R47). -/
def FnId.ok : FnId → Bool
  | .island i => okIsland i
  | .link p k => okLink p k
  | .tenant t => okTenant t
  | .ladle l => okLadle l
  | .queue f q => okFn f && okQueue q
  | .kettle f => okFn f
  | .bank b => okBank b
/-- A register space (04 R83, 03 R71). -/
def RegSpace.ok : RegSpace → Bool
  | .func f => okFn f
  | .queue f q => okFn f && okQueue q
  | .kettle f => okFn f
  | .msix f => okFn f
  | .sriov => true
  | .mgmt _ => true
def IrqMask.ok : IrqMask → Bool
  | .msix v => okVector v
  | _ => true
/-- A rail reading (21_power_pins_package.md Table 21.9). -/
def RailSample.ok (x : RailSample) : Bool := x.rail ≤ 9 && fits 16 x.mv && fits 16 x.deciAmp
def BoardStart.ok (b : BoardStart) : Bool := b.nvm.all okCells && b.addr < 4 && b.failedStacks.all okStack && b.retrained.all fun x => okPart x.1
/-- Table 14.3. -/
def BaseHdr.ok (b : BaseHdr) : Bool :=
  fits 4 b.version && fits 4 b.kind && fits 3 b.cls && fits 16 b.entropy && fits 32 b.membership && okModule b.dest &&
  okModule b.src && b.length ≤ 4096 && fits 64 b.stamp && fits 8 b.keyEpoch && fits 56 b.seq
/-- Table 15.3. -/
def TransHdr.ok (h : TransHdr) : Bool :=
  fits 4 h.type && fits 2 h.mode && fits 16 h.dstEp && fits 8 h.dstGen && fits 16 h.srcEp && fits 8 h.srcGen && fits 8 h.reason &&
  fits 32 h.serial && fits 20 h.packet && fits 33 h.msgLength && fits 12 h.tag && fits 16 h.hintUs && fits 32 h.mkey && fits 32 h.off64
def XPacket.ok (p : XPacket) : Bool := p.base.ok && p.hdr.ok && p.data.length ≤ 4096
/-- A KIND 0 packet of the row's TYPE (15_message_transport.md Table 15.3). -/
def XPacket.is (p : XPacket) (type : Nat) : Bool := p.ok && p.hdr.type = type
/-- Table 16.4. -/
def TrayHdr.ok (h : TrayHdr) : Bool :=
  fits 4 h.type && fits 3 h.op && fits 4 h.aop && fits 2 h.width && fits 2 h.dtype && fits 16 h.opId && fits 16 h.ackedBelow &&
  fits 16 h.status && fits 46 h.addr && fits 32 h.mkey && fits 13 h.len
def TPacket.ok (p : TPacket) : Bool := p.base.ok && p.hdr.ok && p.data.length ≤ 4096
def okClasses (l : List (Nat × Bool)) : Bool := l.all fun c => c.1 < 8
/-- Table 14.4. -/
def Announce.ok (a : Announce) : Bool := fits 64 a.installation && fits 64 a.serial && okModule a.fabricId && fits 32 a.membership
/-- Table 14.6. -/
def RoutePath.ok (r : RoutePath) : Bool := okLink r.port r.sub
def okRoutes (l : List (List RoutePath)) : Bool := l.all fun e => e.all RoutePath.ok
/-- Modules and their roles in a MEMBERSHIP message (14 Table 14.5). -/
def okMembers (l : List (Nat × Nat)) : Bool := l.all fun m => okModule m.1
/-- Table 14.5. -/
def Control.ok : Control → Bool
  | .assign serial id pre => fits 64 serial && okModule id && fits 64 pre
  | .routeUpdate _ first es => fits 13 first && okRoutes es
  | .membership e ms => fits 64 e && okMembers ms
  | .heartbeat ws => ws.all (fits 64)
  | .membershipRequest e => fits 64 e
  | .other n => fits 8 n
def Payload.ok : Payload → Bool
  | .xport p => p.ok
  | .tray p => p.ok
  | .announce b a => b.ok && a.ok
  | .control b f n c => b.ok && decide (f < n) && c.ok
  | .unknown b => b.ok
  | .ptp => true
  | .pfc cs => okClasses cs
  | .solicitation a => fits 128 a
  | .advertisement a => fits 128 a
def Frame.ok (f : Frame) : Bool := fits 16 f.etype && f.payload.ok
/-- Table 5.2. -/
def ReqRec.ok (r : ReqRec) : Bool :=
  fits 64 r.handle && fits 32 r.epoch && fits 32 r.step && fits 4 r.phase && fits 4 r.prior && fits 4 r.target && r.replicas < 3 &&
  fits 10 r.recoveries && okModule r.peer && okModule r.owner && okModule r.origin && okModule r.decodeTarget && fits 16 r.job && fits 16 r.model &&
  fits 8 r.composition && fits 16 r.adapter && fits 16 r.adapterVersion && fits 32 r.promptTokens && fits 32 r.tokenLimit && fits 32 r.logged &&
  fits 32 r.firstMissing && fits 32 r.placed && fits 64 r.pageList && fits 64 r.admitTime && fits 64 r.seed && r.sampler.length = 8 &&
  fits 64 r.stepTime && fits 32 r.stepDigest && fits 32 r.createDigest && fits 64 r.logLocator
/-- Tokens of a log (05_request_state_and_ownership.md R124). -/
def okTokens (l : List Nat) : Bool := l.all (fits 32)
def LPayload.ok : LPayload → Bool
  | .none => true
  | .create r p => r.ok && okTokens p
  | .append ts ws => okTokens ts && ws.length = 8
  | .claim r => r.ok
/-- Table 5.3. -/
def LStep.ok (x : LStep) : Bool :=
  fits 64 x.handle && fits 32 x.epoch && fits 32 x.step && fits 4 x.kind && fits 4 x.newPhase && fits 4 x.target && okModule x.peer &&
  okModule x.issuer && fits 32 x.digest && fits 32 x.membership && fits 32 x.firstMissing && fits 32 x.logged && fits 16 x.adapterVersion && x.payload.ok
/-- Table 5.5. -/
def Notice.ok (n : Notice) : Bool :=
  fits 64 n.handle && fits 32 n.epoch && fits 32 n.step && fits 16 n.status && fits 4 n.phase && okModule n.owner && fits 32 n.firstMissing &&
  fits 32 n.logged && n.body.all fun b => b.1.ok && okTokens b.2
/-- Poisoned lines and bytes of an object. -/
def Blob.ok (b : Blob) : Bool := b.cells.all fun c => fits 64 c.1
def PageData.ok (p : PageData) : Bool := fits 16 p.layer && fits 32 p.index && p.blob.ok
/-- Table 5.6. -/
def Offer.ok (o : Offer) : Bool :=
  fits 32 o.step && fits 32 o.epoch && (o.target = 4 || o.target = 5) && okModule o.sender && o.record.ok && okTokens o.log &&
  o.hashes.all (fits 64)
/-- Table 5.6. -/
def Tongs.ok (t : Tongs) : Bool :=
  fits 64 t.handle && fits 32 t.epoch && fits 32 t.step && fits 4 t.type && fits 4 t.target && fits 8 t.reason && okModule t.sender &&
  fits 32 t.pages && fits 32 t.held
/-- Handle and sender apart, Table 5.6. -/
def TongsBody.ok (b : TongsBody) : Bool := (b.header 0 0).ok
/-- Table 6.7. -/
def LoanMsg.ok (m : LoanMsg) : Bool :=
  fits 4 m.type && fits 16 m.grants && okStack m.stack && okModule m.sender && fits 32 m.grantId && fits 32 m.key && fits 46 m.addr && fits 64 m.deadline
/-- A loan message of the row's TYPE (06_kv_pages_and_tiers.md Table 6.7). -/
def LoanMsg.is (m : LoanMsg) (type : Nat) : Bool := m.ok && m.type = type
/-- A detection (18 Table 18.1). -/
def Detected.ok (d : Detected) : Bool := fits 8 d.detector && okIsland d.island && fits 7 d.index && d.kind < 5 && d.reader.all Cmd.ok
/-- A request of the MGMT block: its tag (19 Table 19.3). -/
def okTag (x : Nat) : Bool := fits 64 x
/-- Signatures of a signed request (19 Table 19.3). -/
def okSignatures (rsa slh : List (BitVec 8)) : Bool := rsa.length ≤ 65536 && slh.length ≤ 65536

/-- The well-formed commands. -/
def wellFormed (i : Instr) : Bool :=
  match i with
  | .moduleStart b => b.ok
  | .fabricTrainingEnd => true
  | .enterReady => true
  | .emergencyStop _ => true
  | .stopRampEnd => true
  | .modResetLow _ => true
  | .pwrOkLow _ => true
  | .perstN => true
  | .hostLinkTrained width rate _ => fits 6 width && fits 4 rate
  | .sensorTrip sensor => okSensor sensor
  | .junctionThrottle _ _ => true
  | .thermalStopRelease _ => true
  | .boundaryScanInstruction _ => true
  | .internalTestSelect => true
  | .ppsInPulse _ => true
  | .entropyHealthFail => true
  | .governorStep _ => true
  | .governorCalibrate => true
  | .avsRailRead samples => samples.all RailSample.ok
  | .budgetPeriodBoundary => true
  | .ageEpoch => true
  | .pressurePark => true
  | .demotionPlaced _ => true
  | .promotionPlaced _ => true
  | .oldRunDrained _ => true
  | .dumpBoundary => true
  | .healthSubwindow part => okPart part
  | .memoryScrub stack => okStack stack
  | .camRowCheck diff => diff.all fun x => okBank x.1
  | .detection d => d.ok
  | .islandResetComplete island => okIsland island
  | .spareMoveBegin part _ => okPart part
  | .spareMoveComplete part _ _ => okPart part
  | .creditWatchTimeout island => okIsland island
  | .functionEnable f => f.ok
  | .functionDisable f => f.ok
  | .initialisationComplete f => f.ok
  | .shutdownComplete f => f.ok
  | .tenantEnable fn => okFn fn
  | .tenantDisable fn => okFn fn
  | .queueEnable fn q => okFn fn && okQueue q
  | .queueDisable fn q => okFn fn && okQueue q
  | .queueShutdownTimeout fn q => okFn fn && okQueue q
  | .queueConfigWrite fn q off v => okFn fn && okQueue q && okOffset off && fits 64 v
  | .sqTailDoorbell fn q v placed _ => okFn fn && okQueue q && fits 64 v && okCells placed
  | .cqHeadDoorbell fn q v => okFn fn && okQueue q && fits 64 v
  | .commandFetch => true
  | .completionPost fn q => okFn fn && okQueue q
  | .interruptCoalesceTimer fn vector => okFn fn && okVector vector
  | .irqMaskWrite fn m v => okFn fn && m.ok && fits 64 v
  | .kettleFlushTimer fn => okFn fn
  | .kettleWordWrite fn _ => okFn fn
  | .kettleEnable fn => okFn fn
  | .kettleDisable fn => okFn fn
  | .kettleConfigWrite fn off v => okFn fn && okOffset off && fits 64 v
  | .kettleHeadWrite fn v => okFn fn && fits 64 v
  | .knobWrite _ v => fits 64 v
  | .pctrCfgWrite _ v => fits 64 v
  | .dumpHeadWrite _ v => fits 64 v
  | .mgmtCtrLoRead _ => true
  | .hostCtrLoRead fn => okFn fn
  | .mgmtTimeLoRead _ => true
  | .mgmtRailVRead _ => true
  | .registerWrite r off v => r.ok && okOffset off && fits 64 v
  | .nop c => c.is 0x00
  | .jobOpen c => c.is 0x01
  | .jobClose c => c.is 0x02
  | .batchRegister c => c.is 0x90
  | .batchRelease c => c.is 0x91
  | .tenantReset c => c.is 0xB0
  | .queueFence c => c.is 0x9D
  | .placeFence c => c.is 0x9E
  | .trayFence c => c.is 0x9F
  | .fenceComplete c => c.ok
  | .forwardRetryTimer r => r.cmd.ok
  | .forwardTimeout r => r.cmd.ok
  | .forwardedCommandArrival c members _ => c.ok && members.all (fits 64)
  | .forwardedCompletionArrival c status r0 r1 _ => c.ok && fits 16 status && fits 64 r0 && fits 64 r1
  | .admitRequest c => c.is 0x10
  | .prefillChunk c kv => c.is 0x11 && kv.all PageData.ok
  | .handoff c => c.is 0x12
  | .park c => c.is 0x13
  | .resume c => c.is 0x14
  | .cancel c => c.is 0x15
  | .query c => c.is 0x16
  | .logRead c => c.is 0x17
  | .recordRead c => c.is 0x18
  | .ledgerStepResendTimer h => fits 64 h
  | .ledgerStepArrival copy x => (1 ≤ copy && copy ≤ 3) && x.ok
  | .ledgerNotice n => n.ok
  | .ledgerQuery h src form => fits 64 h && okModule src && fits 32 form.membership
  | .ledgerQueryRetryTimer h => fits 64 h
  | .ledgerAnswer n => n.ok
  | .ledgerErase h => fits 64 h
  | .repairCopyArrival copy r log => (1 ≤ copy && copy ≤ 3) && r.ok && okTokens log
  | .endOfRepair epoch src => fits 64 epoch && okModule src
  | .headFreezeEnd h => fits 64 h
  | .offer o => o.ok
  | .placed h sender body => fits 64 h && okModule sender && body.ok
  | .handoffRefuse h sender body => fits 64 h && okModule sender && body.ok
  | .lastPageSent h => fits 64 h
  | .handoffPagePlaced h p => fits 64 h && p.ok
  | .replicaArrival h p => fits 64 h && okModule p.sender && p.page.ok
  | .allPagesPlaced r => fits 64 r.handle
  | .orphanTimerExpiry h => fits 64 h
  | .recoveryClaim h survivors => fits 64 h && survivors.all PageData.ok
  | .pagePromote c => c.is 0x20
  | .pageDemote c => c.is 0x21
  | .pagePin c => c.is 0x22
  | .pageUnpin c => c.is 0x23
  | .pageDrop c => c.is 0x24
  | .prefixLookup c => c.is 0x25
  | .prefixPublish c => c.is 0x26
  | .prefixRelease c => c.is 0x27
  | .windowOpen c => c.is 0x28
  | .windowAdvance c => c.is 0x29
  | .windowClose c => c.is 0x2A
  | .windowSlotFill stream => fits 16 stream
  | .t3Attach c => c.is 0x2B
  | .tierQuery c => c.is 0x2C
  | .modelDefine c => c.is 0x2D
  | .loanAskArrival m => m.is 1
  | .loanGrantArrival m => m.is 2
  | .loanOfferArrival m => m.is 0
  | .loanDeclineArrival m => m.is 3
  | .recall m => m.is 4
  | .recallEmpty lender id => okModule lender && fits 32 id
  | .returnGrant m => m.is 5
  | .recallDeadlineExpiry id => fits 32 id
  | .revoked m => m.is 6
  | .gemm c => c.is 0x30
  | .gemv c => c.is 0x31
  | .gatherRows c => c.is 0x32
  | .vector c => c.is 0x33
  | .tensorAlloc c => c.is 0x34
  | .tensorFree c => c.is 0x35
  | .ladleEntryStart l => okLadle l
  | .ladleEntryComplete l => okLadle l
  | .ladlePreempt l => okLadle l
  | .ladleSaveComplete l => okLadle l
  | .ladleRestoreComplete l => okLadle l
  | .attendDecode c => c.is 0x38
  | .attendPrefill c => c.is 0x39
  | .softmaxCombine c => c.is 0x3A
  | .attendBwd c => c.is 0x3B
  | .adapterLoad c => c.is 0xA0
  | .adapterRoomAvailable tenant adapter version => okTenant tenant && fits 16 adapter && fits 16 version
  | .adapterLoadComplete tenant adapter version => okTenant tenant && fits 16 adapter && fits 16 version
  | .adapterRetire c => c.is 0xA1
  | .adapterVersionFree tenant adapter version => okTenant tenant && fits 16 adapter && fits 16 version
  | .adapterQuery c => c.is 0xA2
  | .expertApply c => c.is 0xA3
  | .sample c => c.is 0x40
  | .draftReset c => c.is 0x41
  | .constraintLoad c => c.is 0x42
  | .constraintRetire c => c.is 0x43
  | .camBankSetup c => c.is 0x50
  | .camWrite c => c.is 0x51
  | .camInvalidate c => c.is 0x52
  | .camSearch c => c.is 0x53
  | .camNext c => c.is 0x54
  | .camCursorFree c => c.is 0x55
  | .camRead c => c.is 0x56
  | .indexCreate c => c.is 0x58
  | .indexLoadPart c => c.is 0x59
  | .indexCommit c => c.is 0x5A
  | .indexRetire c => c.is 0x5B
  | .indexVersionFree tenant index version => okTenant tenant && fits 24 index && fits 16 version
  | .vectorSearch c => c.is 0x5C
  | .vectorDelete c => c.is 0x5D
  | .indexQuery c => c.is 0x5E
  | .pressStreamOpen c => c.is 0x60
  | .pressStreamClose c => c.is 0x61
  | .pressEncode c => c.is 0x62
  | .pressDecode c => c.is 0x63
  | .pressTableInstall c => c.is 0x64
  | .pressInstallCommit tenant stream => okTenant tenant && fits 16 stream
  | .pressInstallWait tenant stream => okTenant tenant && fits 16 stream
  | .pressTableRead c => c.is 0x65
  | .epOpen c => c.is 0x70
  | .epClose c => c.is 0x71
  | .endpointQuarantineEnd _ index => fits 24 index
  | .send c => c.is 0x72
  | .counterTrigger tenant counter => okTenant tenant && fits 16 counter
  | .recv c => c.is 0x73
  | .flush c => c.is 0x74
  | .mkeyCreate c => c.is 0x75
  | .mkeyDestroy c => c.is 0x76
  | .ctrSet c => c.is 0x77
  | .xportCtxAttach c => c.is 0x78
  | .contextFetchComplete ep => fits 16 ep
  | .keyDerived peer epoch => okModule peer && fits 64 epoch
  | .frameReceive port sub f => okLink port sub && f.ok
  | .data p => p.is 0
  | .ackCoalesceTimer src srcEp srcGen serial => okModule src && fits 16 srcEp && fits 8 srcGen && fits 32 serial
  | .ack p => p.is 1
  | .notReady p => p.is 2
  | .notReadyRetry _ packet => fits 20 packet
  | .notReadyTimeout _ packet => fits 20 packet
  | .refuse p => p.is 3
  | .abort p => p.is 4
  | .retransmitTimer _ packet => fits 20 packet
  | .deliveryTimeout _ packet => fits 20 packet
  | .completionTableExpiry src srcEp srcGen serial => okModule src && fits 16 srcEp && fits 8 srcGen && fits 32 serial
  | .trayLoad c => c.is 0x80
  | .trayStore c => c.is 0x81
  | .trayAtomic c => c.is 0x82
  | .trayReduce c => c.is 0x83
  | .trayMcastStore c => c.is 0x84
  | .trayAlloc c => c.is 0x85
  | .trayGroupSet c => c.is 0x86
  | .trayRequest p => p.ok && p.hdr.type = 0
  | .trayLineOperation line => fits 41 line
  | .combiningWriteback line => fits 41 line
  | .trayReply p => p.ok && p.hdr.type = 1
  | .trayRetransmitTimer home opId => okModule home && fits 16 opId
  | .trayTargetLost home opId => okModule home && fits 16 opId
  | .replyExpiry src opId => okModule src && fits 16 opId
  | .announcementSend port sub => okLink port sub
  | .announcement port sub a => okLink port sub && a.ok
  | .assign serial id pfx => fits 64 serial && okModule id && fits 64 pfx
  | .routeUpdate _ first entries => fits 13 first && okRoutes entries
  | .membership epoch members => fits 64 epoch && okMembers members
  | .fragmentDiscard subtype => fits 8 subtype
  | .heartbeat => true
  | .ptpMessage p => p.port < 16
  | .lockLossTimeout => true
  | .pfcFrame port sub classes => okLink port sub && okClasses classes
  | .neighbourSolicitation port sub addr => okLink port sub && fits 128 addr
  | .linkTrained port sub => okLink port sub
  | .linkTrainingRetry port sub badLanes => okLink port sub && badLanes.all fun x => decide (x < 18)
  | .linkFailure port sub => okLink port sub
  | .portControl c => c.is 0xB1
  | .frameTransmitSelect port sub => okLink port sub
  | .gateEntryChange port => okLink port 0
  | .domainSecretActivation => true
  | .inject c => c.is 0xB2
  | .shadowControl c => c.is 0xB3
  | .mirroredCommand seq c inputs given digest => fits 64 seq && c.ok && okCells inputs && fits 64 given && fits 64 digest
  | .getIdentity _ tag => okTag tag
  | .attest _ tag _ => okTag tag
  | .provision _ tag _ _ rsa slh => okTag tag && okSignatures rsa slh
  | .advance _ tag _ target rsa slh => okTag tag && fits 64 target && okSignatures rsa slh
  | .setDomain _ tag serial activate _ _ _ rsa slh => okTag tag && fits 64 serial && fits 64 activate && okSignatures rsa slh
  | .sessionOpen _ tag _ rsa slh => okTag tag && okSignatures rsa slh
  | .sessionClose _ tag => okTag tag
  | .sessionTimeout => true
  | .memRead _ tag stack tenant off len => okTag tag && okStack stack && okTenant tenant && fits 64 off && fits 32 len
  | .functionLevelReset fn => okFn fn
  | .windowSlotFilled stream layer => fits 16 stream && fits 16 layer
  | .waitReleaseReport c => c.ok
  | .systemEndpointRetry => true
  | .attestSignatureComplete => true

end Sys2Proof
end

