-- ==== Sys2Proof/Certificates/Slice0/Obligations.lean ====
section
/-!
DEFINITION. The statements for the provers.
-/
open Sys2Proof Sys2Proof.Machine

/-- For every command c and state s, the step of s with c put at the front of its queue is exec of c on s. -/
def Obligations.StepRunsTheFrontCommand : Prop :=
  ∀ (c : Instr) (s : State), step { s with pending := c :: s.pending } = exec c s

/-- On an empty queue a step answers a next state in which the clock that never steps is one nanosecond further and the queue is still empty; host
memory, NVM, image, fuses, ordering code and lifecycle in force are as before. Fabric time is one nanosecond further too, but in a nanosecond of
slewing: there it stands still or moves by two, which takes one nanosecond off the offset from the master. Without an offset it never slews. That time
passes on an empty queue, and when within a microsecond it slews, is the model's choice (log entries 2 and 97). -/
def Obligations.EmptyQueueLetsOneNanosecondPass : Prop :=
  ∀ s : State, s.pending = [] → ∃ t, step s = .next t ∧ t.mono = s.mono + 1 ∧ t.pending = [] ∧
    (slewDue s = false → t.time = s.time + 1) ∧
    (slewDue s = true → (t.time = s.time ∨ t.time = s.time + 2) ∧ (t.time : Int) - s.time - 1 = (if 0 < s.fab.offset then -1 else 1)) ∧
    (s.fab.offset = 0 → slewDue s = false) ∧
    t.hostMem = s.hostMem ∧ t.nvm = s.nvm ∧ t.image = s.image ∧ t.fuses = s.fuses ∧ t.order = s.order ∧ t.sec.lifecycle = s.sec.lifecycle

/-- Right after reset the boot state is RESET, no function is ON, every queue pair and Kettle ring has the reset values of Tables 4.4 and 4.10,
interrupt masks are set (Table 4.3), the module has no fabric ID and no lock and membership epoch 0, every counter is clear, no request, page, job or
batch exists, no key is held and the queue of commands is empty. -/
def Obligations.ResetLeavesTheTablesValues : Prop :=
  State.reset.boot.state = .reset ∧ State.reset.pending = [] ∧
  (∀ f : FnId, fnState State.reset f = FnState.clean) ∧
  (∀ fn q : Nat, queueOf State.reset fn q = QueuePair.reset ∧ (queueOf State.reset fn q).phase = true) ∧
  (∀ fn : Nat, kettleOf State.reset fn = Kettle.reset) ∧
  (∀ fn : Nat, (funcOf State.reset fn).maskLo = 0xFFFFFFFF ∧ (funcOf State.reset fn).maskHi = 0xFFFFFFFF ∧
    (funcOf State.reset fn).maskKettle = true ∧ (funcOf State.reset fn).maskFunc = true ∧ (funcOf State.reset fn).dropped = 0) ∧
  State.reset.fab.id = none ∧ State.reset.fab.locked = false ∧ State.reset.fab.epoch = 0 ∧
  State.reset.tele.events = [] ∧ State.reset.tele.injected = [] ∧ State.reset.tele.tenants = [] ∧
  State.reset.req.ledger = [] ∧ State.reset.req.owned = [] ∧ State.reset.tier.dir = [] ∧ State.reset.host.jobs = [] ∧
  State.reset.host.batches = [] ∧ State.reset.sec.keys = false ∧ State.reset.gov.duty = 0x40

/-- From every state whose host memory and NVM are in canonical form (addresses strictly rising, no byte 0 listed), every step answers a next state,
and its host memory and NVM are in canonical form. -/
def Obligations.EveryStepKeepsMemoriesCanonical : Prop :=
  ∀ s : State, MemoriesWf s → ∃ t, step s = .next t ∧ MemoriesWf t

/-- Host memory and the NVM of the state right after reset are in canonical form. -/
def Obligations.ResetMemoriesAreCanonical : Prop := MemoriesWf State.reset

/-- For every command and state, the next state keeps the queue, the ordering code and the clock that never steps; host memory, unless the row is one
of those that write it; fuses, unless the row blows fuses or ends in a module reset; fabric time, unless the row is MODULE_START, PTP_MESSAGE or
PPS_IN_PULSE; the NVM, the lifecycle state in force and whether the NVM answers, unless the row is MODULE_START; and the image in force, unless the
row is MODULE_START or ends in a module reset. -/
def Obligations.OnlyItsOwnRowsChangeStructure : Prop :=
  ∀ (i : Instr) (s t : State), exec i s = .next t →
    t.pending = s.pending ∧ t.order = s.order ∧ t.mono = s.mono ∧
    (writesHost i = false → t.hostMem = s.hostMem) ∧
    (blowsFuses i = false → resetsAll i = false → t.fuses = s.fuses) ∧
    (stepsTime i = false → t.time = s.time) ∧
    ((∀ b, i ≠ .moduleStart b) → t.nvm = s.nvm ∧ t.nvmFitted = s.nvmFitted ∧ t.sec.lifecycle = s.sec.lifecycle) ∧
    ((∀ b, i ≠ .moduleStart b) → resetsAll i = false → t.image = s.image)

/-- For every state, every step answers a next state in which the serial number and the vendor key hash are as before, the lifecycle count, both fused
versions and TAMPER_COUNT are not lower, every recorded retirement is still recorded in its place, and every owner-hash bank that was blown, complete
or spoiled is so still. -/
def Obligations.FusesOnlyBlow : Prop :=
  ∀ s : State, ∃ t, step s = .next t ∧
    t.fuses.serial = s.fuses.serial ∧ t.fuses.vendorKeyHash = s.fuses.vendorKeyHash ∧ s.fuses.lifecycle ≤ t.fuses.lifecycle ∧
    s.fuses.vendorSvn ≤ t.fuses.vendorSvn ∧ s.fuses.ownerSvn ≤ t.fuses.ownerSvn ∧ s.fuses.tamperCount ≤ t.fuses.tamperCount ∧
    (∀ (k : Nat) (m : FusedMove), s.fuses.moves[k]? = some m → t.fuses.moves[k]? = some m) ∧
    (∀ (k : Nat) (b : OwnerBank), s.fuses.banks[k]? = some b → ∃ b', t.fuses.banks[k]? = some b' ∧
      (b.blown = true → b'.blown = true) ∧ (b.complete = true → b'.complete = true) ∧ (b.spoiled = true → b'.spoiled = true))

/-- From every state whose memories are in canonical form, whatever is reached in any number of steps steps on to a next state, never a fault or a
refusal, and has its memories in canonical form: every error that the manual describes is a status, a code or an event. -/
def Obligations.RunsNeverStop : Prop := ∀ s : State, MemoriesWf s → SafeFrom s

/-- In a module that may start, MODULE_START answers a next state at fabric time 0 with both pins high, the strap sampled and the lifecycle that the
fuses show; it is HELD in step 1 with IDENTITY_DERIVATION without the seed, in step 1 with ENTROPY_FAILURE when an entropy test fails, in step 2 or 3
with IMAGE_NVM when the NVM does not answer or a section cannot be read, where verification stops with its step, reason and detail, and in step 6 when
a stack fails training twice, the host link being down and the NVM pins released in every case; else it is in TRAINING, step 8, with the verified
image in force and keys held. FABRIC_TRAINING_END 500 ms after step 8 began ends that step and changes nothing else. ENTER_READY at the end of step 8
puts the module in READY, step 9, with the image's fabric ID where it gives one, the fuses raised to the versions that the image commits, and host
memory, image and time as before. -/
def Obligations.StartUpRunsItsSteps : Prop :=
  (∀ (b : BoardStart) (s : State), mayStart s = true →
    let u := stepOne s b
    ∃ t, exec (.moduleStart b) s = .next t ∧ t.pending = s.pending ∧ t.hostMem = s.hostMem ∧ t.time = 0 ∧ t.mono = s.mono ∧
      t.boot.resetN = true ∧ t.boot.pwrOk = true ∧ t.boot.mgmtAddr = b.addr ∧ t.sec.lifecycle = u.fuses.lifecycle ∧
      (b.seedOk = false → t.boot.state = .held ∧ t.boot.step = 1 ∧ t.boot.reason = Status.identityDerivation) ∧
      (b.seedOk = true → b.entropyOk = false → t.boot.state = .held ∧ t.boot.step = 1 ∧ t.boot.reason = Status.entropyFailure) ∧
      (b.seedOk = true → b.entropyOk = true → b.nvmOk = false → t.boot.state = .held ∧ t.boot.step = 2 ∧ t.boot.reason = Status.imageNvm) ∧
      (b.seedOk = true → b.entropyOk = true → b.nvmOk = true → b.sectionsOk = false →
        t.boot.state = .held ∧ t.boot.step = 3 ∧ t.boot.reason = Status.imageNvm) ∧
      (t.boot.state = .held → t.host.link.up = false ∧ t.boot.nvmPins = false) ∧
      (b.seedOk = true → b.entropyOk = true → b.nvmOk = true → b.sectionsOk = true →
        match verifyImage u.nvm u.fuses u.fuses.lifecycle s.order.ports with
        | .held step reason detail _ => t.boot.state = .held ∧ t.boot.step = step ∧ t.boot.reason = reason ∧ t.boot.detail = detail
        | .good i =>
          (∀ k, leastOf b.failedStacks = some k →
            t.boot.state = .held ∧ t.boot.step = 6 ∧ t.boot.reason = Status.stackTraining ∧ t.boot.detail = k) ∧
          (leastOf b.failedStacks = none → t.boot.state = .training ∧ t.boot.step = 8 ∧ t.boot.trainStart = s.mono ∧
            t.boot.trainEnded = false ∧ t.image = i ∧ t.sec.keys = true))) ∧
  (∀ s : State, s.boot.state = .training → s.boot.stop = none → s.boot.trainStart + 500000000 ≤ s.mono →
    exec .fabricTrainingEnd s = .next { s with boot := { s.boot with trainEnded := true } }) ∧
  (∀ s : State, s.boot.state = .training → s.boot.stop = none → s.boot.trainEnded = true →
    ∃ t, exec .enterReady s = .next t ∧ t.boot.state = .ready ∧ t.boot.step = 9 ∧ t.boot.readyAt = s.mono ∧
      t.fab.id = (if s.image.fabricId = 0x3FFFF then s.fab.id else some s.image.fabricId) ∧
      t.fuses = s.fuses.blow (commitVersions s.image s.fuses) ∧ t.image = s.image ∧ t.hostMem = s.hostMem ∧ t.time = s.time ∧
      t.pending = s.pending)

/-- In a module that is neither in reset nor stopping, HELD included, EMERGENCY_STOP with any cause records the cause, drops every slot and
completion, and shows governor state 4; a sensor ERASE also zeroises the keys, the pair keys in the cache and the domain secrets; nothing else of the
boot record changes. A MOD_RESET_N low of 1 µs or longer and a PWR_OK low of 100 ns or longer do the same and show their pin low; shorter lows change
nothing. An entropy failure in READY does the same; one in start-up holds the module with ENTROPY_FAILURE in the step that it has reached.
STOP_RAMP_END, once a stop is under way and the governed current is 20 A or less, puts the module in RESET with no work, keys, image or fabric ID,
keeping fuses, NVM, host memory, time and the record of the last sensor trip. -/
def Obligations.EmergencyStopAndReset : Prop :=
  let Stopped (s t : State) (cause : StopCause) : Prop :=
    t.boot.stop = some cause ∧ t.boot.state = s.boot.state ∧ t.host.slots = [] ∧ t.host.due = [] ∧ t.host.ops = [] ∧ t.gov.state = 4 ∧
      t.gov.current = s.gov.current ∧ t.hostMem = s.hostMem ∧ t.pending = s.pending ∧ t.image = s.image
  (∀ (cause : StopCause) (s : State), alive s = true → ∃ t, exec (.emergencyStop cause) s = .next t ∧ Stopped s t cause ∧
    (if cause = .sensorErase then t.sec.keys = false ∧ t.sec.domain = [] ∧ t.xport.keys = [] else t.sec = s.sec ∧ t.xport.keys = s.xport.keys)) ∧
  (∀ (ns : Nat) (s : State), alive s = true → 1000 ≤ ns →
    ∃ t, exec (.modResetLow ns) s = .next t ∧ Stopped s t .resetPin ∧ t.boot.resetN = false ∧ t.boot.startFrom = s.mono + (10000 - ns)) ∧
  (∀ (ns : Nat) (s : State), ns < 1000 → exec (.modResetLow ns) s = .next s) ∧
  (∀ (ns : Nat) (s : State), alive s = true → 100 ≤ ns →
    ∃ t, exec (.pwrOkLow ns) s = .next t ∧ Stopped s t .powerOk ∧ t.boot.pwrOk = false) ∧
  (∀ (ns : Nat) (s : State), ns < 100 → exec (.pwrOkLow ns) s = .next s) ∧
  (∀ s : State, s.boot.state = .ready → s.boot.stop = none → ∃ t, exec .entropyHealthFail s = .next t ∧ Stopped s t .entropy) ∧
  (∀ s : State, s.boot.state ≠ .reset → s.boot.state ≠ .held → s.boot.state ≠ .ready → ∃ t, exec .entropyHealthFail s = .next t ∧
    t.boot.state = .held ∧ t.boot.step = s.boot.step ∧ t.boot.reason = Status.entropyFailure ∧ t.host.link.up = false) ∧
  (∀ s : State, s.boot.stop.isSome = true → s.gov.current ≤ 20000 →
    ∃ t, exec .stopRampEnd s = .next t ∧ t.boot.state = .reset ∧ t.boot.stop = none ∧ t.host.slots = [] ∧ t.req.owned = [] ∧ t.tier.dir = [] ∧
      t.sec.keys = false ∧ t.fab.id = none ∧ t.sec.lastTrip = s.sec.lastTrip ∧ t.hostMem = s.hostMem ∧ t.nvm = s.nvm ∧ t.time = s.time ∧
      t.mono = s.mono ∧ t.fuses.serial = s.fuses.serial ∧ t.pending = s.pending)

/-- A sensor trip outside reset that no injection claims records the sensor and the strongest of its response and the one in force, and a response of
RESET or ERASE that is stronger than the one in force drives ALARM_N low and stops the module, an ERASE zeroising its keys. At 100 °C or above
JUNCTION_THROTTLE lowers the power limit by 10 W (at most to 0), below it raises it by 10 W; at 115 °C it stops the module. A held thermal stop ends
when MOD_RESET_N has been low for 10 µs and is released. An instruction of the EXTEST class stops the module; IDCODE captures a code whose bit 0 is 1
and whose part number is 0x2040; BYPASS and SAMPLE/PRELOAD change nothing. INTERNAL_TEST_SELECT in PROVISIONED zeroises the keys and holds the islands
in reset; in any other state it changes nothing. -/
def Obligations.SensorsAndHoldsAct : Prop :=
  (∀ (sensor : Nat) (s : State), s.boot.state ≠ .reset → sensor ≤ 4 → injectionFor s (0x10 + sensor) 0 4 = none →
    ∃ t, exec (.sensorTrip sensor) s = .next t ∧ t.sec.lastTrip = some (sensor, max (sensorResponse s sensor) (s.sec.response.getD 0)) ∧
      (s.sec.response.getD 0 < sensorResponse s sensor → t.sec.alarmN = false ∧ t.sec.response = some (sensorResponse s sensor) ∧
        (alive s = true → t.boot.stop = some (if sensorResponse s sensor = 2 then .sensorErase else .sensorReset)) ∧
        (sensorResponse s sensor = 2 → t.sec.keys = false ∧ t.sec.domain = [] ∧ t.sec.eraseDue = true)) ∧
      (¬ s.sec.response.getD 0 < sensorResponse s sensor → t.boot = s.boot ∧ t.sec.keys = s.sec.keys)) ∧
  (∀ (sensor : Nat) (tj : Int) (s : State), alive s = true →
    ∃ t, exec (.junctionThrottle sensor tj) s = .next t ∧ t.gov.tj = tj ∧ t.gov.tjSensor = sensor ∧
      t.gov.lowered = (if 1600 ≤ tj then min (s.gov.lowered + 10) (limitW s + s.gov.lowered) else s.gov.lowered - 10) ∧
      t.boot.stop = (if 1840 ≤ tj then some .junction else none)) ∧
  (∀ (ns : Nat) (s : State), s.boot.state = .reset → s.boot.thermalHold = true → 10000 ≤ ns →
    exec (.thermalStopRelease ns) s = .next { s with boot := { s.boot with thermalHold := false, resetN := true }
                                                     sec := { s.sec with alarmN := !s.sec.eraseDue } }) ∧
  (∀ (code : ScanInstr) (s : State), alive s = true → scanStops code = true →
    ∃ t, exec (.boundaryScanInstruction code) s = .next t ∧ t.boot.stop = some .boundaryScan ∧ t.boot.tapReset = false ∧ t.host.slots = []) ∧
  (∀ s : State, exec (.boundaryScanInstruction .idcode) s = .next { s with boot := { s.boot with tapData := some idcode } } ∧
    idcode % 2 = 1 ∧ idcode / 2 ^ 12 % 2 ^ 16 = 0x2040) ∧
  (∀ (code : ScanInstr) (s : State), code = .bypass ∨ code = .samplePreload → exec (.boundaryScanInstruction code) s = .next s) ∧
  (∀ s : State, exec (.boundaryScanInstruction .testLogicReset) s = .next { s with boot := { s.boot with tapReset := true } }) ∧
  (∀ s : State, s.sec.lifecycle = 1 → ∃ t, exec .internalTestSelect s = .next t ∧ t.sec.keys = false ∧ t.sec.domain = [] ∧
    t.boot.testHold = true ∧ t.host.slots = [] ∧ t.host.link.up = false ∧
    (∀ i : Nat, i ≠ 30 → (fnState t (.island i)).st = .off ∨ (fnState t (.island i)).st = .absent)) ∧
  (∀ s : State, s.sec.lifecycle ≠ 1 → exec .internalTestSelect s = .next s)

/-- GOVERNOR_STEP without a stop gives a current between I − s and the lesser of I + s and the ceiling (or I − s where the ceiling is below it), where
s is DI_DT × 0.1 µs; a demand inside the band is met with full duty; a demand above it leaves duty at a value below 64 that the manual leaves open;
while the module stops, ballast lowers the current by s. GOVERNOR_CALIBRATE at a whole millisecond counts one correction. AVS_RAIL_READ at a whole 100
µs keeps the ten newest readings of each rail and forms the average power of them. At a whole 10 µs the ceiling falls by a hundredth when the average
exceeds P, rises by a hundredth (to 800 A at most) when it is below 0.98 P, and stands otherwise; every gate holds its grant, where nothing waits for
it. -/
def Obligations.GovernorFollowsItsRules : Prop :=
  (∀ (demand : Nat) (s : State), s.boot.stop = none →
    let lo := s.gov.current - diDtNow s * 100
    let hi := min (s.gov.current + diDtNow s * 100) s.gov.ceiling
    ∃ t, exec (.governorStep demand) s = .next t ∧ t.gov.current = max lo (min demand hi) ∧ t.gov.ceiling = s.gov.ceiling ∧
      (demand ≤ hi → t.gov.duty = 64 ∧ t.free = s.free) ∧
      (hi < demand → t.gov.duty = (Config.freeWord s.free).toNat % 64 ∧ t.free = s.free + 1) ∧
      (t.gov.ballast = if demand < lo ∧ demand ≤ hi then satAdd 32 s.gov.ballast 1 else s.gov.ballast)) ∧
  (∀ (demand : Nat) (s : State), s.boot.stop.isSome = true →
    exec (.governorStep demand) s = .next { s with gov := { s.gov with
      state := 4, current := s.gov.current - diDtNow s * 100, ballast := satAdd 32 s.gov.ballast 1 } }) ∧
  (∀ s : State, alive s = true → s.time % 1000000 = 0 →
    exec .governorCalibrate s = .next { s with gov := { s.gov with calibrations := s.gov.calibrations + 1 } }) ∧
  (∀ (x : RailSample) (s : State), alive s = true → s.time % 100000 = 0 → x.rail ≤ 9 →
    ∃ t, exec (.avsRailRead [x]) s = .next t ∧
      railReadings t x.rail = ({ at' := s.mono, mv := x.mv, deciAmp := x.deciAmp } :: railReadings s x.rail).take 10 ∧
      (∀ r, r ≠ x.rail → railReadings t r = railReadings s r) ∧ t.gov.averageW = averagePower t ∧ t.gov.current = s.gov.current) ∧
  (∀ s : State, running s = true → s.time % 10000 = 0 →
    ∃ t, exec .budgetPeriodBoundary s = .next t ∧ t.gov.averageW = averagePower s ∧
      (s.xport.sends = [] → s.tray.peers = [] → t.gov.balance = s.image.budgets.flatMap (grantsOf (applyKnobs s [1, 2, 3]))) ∧
      (limitW (applyKnobs s [1, 2, 3]) < averagePower s → t.gov.ceiling = s.gov.ceiling - s.gov.ceiling / 100) ∧
      (averagePower s ≤ limitW (applyKnobs s [1, 2, 3]) → averagePower s * 100 < limitW (applyKnobs s [1, 2, 3]) * 98 →
        t.gov.ceiling = min 800000 (s.gov.ceiling + s.gov.ceiling / 100)) ∧
      (averagePower s ≤ limitW (applyKnobs s [1, 2, 3]) → limitW (applyKnobs s [1, 2, 3]) * 98 ≤ averagePower s * 100 →
        t.gov.ceiling = s.gov.ceiling))

/-- For an island, link, Ladle or CAM bank of a running module an enable moves OFF to STARTING, sets LATCH in STOPPING, and moves nothing otherwise.
For every function a disable moves STARTING and ON to STOPPING, clears LATCH in STOPPING, and moves nothing otherwise; the end of initialisation moves
STARTING to ON and nothing otherwise. In each case every other function keeps its status, and a change of status raises the event counter of its
record by one. The end of shut-down moves a STOPPING function whose work has ended to OFF, or with LATCH set to STARTING with LATCH clear, a queue
pair or ring only where the checks of R88, made again, pass; it moves no other function. -/
def Obligations.FunctionsFollowTheStatusTable : Prop :=
  let Moves (f : FnId) (s t : State) (y : FnState) : Prop :=
    fnState t f = y ∧ (∀ g, g ≠ f → fnState t g = fnState s g) ∧
    (y.st ≠ (fnState s f).st → tgetD t.tele.events ((statusSource s f).1, (statusSource s f).2.1) 0 =
      wrapAdd 48 (tgetD s.tele.events ((statusSource s f).1, (statusSource s f).2.1) 0) 1)
  let unit (f : FnId) : Prop := match f with
    | .island _ => True
    | .link _ _ => True
    | .ladle _ => True
    | .bank _ => True
    | _ => False
  let refused (s : State) (f : FnId) : Bool := match f with
    | .queue fn q => (queueRefusal s fn q).isSome
    | .kettle fn => (kettleRefusal s fn).isSome
    | _ => false
  (∀ (f : FnId) (s : State), unit f → running s = true → ∃ t, exec (.functionEnable f) s = .next t ∧
    Moves f s t (match (fnState s f).st with
      | .off => { st := .starting, latch := false }
      | .stopping => { st := .stopping, latch := true }
      | _ => fnState s f)) ∧
  (∀ (f : FnId) (s : State), ∃ t, exec (.functionDisable f) s = .next t ∧
    Moves f s t (match (fnState s f).st with
      | .starting => { st := .stopping, latch := (fnState s f).latch }
      | .on => { st := .stopping, latch := (fnState s f).latch }
      | .stopping => { st := .stopping, latch := false }
      | _ => fnState s f)) ∧
  (∀ (f : FnId) (s : State), ∃ t, exec (.initialisationComplete f) s = .next t ∧
    Moves f s t (match (fnState s f).st with
      | .starting => { st := .on, latch := (fnState s f).latch }
      | _ => fnState s f)) ∧
  (∀ (f : FnId) (s : State), ∃ t, exec (.shutdownComplete f) s = .next t ∧
    ((fnState s f).st ≠ .stopping ∨ workEnded s f = false → fnState t f = fnState s f) ∧
    ((fnState s f).st = .stopping → workEnded s f = true → fnState t f =
      if (fnState s f).latch && !refused s f then { st := .starting, latch := false } else { st := .off, latch := false }))

/-- An enable or disable of a function without a tenant changes nothing. From READY, an enable of a tenant, and an accepted one of a queue pair or
ring, moves it as Table 2.11 states; an accepted one clears CODE, and on entering STARTING from OFF the queue pair has its heads and tails at zero and
expected phase 1, the ring its counts at zero, but for its own record of STARTING, counted lost (and, where the staging buffer overflows, a word). On
an OFF or STOPPING queue pair or ring, where the tenant is not ON the CODE is 0x0B31, where a base is zero or not 4 KiB aligned or a size is outside
its range 0x0B30, and the status stays; a STARTING or ON one keeps all it holds. In READY a disable moves ON to STOPPING; the queue pair's one fetched
and unstarted command gets the completion 0x0B2C; the ring drops its open and staged words and counts their records lost. Five ms after its disable a
queue pair in STOPPING leaves it, each slot it still holds loses its completion, and completions due are counted in HOST_CQ_DROPPED. -/
def Obligations.EnablesOfTenantsQueuesAndRings : Prop :=
  let enabled (x : FnState) : FnState := match x.st with
    | .off => { st := .starting, latch := false }
    | .stopping => { st := .stopping, latch := true }
    | _ => x
  let good (base log hi : Nat) : Prop := base ≠ 0 ∧ base % 4096 = 0 ∧ 6 ≤ log ∧ log ≤ hi
  (∀ (fn q : Nat) (s : State), tenantOfFn s fn = none →
    exec (.tenantEnable fn) s = .next s ∧ exec (.tenantDisable fn) s = .next s ∧ exec (.queueEnable fn q) s = .next s ∧
    exec (.queueDisable fn q) s = .next s ∧ exec (.kettleEnable fn) s = .next s ∧ exec (.kettleDisable fn) s = .next s) ∧
  (∀ (fn : Nat) (r : TenantRec) (s : State), tenantOfFn s fn = some r → isReady s = true →
    ∃ t, exec (.tenantEnable fn) s = .next t ∧ fnState t (.tenant r.tenant) = enabled (fnState s (.tenant r.tenant))) ∧
  (∀ (fn : Nat) (r : TenantRec) (s : State), tenantOfFn s fn = some r → (fnState s (.tenant r.tenant)).st = .on →
    ∃ t, exec (.tenantDisable fn) s = .next t ∧ (fnState t (.tenant r.tenant)).st = .stopping ∧ t.host.slots = s.host.slots) ∧
  (∀ (fn q : Nat) (r : TenantRec) (s : State), tenantOfFn s fn = some r → q < r.queuePairs → isReady s = true →
    let p := queueOf s fn q
    (p.fn.st = .starting ∨ p.fn.st = .on → ∃ t, exec (.queueEnable fn q) s = .next t ∧ queueOf t fn q = p) ∧
    (p.fn.st = .off ∨ p.fn.st = .stopping → ¬ (tenantFn s r.tenant).st = .on →
      ∃ t, exec (.queueEnable fn q) s = .next t ∧ queueOf t fn q = { p with code := 0x0B31 }) ∧
    (p.fn.st = .off ∨ p.fn.st = .stopping → (tenantFn s r.tenant).st = .on → ¬ (good p.sqBase p.sqLog 16 ∧ good p.cqBase p.cqLog 16) →
      ∃ t, exec (.queueEnable fn q) s = .next t ∧ queueOf t fn q = { p with code := 0x0B30 }) ∧
    (p.fn.st = .off ∨ p.fn.st = .stopping → (tenantFn s r.tenant).st = .on → good p.sqBase p.sqLog 16 → good p.cqBase p.cqLog 16 →
      ∃ t, exec (.queueEnable fn q) s = .next t ∧ queueOf t fn q =
        if p.fn.st = .off then { p with fn := enabled p.fn, code := 0, sqTail := 0, cqHead := 0, sqHead := 0, cqTail := 0,
                                        phase := true, unreadSince := none }
        else { p with fn := enabled p.fn, code := 0 })) ∧
  (∀ (fn q : Nat) (r : TenantRec) (s : State), tenantOfFn s fn = some r → q < r.queuePairs → isReady s = true → (queueOf s fn q).fn.st = .on →
    ∃ t, exec (.queueDisable fn q) s = .next t ∧ (queueOf t fn q).fn.st = .stopping ∧ (queueOf t fn q).stoppedAt = s.mono ∧
      (∀ x : Slot, unstarted s fn q = [x] → slotById s x.id = some x → x.dead = false → s.rel.mirrors = [] →
        ∃ d, t.host.due = s.host.due ++ [d] ∧ d.slot = x.id ∧ d.status = 0x0B2C ∧ d.result0 = 0 ∧ d.result1 = 0)) ∧
  (∀ (fn q : Nat) (s : State), (queueOf s fn q).fn.st = .stopping →
    (s.mono < (queueOf s fn q).stoppedAt + 5000000 → exec (.queueShutdownTimeout fn q) s = .next s) ∧
    ((queueOf s fn q).stoppedAt + 5000000 ≤ s.mono → ∃ t, exec (.queueShutdownTimeout fn q) s = .next t ∧
      (queueOf t fn q).fn.st ≠ .stopping ∧
      ((queueOf s fn q).fn.latch = false → (queueOf t fn q).fn = { st := .off, latch := false }) ∧
      (∀ x ∈ t.host.slots, x.cmd.fn = fn → x.cmd.q = q → x.cmd.src = none → x.dead = true) ∧
      (∀ d ∈ t.host.due, ¬ (d.fn = fn ∧ d.q = q)))) ∧
  (∀ (fn : Nat) (r : TenantRec) (s : State), tenantOfFn s fn = some r → isReady s = true →
    let k := kettleOf s fn
    (k.fn.st = .starting ∨ k.fn.st = .on → ∃ t, exec (.kettleEnable fn) s = .next t ∧ kettleOf t fn = k) ∧
    (k.fn.st = .off ∨ k.fn.st = .stopping → ¬ (tenantFn s r.tenant).st = .on →
      ∃ t, exec (.kettleEnable fn) s = .next t ∧ kettleOf t fn = { k with code := 0x0B31 }) ∧
    (k.fn.st = .off ∨ k.fn.st = .stopping → (tenantFn s r.tenant).st = .on → ¬ good k.base k.sizeLog 20 →
      ∃ t, exec (.kettleEnable fn) s = .next t ∧ kettleOf t fn = { k with code := 0x0B30 }) ∧
    (k.fn.st = .off ∨ k.fn.st = .stopping → (tenantFn s r.tenant).st = .on → good k.base k.sizeLog 20 →
      ∃ t, exec (.kettleEnable fn) s = .next t ∧ (kettleOf t fn).fn = enabled k.fn ∧ (kettleOf t fn).code = 0 ∧
        (k.fn.st = .off → (kettleOf t fn).tail = 0 ∧ (kettleOf t fn).head = 0 ∧ (kettleOf t fn).poison = 0 ∧
          (s.host.staging.length < 64 → (kettleOf t fn).lost ≤ 1)))) ∧
  (∀ (fn : Nat) (r : TenantRec) (s : State), tenantOfFn s fn = some r → isReady s = true → (kettleOf s fn).fn.st = .on →
    ∃ t, exec (.kettleDisable fn) s = .next t ∧ (kettleOf t fn).fn.st = .stopping ∧ (kettleOf t fn).opened = [] ∧
      (∀ w ∈ t.host.staging, w.1 ≠ fn) ∧
      satAdd 32 (kettleOf s fn).lost ((((s.host.staging.filter fun w => w.1 = fn).map (·.2.valid)).sum + (kettleOf s fn).opened.length)) ≤
        (kettleOf t fn).lost)

/-- On a page that exists, a write of the tail of the submission queue below the entry count becomes the tail, and a write of the head of the
completion queue below the entry count that does not pass the completion tail becomes the head; every other value is ignored and sets CODE to 0x0B2E.
Every other field of the queue pair (but the note of unread completions) and every other queue pair stays. What the host placed in its memory before
the doorbell is in host memory after it. -/
def Obligations.DoorbellsObeyTheirBounds : Prop :=
  (∀ (fn q v : Nat) (placed : List Host.Cell) (bad : List Nat) (s : State), pageExists s fn q = true → s.hostMem.wf = true →
    ∃ t, exec (.sqTailDoorbell fn q v placed bad) s = .next t ∧
      queueOf t fn q = (if v % 2 ^ 16 < 2 ^ (queueOf s fn q).sqLog then { queueOf s fn q with sqTail := v % 2 ^ 16 }
                        else { queueOf s fn q with code := 0x0B2E }) ∧
      (∀ k : Nat × Nat, k ≠ (fn, q) → queueOf t k.1 k.2 = queueOf s k.1 k.2) ∧
      t.hostMem = s.hostMem.place placed ∧ t.host.badLines = bad ∧ t.host.slots = s.host.slots ∧ t.host.due = s.host.due) ∧
  (∀ (fn q v : Nat) (s : State), pageExists s fn q = true →
    let p := queueOf s fn q
    let n := 2 ^ p.cqLog
    let x := v % 2 ^ 16
    ∃ t, exec (.cqHeadDoorbell fn q v) s = .next t ∧
      (n ≤ x → queueOf t fn q = { p with code := 0x0B2E }) ∧
      (x < n → (p.cqTail + n - p.cqHead) % n < (x + n - p.cqHead) % n → queueOf t fn q = { p with code := 0x0B2E }) ∧
      (x < n → (x + n - p.cqHead) % n ≤ (p.cqTail + n - p.cqHead) % n →
        queueOf t fn q = { p with cqHead := x, unreadSince := if x = p.cqTail then none else p.unreadSince }) ∧
      (∀ k : Nat × Nat, k ≠ (fn, q) → queueOf t k.1 k.2 = queueOf s k.1 k.2) ∧ t.host.slots = s.host.slots ∧ t.host.due = s.host.due)

/-- On a page that exists, in READY, a write of one of the five configuration registers of a queue pair, or of the three of a Kettle ring, gives that
register's bits the value while it is OFF and changes no other field; otherwise it changes nothing but CODE, which becomes 0x0B2F. A page that does
not exist, a module that is not in READY and a place that is no such register ignore the write. -/
def Obligations.ConfigurationIsWrittenOnlyWhileOff : Prop :=
  (∀ (fn q off v : Nat) (s : State), pageExists s fn q = true → off ∈ [0x010, 0x014, 0x018, 0x01C, 0x020] → (queueOf s fn q).fn.st = .off →
    let p := queueOf s fn q
    let x := v % 2 ^ 32
    exec (.queueConfigWrite fn q off v) s = .next (setQueue s fn q
      (if off = 0x010 then { p with sqBase := p.sqBase / 2 ^ 32 * 2 ^ 32 + x }
       else if off = 0x014 then { p with sqBase := p.sqBase % 2 ^ 32 + x * 2 ^ 32 }
       else if off = 0x018 then { p with cqBase := p.cqBase / 2 ^ 32 * 2 ^ 32 + x }
       else if off = 0x01C then { p with cqBase := p.cqBase % 2 ^ 32 + x * 2 ^ 32 }
       else { p with sqLog := v % 32, cqLog := v / 256 % 32 }))) ∧
  (∀ (fn q off v : Nat) (s : State), pageExists s fn q = true → off ∈ [0x010, 0x014, 0x018, 0x01C, 0x020] → (queueOf s fn q).fn.st ≠ .off →
    ∃ t, exec (.queueConfigWrite fn q off v) s = .next t ∧ queueOf t fn q = { queueOf s fn q with code := 0x0B2F } ∧
      (∀ k : Nat × Nat, k ≠ (fn, q) → queueOf t k.1 k.2 = queueOf s k.1 k.2)) ∧
  (∀ (fn q off v : Nat) (s : State), pageExists s fn q = false ∨ off ∉ [0x010, 0x014, 0x018, 0x01C, 0x020] →
    exec (.queueConfigWrite fn q off v) s = .next s) ∧
  (∀ (fn off v : Nat) (r : TenantRec) (s : State), tenantOfFn s fn = some r → isReady s = true → off ∈ [0x000, 0x004, 0x008] →
    (kettleOf s fn).fn.st = .off →
    let k := kettleOf s fn
    exec (.kettleConfigWrite fn off v) s = .next (setKettle s fn
      (if off = 0x000 then { k with base := k.base / 2 ^ 32 * 2 ^ 32 + v % 2 ^ 32 }
       else if off = 0x004 then { k with base := k.base % 2 ^ 32 + v % 2 ^ 32 * 2 ^ 32 }
       else { k with sizeLog := v % 32 }))) ∧
  (∀ (fn off v : Nat) (r : TenantRec) (s : State), tenantOfFn s fn = some r → isReady s = true → off ∈ [0x000, 0x004, 0x008] →
    (kettleOf s fn).fn.st ≠ .off →
    ∃ t, exec (.kettleConfigWrite fn off v) s = .next t ∧ kettleOf t fn = { kettleOf s fn with code := 0x0B2F }) ∧
  (∀ (fn off v : Nat) (s : State), tenantOfFn s fn = none ∨ isReady s = false ∨ off ∉ [0x000, 0x004, 0x008] →
    exec (.kettleConfigWrite fn off v) s = .next s)

/-- With the link up in READY, the eligible queue pair nearest its pointer, by requester number function × 64 + queue of 1,088, is granted; a queue
with one readable entry that passes the checks (all but the lookup of a batch, which is made at its start) gives it to a new slot, its head moves past
it, and the pointer moves past the queue; nothing else changes. An unreadable entry completes with HOST_READ_ERROR, CID 0xFFFF and its index in
RESULT0. No grant takes more than eight slots; with no eligible queue pair, or with the link down, nothing changes. -/
def Obligations.FetchTakesEntriesIntoSlots : Prop :=
  let away (s : State) (k : Nat × Nat) : Nat := (k.1 * 64 + k.2 + 1088 - s.host.fetchPtr) % 1088
  (∀ (fn q : Nat) (s : State), s.host.link.up = true → isReady s = true → s.boot.stop = none →
    thas s.host.queues (fn, q) = true → fetchEligible s fn q = true →
    (∀ k, thas s.host.queues k = true → fetchEligible s k.1 k.2 = true → k ≠ (fn, q) → away s (fn, q) < away s k) →
    (queueOf s fn q).sqTail = ((queueOf s fn q).sqHead + 1) % 2 ^ (queueOf s fn q).sqLog →
    let p := queueOf s fn q
    let addr := p.sqBase + p.sqHead * 64
    let c : Cmd := { fn := fn, q := q, src := none, w0 := s.hostMem.readWord addr, w1 := s.hostMem.readWord (addr + 8),
                     w2 := s.hostMem.readWord (addr + 16), w3 := s.hostMem.readWord (addr + 24), w4 := s.hostMem.readWord (addr + 32),
                     w5 := s.hostMem.readWord (addr + 40), w6 := s.hostMem.readWord (addr + 48), w7 := s.hostMem.readWord (addr + 56) }
    let x : Slot := { id := s.host.nextSlot, cmd := c, order := 0, arrived := 0, members := [], phase := .fetched, sentAt := 0, sentTo := none,
                      askedAt := 0, aux := 0, lens := [], injected := false, dead := false }
    let host1 : HostIf := { s.host with queues := tset s.host.queues (fn, q) { p with sqHead := p.sqTail }
                                        slots := s.host.slots ++ [x], nextSlot := s.host.nextSlot + 1, fetchPtr := (fn * 64 + q + 1) % 1088 }
    (s.host.badLines.contains (addr / 64) = false → fetchChecks { s with host := host1 } c = none →
      exec .commandFetch s = .next { s with host := host1 }) ∧
    (s.host.badLines.contains (addr / 64) = true → s.rel.mirrors = [] → slotById s s.host.nextSlot = none →
      ∃ (t : State) (d : Completion), exec .commandFetch s = .next t ∧ t.host.due = s.host.due ++ [d] ∧ d.slot = s.host.nextSlot ∧
        d.cid = 0xFFFF ∧ d.status = 0x0B2D ∧ d.result0 = p.sqHead ∧ d.result1 = 0 ∧ (queueOf t fn q).sqHead = p.sqTail)) ∧
  (∀ s : State, ∃ t, exec .commandFetch s = .next t ∧ t.host.slots.length ≤ s.host.slots.length + 8) ∧
  (∀ s : State, s.host.link.up = false ∨ isReady s = false ∨ (∀ fn q : Nat, fetchEligible s fn q = false) → exec .commandFetch s = .next s)

/-- With the link up and an entry free, the oldest completion due on the queue is written as one 32-byte entry at the completion tail, laid out as
Table 4.8 says with the expected phase; the tail moves on, the phase flips where it wraps, the slot and the completion are released, and every byte of
host memory outside the 32 is as before. With NOTIFY on a vector that is neither masked nor recently signalled, the queue's vector is signalled. With
no free entry or the link down nothing changes. -/
def Obligations.CompletionsAreWrittenWhenThereIsRoom : Prop :=
  (∀ (fn q : Nat) (d : Completion) (rest : List Completion) (s : State), s.host.due = d :: rest → d.fn = fn → d.q = q →
    ((slotById s d.slot).map (·.cmd.src)) = some none → s.hostMem.wf = true → s.host.link.up = true → d.injected = false →
    let p := queueOf s fn q
    let n := 2 ^ p.cqLog
    (p.cqTail + 1) % n ≠ p.cqHead →
    let w0 := d.cid % 2 ^ 16 * 2 ^ 48 + d.status % 2 ^ 16 * 2 ^ 32 + p.sqHead % 2 ^ 16 * 2 ^ 16 + (if d.forwarded then 128 else 0) +
      d.q % 64 * 2 + (if p.phase then 1 else 0)
    ∃ t, exec (.completionPost fn q) s = .next t ∧
      t.hostMem = s.hostMem.writeBytes (p.cqBase + p.cqTail * 32) (leBytes 8 w0 ++ leBytes 8 d.handle ++ leBytes 8 d.result0 ++ leBytes 8 d.result1) ∧
      (∀ a, a < p.cqBase + p.cqTail * 32 ∨ p.cqBase + p.cqTail * 32 + 32 ≤ a → t.hostMem.read a = s.hostMem.read a) ∧
      (queueOf t fn q).cqTail = (p.cqTail + 1) % n ∧ (queueOf t fn q).phase = (if (p.cqTail + 1) % n = 0 then !p.phase else p.phase) ∧
      (queueOf t fn q).sqHead = p.sqHead ∧ slotById t d.slot = none ∧ t.host.due = rest.filter (fun x => x.slot ≠ d.slot) ∧
      (d.notify = true → vecMasked (funcOf s fn) (2 + q) = false → tget (funcOf s fn).lastSignal (2 + q) = none →
        t.host.signals = (fn, 2 + q) :: s.host.signals) ∧
      (d.notify = false → t.host.signals = s.host.signals)) ∧
  (∀ (fn q : Nat) (s : State), s.host.link.up = false ∨ ((queueOf s fn q).cqTail + 1) % 2 ^ (queueOf s fn q).cqLog = (queueOf s fn q).cqHead →
    exec (.completionPost fn q) s = .next s)

/-- INTERRUPT_COALESCE_TIMER signals a queue's vector whose completion has been unread for 8 µs with no signal, or holds it pending where it is
masked. Before READY IRQ_MASK_WRITE changes nothing; from then on, with nothing pending, it gives the mask its value and changes nothing else; a
vector held pending that the write unmasks, not signalled before, is signalled and pends no longer. -/
def Obligations.InterruptsWaitForMasksAndTimers : Prop :=
  (∀ (fn q u : Nat) (s : State), (queueOf s fn q).unreadSince = some u → u + 8000 ≤ s.mono → tget (funcOf s fn).lastSignal (2 + q) = none →
    ∃ t, exec (.interruptCoalesceTimer fn (2 + q)) s = .next t ∧
      (vecMasked (funcOf s fn) (2 + q) = false → t.host.signals = (fn, 2 + q) :: s.host.signals) ∧
      (vecMasked (funcOf s fn) (2 + q) = true → t.host.signals = s.host.signals ∧ (funcOf t fn).vecPending.contains (2 + q) = true) ∧
      t.host.queues = s.host.queues) ∧
  (∀ (fn v : Nat) (s : State), isReady s = true → (funcOf s fn).vecPending = [] →
    exec (.irqMaskWrite fn .lo v) s = .next (setFunc s fn { funcOf s fn with maskLo := v % 2 ^ 32 }) ∧
    exec (.irqMaskWrite fn .hi v) s = .next (setFunc s fn { funcOf s fn with maskHi := v % 2 ^ 32 }) ∧
    exec (.irqMaskWrite fn .evt v) s = .next (setFunc s fn { funcOf s fn with maskFunc := bit v 0, maskKettle := bit v 1 })) ∧
  (∀ (fn v : Nat) (m : IrqMask) (s : State), isReady s = false → exec (.irqMaskWrite fn m v) s = .next s) ∧
  (∀ (fn n v : Nat) (s : State), isReady s = true → (funcOf s fn).vecPending = [] → bit v 0 = true → (funcOf s fn).vecMasked = [] →
    exec (.irqMaskWrite fn (.msix n) v) s = .next (setFunc s fn { funcOf s fn with vecMasked := [n] })) ∧
  (∀ (fn q v : Nat) (s : State), isReady s = true → (funcOf s fn).vecPending = [2 + q] → q < 32 → (funcOf s fn).vecMasked = [] → bit (v % 2 ^ 32) q = false →
    tget (funcOf s fn).lastSignal (2 + q) = none →
    ∃ t, exec (.irqMaskWrite fn .lo v) s = .next t ∧ t.host.signals = (fn, 2 + q) :: s.host.signals ∧ (funcOf t fn).vecPending = [] ∧
      (funcOf t fn).maskLo = v % 2 ^ 32)

/-- Twenty µs after the first record of the open word, it is closed with pad records that carry the count of valid bytes and joins the module's one
staging buffer, where the 65th word takes the place of the oldest and its ring counts that word's records lost; before, nothing changes. The oldest
staged word of a ring that is ON is written at KETTLE_BASE + (tail mod size) × 64 and the tail rises by one; a full ring first raises its head and
counts the overwritten word's valid records lost; a word that fails parity is written with island byte 0xFE in its eight slots and counted poisoned.
No byte outside the 64 changes. -/
def Obligations.KettleWordsReachTheRing : Prop :=
  (∀ (fn : Nat) (s : State), (kettleOf s fn).opened ≠ [] → (kettleOf s fn).openedAt + 20000 ≤ s.mono →
    let k := kettleOf s fn
    let n := k.opened.length
    let w : KettleWord := { slots := k.opened ++ List.replicate (8 - n) (eventWord 0xFF 0 (8 * n) (islandTime s 31)), valid := n }
    ∃ t, exec (.kettleFlushTimer fn) s = .next t ∧
      (s.host.staging.length < 64 → kettleOf t fn = { k with opened := [] } ∧ t.host.staging = s.host.staging ++ [(fn, w)]) ∧
      (∀ o r, s.host.staging = o :: r → 63 ≤ r.length → t.host.staging = r ++ [(fn, w)] ∧ (kettleOf t fn).opened = [] ∧
        (kettleOf t o.1).lost = satAdd 32 (kettleOf s o.1).lost o.2.valid)) ∧
  (∀ (fn : Nat) (s : State), (kettleOf s fn).opened = [] ∨ s.mono < (kettleOf s fn).openedAt + 20000 →
    exec (.kettleFlushTimer fn) s = .next s) ∧
  (∀ (fn : Nat) (bad : Bool) (w : KettleWord) (a r : List (Nat × KettleWord)) (s : State), s.host.staging = a ++ (fn, w) :: r →
    (∀ y ∈ a, y.1 ≠ fn) → s.host.link.up = true → (kettleOf s fn).fn.st = .on → s.hostMem.wf = true →
    let k := kettleOf s fn
    let size := 2 ^ k.sizeLog
    let full := (k.tail + 2 ^ 32 - k.head) % 2 ^ 32 = size
    let at' := k.base + k.tail % size * 64
    let words := if bad then w.slots.map fun x => BitVec.ofNat 64 (0xFE * 2 ^ 56 + x.toNat % 2 ^ 56) else w.slots
    ∃ t, exec (.kettleWordWrite fn bad) s = .next t ∧
      (kettleOf t fn).tail = wrapAdd 32 k.tail 1 ∧ t.host.staging = a ++ r ∧
      (kettleOf t fn).head = (if full then wrapAdd 32 k.head 1 else k.head) ∧
      (kettleOf t fn).lost = (if full then satAdd 32 k.lost (tgetD k.counts (k.head % size) 0) else k.lost) ∧
      (kettleOf t fn).poison = (if bad then satAdd 32 k.poison 1 else k.poison) ∧
      tget (kettleOf t fn).counts (k.tail % size) = some (if bad then 8 else w.valid) ∧
      t.hostMem = s.hostMem.writeBytes at' (words.flatMap wordBytes) ∧
      (w.slots.length = 8 → ∀ a, a < at' ∨ at' + 64 ≤ a → t.hostMem.read a = s.hostMem.read a))

/-- In READY, on a function with a tenant, a write of V to KETTLE_HEAD becomes the head where (V − KETTLE_HEAD) mod 2^32 is not greater than
KETTLE_TAIL − KETTLE_HEAD, and changes nothing else; any other value is ignored. -/
def Obligations.KettleHeadMovesOnlyToTheTail : Prop :=
  ∀ (fn v : Nat) (r : TenantRec) (s : State), tenantOfFn s fn = some r → isReady s = true →
    let k := kettleOf s fn
    ((v % 2 ^ 32 + 2 ^ 32 - k.head) % 2 ^ 32 ≤ (k.tail + 2 ^ 32 - k.head) % 2 ^ 32 →
      exec (.kettleHeadWrite fn v) s = .next (setKettle s fn { k with head := v % 2 ^ 32 })) ∧
    ((k.tail + 2 ^ 32 - k.head) % 2 ^ 32 < (v % 2 ^ 32 + 2 ^ 32 - k.head) % 2 ^ 32 → exec (.kettleHeadWrite fn v) s = .next s)

/-- A reachable write of MGMT_KNOB_VAL sets RESULT, on the path that wrote, to 0x0B10 where the knob is not listed in the image, else 0x0B12 where the
instance does not exist, else 0x0B11 where the value is out of bounds, and changes nothing else. Otherwise RESULT is 0 and the value takes effect, at
once or, for the knobs that take effect at a boundary, as the last accepted write that waits for it. A path that cannot reach the MGMT block changes
nothing, and the other path's selectors never change. -/
def Obligations.KnobWritesAreCheckedInOrder : Prop :=
  (∀ (p : Path) (v : Nat) (s : State), mgmtReachable s p = false → exec (.knobWrite p v) s = .next s) ∧
  (∀ (p : Path) (v : Nat) (s : State), mgmtReachable s p = true →
    let r := pathRegs s p
    let x := v % 2 ^ 32
    let result (c : Nat) : State := setPath s p { r with knobResult := c }
    (s.image.knobs.find? (·.knob = r.knob) = none → exec (.knobWrite p v) s = .next (result 0x0B10)) ∧
    (∀ k : KnobRec, s.image.knobs.find? (·.knob = r.knob) = some k →
      (tget (knobInstances s.image r.knob) r.knobIndex = none → exec (.knobWrite p v) s = .next (result 0x0B12)) ∧
      (∀ w, tget (knobInstances s.image r.knob) r.knobIndex = some w →
        (x < k.min ∨ k.max < x → exec (.knobWrite p v) s = .next (result 0x0B11)) ∧
        (k.min ≤ x → x ≤ k.max → ∃ t, exec (.knobWrite p v) s = .next t ∧ pathRegs t p = { r with knobResult := 0 } ∧
          (∀ p', p' ≠ p → pathRegs t p' = pathRegs s p') ∧
          (r.knob ∈ [1, 2, 3, 4, 5, 9] → tget t.mgmt.knobsDue (r.knob, r.knobIndex) = some x ∧ t.mgmt.knobs = s.mgmt.knobs) ∧
          (r.knob ∈ [6, 7, 8] → knobValue t r.knob r.knobIndex = some x ∧ t.mgmt.knobsDue = s.mgmt.knobsDue) ∧
          t.gov = s.gov ∧ t.host = s.host))))

/-- A reachable write of MGMT_PCTR_CFG clears the selected counter, gives it the new configuration and raises the island's CONFIG_SEQ. A write of
MGMT_DUMP_HEAD takes effect only up to the tail. Reads of MGMT_CTR_LO and MGMT_TIME_LO return the low half and latch the high half of the selected
item; MGMT_RAIL_V returns VALID and the millivolts of the rail's last reading and latches its current, and reads zero of a rail that has none.
HOST_CTR_LO does the same in READY for a function whose tenant may read counters, and returns zero, latching nothing, where it may not. A write of a
selector sets that selector on its own path alone; of any other MGMT, queue-pair or Kettle register without a row of its own it changes nothing. With
the link up a write of a vector's message data, or of NumVFs up to 16, reads back. A 32-bit aligned access to a function's BAR reads the register of
the block that Table 4.2 gives its offset: of a queue pair that exists, in READY with the link up, its doorbells, SQ head and status, base and size
registers and code; of a Kettle ring its base, size, status, code, tail, head and counts; of function 0 the MGMT block, where MGMT_BOOT shows state,
step and reason, and MGMT_BOOT_DETAIL the detail. HOST_FUNC_CTL, HOST_Q_CTL and KETTLE_CTL read zero, and so does the page of a queue pair that the
tenant does not have, a register block before READY, a virtual function's MGMT offsets, and every access that is not 32 bits wide and aligned; such a
write is no command. -/
def Obligations.RegistersLatchAndSelect : Prop :=
  (∀ (p : Path) (v : Nat) (s : State), mgmtReachable s p = true → (pathRegs s p).pctrIsland < 40 →
    islandAbsent s.order (pathRegs s p).pctrIsland = false →
    let k := ((pathRegs s p).pctrIsland, (pathRegs s p).pctrIndex)
    ∃ t, exec (.pctrCfgWrite p v) s = .next t ∧ tget t.tele.pctrs k = some
        { enable := bit v 31, edge := bit v 30, filter := bit v 29, tenant := v / 2 ^ 25 % 16, signal := v / 2 ^ 16 % 512,
          threshold := v / 2 ^ 8 % 256, count := 0, last := 0 } ∧
      (∀ k', k' ≠ k → tget t.tele.pctrs k' = tget s.tele.pctrs k') ∧
      tgetD t.tele.configSeq k.1 0 = wrapAdd 32 (tgetD s.tele.configSeq k.1 0) 1 ∧ t.tele.events = s.tele.events) ∧
  (∀ (p : Path) (v : Nat) (s : State), mgmtReachable s p = true →
    ((v % 2 ^ 32 + 2 ^ 32 - s.tele.dumpHead) % 2 ^ 32 ≤ (s.tele.dumpTail + 2 ^ 32 - s.tele.dumpHead) % 2 ^ 32 →
      exec (.dumpHeadWrite p v) s = .next { s with tele := { s.tele with dumpHead := v % 2 ^ 32 } }) ∧
    ((s.tele.dumpTail + 2 ^ 32 - s.tele.dumpHead) % 2 ^ 32 < (v % 2 ^ 32 + 2 ^ 32 - s.tele.dumpHead) % 2 ^ 32 →
      exec (.dumpHeadWrite p v) s = .next s)) ∧
  (∀ (p : Path) (s : State), mgmtReachable s p = true →
    exec (.mgmtCtrLoRead p) s = (let x := ctrItem s (pathRegs s p).ctrIsland (pathRegs s p).ctrItem
      .next { s with mgmt := { s.mgmt with ctrLo := x % 2 ^ 32, ctrHi := x / 2 ^ 32 }, host := { s.host with readData := x % 2 ^ 32 } }) ∧
    exec (.mgmtTimeLoRead p) s = (let x := timeCount s (pathRegs s p).timeSel
      .next { s with mgmt := { s.mgmt with timeHi := x / 2 ^ 32 }, host := { s.host with readData := x % 2 ^ 32 } }) ∧
    (∀ (x : RailReading) (l : List RailReading), railReadings s (pathRegs s p).railSel = x :: l → (pathRegs s p).railSel ≤ 9 →
      exec (.mgmtRailVRead p) s = .next { s with
        mgmt := { s.mgmt with railI := x.deciAmp % 2 ^ 16 }
        host := { s.host with readData := (if s.mono ≤ x.at' + 1000000 then 2 ^ 31 else 0) + x.mv % 2 ^ 16 } }) ∧
    (railReadings s (pathRegs s p).railSel = [] →
      exec (.mgmtRailVRead p) s = .next { s with mgmt := { s.mgmt with railI := 0 }, host := { s.host with readData := 0 } })) ∧
  (∀ (fn : Nat) (r : TenantRec) (s : State), tenantOfFn s fn = some r →
    (r.counterRead = false ∨ isReady s = false → exec (.hostCtrLoRead fn) s = .next { s with host := { s.host with readData := 0 } } ∧
      ∀ v, exec (.registerWrite (.func fn) 0x0100 v) s = .next s) ∧
    (r.counterRead = true → isReady s = true → ∃ t, exec (.hostCtrLoRead fn) s = .next t ∧
      t.host.readData = hostCtrItem s r.tenant (funcOf s fn).ctrSel % 2 ^ 32 ∧
      funcOf t fn = { funcOf s fn with ctrHi := hostCtrItem s r.tenant (funcOf s fn).ctrSel / 2 ^ 32 }) ∧
    (∀ v, r.counterRead = true → isReady s = true → exec (.registerWrite (.func fn) 0x0100 v) s = .next (setFunc s fn { funcOf s fn with ctrSel := v % 2 ^ 16 }))) ∧
  (∀ (p : Path) (v : Nat) (s : State), mgmtReachable s p = true →
    let r := pathRegs s p
    exec (.registerWrite (.mgmt p) 0x0010 v) s = .next (setPath s p { r with knob := v / 2 ^ 16 % 2 ^ 16, knobIndex := v % 2 ^ 16 }) ∧
    exec (.registerWrite (.mgmt p) 0x0500 v) s = .next (setPath s p { r with healthPart := v / 2 ^ 24 % 256, healthIndex := v % 2 ^ 11 }) ∧
    exec (.registerWrite (.mgmt p) 0x0510 v) s = .next (setPath s p { r with timeSel := v % 8 }) ∧
    exec (.registerWrite (.mgmt p) 0x0700 v) s = .next (setPath s p { r with ctrIsland := v / 2 ^ 24 % 256, ctrItem := v % 2 ^ 16 }) ∧
    exec (.registerWrite (.mgmt p) 0x0710 v) s = .next (setPath s p { r with pctrIsland := v / 2 ^ 24 % 256, pctrIndex := v % 8 }) ∧
    exec (.registerWrite (.mgmt p) 0x0804 v) s = .next (setPath s p { r with railSel := v % 16 }) ∧
    (∀ off, off ∉ [0x0010, 0x0500, 0x0510, 0x0700, 0x0710, 0x0804] → exec (.registerWrite (.mgmt p) off v) s = .next s)) ∧
  (∀ (fn q off v : Nat) (s : State), exec (.registerWrite (.queue fn q) off v) s = .next s ∧ exec (.registerWrite (.kettle fn) off v) s = .next s) ∧
  (∀ (fn n v : Nat) (s : State), n < 66 → s.host.link.up = true →
    ∃ t, exec (.registerWrite (.msix fn) (16 * n + 8) v) s = .next t ∧ registerRead t (.msix fn) (16 * n + 8) = v % 2 ^ 32 ∧
      (∀ g, g ≠ fn → funcOf t g = funcOf s g) ∧ t.host.signals = s.host.signals) ∧
  (∀ (v : Nat) (s : State), s.host.link.up = true → v < 17 →
    ∃ t, exec (.registerWrite .sriov 0x10 v) s = .next t ∧ registerRead t .sriov 0x10 = v ∧ t.host.bar = s.host.bar) ∧
  (∀ (fn off width : Nat) (s : State), width ≠ 4 ∨ off % 4 ≠ 0 → barRead s fn off width = 0 ∧ ∀ v, barWrite fn off width v = none) ∧
  (∀ (fn q off : Nat) (s : State), q < 64 → off < 4096 → off % 4 = 0 →
    barRead s fn (0x10000 + 0x1000 * q + off) 4 = registerRead s (.queue fn q) off) ∧
  (∀ (fn q : Nat) (s : State), pageExists s fn q = true → s.host.link.up = true →
    let p := queueOf s fn q
    let at' := registerRead s (.queue fn q)
    at' 0x000 = p.sqTail ∧ at' 0x004 = p.cqHead ∧ at' 0x008 = 0 ∧ at' 0x00C = p.sqHead * 2 ^ 16 + p.fn.st.code ∧
    at' 0x010 = p.sqBase % 2 ^ 32 ∧ at' 0x014 = p.sqBase / 2 ^ 32 ∧ at' 0x018 = p.cqBase % 2 ^ 32 ∧ at' 0x01C = p.cqBase / 2 ^ 32 ∧
    at' 0x020 = p.cqLog * 2 ^ 8 + p.sqLog ∧ at' 0x024 = p.code) ∧
  (∀ (fn q off : Nat) (s : State), pageExists s fn q = false ∨ s.host.link.up = false → registerRead s (.queue fn q) off = 0) ∧
  (∀ (fn off : Nat) (s : State), isReady s = false ∨ s.host.link.up = false →
    registerRead s (.func fn) off = 0 ∧ registerRead s (.kettle fn) off = 0) ∧
  (∀ (fn : Nat) (r : TenantRec) (s : State), tenantOfFn s fn = some r → isReady s = true → s.host.link.up = true →
    let k := kettleOf s fn
    let at' := registerRead s (.kettle fn)
    at' 0x000 = k.base % 2 ^ 32 ∧ at' 0x004 = k.base / 2 ^ 32 ∧ at' 0x008 = k.sizeLog ∧ at' 0x00C = 0 ∧ at' 0x010 = k.code * 2 ^ 16 + k.fn.st.code ∧
    at' 0x014 = k.tail ∧ at' 0x018 = k.head ∧ at' 0x01C = k.lost ∧ at' 0x020 = k.poison ∧ registerRead s (.func fn) 0x0008 = 0 ∧
    registerRead s (.func fn) 0x0014 = (funcOf s fn).dropped ∧ registerRead s (.func fn) 0x0020 = (funcOf s fn).maskLo) ∧
  (∀ (p : Path) (s : State), mgmtReachable s p = true →
    registerRead s (.mgmt p) 0x0000 = s.boot.state.code * 2 ^ 28 + s.boot.step * 2 ^ 24 + s.boot.reason ∧
    registerRead s (.mgmt p) 0x0004 = s.boot.detail) ∧
  (∀ (fn off : Nat) (s : State), fn ≠ 0 → 0x60000 ≤ off → off < 0x70000 → barRead s fn off 4 = 0 ∧ ∀ v, barWrite fn off 4 v = none)

/-- PERST_N takes its pin low, and with an image in force takes the link down, returns every queue pair to its reset values and every Kettle ring to
OFF, sets every mask, and leaves every tenant's status; without one it does no more. HOST_LINK_TRAINED at a width of 1, 2, 4 or 8 and a rate of Table
4.1 in its mode brings the link up, with one event record where it is degraded; any other training changes nothing. A function-level reset puts the
function's queue pairs and ring OFF with their base and size registers as before and sets its masks, keeps HOST_CQ_DROPPED, and leaves other
functions' queue pairs; a tenant that was ON shows STOPPING, one that was OFF stays so. TENANT_RESET of its own tenant completes with 0x0B21, of one
that the image does not define with 0x0B32; one that is OFF has what it held freed and the command completes with OK at once; one that is ON shows
STOPPING. -/
def Obligations.ResetsBelowTheModule : Prop :=
  let Clean (s t : State) (fn : Nat) : Prop := ∀ q,
    (queueOf t fn q).fn = .clean ∧ (queueOf t fn q).sqTail = 0 ∧ (queueOf t fn q).sqHead = 0 ∧ (queueOf t fn q).cqTail = 0 ∧
    (queueOf t fn q).cqHead = 0 ∧ (queueOf t fn q).phase = true ∧ (queueOf t fn q).sqBase = (queueOf s fn q).sqBase ∧
    (queueOf t fn q).cqBase = (queueOf s fn q).cqBase ∧ (queueOf t fn q).sqLog = (queueOf s fn q).sqLog ∧
    (queueOf t fn q).cqLog = (queueOf s fn q).cqLog
  (∀ s : State, imageInForce s = true → s.boot.stop = none →
    ∃ t, exec .perstN s = .next t ∧ t.boot.perstN = false ∧ t.host.link.up = false ∧ t.host.fetchPtr = 0 ∧
      (∀ fn q, queueOf t fn q = .reset) ∧ (∀ fn, (kettleOf t fn).fn = .clean) ∧
      (∀ fn, (funcOf t fn).maskLo = 0xFFFFFFFF ∧ (funcOf t fn).maskHi = 0xFFFFFFFF ∧ (funcOf t fn).maskKettle = true ∧ (funcOf t fn).maskFunc = true) ∧
      t.host.tenants = s.host.tenants) ∧
  (∀ s : State, imageInForce s = false ∨ s.boot.stop.isSome = true →
    exec .perstN s = .next { s with boot := { s.boot with perstN := false } }) ∧
  (∀ (width rate : Nat) (flit : Bool) (s : State), imageInForce s = true → s.boot.stop = none → (fnState s (.island 29)).st ≠ .stopping →
    width ∈ [1, 2, 4, 8] → rate ∈ [1, 2, 3, 4, 5, 6, 7] → (flit = true ↔ 6 ≤ rate) →
    (5 ≤ rate → width = 8 → exec (.hostLinkTrained width rate flit) s = .next { s with
      host := { s.host with link := { up := true, width := width, rate := rate, flit := flit } }, boot := { s.boot with perstN := true } }) ∧
    (rate < 5 ∨ width < 8 → ∃ t, exec (.hostLinkTrained width rate flit) s = .next t ∧
      t.host.link = { up := true, width := width, rate := rate, flit := flit } ∧ t.boot.perstN = true ∧
      tgetD t.tele.events (29, 0x08) 0 = wrapAdd 48 (tgetD s.tele.events (29, 0x08) 0) 1)) ∧
  (∀ (width rate : Nat) (flit : Bool) (s : State), width ∉ [1, 2, 4, 8] ∨ rate ∉ [1, 2, 3, 4, 5, 6, 7] ∨ ¬ (flit = true ↔ 6 ≤ rate) →
    exec (.hostLinkTrained width rate flit) s = .next s) ∧
  (∀ (fn : Nat) (s : State), imageInForce s = true → s.boot.stop = none → fn ≤ 16 →
    (∀ r, tenantOfFn s fn = some r → (fnState s (.tenant r.tenant)).st = .off) →
    ∃ t, exec (.functionLevelReset fn) s = .next t ∧ Clean s t fn ∧ (kettleOf t fn).fn = .clean ∧ (kettleOf t fn).base = (kettleOf s fn).base ∧
      (funcOf t fn).maskLo = 0xFFFFFFFF ∧ min (2 ^ 32 - 1) (funcOf s fn).dropped ≤ (funcOf t fn).dropped ∧
      (∀ k : Nat × Nat, k.1 ≠ fn → queueOf t k.1 k.2 = queueOf s k.1 k.2) ∧ t.host.tenants = s.host.tenants) ∧
  (∀ (fn : Nat) (r : TenantRec) (s : State), imageInForce s = true → s.boot.stop = none → fn ≤ 16 → tenantOfFn s fn = some r →
    (fnState s (.tenant r.tenant)).st = .on →
    ∃ t, exec (.functionLevelReset fn) s = .next t ∧ (fnState t (.tenant r.tenant)).st = .stopping ∧ Clean s t fn) ∧
  (∀ (c : Cmd) (id : Nat) (s s1 : State), Starts 0xB0 c s id s1 →
    let u := begun s1 id c
    let k := fld c.w2 3 0
    (k = cmdTenant u c → exec (.tenantReset c) s = .next (s.keepHost (finish u id 0x0B21 0 0))) ∧
    (k ≠ cmdTenant u c → tenantRec u k = none → exec (.tenantReset c) s = .next (s.keepHost (finish u id 0x0B32 0 0))) ∧
    (k ≠ cmdTenant u c → (tenantRec u k).isSome = true → (fnState u (.tenant k)).st = .off →
      ∃ v, exec (.tenantReset c) s = .next (s.keepHost (finish v id 0 0 0)) ∧ (∀ e ∈ v.tier.tensors, e.1.1 ≠ k) ∧
        (∀ e ∈ v.host.jobs, e.1.1 ≠ k) ∧ (∀ m ∈ v.tier.models, m.tenant ≠ k) ∧ v.host.tenants = s1.host.tenants) ∧
    (k ≠ cmdTenant u c → (tenantRec u k).isSome = true → (fnState u (.tenant k)).st = .on →
      ∃ t, exec (.tenantReset c) s = .next t ∧ (fnState t (.tenant k)).st = .stopping))

/-- Let a host command of any opcode start on its own queue, the module not quarantined. With its queue pair or tenant STARTING or STOPPING it
completes with 0x0011; else a management opcode away from function 0 with 0x0B21; else a nonzero JOB that is not open with 0x0B25, or closing (but for
JOB_CLOSE) with 0x0B26; else an unregistered batch with 0x0B27; else a handle or member of another tenant with 0x0B22; in each case with results 0 and
no other effect. On a quarantined module it completes with 0x0A04. NOP that passes completes with OK. -/
def Obligations.CommandsAreCheckedAsTheyStart : Prop :=
  let rows : List (Nat × (Cmd → Instr)) :=
    [(0x00, .nop), (0x01, .jobOpen), (0x02, .jobClose), (0x10, .admitRequest), (0x11, (fun c => .prefillChunk c [])), (0x12, .handoff), (0x13,
     .park), (0x14, .resume), (0x15, .cancel), (0x16, .query), (0x17, .logRead), (0x18, .recordRead), (0x20, .pagePromote), (0x21, .pageDemote),
     (0x22, .pagePin), (0x23, .pageUnpin), (0x24, .pageDrop), (0x25, .prefixLookup), (0x26, .prefixPublish), (0x27, .prefixRelease), (0x28,
     .windowOpen), (0x29, .windowAdvance), (0x2A, .windowClose), (0x2B, .t3Attach), (0x2C, .tierQuery), (0x2D, .modelDefine), (0x30, .gemm),
     (0x31, .gemv), (0x32, .gatherRows), (0x33, .vector), (0x34, .tensorAlloc), (0x35, .tensorFree), (0x38, .attendDecode), (0x39,
     .attendPrefill), (0x3A, .softmaxCombine), (0x3B, .attendBwd), (0x40, .sample), (0x41, .draftReset), (0x42, .constraintLoad), (0x43,
     .constraintRetire), (0x50, .camBankSetup), (0x51, .camWrite), (0x52, .camInvalidate), (0x53, .camSearch), (0x54, .camNext), (0x55,
     .camCursorFree), (0x56, .camRead), (0x58, .indexCreate), (0x59, .indexLoadPart), (0x5A, .indexCommit), (0x5B, .indexRetire), (0x5C,
     .vectorSearch), (0x5D, .vectorDelete), (0x5E, .indexQuery), (0x60, .pressStreamOpen), (0x61, .pressStreamClose), (0x62, .pressEncode),
     (0x63, .pressDecode), (0x64, .pressTableInstall), (0x65, .pressTableRead), (0x70, .epOpen), (0x71, .epClose), (0x72, .send), (0x73, .recv),
     (0x74, .flush), (0x75, .mkeyCreate), (0x76, .mkeyDestroy), (0x77, .ctrSet), (0x78, .xportCtxAttach), (0x80, .trayLoad), (0x81, .trayStore),
     (0x82, .trayAtomic), (0x83, .trayReduce), (0x84, .trayMcastStore), (0x85, .trayAlloc), (0x86, .trayGroupSet), (0x90, .batchRegister), (0x91,
     .batchRelease), (0x9D, .queueFence), (0x9E, .placeFence), (0x9F, .trayFence), (0xA0, .adapterLoad), (0xA1, .adapterRetire), (0xA2,
     .adapterQuery), (0xA3, .expertApply), (0xB0, .tenantReset), (0xB1, .portControl), (0xB2, .inject), (0xB3, .shadowControl)]
  let code (s : State) (c : Cmd) : Option Nat :=
    let t := cmdTenant s c
    if inTransition (queueOf s c.fn c.q).fn || inTransition (tenantFn s t) then some 0x0011
    else if 0xB0 ≤ opcodeOf c && opcodeOf c ≤ 0xBF && c.fn ≠ 0 then some 0x0B21
    else if jobOf c ≠ 0 && !thas s.host.jobs (t, jobOf c) then some 0x0B25
    else if jobOf c ≠ 0 && opcodeOf c ≠ 0x02 && (tget s.host.jobs (t, jobOf c)).any (·.closing) then some 0x0B26
    else if isBatch c && !thas s.host.batches (t, batchIdOf c) then some 0x0B27
    else if (if isBatch c then tgetD s.host.batches (t, batchIdOf c) [] else if handleOf c = 0 then [] else [handleOf c]).any
        (fun h => handleTenant h ≠ t) then some 0x0B22
    else none
  (∀ r ∈ rows, ∀ (c : Cmd) (id e : Nat) (s s1 : State), opcodeOf c = r.1 → c.src = none → claim s c = some (id, s1) → s.hostMem.wf = true →
    (s1.rel.quarantined = false → code s1 c = some e → exec (r.2 c) s = .next (s.keepHost (finish s1 id e 0 0))) ∧
    (s1.rel.quarantined = true → exec (r.2 c) s = .next (s.keepHost (finish s1 id 0x0A04 0 0)))) ∧
  (∀ (c : Cmd) (id : Nat) (s s1 : State), Starts 0x00 c s id s1 → exec (.nop c) s = .next (s.keepHost (finish (begun s1 id c) id 0 0 0)))

/-- Let a slot hold a command that has not finished, on a module with no command mirrored. Finishing it with a status and two results makes its
completion due, after those due before, with its CID, handle, status and results, where its queue still takes completions; counts it in
HOST_CQ_DROPPED and frees the slot, where its queue pair has left STOPPING or the link was lost; and, for a command that another module forwarded
here, frees the slot and sends the completion to that module. Nothing else changes but what the module kept for it: what it had learnt or asked of
request owners, its pins, its place in WAIT_TAG and its sampling state. -/
def Obligations.FinishingHasThreeForms : Prop :=
  ∀ (c : Cmd) (id : Nat) (s s1 : State) (x : Slot), Starts 0x00 c s id s1 → s1.rel.primaryTo = none → s1.rel.mirrors = [] →
    slotById s1 id = some x → x.phase ≠ .finished → x.cmd = c →
    let u := noteMembers s1 id c
    let w := releasePins u id
    let v : State := { w with
      req := { w.req with known := w.req.known.filter fun k => k.1 ≠ id, asks := w.req.asks.filter fun a => !decide (a.asker = .forward id) }
      comp := { w.comp with waitTags := w.comp.waitTags.filter fun g => g.2.2 ≠ id, sampling := tdel w.comp.sampling id } }
    (c.src = none → x.dead = false →
      exec (.nop c) s = .next (s.keepHost { v with host := { v.host with
        slots := v.host.slots.map fun y => if y.id = id then { y with phase := .finished } else y
        due := v.host.due ++ [{ slot := id, fn := c.fn, q := c.q, cid := fld c.w0 63 48, status := 0, handle := c.w1.toNat, result0 := 0,
                                result1 := 0, forwarded := false, notify := flag c.w0 8, injected := x.injected, tenant := cmdTenant s1 c }] } })) ∧
    (c.src = none → x.dead = true →
      exec (.nop c) s = .next (s.keepHost (setFunc { v with host := { v.host with slots := v.host.slots.filter fun y => y.id ≠ id } } c.fn
        { funcOf v c.fn with dropped := satAdd 32 (funcOf v c.fn).dropped 1 }))) ∧
    (∀ m k, c.src = some (m, k) →
      exec (.nop c) s = .next (s.keepHost (sysSend { v with host := { v.host with slots := v.host.slots.filter fun y => y.id ≠ id } } m
        (.completion { c with src := none } 0 0 0))))

/-- JOB_OPEN completes with 0x0B24 when the number of jobs that the tenant has open on the module equals its limit. Below the limit it completes with
OK and returns in RESULT0 a job ID from 1 to 65,535 that the tenant does not use; that job is then open, empty and not closing, and the count is one
higher. -/
def Obligations.JobOpenGivesAnUnusedId : Prop :=
  ∀ (c : Cmd) (id : Nat) (s s1 : State) (r : TenantRec), Starts 0x01 c s id s1 → tenantRec s1 (cmdTenant s1 c) = some r → r.jobLimit ≤ 65535 →
    let u := begun s1 id c
    let t := cmdTenant u c
    let fresh : Job := { closing := false, keys := [], handles := [], cancels := [], okCount := 0, waiters := [] }
    let count (v : State) : Nat := (v.host.jobs.filter fun e => e.1.1 = t).length
    (count u = r.jobLimit → exec (.jobOpen c) s = .next (s.keepHost (finish u id 0x0B24 0 0))) ∧
    (count u < r.jobLimit → ∃ (n : Nat) (v : State), 1 ≤ n ∧ n ≤ 65535 ∧ tget u.host.jobs (t, n) = none ∧
      v = { u with host := { u.host with jobs := tset u.host.jobs (t, n) fresh } } ∧
      count v = count u + 1 ∧ exec (.jobOpen c) s = .next (s.keepHost (finish v id 0 n 0)))

/-- JOB_CLOSE of a job that is not open completes with 0x0B25; of one with no request, no ADMIT in hand and no tray region it completes with OK and
the count of cancelled requests, and the job is gone with its tray groups, masks and freeze; with an ADMIT of it in hand, or of a job that is closing,
it waits; of one with a request it issues a CANCEL for it and waits, the job closing. BATCH_REGISTER completes, for the first that fails, with 0x0304
for a misaligned descriptor, 0x0B2D for an unreadable one, 0x0B28 for a count of 0 or above 4,096, 0x0B2B for a repeated handle, 0x0B22 for another
tenant's, 0x0B2A at 4,096 batches; else the batch's members are registered under a new ID, which it returns. BATCH_RELEASE unregisters the ID and
completes once no command of the tenant that started earlier, on whatever queue, names the batch. -/
def Obligations.JobsCloseAndBatchesRegister : Prop :=
  (∀ (c : Cmd) (id : Nat) (s s1 : State), Starts 0x02 c s id s1 →
    let u := begun s1 id c
    let t := cmdTenant u c
    let n := jobOf c
    (tget u.host.jobs (t, n) = none → exec (.jobClose c) s = .next (s.keepHost (finish u id 0x0B25 0 0))) ∧
    (∀ j, tget u.host.jobs (t, n) = some j → j.closing = false → j.handles = [] → jobKeys u t n = [] → admitInHand u t n = false →
      exec (.jobClose c) s = .next (s.keepHost (finish { setPhase u id (.waiting .earlier) with
        host := { (setPhase u id (.waiting .earlier)).host with jobs := tdel u.host.jobs (t, n) }
        tray := { u.tray with
          groups := u.tray.groups.filter (fun (g : Nat × TrayGroup) => !(g.2.tenant = t && g.2.job = n))
          masks := tdel u.tray.masks (t, n)
          frozen := u.tray.frozen.filter (fun (f : Nat × Nat) => !(f = (t, n))) } } id 0 j.okCount 0))) ∧
    (∀ j, tget u.host.jobs (t, n) = some j → j.closing = false → j.handles = [] → jobKeys u t n = [] → admitInHand u t n = true →
      ∃ v, exec (.jobClose c) s = .next v ∧ tget v.host.jobs (t, n) = some { j with closing := true, keys := [], cancels := [], waiters := [id] } ∧
        v.host.due = u.host.due) ∧
    (∀ j, tget u.host.jobs (t, n) = some j → j.closing = true →
      ∃ v, exec (.jobClose c) s = .next v ∧ tget v.host.jobs (t, n) = some { j with waiters := j.waiters ++ [id] } ∧ v.host.due = u.host.due) ∧
    (∀ j h, tget u.host.jobs (t, n) = some j → j.closing = false → j.handles = [h] → jobKeys u t n = [] →
      ∃ v, exec (.jobClose c) s = .next v ∧ v.req.outbox = u.req.outbox ++ [(selfId u, .command (jobCancel u t n h) [h])] ∧
        tget v.host.jobs (t, n) = some { j with closing := true, keys := [], cancels := [h], waiters := [id] })) ∧
  (∀ (c : Cmd) (id : Nat) (s s1 : State), Starts 0x90 c s id s1 →
    let u := begun s1 id c
    let t := cmdTenant u c
    let a := c.w2.toNat
    let n := u.hostMem.readNat a 8 % 2 ^ 13
    let ms := (List.range n).map fun i => u.hostMem.readNat (a + 8 + 8 * i) 8
    let b := freeNumber 1 ((u.host.batches.filter fun e => e.1.1 = t).map (·.1.2))
    exec (.batchRegister c) s = .next (s.keepHost (
      if a % 64 ≠ 0 then finish u id 0x0304 0 0
      else if hostBad u a 8 then finish u id 0x0B2D 0 0
      else if n = 0 ∨ 4096 < n then finish u id 0x0B28 0 0
      else if hostBad u a (8 + 8 * n) then finish u id 0x0B2D 0 0
      else if ¬ ms.Nodup then finish u id 0x0B2B 0 0
      else if ms.any (fun h => handleTenant h ≠ t) then finish u id 0x0B22 0 0
      else if 4096 ≤ (u.host.batches.filter fun e => e.1.1 = t).length then finish u id 0x0B2A 0 0
      else finish { u with host := { u.host with batches := tset u.host.batches (t, b) ms } } id 0 b 0))) ∧
  (∀ (c : Cmd) (id : Nat) (s s1 : State), Starts 0x91 c s id s1 → isBatch c = true →
    let u := begun s1 id c
    let t := cmdTenant u c
    let v : State := { u with host := { u.host with batches := tdel u.host.batches (t, batchIdOf c) } }
    let busy := ∃ y ∈ u.host.slots, startedBefore u id y = true ∧ y.inHand = true ∧ isBatch y.cmd = true ∧ y.cmd.src = none ∧ cmdTenant u y.cmd = t ∧
      batchIdOf y.cmd = batchIdOf c
    (¬ busy → exec (.batchRelease c) s = .next (s.keepHost (finish v id 0 0 0))) ∧
    (busy → exec (.batchRelease c) s = .next (s.keepHost (setPhase v id (.waiting .earlier))))) ∧
  (∀ (c : Cmd) (id : Nat) (s s1 : State), Starts 0x91 c s id s1 → isBatch c = false →
    exec (.batchRelease c) s = .next (s.keepHost (finish (begun s1 id c) id 0x0B27 0 0)))

/-- A QUEUE_FENCE with every earlier command of its queue finished completes with OK; with one unfinished it waits. A PLACE_FENCE or TRAY_FENCE with
every earlier command of its queue finished and every operation that it covers ended, covering host, stack and remote writes or tray operations of
earlier commands of its queue, completes with OK, or with 0x0010 where one failed, and those operations are covered no longer; where it covers a write
to host memory it first reads that write's destination, and FENCE_COMPLETE completes it when the read has returned; with one not ended it waits.
FENCE_COMPLETE does the same for a fence in hand. A FLUSH that waited behind the fence is looked at again. -/
def Obligations.FencesWaitForWhatTheyCover : Prop :=
  let before (u : State) (id : Nat) (c : Cmd) : Prop := ∀ x ∈ u.host.slots, x.id < id → sameQueue x.cmd c = true → x.dead = false → x.phase = .finished
  let covers (tray : Bool) (c : Cmd) (id : Nat) (o : CovOp) : Bool :=
    decide (o.slot < id) && decide (o.fn = c.fn) && decide (o.q = c.q) && decide (o.src = c.src) && (if tray then decide (o.kind = .tray) else !decide (o.kind = .tray))
  let after (v : State) : State := flushAll v v.host.slots
  let done (tray : Bool) (u : State) (id : Nat) (c : Cmd) : State :=
    after (finish { u with host := { u.host with ops := u.host.ops.filter fun o => !covers tray c id o } } id
      (if u.host.ops.any (fun o => covers tray c id o && decide (o.ended = some false)) then 0x0010 else 0) 0 0)
  let reads (u : State) (id : Nat) (c : Cmd) : Bool := u.host.ops.any fun o => covers false c id o && isHostWrite o
  (∀ (c : Cmd) (id : Nat) (s s1 : State), Starts 0x9D c s id s1 →
    (before (begun s1 id c) id c → exec (.queueFence c) s = .next (s.keepHost (after (finish (begun s1 id c) id 0 0 0)))) ∧
    (¬ before (begun s1 id c) id c → exec (.queueFence c) s = .next (s.keepHost (setPhase (begun s1 id c) id (.waiting .earlier))))) ∧
  (∀ (c : Cmd) (id : Nat) (s s1 : State), Starts 0x9E c s id s1 → before (begun s1 id c) id c →
    let u := begun s1 id c
    ((∀ o ∈ u.host.ops, covers false c id o = true → o.ended ≠ none) →
      (reads u id c = false → exec (.placeFence c) s = .next (s.keepHost (done false u id c))) ∧
      (reads u id c = true → exec (.placeFence c) s = .next (s.keepHost (setPhase (setStage u id 1) id (.waiting .earlier))))) ∧
    ((∃ o ∈ u.host.ops, covers false c id o = true ∧ o.ended = none) →
      exec (.placeFence c) s = .next (s.keepHost (setPhase u id (.waiting .earlier))))) ∧
  (∀ (c : Cmd) (id : Nat) (s s1 : State), Starts 0x9F c s id s1 → before (begun s1 id c) id c →
    let u := begun s1 id c
    ((∀ o ∈ u.host.ops, covers true c id o = true → o.ended ≠ none) →
      exec (.trayFence c) s = .next (s.keepHost (done true u id c))) ∧
    ((∃ o ∈ u.host.ops, covers true c id o = true ∧ o.ended = none) →
      exec (.trayFence c) s = .next (s.keepHost (setPhase u id (.waiting .earlier))))) ∧
  (∀ (c : Cmd) (x : Slot) (s : State), slotOf s c = some x → before s x.id c →
    (opcodeOf c = 0x9D → exec (.fenceComplete c) s = .next (s.keepHost (after (finish s x.id 0 0 0)))) ∧
    (opcodeOf c = 0x9E → (∀ o ∈ s.host.ops, covers false c x.id o = true → o.ended ≠ none) → reads s x.id c = false ∨ stageOf s x.id = 1 →
      exec (.fenceComplete c) s = .next (s.keepHost (done false s x.id c))) ∧
    (opcodeOf c = 0x9F → (∀ o ∈ s.host.ops, covers true c x.id o = true → o.ended ≠ none) →
      exec (.fenceComplete c) s = .next (s.keepHost (done true s x.id c))))

/-- A forwarded QUERY of a request that the module owns, with no other command of that sender in a slot and none held, is answered by a completion
message to the accepting module with OK, epoch, phase and owner, log length and FIRST_MISSING, and keeps no slot. At the accepting module a completion
finishes the command as forwarded, and one of a command that it holds no longer changes nothing but the outbox; a release lets later commands of the
queue start. A command whose send failed, or whose owner is no live member, asks the tail of its one request again, each 100 µs and not sooner; with
neither nothing changes, but a module that had passed it on drops it. With no acceptance within 1,000 ms of the first forwarding it completes with
0x0706, and not before; one that a module has accepted does not. -/
def Obligations.ForwardedCommandsRunAtTheOwner : Prop :=
  (∀ (c : Cmd) (m k h : Nat) (o : Owned) (s : State), c.src = some (m, k) → opcodeOf c = 0x16 → isBatch c = false → c.w1.toNat = h → ownedOf s h = some o →
    finalPhase o.record.phase = false → o.record.phase ≠ 6 → o.handoff = none → s.rel.quarantined = false → s.rel.mirrors = [] → s.rel.primaryTo = none → islandShut s c = false →
    (∀ x ∈ s.host.slots, sameQueue x.cmd c = false ∧ x.id < s.host.nextSlot ∧ x.phase ≠ .waiting .held ∧ x.phase ≠ .waiting .route) → canSend s = true → s.hostMem.wf = true →
    (∀ f l, (selfId s, f) ∈ s.req.outbox → f ≠ .command c l ∧ ∀ i, f ≠ .search c i) →
    ∃ t, exec (.forwardedCommandArrival c [h] []) s = .next t ∧ t.host.slots = s.host.slots ∧ t.hostMem = s.hostMem ∧
      t.req.outbox = s.req.outbox ++ [(m, .completion { c with src := none } 0
        (o.record.epoch % 2 ^ 32 * 2 ^ 32 + o.record.phase % 16 * 2 ^ 28 + o.record.owner % 2 ^ 18) (o.record.logged * 2 ^ 32 + o.record.firstMissing))]) ∧
  (∀ (c : Cmd) (st r0 r1 : Nat) (x : Slot) (s : State), slotById s c.tag = some x → x.inHand = true → x.sentTo.isSome = true → x.cmd.src = none →
    x.cmd = { c with tag := 0 } → s.hostMem.wf = true →
    let s0 := sysTaken (sysTaken s (.completion c st r0 r1)) (.found c st r0 r1 [])
    exec (.forwardedCompletionArrival c st r0 r1 []) s = .next (s.keepHost (finishWith s0 x.id st r0 r1 true))) ∧
  (∀ (c : Cmd) (st r0 r1 : Nat) (data : List (Byte × Bool)) (s : State), slotById s c.tag = none → c.q ≠ 64 →
    exec (.forwardedCompletionArrival c st r0 r1 data) s = .next (sysTaken (sysTaken s (.completion c st r0 r1)) (.found c st r0 r1 data))) ∧
  (∀ (c : Cmd) (x : Slot) (s : State), slotById s c.tag = some x → x.phase = .waiting .tag → x.sentTo.isSome = true → x.cmd.src = none →
    x.cmd = { c with tag := 0 } →
    exec (.waitReleaseReport c) s = .next (setPhase (noteOrder (sysTaken s (.released c)) x.id) x.id (.waiting .remote))) ∧
  (∀ (c : Cmd) (x : Slot) (m h : Nat) (failed : Bool) (s : State),
    slotWhere s c (fun y => decide (y.phase = .waiting .route) || y.sentTo.isSome) = some x → x.phase = .waiting .remote → x.sentTo = some m →
    m ≠ selfId s → x.members = [h] → s.req.asks = [] → canSend s = true →
    (failed = true ∨ isMember s m = false → x.askedAt = 0 ∨ x.askedAt + 100000 ≤ s.mono →
      ∃ t, exec (.forwardRetryTimer ⟨c, failed⟩) s = .next t ∧ t.req.asks = [{ handle := h, asker := .forward x.id, sentAt := s.mono }] ∧
        t.req.outbox = s.req.outbox ++ [(tailOf s h, .query h (selfId s) false (s.fab.epoch % 2 ^ 32))] ∧
        t.host.slots = s.host.slots.map (fun y => if y.id = x.id then { y with phase := .waiting .route, askedAt := s.mono } else y)) ∧
    (failed = true ∨ isMember s m = false → x.askedAt ≠ 0 → s.mono < x.askedAt + 100000 → exec (.forwardRetryTimer ⟨c, failed⟩) s = .next s) ∧
    (failed = false → isMember s m = true → c.src = none → exec (.forwardRetryTimer ⟨c, failed⟩) s = .next s) ∧
    (failed = false → isMember s m = true → c.src.isSome = true → exec (.forwardRetryTimer ⟨c, failed⟩) s = .next (s.keepHost (dropSlot s x.id)))) ∧
  (∀ (c : Cmd) (s : State), c.src = none →
    let late (y : Slot) : Bool := y.sentTo.isSome && decide (y.phase ≠ .waiting .held) && decide (y.sentAt + 1000000000 ≤ s.mono)
    (∀ x, slotWhere s c late = some x → exec (.forwardTimeout ⟨c, false⟩) s = .next (s.keepHost (finish (forget s x.id) x.id 0x0706 0 0))) ∧
    (slotWhere s c late = none → exec (.forwardTimeout ⟨c, false⟩) s = .next s) ∧ exec (.forwardTimeout ⟨c, true⟩) s = .next s)

/-- ADMIT completes, for the first that fails, with 0x0110 for a prompt length outside its range, 0x0113 on a module in role P or G that no membership
epoch has reached (the order is the model's reading, log entry 129), 0x010A for an owner that is no P, C or S member, 0x0113 with no cache pool,
0x0114 for REPLICAS 3, 0x0304 for a misaligned address, 0x020F for an undefined model, 0x0B2D for an unreadable prompt or sampler block, 0x0110 for a
token of 2^20 or more. Otherwise the module issues CREATE, step 1, with the prompt and a record of phase QUEUED, under the handle made of tenant,
membership epoch, its own fabric ID and the next count; the command waits, and the count rises. -/
def Obligations.AdmitCreatesARequest : Prop :=
  ∀ (c : Cmd) (id : Nat) (s s1 : State), Starts 0x10 c s id s1 →
    let u := begun s1 id c
    let p := fld c.w3 63 32
    let l := fld c.w3 31 0
    let owner := if fld c.w6 63 46 = 0x3FFFF then selfId u else fld c.w6 63 46
    let role := roleOf u owner
    let tokens := (List.range p).map fun i => u.hostMem.readNat (c.w4.toNat + 4 * i) 4
    let refusal : Option Nat :=
      if p = 0 ∨ 1048576 < p ∨ 1048576 < p + l then some 0x0110
      else if u.fab.epoch = 0 ∧ u.image.role.cachePool = false then some 0x0113
      else if role ≠ some 0 ∧ role ≠ some 2 ∧ role ≠ some 3 then some 0x010A
      else if poolNow u = [] then some 0x0113
      else if fld c.w6 27 26 = 3 then some 0x0114
      else if c.w4.toNat % 4 ≠ 0 ∨ c.w7.toNat % 64 ≠ 0 then some 0x0304
      else if modelOf u (cmdTenant u c) (fld c.w2 63 48) = none then some 0x020F
      else if hostBad u c.w4.toNat (4 * p) = true ∨ (c.w7 ≠ 0 ∧ hostBad u c.w7.toNat 64 = true) then some 0x0B2D
      else if ∃ x ∈ tokens, 2 ^ 20 ≤ x then some 0x0110
      else none
    (∀ e, refusal = some e → exec (.admitRequest c) s = .next (s.keepHost (finish u id e 0 0))) ∧
    (refusal = none → ∃ (t : State) (i : Issued) (r : ReqRec), exec (.admitRequest c) s = .next t ∧ t.req.issued = u.req.issued ++ [i] ∧
      i.step.handle = cmdTenant u c % 16 * 2 ^ 60 + u.fab.entered % 4096 * 2 ^ 48 + selfId u % 2 ^ 18 * 2 ^ 30 +
        tgetD u.req.admits (cmdTenant u c) 0 % 2 ^ 30 ∧
      i.step.kind = 0 ∧ i.step.step = 1 ∧ i.step.epoch = 0 ∧ i.why = .admitting id ∧ i.step.payload = .create r tokens ∧
      r.handle = i.step.handle ∧ r.phase = 0 ∧ r.owner = owner ∧ r.origin = selfId u ∧ r.job = jobOf c ∧ r.model = fld c.w2 63 48 ∧
      r.promptTokens = p ∧ r.tokenLimit = l ∧ r.logged = p ∧ r.firstMissing = 0xFFFFFFFF ∧ r.seed = c.w5.toNat ∧ r.admitTime = u.time ∧
      tgetD t.req.admits (cmdTenant u c) 0 = (tgetD u.req.admits (cmdTenant u c) 0 + 1) % 2 ^ 30 ∧
      t.req.owned = u.req.owned ∧ t.host.due = u.host.due)

/-- Run on the owner, PREFILL_CHUNK completes with 0x0103 outside QUEUED and PREFILL where nothing is missing, with 0x0202 where its range breaks
Table 5.12 or LAST does not mark the end of the prompt. In PREFILL with the range good and every position of it written in every layer, it completes
with OK and the placed tokens, the working copy notes them, its pages that are full are sealed, and LAST is noted; with positions still to come it
waits. -/
def Obligations.PrefillChunksCompleteWhenWhole : Prop :=
  ∀ (c : Cmd) (id : Nat) (s s1 : State) (o : Owned) (m : ModelDef), OneHere 0x11 c s id s1 →
    let u := here s1 id c
    let start := fld c.w2 63 32
    let count := fld c.w2 31 0
    let last := flag c.w3 0
    ownedOf u (handleOf c) = some o → modelOf u (handleTenant o.record.handle) o.record.model = some m → stageOf u id = 0 →
    finalPhase o.record.phase = false →
    (o.record.phase ∉ [0, 1, 2, 4, 5] ∨ (o.record.phase ∈ [2, 4, 5] ∧ o.record.logged ≤ o.record.firstMissing) →
      exec (.prefillChunk c []) s = .next (s.keepHost (finish u id 0x0103 0 0))) ∧
    (o.record.phase ∈ [0, 1] → chunkRange o start count = false ∨ last ≠ decide (start + count = o.record.promptTokens) →
      exec (.prefillChunk c []) s = .next (s.keepHost (finish u id 0x0202 0 0))) ∧
    (o.record.phase = 1 → chunkRange o start count = true → last = decide (start + count = o.record.promptTokens) →
      o.record.firstMissing = 0xFFFFFFFF → o.record.handle = handleOf c → stepsPending u id = false →
      let o1 := sealPages { o with lastDone := o.lastDone || last, record := { o.record with placed := placedTokens o m.layers } }
      (chunkCovered o m.layers start (start + count) = true →
        exec (.prefillChunk c []) s = .next (s.keepHost (finish (tryPrefilled (setOwned (setStage u id 1) (handleOf c) o1) (handleOf c)) id 0
          (placedTokens o m.layers) 0))) ∧
      (chunkCovered o m.layers start (start + count) = false →
        exec (.prefillChunk c []) s = .next (s.keepHost (setPhase (setStage u id 1) id (.waiting .fabric)))))

/-- Run on the owner of a request that is in no handoff: HANDOFF outside PREFILLED, DECODING and PARKED completes with 0x0103, to an unfit target with
0x010A; otherwise BEGIN_HANDOFF is issued once no other started command of the request runs here, with the target phase and peer, the copy shows
HANDOFF, and the receiver gets the OFFER. While a decode step of the request is in hand PARK and RESUME wait behind it (R22). Without one PARK outside
DECODING and RESUME outside PARKED complete with 0x0103; PARK on a C or S module and RESUME in place issue a PHASE step to PARKED or DECODING that the
working copy shows at once, and wait for its commit; PARK elsewhere without a cache pool completes with 0x0113, RESUME to an unfit target with 0x010A.
-/
def Obligations.HandoffParkAndResume : Prop :=
  let IssuesPhase (u t : State) (o : Owned) (id ph : Nat) : Prop := ∃ i : Issued,
    t.req.issued = u.req.issued ++ [i] ∧ i.step.handle = o.record.handle ∧ i.step.kind = 1 ∧ i.step.newPhase = ph ∧
    i.step.step = o.record.step + 1 ∧ i.step.epoch = o.record.epoch ∧ i.step.issuer = selfId u ∧ i.why = .finish id o.record.epoch (selfId u) ∧
    ((ownedOf t o.record.handle).map (·.record)) = some { o.record with phase := ph, step := o.record.step + 1 } ∧ t.host.due = u.host.due
  (∀ (c : Cmd) (id : Nat) (s s1 : State) (o : Owned), OneHere 0x12 c s id s1 →
    let u := here s1 id c
    let m := fld c.w2 63 46
    let tp := fld c.w2 45 42
    ownedOf u (handleOf c) = some o → o.handoff = none → o.record.handle = handleOf c → finalPhase o.record.phase = false →
    (o.record.phase ∉ [2, 4, 5] → exec (.handoff c) s = .next (s.keepHost (finish u id 0x0103 0 0))) ∧
    (o.record.phase ∈ [2, 4, 5] → targetOk u m tp = false → exec (.handoff c) s = .next (s.keepHost (finish u id 0x010A 0 0))) ∧
    (o.record.phase ∈ [2, 4, 5] → targetOk u m tp = true → startedFor u (handleOf c) (some id) = false → (slotById u id).map (·.cmd) = some c →
      canSend u = true →
      ∃ (t : State) (i : Issued) (f : Offer), exec (.handoff c) s = .next t ∧ t.req.issued = u.req.issued ++ [i] ∧ i.step.kind = 3 ∧
        i.step.target = tp ∧ i.step.peer = m ∧ i.step.step = o.record.step + 1 ∧ i.why = .handoff ∧
        t.req.outbox = u.req.outbox ++ [(headOf u (handleOf c), .step 1 i.step), (m, .offer f)] ∧ f.step = o.record.step + 1 ∧ f.target = tp ∧
        f.sender = selfId u ∧ f.log = o.log ∧
        ((ownedOf t (handleOf c)).map fun o' => (o'.record.phase, o'.record.prior, o'.record.peer)) = some (3, o.record.phase, m))) ∧
  (∀ (c : Cmd) (id : Nat) (s s1 : State) (o : Owned), OneHere 0x13 c s id s1 →
    let u := here s1 id c
    let waits := .next (s.keepHost (setPhase u id (.waiting .held)))
    ownedOf u (handleOf c) = some o → o.handoff = none → o.record.handle = handleOf c → stageOf u id = 0 →
    finalPhase o.record.phase = false →
    (decodeInHand u (handleOf c) = true → exec (.park c) s = waits) ∧
    (o.record.phase ≠ 4 → decodeInHand u (handleOf c) = false → exec (.park c) s = .next (s.keepHost (finish u id 0x0103 0 0))) ∧
    (o.record.phase = 4 → u.image.role.cachePool = true → decodeInHand u (handleOf c) = false →
      ∃ t, exec (.park c) s = .next t ∧ IssuesPhase u t o id 5) ∧
    (o.record.phase = 4 → u.image.role.cachePool = false → poolNow u = [] → decodeInHand u (handleOf c) = false → exec (.park c) s = .next (s.keepHost (finish u id 0x0113 0 0)))) ∧
  (∀ (c : Cmd) (id : Nat) (s s1 : State) (o : Owned), OneHere 0x14 c s id s1 →
    let u := here s1 id c
    let waits := .next (s.keepHost (setPhase u id (.waiting .held)))
    let m := fld c.w2 63 46
    ownedOf u (handleOf c) = some o → o.handoff = none → o.record.handle = handleOf c → stageOf u id = 0 →
    finalPhase o.record.phase = false →
    (decodeInHand u (handleOf c) = true → exec (.resume c) s = waits) ∧
    (o.record.phase ≠ 5 → decodeInHand u (handleOf c) = false → exec (.resume c) s = .next (s.keepHost (finish u id 0x0103 0 0))) ∧
    (o.record.phase = 5 → m = 0x3FFFF → decodeInHand u (handleOf c) = false → ∃ t, exec (.resume c) s = .next t ∧ IssuesPhase u t o id 4) ∧
    (o.record.phase = 5 → m ≠ 0x3FFFF → targetOk u m 4 = false → decodeInHand u (handleOf c) = false → exec (.resume c) s = .next (s.keepHost (finish u id 0x010A 0 0))))

/-- Run on the owner, QUERY completes with OK, epoch, phase and owner in RESULT0 and log length and FIRST_MISSING in RESULT1. CANCEL issues FINISH
with CANCELLED as the next step, which the working copy shows at once, and waits for its commit; while a decode step of the request is in hand it
waits behind it. LOG_READ with an address that is not 4-byte aligned, and RECORD_READ with one that is not 64-byte aligned, complete with 0x0304;
otherwise the tail is asked for the record and log, and the command waits. With a batch in place of a request QUERY and CANCEL complete with 0x0101
(the model's choice, log entry 121). -/
def Obligations.CancelQueryAndReads : Prop :=
  (∀ (c : Cmd) (id : Nat) (s s1 : State) (o : Owned), OneHere 0x16 c s id s1 → ownedOf (here s1 id c) (handleOf c) = some o →
    finalPhase o.record.phase = false →
    let r := o.record
    exec (.query c) s = .next (s.keepHost (finish (here s1 id c) id 0
      (r.epoch % 2 ^ 32 * 2 ^ 32 + r.phase % 16 * 2 ^ 28 + r.owner % 2 ^ 18) (r.logged * 2 ^ 32 + r.firstMissing)))) ∧
  (∀ (c : Cmd) (id : Nat) (s s1 : State) (o : Owned), OneHere 0x15 c s id s1 →
    let u := here s1 id c
    ownedOf u (handleOf c) = some o → o.record.handle = handleOf c → stageOf u id = 0 → finalPhase o.record.phase = false →
    (decodeInHand u (handleOf c) = true → exec (.cancel c) s = .next (s.keepHost (setPhase u id (.waiting .held)))) ∧
    (decodeInHand u (handleOf c) = false → ∃ (t : State) (i : Issued), exec (.cancel c) s = .next t ∧ t.req.issued = u.req.issued ++ [i] ∧ i.step.handle = handleOf c ∧ i.step.kind = 7 ∧
      i.step.newPhase = 7 ∧ i.step.step = o.record.step + 1 ∧ i.step.epoch = o.record.epoch ∧ i.why = .finish id 0 0 ∧
      ((ownedOf t (handleOf c)).map (·.record)) = some { o.record with phase := 7, step := o.record.step + 1 } ∧ t.host.due = u.host.due)) ∧
  (∀ (c : Cmd) (id : Nat) (s s1 : State), isBatch c = true →
    let refused (i : Instr) : Prop := exec i s = .next (s.keepHost (finish (forget (here s1 id c) id) id 0x0101 0 0))
    (StartsHere 0x16 c s id s1 → refused (.query c)) ∧ (StartsHere 0x15 c s id s1 → stageOf (here s1 id c) id = 0 → refused (.cancel c))) ∧
  (∀ (c : Cmd) (id : Nat) (s s1 : State), OneHere 0x17 c s id s1 →
    let u := here s1 id c
    stageOf u id = 0 →
    (c.w2.toNat % 4 ≠ 0 → exec (.logRead c) s = .next (s.keepHost (finish u id 0x0304 0 0))) ∧
    (c.w2.toNat % 4 = 0 → exec (.logRead c) s = .next (s.keepHost (setPhase (askTail (setStage u id 1) (handleOf c) (.read id)) id (.waiting .ledger))))) ∧
  (∀ (c : Cmd) (id : Nat) (s s1 : State), OneHere 0x18 c s id s1 →
    let u := here s1 id c
    stageOf u id = 0 →
    (c.w2.toNat % 64 ≠ 0 → exec (.recordRead c) s = .next (s.keepHost (finish u id 0x0304 0 0))) ∧
    (c.w2.toNat % 64 = 0 →
      exec (.recordRead c) s = .next (s.keepHost (setPhase (askTail (setStage u id 1) (handleOf c) (.read id)) id (.waiting .ledger)))))

/-- A step under the current membership, from a member, at the copy that is this module, unfrozen, is answered in this order: another epoch
EPOCH_STALE; an older number as a repeat; the same number as a repeat with the same digest, else STEP_CONFLICT; a number past the next STEP_GAP; else
a PHASE step between phases that Table 1.3 does not join STEP_REFUSED, with the entry as before. A PHASE step that it allows gives the entry the new
phase, the step's number and digest and the time at this copy, and keeps its log; the head and the second copy send it to the next copy. A step under
an older membership is refused with LEDGER_MOVED, one under a newer is held, epochs compared by their low 32 bits with wrap (the model's reading, log
entry 127). -/
def Obligations.LedgerCopiesApplySteps : Prop :=
  ∀ (copy : Nat) (x : LStep) (v : LEntry) (s : State), isMember s x.issuer = true → 1 ≤ copy → copy ≤ 3 →
    tget s.req.ledger (x.handle, copy) = some v → v.frozen = none → (chainOf s x.handle).getD (copy - 1) 0x3FFFF = selfId s → canSend s = true →
    (∀ d, (d, SysMsg.step copy x) ∉ s.req.outbox) →
    let r := v.record
    let ahead (a b : Nat) : Nat := (a % 2 ^ 32 + 2 ^ 32 - b % 2 ^ 32) % 2 ^ 32
    let Answers (code : Nat) : Prop := ∃ (t : State) (n : Notice), exec (.ledgerStepArrival copy x) s = .next t ∧
      t.req.outbox = s.req.outbox ++ [(x.issuer, .notice n)] ∧ n.status = code ∧ n.handle = r.handle ∧ n.epoch = r.epoch ∧ n.step = r.step ∧
      t.req.ledger = s.req.ledger
    (x.membership = s.fab.epoch % 2 ^ 32 →
      (x.kind ∉ [0, 4] → x.epoch ≠ r.epoch → Answers 0x0104) ∧
      (x.kind ∉ [0, 4] → x.epoch = r.epoch → x.step = r.step → x.digest ≠ r.stepDigest → Answers 0x0105) ∧
      (x.kind ∉ [0, 4] → x.epoch = r.epoch → r.step + 1 < x.step → Answers 0x0106) ∧
      (x.kind = 1 → x.epoch = r.epoch → x.step = r.step + 1 →
        (r.phase, x.newPhase) ∉ [(0, 1), (1, 2), (2, 4), (4, 5), (5, 4)] → Answers 0x0107) ∧
      (x.kind = 1 → x.payload = .none → x.epoch = r.epoch → x.step = r.step + 1 → (r.phase, x.newPhase) ∈ [(0, 1), (1, 2), (2, 4), (4, 5), (5, 4)] →
        ∃ t, exec (.ledgerStepArrival copy x) s = .next t ∧
          tget t.req.ledger (x.handle, copy) = some { v with
            record := { r with phase := x.newPhase, step := x.step, stepDigest := x.digest, stepTime := s.time } } ∧
          (∀ k, k ≠ (x.handle, copy) → tget t.req.ledger k = tget s.req.ledger k) ∧
          (copy < 3 → t.req.outbox = s.req.outbox ++ [((chainOf s x.handle).getD copy 0x3FFFF, .step (copy + 1) x)]) ∧
          (copy = 3 → ∃ n : Notice, n.status = 0 ∧ n.phase = x.newPhase ∧ n.step = x.step ∧ (x.issuer, SysMsg.notice n) ∈ t.req.outbox)) ∧
      (x.kind ∉ [0, 4] → x.epoch = r.epoch → x.step < r.step ∨ (x.step = r.step ∧ x.digest = r.stepDigest) →
        ∃ t, exec (.ledgerStepArrival copy x) s = .next t ∧ tget t.req.ledger (x.handle, copy) = some v ∧
          (copy < 3 → t.req.outbox = s.req.outbox ++ [((chainOf s x.handle).getD copy 0x3FFFF, .step (copy + 1) x)]))) ∧
    (0 < ahead s.fab.epoch x.membership → ahead s.fab.epoch x.membership < 2 ^ 31 → Answers 0x0108) ∧
    (0 < ahead x.membership s.fab.epoch → ahead x.membership s.fab.epoch < 2 ^ 31 → exec (.ledgerStepArrival copy x) s =
      .next { s with req := { s.req with heldMsgs := s.req.heldMsgs ++ [.step copy x] } })

/-- A query of a member under the current membership that reaches the tail is answered with the record's epoch, step, phase, owner and marks, and with
the whole record and log where they are asked for; with no entry and no repair in hand the answer is REQUEST_UNKNOWN. A query under an older
membership is answered LEDGER_MOVED, one under a newer is held, and one of a module that is no member changes nothing. An outstanding step or query
last sent 100 µs ago goes again, to the head or tail of the current chain; a younger one does not. An answer to a command that asks who owns a request
is kept for it. The notice of a commit ends the outstanding step that it answers and completes the command that waited for it with its results. The
head issues ERASE 1,000 ms after FINISH, and not before, of a request of which it keeps no step. -/
def Obligations.QueriesResendsAndErase : Prop :=
  (∀ (h src : Nat) (whole : Bool) (s : State), tailOf s h = selfId s → canSend s = true → isMember s src = true →
    let e0 := s.fab.epoch % 2 ^ 32
    (∀ d m, (d, m) ∈ s.req.outbox → m ≠ .query h src whole e0) →
    (∀ e, tget s.req.ledger (h, 3) = some e → ∃ n : Notice,
      exec (.ledgerQuery h src ⟨whole, e0⟩) s = .next { s with req := { s.req with outbox := s.req.outbox ++ [(src, .answer n)] } } ∧
      n.status = 0 ∧ n.handle = e.record.handle ∧ n.epoch = e.record.epoch ∧ n.step = e.record.step ∧ n.phase = e.record.phase ∧
      n.owner = e.record.owner ∧ n.logged = e.record.logged ∧ n.firstMissing = e.record.firstMissing ∧
      n.body = if whole then some (e.record, e.log) else none) ∧
    (tget s.req.ledger (h, 3) = none → s.req.repairing = [] → ∃ n : Notice,
      exec (.ledgerQuery h src ⟨whole, e0⟩) s = .next { s with req := { s.req with outbox := s.req.outbox ++ [(src, .answer n)] } } ∧
      n.status = 0x0101 ∧ n.handle = h)) ∧
  (∀ (h src e0 : Nat) (whole : Bool) (s : State), canSend s = true → (∀ d m, (d, m) ∈ s.req.outbox → m ≠ .query h src whole e0) →
    let ahead (a b : Nat) : Nat := (a % 2 ^ 32 + 2 ^ 32 - b % 2 ^ 32) % 2 ^ 32
    (0 < ahead s.fab.epoch e0 → ahead s.fab.epoch e0 < 2 ^ 31 → isMember s src = true → ∃ n : Notice,
      exec (.ledgerQuery h src ⟨whole, e0⟩) s = .next { s with req := { s.req with outbox := s.req.outbox ++ [(src, .answer n)] } } ∧
      n.status = 0x0108 ∧ n.membership = s.fab.epoch % 2 ^ 32 ∧ n.body = none) ∧
    (0 < ahead e0 s.fab.epoch → ahead e0 s.fab.epoch < 2 ^ 31 → exec (.ledgerQuery h src ⟨whole, e0⟩) s =
      .next { s with req := { s.req with heldMsgs := s.req.heldMsgs ++ [.query h src whole e0] } }) ∧
    (isMember s src = false → e0 = s.fab.epoch % 2 ^ 32 → exec (.ledgerQuery h src ⟨whole, e0⟩) s = .next s)) ∧
  (∀ (h : Nat) (i : Issued) (s : State), s.req.issued = [i] → i.step.handle = h → i.after = none → canSend s = true →
    (i.sentAt + 100000 ≤ s.mono → ∃ t, exec (.ledgerStepResendTimer h) s = .next t ∧
      t.req.outbox = s.req.outbox ++ [(headOf s h, .step 1 { i.step with membership := s.fab.epoch % 2 ^ 32 })] ∧
      t.req.issued = [{ i with step := { i.step with membership := s.fab.epoch % 2 ^ 32 }, head := headOf s h, sentAt := s.mono }]) ∧
    (s.mono < i.sentAt + 100000 → exec (.ledgerStepResendTimer h) s = .next s)) ∧
  (∀ (h : Nat) (a : Ask) (s : State), s.req.asks = [a] → a.handle = h → canSend s = true →
    (a.sentAt + 100000 ≤ s.mono → ∃ t, exec (.ledgerQueryRetryTimer h) s = .next t ∧
      t.req.outbox = s.req.outbox ++ [(tailOf s h, .query h (selfId s) a.asker.whole (s.fab.epoch % 2 ^ 32))] ∧ t.req.asks = [{ a with sentAt := s.mono }]) ∧
    (s.mono < a.sentAt + 100000 → exec (.ledgerQueryRetryTimer h) s = .next s)) ∧
  (∀ (n : Notice) (slot : Nat) (a : Ask) (s : State), s.req.asks = [a] → a.handle = n.handle → a.asker = .forward slot → n.status ≠ 0x0108 → s.hostMem.wf = true →
    (∀ d m, (d, m) ∈ s.req.outbox → m ≠ .answer n) →
    exec (.ledgerAnswer n) s = .next { s with req := { s.req with
      asks := []
      known := s.req.known ++ [(slot, n.handle, if n.status ≠ 0 then .unknown else if n.phase = 7 ∨ n.phase = 8 then .final n.phase
                                                else .owner n.owner n.phase)] } }) ∧
  (∀ (n : Notice) (i : Issued) (slot r0 r1 : Nat) (s : State), s.req.issued = [i] → s.req.kept = [] → n.status = 0 → i.step.handle = n.handle →
    i.step.step = n.ofStep → i.step.kind = n.ofKind → n.ofKind = 1 → n.phase ≠ 2 → i.why = .finish slot r0 r1 →
    exec (.ledgerNotice n) s = .next (s.keepHost (finish { sysTaken s (.notice n) with req := { (sysTaken s (.notice n)).req with issued := [] } }
      slot 0 r0 r1))) ∧
  (∀ (h : Nat) (e : LEntry) (s : State), tget s.req.ledger (h, 1) = some e → headOf s h = selfId s → e.record.handle = h →
    (∀ x ∈ s.req.kept, x.handle ≠ h) →
    (e.record.phase = 7 ∨ e.record.phase = 8 → e.record.stepTime + 1000000000 ≤ s.time → ∃ (t : State) (i : Issued),
      exec (.ledgerErase h) s = .next t ∧ t.req.issued = s.req.issued ++ [i] ∧ i.step.kind = 8 ∧ i.step.handle = h ∧ i.step.step = e.record.step + 1) ∧
    (s.time < e.record.stepTime + 1000000000 → exec (.ledgerErase h) s = .next s))

/-- A repair copy of an entry that the module lacks becomes its entry, unfrozen, and with nothing held, its owner a member and its phase not
RECOVERING nothing else changes; one that it has stays. END_OF_REPAIR of the current epoch takes its sender from those still awaited; of an epoch not
yet adopted it is noted for then; of an earlier one it changes nothing. HEAD_FREEZE_END of a frozen entry keeps the copies that the new chain gives
the module, unfrozen, and sends each step held for it to the new head; without a frozen entry it changes nothing. -/
def Obligations.RepairMovesCopies : Prop :=
  (∀ (copy : Nat) (r : ReqRec) (log : List Nat) (s : State), s.req.heldMsgs = [] → isMember s r.owner = true → r.phase ≠ 6 →
    (∀ f, tget s.req.ledger (r.handle, 1) = some f → isMember s f.record.owner = true ∧ f.record.phase ≠ 6) →
    let s0 := sysTaken s (.repair copy r log)
    (tget s.req.ledger (r.handle, copy) = none →
      exec (.repairCopyArrival copy r log) s = .next { s0 with req := { s0.req with
        ledger := tset s.req.ledger (r.handle, copy) {
          record := { r with logLocator := (Config.stackAddr 0 r.handle copy).toNat }, log := log, frozen := none } } }) ∧
    (∀ e, tget s.req.ledger (r.handle, copy) = some e →
      exec (.repairCopyArrival copy r log) s = .next s0)) ∧
  (∀ (epoch src : Nat) (s : State), s.req.heldMsgs = [] →
    let s0 := sysTaken s (.endRepair epoch src)
    (epoch = s.fab.epoch → exec (.endOfRepair epoch src) s = .next { s0 with req := { s0.req with repairing := s.req.repairing.erase src } }) ∧
    (s.fab.epoch < epoch → exec (.endOfRepair epoch src) s = .next { s0 with req := { s0.req with earlyEnds := s.req.earlyEnds ++ [(epoch, src)] } }) ∧
    (epoch < s.fab.epoch → exec (.endOfRepair epoch src) s = .next s0)) ∧
  (∀ (h at' : Nat) (e : LEntry) (x : LStep) (s : State), tget s.req.ledger (h, 1) = some e → e.frozen = some at' → x.handle = h →
    s.req.heldMsgs = [.step 1 x] → selfId s ∉ chainOf s h → selfId s ≠ 0x3FFFF → canSend s = true →
    ∃ t, exec (.headFreezeEnd h) s = .next t ∧ (∀ k, tget t.req.ledger (h, k) = none) ∧
      (∀ k, k.1 ≠ h → tget t.req.ledger k = tget s.req.ledger k) ∧ t.req.heldMsgs = [] ∧
      t.req.outbox = s.req.outbox ++ [(headOf s h, .step 1 x)]) ∧
  (∀ (h : Nat) (e : LEntry) (s : State), tget s.req.ledger (h, 1) = some e → e.frozen = none → exec (.headFreezeEnd h) s = .next s)

/-- At the sender, PLACED from the peer for the OFFER's epoch and step sends, in layer-major order, each present page whose bit is clear, and the
handoff is SENDING (its pages being in T0 or T1); after the last page it is WAITING with the orphan timer running; when ORPHAN_TIMER as it stood at
the start of the timer has passed the tail is asked. A refusal by the peer, for this epoch and step, while it is OFFERED, SENDING or WAITING issues
ABORT_HANDOFF at step s + 1, and the handoff is ABORTING, refused. In any other state these change nothing but the outbox. -/
def Obligations.HandoffAtTheSender : Prop :=
  ∀ (h : Nat) (o : Owned) (x : Handoff) (s : State), ownedOf s h = some o → o.handoff = some x → o.record.handle = h →
    let st (t : State) : Option SendSt := ((ownedOf t h).bind (·.handoff)).map (·.st)
    let mine (hd : Tongs) : Prop := hd.handle = h ∧ hd.sender = x.peer ∧ hd.epoch = x.epoch ∧ hd.step = x.step
    let n := pageCount o
    (∀ hd held, mine hd → x.st = .offered → canSend s = true → (∀ d, (d, SysMsg.placed hd held) ∉ s.req.outbox) →
      (∀ p ∈ o.pages, ∀ e, tget s.tier.dir p.2.dir = some e → e.tier < 2) →
      ∃ t, exec (.placed hd.handle hd.sender (hd.body held)) s = .next t ∧ st t = some .sending ∧ t.tier = s.tier ∧
        t.req.outbox = s.req.outbox ++ (List.range (layersOf s h o.record.model * n)).filterMap fun k => (tget o.pages (k / n, k % n)).bind fun e =>
          if e.present && !held.contains k then
            some (x.peer, SysMsg.page h { layer := k / n, index := k % n, upto := e.upto, blob := tgetD s.tier.data e.dir Blob.zeros })
          else none) ∧
    (∀ hd held, hd.handle = h → ¬ (x.st = .offered ∧ mine hd) → exec (.placed hd.handle hd.sender (hd.body held)) s = .next (sysTaken s (.placed hd held))) ∧
    (x.st = .sending → ∃ t, exec (.lastPageSent h) s = .next t ∧ st t = some .waiting ∧
      ((ownedOf t h).bind (·.handoff)).bind (·.timer) = some s.mono ∧
      ((ownedOf t h).bind (·.handoff)).map (·.orphanUs) = some (orphanUsNow s) ∧ t.req.outbox = s.req.outbox) ∧
    (x.st ≠ .sending → exec (.lastPageSent h) s = .next s) ∧
    (∀ from', x.timer = some from' → x.st = .waiting → canSend s = true →
      (from' + x.orphanUs * 1000 ≤ s.mono → ∃ t, exec (.orphanTimerExpiry h) s = .next t ∧ st t = some .querying ∧
        t.req.asks = s.req.asks ++ [{ handle := h, asker := .sender, sentAt := s.mono }] ∧
        t.req.outbox = s.req.outbox ++ [(tailOf s h, .query h (selfId s) false (s.fab.epoch % 2 ^ 32))]) ∧
      (s.mono < from' + x.orphanUs * 1000 → exec (.orphanTimerExpiry h) s = .next s)) ∧
    (∀ hd bits, mine hd → x.st ∈ [.offered, .sending, .waiting] → ∃ (t : State) (i : Issued), exec (.handoffRefuse hd.handle hd.sender (hd.body bits)) s = .next t ∧
      st t = some .aborting ∧ ((ownedOf t h).bind (·.handoff)).map (·.refused) = some true ∧ t.req.issued = s.req.issued ++ [i] ∧
      i.step.kind = 5 ∧ i.step.step = x.step + 1 ∧ i.step.epoch = x.epoch ∧ i.why = .handoff) ∧
    (∀ hd bits, hd.handle = h → ¬ (mine hd ∧ x.st ∈ [.offered, .sending, .waiting]) → exec (.handoffRefuse hd.handle hd.sender (hd.body bits)) s = .next (sysTaken s (.refuse hd)))

/-- An OFFER in hand is answered PLACED with the numbers of the pages held; an unfit one REFUSE 0x0B. A page of the offer not yet held is placed: it
is then held and its content is in its directory entry; sealed pages go to the replica members. With every offered page placed and no replica member
the receiver issues CLAIM at step s + 1 with the record of the new owner and is CLAIMING; with replica members it first sends each a FLUSH, and issues
CLAIM once every one has completed with OK. When ORPHAN_TIMER as it stood at the start of the timer has passed it asks the tail. A replica of a known
request that the module already holds replaces it. A recovery whose START_RECOVERY has committed issues CLAIM once, back to the phase before the loss.
-/
def Obligations.HandoffAtTheReceiver : Prop :=
  (∀ (f : Offer) (s : State), canSend s = true → (∀ d, (d, SysMsg.offer f) ∉ s.req.outbox) →
    (∀ v, tget s.req.recving f.record.handle = some v → v.offer.epoch = f.epoch → v.offer.step = f.step → ∃ t, exec (.offer f) s = .next t ∧ t.req.owned = s.req.owned ∧
      (let l := (v.pages.filter fun p => p.2.present).map (fun p => p.1.1 * v.offer.hashes.length + p.1.2);
       t.req.outbox = s.req.outbox ++ [(v.offer.sender, .placed {
         handle := v.offer.record.handle, epoch := f.epoch, step := f.step, type := 1, target := v.offer.target, reason := 0, sender := selfId s, pages := v.offer.pages.length, held := l.length } l)]) ∧
      (tget t.req.recving f.record.handle).map (·.timer) = some s.mono) ∧
    (tget s.req.recving f.record.handle = none → offerOk s f = false →
      exec (.offer f) s = .next { s with req := { s.req with outbox := s.req.outbox ++ [(f.sender, .refuse {
        handle := f.record.handle, epoch := f.epoch, step := f.step, type := 2, target := f.target, reason := 0x0B, sender := selfId s,
        pages := f.pages.length, held := 0 })] } })) ∧
  (∀ (h : Nat) (v : Recving) (p : PageData) (e : PageEntry) (s : State), tget s.req.recving h = some v → tget v.pages (p.layer, p.index) = some e →
    e.present = false →
    let whole := decide (p.index < v.offer.hashes.length) && (v.offer.pages[p.layer * v.offer.hashes.length + p.index]?).elim false (·.full)
    ∃ (t : State) (v' : Recving), exec (.handoffPagePlaced h p) s = .next t ∧ tget t.req.recving h = some v' ∧
      tget v'.pages (p.layer, p.index) = some { e with
        present := true, full := whole, upto := if whole then 256 else p.upto } ∧
      tget t.tier.data e.dir = some p.blob) ∧
  (∀ (h : Nat) (v : Recving) (flushed : List Nat) (s : State), tget s.req.recving h = some v → v.st = .receiving →
    let n := v.offer.hashes.length
    let ms := replicaMembers s h v.offer.record.replicas
    (∀ k, (v.offer.pages[k]?).elim false (·.present) = true → (tget v.pages (k / n, k % n)).elim false (·.present) = true) →
    (v.flushed = true ∨ ms = [] → (∀ m ∈ v.flushing, m ∈ flushed) → ∃ (t : State) (i : Issued) (r : ReqRec),
      exec (.allPagesPlaced ⟨h, flushed⟩) s = .next t ∧ (tget t.req.recving h).map (·.st) = some .claiming ∧ t.req.issued = s.req.issued ++ [i] ∧
      i.step.kind = 4 ∧ i.step.step = v.offer.step + 1 ∧ i.step.epoch = v.offer.epoch ∧ i.step.newPhase = v.offer.target ∧ i.step.issuer = selfId s ∧
      i.step.payload = .claim r ∧ r.owner = selfId s ∧ r.epoch = v.offer.epoch + 1 ∧ r.phase = v.offer.target) ∧
    (v.flushed = true → (∃ m ∈ v.flushing, m ∉ flushed) → ∃ t, exec (.allPagesPlaced ⟨h, flushed⟩) s = .next t ∧
      (tget t.req.recving h) = some { v with flushing := v.flushing.filter fun m => !flushed.contains m } ∧ t.req.issued = s.req.issued ∧
      t.req.outbox = s.req.outbox) ∧
    (v.flushed = false → ms ≠ [] → canSend s = true → ∃ t, exec (.allPagesPlaced ⟨h, flushed⟩) s = .next t ∧
      t.req.outbox = s.req.outbox ++ ms.map (fun m => (m, .flush h (selfId s))) ∧ (tget t.req.recving h).map (·.flushing) = some ms ∧
      t.req.issued = s.req.issued)) ∧
  (∀ (h : Nat) (v : Recving) (s : State), ownedOf s h = none → tget s.req.recving h = some v → v.st ≠ .rquery →
    (v.timer + v.orphanUs * 1000 ≤ s.mono → ∃ t, exec (.orphanTimerExpiry h) s = .next t ∧ (tget t.req.recving h).map (·.st) = some .rquery ∧
      t.req.asks = s.req.asks ++ [{ handle := h, asker := .receiver, sentAt := s.mono }]) ∧
    (s.mono < v.timer + v.orphanUs * 1000 → exec (.orphanTimerExpiry h) s = .next s)) ∧
  (∀ (h sender : Nat) (p : PageData) (e : LEntry) (m : ModelDef) (i : Nat) (s : State), tget s.req.ledger (h, 1) = some e →
    modelOf s (handleTenant h) e.record.model = some m → tget s.req.replicas (h, p.layer, p.index) = some i →
    ∃ t, exec (.replicaArrival h ⟨sender, p⟩) s = .next t ∧ tget t.tier.data i = some p.blob ∧
      t.req = (sysTaken s (.replica h sender p)).req) ∧
  (∀ (h : Nat) (v : Recovery) (e : LEntry) (s : State), tget s.req.recovering h = some v → tget s.req.ledger (h, 1) = some e →
    e.record.handle = h →
    (v.started = false ∨ v.claiming = true ∨ v.limit = true → exec (.recoveryClaim h []) s = .next s) ∧
    (v.started = true → v.claiming = false → v.limit = false → ∃ (t : State) (i : Issued), exec (.recoveryClaim h []) s = .next t ∧
      t.req.issued = s.req.issued ++ [i] ∧ i.step.kind = 4 ∧ i.step.step = e.record.step + 1 ∧ i.step.newPhase = e.record.prior ∧
      i.step.issuer = selfId s ∧ i.why = .recovery ∧ (tget t.req.recovering h).map (·.claiming) = some true))

/-- Run on the owner, each page command completes with 0x0202 for a range outside the model's layers and the request's pages (or a TIER that it may
not name). A page to be promoted whose read does not fail becomes PROMOTING where there is room, pinned, with its new run noted, and the command
waits; without room it is not moved, and resident with AGE 0; one already as high completes with that count. A page to be demoted that is movable and
has room becomes DEMOTING; one that is not is counted skipped; with no room the status is 0x0201. When the copy is placed, no partition of T0 frozen
and no budget in its way, the entry names the new run; a demotion frees the old run at once, a promotion drops its pin and lets the old run drain
until the pins taken before are gone. PAGE_PIN and PAGE_UNPIN set and clear PERSIST of just the pages in range, within the pin limit (0x0203). With a
batch in place of a request those two complete with 0x0101 (the model's choice, log entry 121). PAGE_DROP drops every page from an index on and issues
the RECORD step that lowers FIRST_MISSING. -/
def Obligations.PagesMoveBetweenTiers : Prop :=
  (∀ (c : Cmd) (id : Nat) (s s1 : State) (o : Owned) (m : ModelDef), OneHere 0x20 c s id s1 →
    let u := here s1 id c
    let x := pageArgs c
    ownedOf u (handleOf c) = some o → finalPhase o.record.phase = false →
    modelOf u (handleTenant o.record.handle) o.record.model = some m →
    stageOf u id = 0 →
    (slotById u id).isSome = true →
    (x.ok m o = false ∨ 2 ≤ x.tier → exec (.pagePromote c) s = .next (s.keepHost (finish u id 0x0202 0 0))) ∧
    (∀ p e, x.ok m o = true → x.tier < 2 → x.pages o = [p] → tget u.tier.dir p.2.dir = some e → e.st = .resident →
      (e.tier ≤ x.tier → u.tier.moves = [] →
        exec (.pagePromote c) s = .next (s.keepHost (finish (setPhase (setStage u id (1 + 2 ^ 48)) id (.waiting .earlier)) id 0 0 1))) ∧
      (x.tier < e.tier → readFails u e = false → u.tier.moves = [] → overQuota u e.tenant x.tier e.run.slabs = true ∨
        takeFirst u e.run.slabs (if x.tier = 0 then [40] else stacksFor u e.kind e.back e.layer e.page) = none →
        ∃ v, exec (.pagePromote c) s = .next (s.keepHost (finish v id 0 0 (2 ^ 32))) ∧ v.tier.used = u.tier.used ∧ v.tier.moves = [] ∧
          (tget v.tier.dir p.2.dir).map (fun y => (y.run, y.st, y.age, y.pins)) = some (e.run, .resident, 0, e.pins)) ∧
      (∀ r v, x.tier < e.tier → readFails u e = false → overQuota u e.tenant x.tier e.run.slabs = false →
        takeFirst u e.run.slabs (if x.tier = 0 then [40] else stacksFor u e.kind e.back e.layer e.page) = some (r, v) →
        ∃ t, exec (.pagePromote c) s = .next t ∧ t.host.due = u.host.due ∧
          tget t.tier.dir p.2.dir = some { e with st := .promoting, pins := e.pins ++ [.promotion], age := 0, seq := wrapAdd 32 e.seq 1 } ∧
          tget t.tier.moves p.2.dir = some { run := r, tier := x.tier, slot := some id } ∧ t.tier.used = v.tier.used))) ∧
  (∀ (c : Cmd) (id : Nat) (s s1 : State) (o : Owned) (m : ModelDef), OneHere 0x21 c s id s1 →
    let u := here s1 id c
    let x := pageArgs c
    ownedOf u (handleOf c) = some o → finalPhase o.record.phase = false →
    modelOf u (handleTenant o.record.handle) o.record.model = some m →
    stageOf u id = 0 →
    (slotById u id).isSome = true → u.tier.moves = [] →
    (x.ok m o = false ∨ x.tier < 2 → exec (.pageDemote c) s = .next (s.keepHost (finish u id 0x0202 0 0))) ∧
    (∀ p e, x.ok m o = true → 2 ≤ x.tier → x.pages o = [p] → tget u.tier.dir p.2.dir = some e → e.st = .resident → e.tier < x.tier → readFails u e = false →
      let w (n : Nat) : State := setPhase (setStage u id (1 + n)) id (.waiting .earlier)
      (movable u p.2.dir e = false → exec (.pageDemote c) s = .next (s.keepHost (finish (w (2 ^ 24)) id 0 0 1))) ∧
      (movable u p.2.dir e = true → takeLower u e.tenant e.run.slabs (decide (x.tier = 2)) = none →
        exec (.pageDemote c) s = .next (s.keepHost (finish (w (2 ^ 48)) id 0x0201 0 0))) ∧
      (∀ r v, movable u p.2.dir e = true → takeLower u e.tenant e.run.slabs (decide (x.tier = 2)) = some (r, v) →
        ∃ t, exec (.pageDemote c) s = .next t ∧ tget t.tier.dir p.2.dir = some { e with st := .demoting, seq := wrapAdd 32 e.seq 1 } ∧
          (tget t.tier.moves p.2.dir).map (fun y => (y.run, y.slot)) = some (r, some id) ∧ t.host.due = u.host.due))) ∧
  (∀ (i : Nat) (e : DirEntry) (m : Move) (s : State), tget s.tier.dir i = some e → tget s.tier.moves i = some m →
    m.tier ≠ 0 ∨ t0Frozen s = false → moveGated s e m = false → (∀ g ∈ s.tier.held, g.deadline = none) →
    (e.st = .demoting → (∀ w ∈ s.tier.waitPins, w.1 ≠ i) → ∃ t, exec (.demotionPlaced i) s = .next t ∧
      tget t.tier.dir i = some { e with run := m.run, tier := m.tier, st := .resident, seq := wrapAdd 32 e.seq 1 } ∧
      tget t.tier.moves i = none ∧ t.tier.freed = (e.run.loc, e.run.first, e.run.slabs) :: s.tier.freed ∧
      t.tier.used = s.tier.used.erase (e.run.loc, e.run.first, e.run.slabs) ∧ t.tier.data = s.tier.data) ∧
    (e.st = .promoting → ∃ t, exec (.promotionPlaced i) s = .next t ∧
      tget t.tier.dir i = some { e with run := m.run, tier := m.tier, st := .resident, pins := e.pins.erase .promotion, seq := wrapAdd 32 e.seq 1 } ∧
      tget t.tier.moves i = none ∧ t.tier.drains = s.tier.drains ++ [{ dir := i, run := e.run, tier := e.tier, pins := e.pins.erase .promotion }] ∧
      t.tier.used = s.tier.used ∧ t.tier.data = s.tier.data) ∧
    (e.st = .resident → exec (.demotionPlaced i) s = .next s ∧ exec (.promotionPlaced i) s = .next s)) ∧
  (∀ (i : Nat) (d : Drain) (s : State), s.tier.drains = [d] → d.dir = i →
    (d.pins = [] → d.run.loc ≠ 40 ∨ t0Frozen s = false → exec (.oldRunDrained i) s = .next { s with tier := { s.tier with
      drains := [], used := s.tier.used.erase (d.run.loc, d.run.first, d.run.slabs)
      freed := (d.run.loc, d.run.first, d.run.slabs) :: s.tier.freed
      spoiled := s.tier.spoiled.filter fun b => !(b.1 = d.run.loc && d.run.first ≤ b.2 && b.2 < d.run.first + d.run.slabs) } }) ∧
    (d.pins ≠ [] ∨ (d.run.loc = 40 ∧ t0Frozen s = true) → exec (.oldRunDrained i) s = .next s)) ∧
  (∀ (on : Bool) (c : Cmd) (id : Nat) (s s1 : State) (o : Owned) (m : ModelDef), OneHere (if on then 0x22 else 0x23) c s id s1 →
    let u := here s1 id c
    let x := pageArgs c
    let row : Instr := if on then .pagePin c else .pageUnpin c
    ownedOf u (handleOf c) = some o → finalPhase o.record.phase = false →
    modelOf u (handleTenant o.record.handle) o.record.model = some m →
    (x.ok m o = false → exec row s = .next (s.keepHost (finish u id 0x0202 0 0))) ∧
    (x.ok m o = true → (on = true → persistSlabs u + newSlabs u (x.pages o) ≤ 10 * stackSlabs u) → ∃ v : State,
      exec row s = .next (s.keepHost (finish v id 0 (x.pages o).length 0)) ∧
      (∀ p ∈ x.pages o, ∀ e, tget v.tier.dir p.2.dir = some e → e.persist = on) ∧
      (∀ i, (∀ p ∈ x.pages o, p.2.dir ≠ i) → tget v.tier.dir i = tget u.tier.dir i) ∧ v.tier.used = u.tier.used ∧ v.host = u.host) ∧
    (x.ok m o = true → on = true → 10 * stackSlabs u < persistSlabs u + newSlabs u (x.pages o) →
      exec row s = .next (s.keepHost (finish u id 0x0203 0 0)))) ∧
  (∀ (c : Cmd) (id : Nat) (s s1 : State), StartsHere 0x22 c s id s1 → isBatch c = true →
    exec (.pagePin c) s = .next (s.keepHost (finish (forget (here s1 id c) id) id 0x0101 0 0))) ∧
  (∀ (c : Cmd) (id : Nat) (s s1 : State), StartsHere 0x23 c s id s1 → isBatch c = true →
    exec (.pageUnpin c) s = .next (s.keepHost (finish (forget (here s1 id c) id) id 0x0101 0 0))) ∧
  (∀ (c : Cmd) (id : Nat) (s s1 : State) (o : Owned) (m : ModelDef), OneHere 0x24 c s id s1 →
    let u := here s1 id c
    let pos := fld c.w2 63 32
    ownedOf u (handleOf c) = some o → o.record.handle = handleOf c → finalPhase o.record.phase = false →
    modelOf u (handleTenant o.record.handle) o.record.model = some m →
    stageOf u id = 0 →
    (pos % 256 ≠ 0 ∨ o.record.logged ≤ pos → exec (.pageDrop c) s = .next (s.keepHost (finish u id 0x0202 0 0))) ∧
    (pos % 256 = 0 → pos < o.record.logged → dropWaits u id o.record.handle o (pos / 256) = false → ∃ (t : State) (i : Issued) (o' : Owned),
      exec (.pageDrop c) s = .next t ∧ t.req.issued = u.req.issued ++ [i] ∧ i.step.kind = 9 ∧ i.step.handle = handleOf c ∧
      i.step.firstMissing ≤ pos ∧ i.why = .finish id i.step.firstMissing 0 ∧ ownedOf t (handleOf c) = some o' ∧
      o'.record.firstMissing = i.step.firstMissing ∧ (∀ p ∈ o'.pages, pos / 256 ≤ p.1.2 → p.2.present = false) ∧
      (∀ p ∈ o.pages, p.1.2 < pos / 256 → p ∈ o'.pages)))

/-- PREFIX_LOOKUP outside QUEUED and PREFILL completes with 0x0103, without prefix banks 0x0205, with tokens placed 0x0207; in PREFILL it refers to
the matched sets and returns 256 tokens for each. PREFIX_PUBLISH of a request with positions missing completes with 0x010D and FIRST_MISSING; of a
block whose hash is new it takes the lowest free entry for a set with one reference. PREFIX_RELEASE drops just the tenant's sets without references.
T3_ATTACH, from function 0 alone, adds an aligned extent within T3_BYTES and returns the total. TIER_QUERY returns occupancies per mille and grants.
MODEL_DEFINE adds a new definition, accepts the same one again and refuses another with 0x0210. At a whole millisecond AGE rises by one in just the
entries that are resident, unpinned and not persistent. PRESSURE_PARK at or below 950 per mille parks nothing; above, on a pool member, it moves the
first idle request to PARKED. -/
def Obligations.PrefixesTiersAndAges : Prop :=
  (∀ (c : Cmd) (id : Nat) (s s1 : State) (o : Owned) (m : ModelDef), OneHere 0x25 c s id s1 →
    let u := here s1 id c
    let h := o.record.handle
    ownedOf u (handleOf c) = some o → h = handleOf c → finalPhase o.record.phase = false →
    modelOf u (handleTenant h) o.record.model = some m → stageOf u id = 0 →
    (1 < o.record.phase → exec (.prefixLookup c) s = .next (s.keepHost (finish u id 0x0103 0 0))) ∧
    (o.record.phase ≤ 1 → banksOf u (handleTenant h) 1 = [] → exec (.prefixLookup c) s = .next (s.keepHost (finish u id 0x0205 0 0))) ∧
    (o.record.phase ≤ 1 → banksOf u (handleTenant h) 1 ≠ [] → o.record.placed ≠ 0 →
      exec (.prefixLookup c) s = .next (s.keepHost (finish u id 0x0207 0 0))) ∧
    (o.record.phase = 1 → banksOf u (handleTenant h) 1 ≠ [] → o.record.placed = 0 → stepsPending u id = false →
      let sets := matchSets u (handleTenant h) (chainHashes o.record o.log ((o.record.promptTokens - 1) / 256) 0 0)
      ∃ v : State, exec (.prefixLookup c) s = .next (s.keepHost (finish v id 0 (256 * sets.length) 0)) ∧
        ((ownedOf v h).map (·.refs)) = some (o.refs ++ sets) ∧
        (∀ ix p, sets = [ix] → tget u.tier.prefixes ix = some p → (tget v.tier.prefixes ix).map (·.refs) = some (p.refs + 1)) ∧
        (sets = [] → ((ownedOf v h).map (·.pages)) = some o.pages ∧ v.tier = u.tier))) ∧
  (∀ (c : Cmd) (id : Nat) (s s1 : State) (o : Owned) (m : ModelDef), OneHere 0x26 c s id s1 →
    let u := here s1 id c
    let h := o.record.handle
    let n := fld c.w2 31 0
    ownedOf u (handleOf c) = some o → modelOf u (handleTenant h) o.record.model = some m → o.record.phase ∈ [1, 2, 4, 5] →
    banksOf u (handleTenant h) 1 ≠ [] →
    (o.record.firstMissing < o.record.logged → exec (.prefixPublish c) s = .next (s.keepHost (finish u id 0x010D o.record.firstMissing 0))) ∧
    (o.record.logged ≤ o.record.firstMissing → n % 256 ≠ 0 ∨ o.record.placed < n ∨ o.record.promptTokens < n → exec (.prefixPublish c) s = .next (s.keepHost (finish u id 0x0202 0 0))) ∧
    (o.record.logged ≤ o.record.firstMissing → n = 0 → exec (.prefixPublish c) s = .next (s.keepHost (finish (setOwned u h o) id 0 0 0))) ∧
    (∀ ix, o.record.logged ≤ o.record.firstMissing → n = 256 → n ≤ o.record.placed → n ≤ o.record.promptTokens →
      let hash := chainHash 0 o.record.model o.record.adapter o.record.adapterVersion (handleTenant h) ((o.log.drop (256 * 0)).take 256)
      findSet u (handleTenant h) hash = none → lowestFree u (banksOf u (handleTenant h) 1) = some ix →
      ∃ (v : State) (p : PrefixSet), exec (.prefixPublish c) s = .next (s.keepHost (finish v id 0 1 0)) ∧ tget v.tier.prefixes ix = some p ∧
        p.refs = 1 ∧ p.tenant = handleTenant h ∧ p.hash = hash ∧ p.block = 0 ∧
        (tget (tgetD v.comp.banks (ix / 4096) Bank.fresh).entries (ix % 4096)).map (·.key) = some hash ∧
        ((ownedOf v h).map (·.refs)) = some (o.refs ++ [ix]))) ∧
  (∀ (c : Cmd) (id : Nat) (s s1 : State), Starts 0x27 c s id s1 →
    let u := begun s1 id c
    let t := cmdTenant u c
    let mine := u.tier.prefixes.filter fun p => p.2.tenant = t && p.2.refs = 0
    (banksOf u t 1 = [] → exec (.prefixRelease c) s = .next (s.keepHost (finish u id 0x0205 0 0))) ∧
    (banksOf u t 1 ≠ [] → ∃ v : State, exec (.prefixRelease c) s = .next (s.keepHost (finish v id 0 mine.length 0)) ∧
      (∀ p ∈ mine, tget v.tier.prefixes p.1 = none) ∧
      (∀ ix, (∀ p ∈ mine, p.1 ≠ ix) → tget v.tier.prefixes ix = tget u.tier.prefixes ix))) ∧
  (∀ (c : Cmd) (id : Nat) (s s1 : State), Starts 0x2B c s id s1 →
    let u := begun s1 id c
    let a := c.w2.toNat
    let n := c.w3.toNat
    let total := (u.tier.t3.map (·.2)).sum
    exec (.t3Attach c) s = .next (s.keepHost (
      if c.fn ≠ 0 then finish u id 0x0B21 0 0
      else if a % 2097152 ≠ 0 ∨ n % 2097152 ≠ 0 ∨ n = 0 ∨ u.image.t3Bytes < total + n ∨ 16 ≤ u.tier.t3.length then finish u id 0x020E 0 0
      else finish { u with tier := { u.tier with t3 := u.tier.t3 ++ [(a, n)] } } id 0 (total + n) 0))) ∧
  (∀ (c : Cmd) (id : Nat) (s s1 : State), Starts 0x2C c s id s1 →
    let u := begun s1 id c
    let use (loc whole : Nat) : Nat := min 65535 (if whole = 0 then 0 else 1000 * usedAt u loc / whole)
    u.image.molril = false → u.tier.held = [] →
    exec (.tierQuery c) s = .next (s.keepHost (finish u id 0
      (min 65535 (1000 * ((List.range 20).map (usedAt u)).sum / (20 * stackSlabs u)) * 2 ^ 48 + use 40 (t0Slabs u) * 2 ^ 32 +
        use 20 ((u.tier.t3.map (·.2)).sum / 65536)) u.tier.lent.length))) ∧
  (∀ (c : Cmd) (id : Nat) (s s1 : State), Starts 0x2D c s id s1 →
    let u := begun s1 id c
    let t := cmdTenant u c
    (tget u.tier.tensors (t, fld c.w2 15 0) = none → exec (.modelDefine c) s = .next (s.keepHost (finish u id 0x0306 0 0))) ∧
    (∀ y, tget u.tier.tensors (t, fld c.w2 15 0) = some y → y.freeing = false →
      let d := aDescOf y.blob
      (d.shapeOk = false → exec (.modelDefine c) s = .next (s.keepHost (finish u id 0x0303 0 0))) ∧
      (d.shapeOk = true → d.formatOk = false → exec (.modelDefine c) s = .next (s.keepHost (finish u id 0x0302 0 0))) ∧
      (d.shapeOk = true → d.formatOk = true → 4194304 < d.pageBytes → exec (.modelDefine c) s = .next (s.keepHost (finish u id 0x0303 0 0))) ∧
      (d.shapeOk = true → d.formatOk = true → d.pageBytes ≤ 4194304 →
        (∀ x, modelOf u t d.model = some x → x = d.defines t →
          exec (.modelDefine c) s = .next (s.keepHost (finish u id 0 d.model (d.defines t).pageBytes))) ∧
        (∀ x, modelOf u t d.model = some x → x ≠ d.defines t → exec (.modelDefine c) s = .next (s.keepHost (finish u id 0x0210 0 0))) ∧
        (modelOf u t d.model = none → 256 ≤ (u.tier.models.filter fun x => x.tenant = t).length →
          exec (.modelDefine c) s = .next (s.keepHost (finish u id 0x0211 0 0))) ∧
        (modelOf u t d.model = none → (u.tier.models.filter fun x => x.tenant = t).length < 256 →
          exec (.modelDefine c) s = .next (s.keepHost (finish { u with tier := { u.tier with models := u.tier.models ++ [d.defines t] } } id 0
            d.model (d.defines t).pageBytes)))))) ∧
  (∀ s : State, running s = true →
    (s.time % 1000000 ≠ 0 → exec .ageEpoch s = .next s) ∧
    (s.time % 1000000 = 0 → ∃ t, exec .ageEpoch s = .next t ∧ t.tier.dir = s.tier.dir.map fun e =>
      if e.2.st = .resident && e.2.pins = [] && !e.2.persist && !unsealedPinned s e.1 then (e.1, { e.2 with age := satAdd 16 e.2.age 1 }) else e)) ∧
  (∀ s : State,
    (occupancy s < 900 → exec .pressurePark s = .next { s with tier := { s.tier with parking := false } }) ∧
    (900 ≤ occupancy s → occupancy s ≤ 950 → s.tier.parking = false → exec .pressurePark s = .next s) ∧
    (∀ h o, 950 < occupancy s → s.image.role.cachePool = true → (victimRequests s none).find? (fun e => idleRequest s e.2) = some (h, o) →
      ∃ (t : State) (i : Issued), exec .pressurePark s = .next t ∧ t.tier.parking = true ∧ t.req.issued = s.req.issued ++ [i] ∧ i.step.kind = 1 ∧
        i.step.newPhase = 5 ∧ i.step.handle = o.record.handle ∧ ((ownedOf t o.record.handle).map (·.record.phase)) = some 5))

/-- An OFFER is kept for its sender; a DECLINE or a GRANT ends the ask to its sender, and a GRANT joins the held grants, with no further ask while
occupancy is at most 900 per mille. An ASK is answered DECLINE when nothing can be lent, and otherwise a grant is lent with a fresh number and sent,
with the event of R191. A RECALL of a held grant that is empty only notes its deadline, and RECALL_EMPTY then returns it, with the tray address of its
first byte; of one that holds moves alone it changes nothing. A RETURN from the borrower of a lent grant ends it: it is lent no longer and its
region's key is dead, and the borrower hears REVOKED; so does the lender's deadline. REVOKED of a held grant that holds nothing takes it away.
Messages about a grant that the module does not know change nothing but the outbox. -/
def Obligations.LoansGoOutAndComeBack : Prop :=
  (∀ (m : LoanMsg) (s : State), occupancy s ≤ 900 → (∀ d, (d, SysMsg.loan m) ∉ s.req.outbox) →
    exec (.loanOfferArrival m) s = .next { s with tier := { s.tier with offered := tset s.tier.offered m.sender m.grants } } ∧
    exec (.loanDeclineArrival m) s = .next { s with tier := { s.tier with ask := if s.tier.ask = some m.sender then none else s.tier.ask } } ∧
    exec (.loanGrantArrival m) s = .next { s with tier := { s.tier with
      held := s.tier.held ++ [{ lender := m.sender, id := m.grantId, stack := m.stack, key := m.key, addr := m.addr, idle := 0, deadline := none }]
      ask := if s.tier.ask = some m.sender then none else s.tier.ask } }) ∧
  (∀ (m : LoanMsg) (s : State), canSend s = true → (∀ d, (d, SysMsg.loan m) ∉ s.req.outbox) →
    (offerable s = 0 → exec (.loanAskArrival m) s = .next { s with req := { s.req with outbox := s.req.outbox ++
      [(m.sender, .loan { type := 3, grants := 1, stack := 0, sender := selfId s, grantId := 0, key := 0, addr := 0, deadline := 0 })] } }) ∧
    (∀ g v, offerable s ≠ 0 → lend s m.sender = some (g, v) → ∃ (t : State) (n : LoanMsg), exec (.loanAskArrival m) s = .next t ∧
      t.tier.lent = s.tier.lent ++ [g] ∧ g.borrower = m.sender ∧ g.id = s.tier.nextGrant ∧ g.deadline = none ∧
      t.tier.nextGrant = s.tier.nextGrant + 1 ∧ t.req.outbox = s.req.outbox ++ [(m.sender, .loan n)] ∧ n.type = 2 ∧ n.grants = 1 ∧
      n.grantId = g.id ∧ n.key = g.key ∧ n.stack = g.stack ∧
      tgetD t.tele.events (21, 0x41) 0 = wrapAdd 48 (tgetD s.tele.events (21, 0x41) 0) 1)) ∧
  (∀ (m : LoanMsg) (s : State), (∀ d, (d, SysMsg.loan m) ∉ s.req.outbox) →
    ((∀ g ∈ s.tier.held, ¬ (g.lender = m.sender ∧ g.id = m.grantId)) → exec (.recall m) s = .next s ∧ exec (.revoked m) s = .next s) ∧
    ((∀ g ∈ s.tier.lent, ¬ (g.id = m.grantId ∧ g.borrower = m.sender)) → exec (.returnGrant m) s = .next s) ∧
    (∀ g, s.tier.held = [g] → g.lender = m.sender → g.id = m.grantId → (∀ e ∈ s.tier.dir, e.2.run.loc ≠ grantLoc m.sender m.grantId) →
      exec (.recall m) s = .next { s with tier := { s.tier with held := [{ g with deadline := some m.deadline }] } } ∧
      ((∀ x ∈ s.tier.moves, x.2.run.loc ≠ grantLoc m.sender m.grantId) → (∀ x ∈ s.tier.drains, x.run.loc ≠ grantLoc m.sender m.grantId) →
        ∃ t, exec (.revoked m) s = .next t ∧ t.tier.held = [] ∧ t.tier.dir = s.tier.dir ∧ t.tier.used = s.tier.used ∧ t.req.owned = s.req.owned)) ∧
    (∀ g, s.tier.lent = [g] → g.id = m.grantId → g.borrower = m.sender → canSend s = true → ∃ (t : State) (n : LoanMsg),
      exec (.returnGrant m) s = .next t ∧ t.tier.lent = [] ∧ tget t.xport.regions (g.key % 2 ^ 24) = none ∧
      (g.borrower, SysMsg.loan n) ∈ t.req.outbox ∧ n.type = 6 ∧ n.grantId = g.id)) ∧
  (∀ (g : Held) (s : State), s.tier.held = [g] → canSend s = true →
    (g.deadline.isSome = true → usedAt s (grantLoc g.lender g.id) = 0 → exec (.recallEmpty g.lender g.id) s = .next { s with
      tier := { s.tier with held := [] }
      req := { s.req with outbox := s.req.outbox ++
        [(g.lender, .loan { type := 5, grants := 1, stack := g.stack, sender := selfId s, grantId := g.id, key := 0, addr := g.addr, deadline := 0 })] } }) ∧
    (g.deadline = none ∨ (usedAt s (grantLoc g.lender g.id) ≠ 0 ∧ ∀ e ∈ s.tier.dir, e.2.run.loc = grantLoc g.lender g.id → e.2.st ≠ .resident) → exec (.recallEmpty g.lender g.id) s = .next s)) ∧
  (∀ (g : Lent) (d : Nat) (s : State), s.tier.lent = [g] → s.tier.held = [] → g.deadline = some d → canSend s = true →
    (d ≤ s.time → ∃ (t : State) (n : LoanMsg), exec (.recallDeadlineExpiry g.id) s = .next t ∧ t.tier.lent = [] ∧
      tget t.xport.regions (g.key % 2 ^ 24) = none ∧ (g.borrower, SysMsg.loan n) ∈ t.req.outbox ∧ n.type = 6 ∧ n.grantId = g.id) ∧
    (s.time < d → exec (.recallDeadlineExpiry g.id) s = .next s))

/-- WINDOW_OPEN completes with 0x0208 without a window, with 0x0209 where fewer than PREFETCH_DISTANCE + 1 slots are free, with 0x020C for a layer
longer than a slot, with 0x020B for LAYERS or FIRST_LAYER out of range, and 0x0209 with 255 streams. Otherwise a host stream opens under the lowest
free number with its slots reserved and the layers from its cursor on being filled, in cyclic order, and the number is returned. WINDOW_ADVANCE moves
the cursor on by one layer modulo LAYERS, reserves further free slots when the distance has risen, and returns the cursor; once a command has been
turned away for a lost source it gives 0x002B. WINDOW_CLOSE waits while a started command names the stream or its slots are frozen, and then frees it.
An unknown, foreign or closing stream gives 0x020A. While no partition of T0 that holds the slots is frozen: a slot is released just when its layer is
not wanted and no started command names it; idle slots take layers that a started command names or that are wanted. With the traffic gate open a
filled slot holds the layer's bytes of host memory or of the adapter version; a lost source marks it lost. No other stream changes. -/
def Obligations.WindowsFollowTheirStreams : Prop :=
  (∀ (c : Cmd) (id : Nat) (s s1 : State), Starts 0x28 c s id s1 →
    let u := begun s1 id c
    let x := openArgs c
    let d := prefetchNow u
    let n := freeNumber 0 (u.tier.streams.map (·.1))
    (u.image.window = none → exec (.windowOpen c) s = .next (s.keepHost (finish u id 0x0208 0 0))) ∧
    (∀ w, u.image.window = some w →
      ((freeSlots u).length ≤ d → exec (.windowOpen c) s = .next (s.keepHost (finish u id 0x0209 0 0))) ∧
      (d < (freeSlots u).length → w.slotBytes < x.layerBytes → exec (.windowOpen c) s = .next (s.keepHost (finish u id 0x020C 0 0))) ∧
      (d < (freeSlots u).length → x.layerBytes ≤ w.slotBytes → x.kind = 1 → x.addr % 4096 = 0 →
        (x.layers = 0 ∨ 256 < x.layers ∨ x.layers ≤ x.first → exec (.windowOpen c) s = .next (s.keepHost (finish u id 0x020B 0 0))) ∧
        (1 ≤ x.layers → x.layers ≤ 256 → x.first < x.layers → 255 ≤ u.tier.streams.length →
          exec (.windowOpen c) s = .next (s.keepHost (finish u id 0x0209 0 0))) ∧
        (1 ≤ x.layers → x.layers ≤ 256 → x.first < x.layers → u.tier.streams.length < 255 → u.host.link.up = true → ∃ (v : State) (y : Stream),
          exec (.windowOpen c) s = .next (s.keepHost (finish v id 0 n 0)) ∧ tget v.tier.streams n = some y ∧
          y.tenant = cmdTenant u c ∧ y.source = 1 ∧ y.addr = x.addr ∧ y.stride = x.stride ∧ y.layerBytes = x.layerBytes ∧ y.layers = x.layers ∧
          y.cursor = x.first ∧ y.distance = d ∧ y.reserved = (freeSlots u).take (d + 1) ∧ y.closing = false ∧ y.cut = false ∧
          y.slots.map (·.layer) = (List.range (min (d + 1) x.layers)).map (fun i => (x.first + i) % x.layers) ∧
          (∀ z ∈ y.slots, z.filled = false ∧ z.slot ∈ y.reserved) ∧
          (∀ k, k ≠ n → tget v.tier.streams k = tget u.tier.streams k) ∧ v.host = u.host)))) ∧
  (∀ (c : Cmd) (id : Nat) (s s1 : State), Starts 0x29 c s id s1 →
    let u := begun s1 id c
    let n := fld c.w2 7 0
    ((∀ x, tget u.tier.streams n = some x → x.tenant ≠ cmdTenant u c ∨ x.closing = true) →
      exec (.windowAdvance c) s = .next (s.keepHost (finish u id 0x020A 0 0))) ∧
    (∀ x, tget u.tier.streams n = some x → x.tenant = cmdTenant u c → x.closing = false → x.cut = true →
      exec (.windowAdvance c) s = .next (s.keepHost (finish u id 0x002B 0 0))) ∧
    (∀ x, tget u.tier.streams n = some x → x.tenant = cmdTenant u c → x.closing = false → x.cut = false → ∃ (v : State) (y : Stream),
      exec (.windowAdvance c) s = .next (s.keepHost (finish v id 0 ((x.cursor + 1) % x.layers) 0)) ∧ tget v.tier.streams n = some y ∧
      y.cursor = (x.cursor + 1) % x.layers ∧ y.slots = x.slots ∧
      y.reserved = x.reserved ++ (freeSlots u).take (prefetchNow u + 1 - x.reserved.length) ∧
      y.distance = min (prefetchNow u) (y.reserved.length - 1) ∧ (∀ k, k ≠ n → tget v.tier.streams k = tget u.tier.streams k) ∧ v.host = u.host)) ∧
  (∀ (c : Cmd) (id : Nat) (s s1 : State), Starts 0x2A c s id s1 →
    let u := begun s1 id c
    let n := fld c.w2 7 0
    ((∀ x, tget u.tier.streams n = some x → x.tenant ≠ cmdTenant u c ∨ x.closing = true) →
      exec (.windowClose c) s = .next (s.keepHost (finish u id 0x020A 0 0))) ∧
    (∀ x, tget u.tier.streams n = some x → x.tenant = cmdTenant u c → x.closing = false →
      (streamNamed u x.tenant n none = false → slotsFrozen u = false → exec (.windowClose c) s = .next (s.keepHost (finish
        { u with tier := { u.tier with streams := tdel u.tier.streams n } } id 0 0 0))) ∧
      (streamNamed u x.tenant n none = true ∨ slotsFrozen u = true → ∃ t, exec (.windowClose c) s = .next t ∧ tget t.tier.streams n = some { x with closing := true } ∧
        t.host.due = u.host.due))) ∧
  (∀ (n : Nat) (s : State), tget s.tier.streams n = none → ∀ k, exec (.windowSlotFill n) s = .next s ∧ exec (.windowSlotFilled n k) s = .next s) ∧
  (∀ (n : Nat) (x : Stream) (s : State), tget s.tier.streams n = some x → slotsFrozen s = false → ∃ (t : State) (y : Stream),
    exec (.windowSlotFill n) s = .next t ∧ tget t.tier.streams n = some y ∧ y.cursor = x.cursor ∧ y.reserved = x.reserved ∧
    (∀ w ∈ x.slots, w ∈ y.slots ↔ (w.layer ∈ x.wanted ∨ streamNamed s x.tenant n (some w.layer) = true)) ∧
    (∀ w ∈ y.slots, w ∈ x.slots ∨ (x.sourceLost = false ∧ w.filled = false ∧ (w.layer ∈ x.wanted ∨ streamNamed s x.tenant n (some w.layer) = true) ∧ w.slot ∈ x.reserved)) ∧
    (∀ k, k ≠ n → tget t.tier.streams k = tget s.tier.streams k) ∧ t.tier.used = s.tier.used) ∧
  (∀ (n layer : Nat) (x : Stream) (w : WinSlot) (s : State), tget s.tier.streams n = some x → x.slots = [w] → w.layer = layer → w.filled = false →
    slotsFrozen s = false → mayMove s x.tenant 0 [] = true →
    (x.source = 1 → x.sourceLost = true ∨ s.host.link.up = false → exec (.windowSlotFilled n layer) s = .next s) ∧
    (x.source = 1 → x.sourceLost = false → s.host.link.up = true → ∃ (t : State) (b : Blob), exec (.windowSlotFilled n layer) s = .next t ∧
      tget t.tier.streams n = some { x with slots := [{ w with filled := true, blob := b }] } ∧
      (∀ i, i < x.layerBytes → blobByte b i = s.hostMem.read (x.addr + layer * x.stride + i))) ∧
    (∀ v, x.source = 0 → adVer s x.tenant x.adapter x.version = some v → v.st ≠ .lost → v.st ≠ .waitRoom → v.st ≠ .loading →
      v.content.fill = none → (∀ i ∈ v.dirs, ∀ e, tget s.tier.dir i = some e → readFails s e = false) →
      ∃ (t : State) (b : Blob), exec (.windowSlotFilled n layer) s = .next t ∧
        tget t.tier.streams n = some { x with slots := [{ w with filled := true, blob := b }] } ∧
        (∀ i, i < v.sliceBytes → blobByte b i = blobByte v.content (layer * v.sliceBytes + i))) ∧
    (x.source = 0 → (∀ v, adVer s x.tenant x.adapter x.version = some v → v.st = .lost) →
      ∃ t, exec (.windowSlotFilled n layer) s = .next t ∧ tget t.tier.streams n = some { x with slots := [{ w with lost := true }] }))

/-- ADAPTER_LOAD refuses a header that breaks its format (0x0026), a version that is there (0x0025) and a version beyond 1,024 entries (0x0028). A
load with room places its runs and is LOADING; one without waits, with the event of Table 20.2, or completes with 0x0020 when NOWAIT is set; a header-
only version needs no run and is CURRENT or HELD at once. Room turns a waiting load into a loading one. When the slices are placed their CRC decides:
a good version is CURRENT or HELD, or LOST with that as its PRIOR where it lost a run meanwhile (the model's reading, log entry 68), holds the bytes
of host memory, retires the CURRENT one before it and returns its slabs; a bad one leaves the table and completes with 0x0027. ADAPTER_RETIRE turns
CURRENT and HELD into RETIRING and counts them, and ends a waiting load with 0x0029. A version that is RETIRING, or LOST with that as its PRIOR,
without references or streams is freed with its runs. ADAPTER_QUERY returns state, CURRENT version, references, streams and slabs. -/
def Obligations.AdapterVersionsFollowTable92 : Prop :=
  (∀ (c : Cmd) (id : Nat) (s s1 : State), Starts 0xA0 c s id s1 →
    let u := begun s1 id c
    let t := cmdTenant u c
    let v := headerOf t (u.hostMem.readWords c.w2.toNat 8) c.w3.toNat c.w2.toNat id
    c.w2.toNat % 64 = 0 → hostBad u c.w2.toNat 64 = false →
    (v.formatOk = false → exec (.adapterLoad c) s = .next (s.keepHost (finish u id 0x0026 0 0))) ∧
    (∀ x, v.formatOk = true → adVer u t v.adapter v.version = some x → x.st ≠ .lost ∨ x.crc ≠ v.crc →
      exec (.adapterLoad c) s = .next (s.keepHost (finish u id 0x0025 0 0))) ∧
    (v.formatOk = true → adVer u t v.adapter v.version = none →
      (1024 ≤ u.comp.adapters.length → exec (.adapterLoad c) s = .next (s.keepHost (finish u id 0x0028 0 0))) ∧
      (u.comp.adapters.length < 1024 →
        (v.headerOnly = true → fewVersions u v = true → ∃ (w : State) (y : AdVer),
          exec (.adapterLoad c) s = .next (s.keepHost (finish w id 0 0 0)) ∧ adVer w t v.adapter v.version = some y ∧
          y.st = (if v.makeCurrent then .current else .held) ∧ y.dirs = []) ∧
        (∀ l p, v.headerOnly = false → fewVersions u v = true → placeStacks u v (List.range 20) = .ok (l, p) → ∃ (w : State) (y : AdVer),
          exec (.adapterLoad c) s = .next w ∧ adVer w t v.adapter v.version = some y ∧ y.st = .loading ∧ y.dirs = l ∧ w.tier = p.tier ∧
          w.host.due = p.host.due) ∧
        ((if v.headerOnly then fewVersions u v = false else startLoad u v = none) →
          (flag c.w3 2 = true → exec (.adapterLoad c) s =
            .next (s.keepHost (finish (if v.headerOnly then u else turnedAway u v) id 0x0020 0 0))) ∧
          (flag c.w3 2 = false → ∃ (w : State) (y : AdVer), exec (.adapterLoad c) s = .next w ∧ adVer w t v.adapter v.version = some y ∧
            y.st = .waitRoom ∧ w.tier = (if v.headerOnly then u else turnedAway u v).tier ∧ w.host.due = u.host.due ∧
            tgetD w.tele.events (21, 0x34) 0 = wrapAdd 48 (tgetD u.tele.events (21, 0x34) 0) 1))))) ∧
  (∀ (t a n : Nat) (s : State), adVer s t a n = none → exec (.adapterRoomAvailable t a n) s = .next s ∧
    exec (.adapterLoadComplete t a n) s = .next s ∧ exec (.adapterVersionFree t a n) s = .next s) ∧
  (∀ (t a n : Nat) (v : AdVer) (s : State), adVer s t a n = some v → v.reload = false →
    (v.st ≠ .waitRoom → exec (.adapterRoomAvailable t a n) s = .next s) ∧
    (v.st ≠ .loading → exec (.adapterLoadComplete t a n) s = .next s) ∧
    (v.st = .waitRoom → v.headerOnly = false → startLoad s v = none → exec (.adapterRoomAvailable t a n) s = .next s) ∧
    (∀ l p, v.st = .waitRoom → v.headerOnly = false → fewVersions s v = true → placeStacks s v (List.range 20) = .ok (l, p) →
      adVer p t a n = some v → ∃ (w : State) (y : AdVer), exec (.adapterRoomAvailable t a n) s = .next w ∧ adVer w t a n = some y ∧
        y.st = .loading ∧ y.dirs = l ∧ w.tier = p.tier) ∧
    (∀ id, v.st = .loading → v.slot = some id → hostBad s (v.addr + 64) (v.layers * v.sliceBytes) = false →
      let good := crc32c (s.hostMem.readBytes (v.addr + 64) (v.layers * v.sliceBytes)) = v.crc
      (good → ∃ (w : State) (y : AdVer),
        exec (.adapterLoadComplete t a n) s = .next (s.keepHost (finish w id 0 (slabsIn s v.dirs true) (slabsIn s v.dirs false))) ∧
        adVer w t a n = some y ∧ (let st : AdSt := if v.makeCurrent then .current else .held; y.st = (if v.short then .lost else st) ∧ (v.short = true → y.prior = st)) ∧ y.dirs = v.dirs ∧
        (∀ i, i < v.layers * v.sliceBytes → blobByte y.content i = s.hostMem.read (v.addr + 64 + i)) ∧
        (v.makeCurrent = true → ∀ x ∈ s.comp.adapters, x.tenant = t → x.adapter = a → x.version ≠ n → x.st = .current →
          { x with st := .retiring } ∈ w.comp.adapters) ∧
        w.tier = s.tier) ∧
      (¬ good → ∃ w : State, exec (.adapterLoadComplete t a n) s = .next (s.keepHost (finish w id 0x0027 0 0)) ∧ adVer w t a n = none ∧
        (∀ i ∈ v.dirs, tget w.tier.dir i = none)))) ∧
  (∀ (c : Cmd) (id : Nat) (s s1 : State), Starts 0xA1 c s id s1 →
    let u := begun s1 id c
    let t := cmdTenant u c
    let mine := u.comp.adapters.filter fun v => v.tenant = t && v.adapter = fld c.w2 31 16 && (fld c.w2 15 0 = 0 || v.version = fld c.w2 15 0)
    (mine = [] → exec (.adapterRetire c) s = .next (s.keepHost (finish u id 0 0 0))) ∧
    (∀ v, mine = [v] →
      (v.st = .current ∨ v.st = .held → ∃ w : State, exec (.adapterRetire c) s = .next (s.keepHost (finish w id 0 1 0)) ∧
        adVer w t v.adapter v.version = some { v with st := .retiring } ∧ w.tier = u.tier) ∧
      (v.st = .retiring → exec (.adapterRetire c) s = .next (s.keepHost (finish u id 0 0 0))) ∧
      (∀ k, v.st = .waitRoom → v.slot = some k → ∃ w : State,
        exec (.adapterRetire c) s = .next (s.keepHost (finish (finish w k 0x0029 0 0) id 0 0 0)) ∧ adVer w t v.adapter v.version = none))) ∧
  (∀ (t a n : Nat) (v : AdVer) (s : State), adVer s t a n = some v → v.reload = false →
    (v.st = .retiring ∨ (v.st = .lost ∧ v.prior = .retiring) → v.refs = 0 → streamsOf s t a n = 0 → v.slot = none → v.fresh = [] → ∃ w, exec (.adapterVersionFree t a n) s = .next w ∧ adVer w t a n = none ∧
      (∀ i ∈ v.dirs, tget w.tier.dir i = none) ∧ (∀ i, i ∉ v.dirs → tget w.tier.dir i = tget s.tier.dir i)) ∧
    (v.st = .current ∨ v.st = .held ∨ v.refs ≠ 0 ∨ streamsOf s t a n ≠ 0 → exec (.adapterVersionFree t a n) s = .next s)) ∧
  (∀ (c : Cmd) (id : Nat) (s s1 : State), Starts 0xA2 c s id s1 →
    let u := begun s1 id c
    let t := cmdTenant u c
    let a := fld c.w2 31 16
    let cur := (currentVersion u t a).elim 0 (·.version)
    let n := if fld c.w2 15 0 = 0 then cur else fld c.w2 15 0
    (adVer u t a n = none → exec (.adapterQuery c) s = .next (s.keepHost (finish u id 0 (cur * 2 ^ 40) 0))) ∧
    (∀ v, adVer u t a n = some v → exec (.adapterQuery c) s = .next (s.keepHost (finish u id 0 (v.st.code * 2 ^ 56 + cur * 2 ^ 40 + v.refs)
      (streamsOf u t a n * 2 ^ 32 + slabsIn u v.dirs true + slabsIn u v.dirs false)))))

/-- GEMM and GEMV complete with 0x0303 for a shape out of range, a HANDLE or a batch, with 0x0302 for a format without a mode, with the code of the
first reference that does not pass, with 0x002B for a layer that a lost source has not filled, which cuts the stream off. Where its first entry finds
no room the command waits, not started. Otherwise one entry is issued to each participating Ladle, without credits and with nothing written while a
window layer is not yet filled. With both operands there, C = A times the transpose of W is written to C_REF in the output format (the named tensors
being readable), each entry has its two credits, and the running command keeps 0x0309, 0x0305 or OK and the greatest finite magnitude. GATHER_ROWS
writes the named rows, zeros for an index out of range, and counts those. VECTOR writes the function of each row; an unknown function gives 0x0301.
TENSOR_ALLOC gives the lowest unused ID, within its limits (0x0307), and places min(20, slabs) runs. TENSOR_FREE waits while a started command names
the tensor and then frees it; an unknown one gives 0x0306. No other tensor and no other byte changes. -/
def Obligations.LadleOperatorsWriteTheirResults : Prop :=
  (∀ (gv : Bool) (c : Cmd) (id : Nat) (s s1 : State), Starts (if gv then 0x31 else 0x30) c s id s1 →
    let row : Instr := if gv then .gemv c else .gemm c
    let maxM := if gv then 16 else 65536
    let u := begun s1 id c
    let t := cmdTenant u c
    let x := gemmArgs c
    let entry (credits k : Nat) : QEntry :=
      { slot := id, lane := t % 16 * 8 + classOf c, comps := [], operands := 2, credits := credits, index := k }
    (handleOf c ≠ 0 ∨ isBatch c = true ∨ x.shapeOk maxM = false → s.hostMem.wf = true → exec row s = .next (s.keepHost (finish u id 0x0303 0 0))) ∧
    (handleOf c = 0 → isBatch c = false → x.shapeOk maxM = true →
      (x.formats = none → s.hostMem.wf = true → exec row s = .next (s.keepHost (finish u id 0x0302 0 0))) ∧
      (∀ f, x.formats = some f → tget u.comp.running id = none →
        let wBytes := (x.ladles.length - 1) * x.shareStep f + x.shareBytes f
        let refs := firstBad [refCheck u t x.a (groupedBytes f.fa x.sa f.g x.m x.k) true, refCheck u t x.w wBytes true,
          refCheck u t x.c (groupedBytes f.fc (if f.fc.qmax.isNone then 0 else x.sc) f.og x.m x.n) false]
        let vw := refView u t x.w wBytes
        let rows := (operandRows u t x.a 0 f.fa x.sa f.g x.m x.k).map fun ra => (List.range x.n).map fun j =>
          let rw := rowAt vw.1 (vw.2 + j / x.rpl * x.shareStep f) f.fw x.sw f.g x.rpl x.k (j % x.rpl)
          (dot f.mode f.g ra.nums rw.nums ra.scaleNums rw.scaleNums, ra.bad || rw.bad)
        let names := refTensor x.a ++ refTensor x.w ++ refTensor x.c
        let st := outStatus (anyPoison rows) (anyNonfinite rows)
        let run : Running := ⟨x.ladles.length, st, 0, tensorAmax rows, true, 0, 0, 0, names, false, modeCode f.fw, []⟩
        let full := firstBlocked u (laneOf u c) (plainEntries x.ladles)
        (∀ e, refs = .bad e → s.hostMem.wf = true → exec row s = .next (s.keepHost (finish u id e 0 0))) ∧
        (∀ n y, refs = .lost n → tget u.tier.streams n = some y → s.hostMem.wf = true → exec row s = .next (s.keepHost (finish
          { u with tier := { u.tier with streams := tset u.tier.streams n { y with cut := true } } } id 0x002B 0 0))) ∧
        (refs = .wait ∨ refs = .ok → full = true → s.hostMem.wf = true → exec row s = .next (s.keepHost (setPhase u id (.waiting .whisk)))) ∧
        (refs = .wait → full = false → ∃ w, exec row s = .next w ∧
          tget w.comp.running id = some ⟨x.ladles.length, 0, 0, 0, false, 0, 0, 0, names, true, 5, []⟩ ∧
          (∀ k l, x.ladles[k]? = some l → EntryIssued w l (entry 0 k)) ∧ w.tier.tensors = u.tier.tensors ∧ w.host.due = u.host.due) ∧
        (refs = .ok → full = false → (∀ i ∈ tensorDirs u t names, (tget u.tier.dir i).elim false (readFails u) = false) →
          Writable u t x.c → shadowed u id = false → ∃ w, exec row s = .next w ∧
          Wrote u w t x.c (outBytes f.fc x.sc (rows.map (outRow f.fc x.sc f.og))) ∧
          tget w.comp.running id = some run ∧ (∀ k l, x.ladles[k]? = some l → EntryIssued w l (entry 2 k)) ∧ w.host.due = u.host.due)))) ∧
  (∀ (c : Cmd) (id : Nat) (s s1 : State), Starts 0x30 c s id s1 → s.hostMem.wf = true → 65536 < (gemmArgs c).m →
    exec (.gemm c) s = .next (s.keepHost (finish (begun s1 id c) id 0x0303 0 0))) ∧
  (∀ (c : Cmd) (id : Nat) (s s1 : State), Starts 0x31 c s id s1 → s.hostMem.wf = true → 16 < (gemmArgs c).m →
    exec (.gemv c) s = .next (s.keepHost (finish (begun s1 id c) id 0x0303 0 0))) ∧
  (∀ (c : Cmd) (id : Nat) (s s1 : State), Starts 0x32 c s id s1 →
    let u := begun s1 id c
    let t := cmdTenant u c
    let rows := fld c.w5 63 32
    let rb := fld c.w5 31 0
    let tr := fld c.w6 63 32
    let index (r : Nat) : Nat := leNat (refBytes u t (refOf c.w3) (4 * r) 4)
    let table := refView u t (refOf c.w2) (tr * rb)
    let names := refTensor (refOf c.w2) ++ refTensor (refOf c.w3) ++ refTensor (refOf c.w4)
    tget u.comp.running id = none → firstBlocked u (laneOf u c) (plainEntries (rowLadles rows)) = false → (refOf c.w4).isWindow = false →
    (∀ i ∈ tensorDirs u t names, (tget u.tier.dir i).elim false (readFails u) = false) →
    handleOf c = 0 → isBatch c = false → 1 ≤ rows → rows ≤ 65536 → 64 ≤ rb → rb ≤ 65536 → rb % 64 = 0 → 1 ≤ tr → tr ≤ 1048576 →
    firstBad [refCheck u t (refOf c.w2) (tr * rb) true, refCheck u t (refOf c.w3) (4 * rows) true, refCheck u t (refOf c.w4) (rows * rb) false] = .ok →
    Writable u t (refOf c.w4) → shadowed u id = false → ∃ (w : State) (bs : List (Byte × Bool)) (r : Running), exec (.gatherRows c) s = .next w ∧
      Wrote u w t (refOf c.w4) bs ∧ bs.length = rows * rb ∧
      (∀ m i, m < rows → i < rb →
        (bs.getD (m * rb + i) (0, false)).1 = if index m < tr then blobByte table.1 (table.2 + index m * rb + i) else 0) ∧
      tget w.comp.running id = some r ∧ r.r0 = ((List.range rows).filter fun m => decide (tr ≤ index m)).length ∧ r.charged = false ∧
      r.status = (if bs.any (·.2) then 0x0309 else if r.r0 = 0 then 0 else 0x0304) ∧ w.host.due = u.host.due) ∧
  (∀ (c : Cmd) (id : Nat) (s s1 : State), Starts 0x33 c s id s1 →
    let u := begun s1 id c
    let t := cmdTenant u c
    let func := fld c.w6 63 56
    let rows := fld c.w5 63 32
    let cols := fld c.w5 31 0
    let sx := fld c.w6 43 42
    let sy := if usesY func then fld c.w6 41 40 else 0
    let sz := fld c.w6 39 38
    let p := Fp.f32.decode (fld c.w7 63 32)
    (7 ≤ func → s.hostMem.wf = true → exec (.vector c) s = .next (s.keepHost (finish u id 0x0301 0 0))) ∧
    (∀ fx fy fz g, func < 7 → handleOf c = 0 → isBatch c = false → 1 ≤ rows → rows ≤ 1048576 → 1 ≤ cols → cols ≤ 65536 →
      groupOf (fld c.w6 37 36) = some g → Fmt.ofCode (fld c.w6 55 52) = some fx →
      Fmt.ofCode (if usesY func then fld c.w6 51 48 else 6) = some fy → Fmt.ofCode (fld c.w6 47 44) = some fz →
      tget u.comp.running id = none → firstBlocked u (laneOf u c) (plainEntries (rowLadles rows)) = false → (refOf c.w4).isWindow = false →
      (∀ i ∈ tensorDirs u t (refTensor (refOf c.w2) ++ (if usesY func then refTensor (refOf c.w3) else []) ++ refTensor (refOf c.w4)),
        (tget u.tier.dir i).elim false (readFails u) = false) →
      sx ≠ 3 → sy ≠ 3 → sz ≠ 3 → destOk fz sz = true → colsOk cols g sx sy sz fz = true →
      let yrows := if func = 4 then 1 else rows
      let refs := [refCheck u t (refOf c.w2) (groupedBytes fx sx g rows cols) true] ++
        (if usesY func then [refCheck u t (refOf c.w3) (groupedBytes fy sy g yrows cols) true] else []) ++
        [refCheck u t (refOf c.w4) (groupedBytes fz (if fz.qmax.isNone then 0 else sz) g rows cols) false]
      let xs := operandRows u t (refOf c.w2) 0 fx sx g rows cols
      let ys := if usesY func then operandRows u t (refOf c.w3) 0 fy sy g yrows cols else []
      let out := (List.range rows).map fun m =>
        vectorRow func p ((xs[m]?).elim [] (·.values g)) ((ys[if func = 4 then 0 else m]?).elim [] (·.values g))
      firstBad refs = .ok → Writable u t (refOf c.w4) → shadowed u id = false → ∃ (w : State) (r : Running), exec (.vector c) s = .next w ∧
        Wrote u w t (refOf c.w4) (outBytes fz sz (out.map (outRow fz sz g))) ∧ tget w.comp.running id = some r ∧
        r.left = min rows 160 ∧ r.status = outStatus (anyPoison out) (anyNonfinite out) ∧ r.r1 = tensorAmax out ∧
        w.host.due = u.host.due)) ∧
  (∀ (c : Cmd) (id : Nat) (s s1 : State), Starts 0x34 c s id s1 →
    let u := begun s1 id c
    let t := cmdTenant u c
    let bytes := c.w2.toNat
    let n := freeNumber 1 (tensorsOf u t)
    handleOf c = 0 → isBatch c = false →
    (4096 ≤ (tensorsOf u t).length ∨ bytes < 64 ∨ 83886080 < bytes ∨ bytes % 64 ≠ 0 →
      exec (.tensorAlloc c) s = .next (s.keepHost (finish u id 0x0307 0 0))) ∧
    ((tensorsOf u t).length < 4096 → 64 ≤ bytes → bytes ≤ 83886080 → bytes % 64 = 0 → tget u.rel.mirrors id = none →
      (∀ e, placeRuns u t 3 0 0 n false true true (tensorRuns bytes) = .error e →
        exec (.tensorAlloc c) s = .next (s.keepHost (finish (unplaced u e) id e.code 0 0))) ∧
      (∀ l p, placeRuns u t 3 0 0 n false true true (tensorRuns bytes) = .ok (l, p) → ∃ (v : State) (y : Tensor),
        exec (.tensorAlloc c) s = .next (s.keepHost (finish v id 0 n bytes)) ∧ tget v.tier.tensors (t, n) = some y ∧ y.bytes = bytes ∧
        y.dirs = l ∧ l.length = min 20 (ceilDiv bytes 65536) ∧ y.blob = Blob.free p.free ∧ v.free = p.free + 1 ∧ y.freeing = false ∧
        (∀ k, k ≠ (t, n) → tget v.tier.tensors k = tget p.tier.tensors k)))) ∧
  (∀ (c : Cmd) (id : Nat) (s s1 : State), Starts 0x35 c s id s1 →
    let u := begun s1 id c
    let t := cmdTenant u c
    let n := fld c.w2 15 0
    (tget u.tier.tensors (t, n) = none → exec (.tensorFree c) s = .next (s.keepHost (finish u id 0x0306 0 0))) ∧
    (∀ y, tget u.tier.tensors (t, n) = some y → y.freeing = false → handleOf c = 0 → isBatch c = false →
      (tensorNamed u t n = true → ∃ w, exec (.tensorFree c) s = .next w ∧ tget w.tier.tensors (t, n) = some { y with freeing := true } ∧
        w.host.due = u.host.due) ∧
      (tensorNamed u t n = false → ∃ v : State, exec (.tensorFree c) s = .next (s.keepHost (finish v id 0 0 0)) ∧
        tget v.tier.tensors (t, n) = none ∧ (∀ i ∈ y.dirs, tget v.tier.dir i = none) ∧
        (∀ i, i ∉ y.dirs → tget v.tier.dir i = tget u.tier.dir i) ∧
        (∀ k, k ≠ (t, n) → tget v.tier.tensors k = tget u.tier.tensors k))))

/-- An idle Ladle that serves starts the head of the lane that the arbiter grants, RUNNING, or RESTORING where that command is saved; the grant goes
to a lane whose gate is open and whose head has its operand credits, and while the urgency area is in use only to class 7 or to the saved command. The
end of the running entry, with the gates of its stack and of the crossbar open, moves the pointer past its lane and makes the Ladle IDLE, and entries
that waited for room join its queue; the last entry of a command completes it with its status and results, pre-emptions and thousands of cycles where
they are reported. A pre-emption needs the running state and a trigger of Table 7.7: urgency in role S, for class below 7, after 15,000 cycles with
the urgency area free, or an empty budget after 75,000 cycles with the budget area free; it saves to the area of its cause and puts the entry back at
the head. The end of a save makes the Ladle IDLE, the end of a restore frees the area and makes it RUNNING. In every other state these commands change
nothing. The slot-cycles of a decode member's entry are divided equally among its positions, the remainder to the first; when a SAMPLE decides them,
those of the positions that it does not use join DRAFT_WASTED, and none is kept. -/
def Obligations.LadlesFollowTable78 : Prop :=
  (∀ (l : Nat) (s : State),
    let x := ladleOf s l
    (x.st ≠ .idle ∨ ladleServes s l = false ∨ grantLane s l x = none → exec (.ladleEntryStart l) s = .next s) ∧
    (∀ n e, x.st = .idle → ladleServes s l = true → grantLane s l x = some n → laneHead x n = some e → ∃ w,
      exec (.ladleEntryStart l) s = .next w ∧
      (let saved := x.budgetArea = some e ∨ x.urgencyArea = some e
       ladleOf w l = { x with queue := x.queue.erase e, running := some e, since := s.mono, st := if saved then .restoring else .running,
                              work := { lines := if saved then [] else (List.range e.operands).map fun k => (k, Config.tile e.slot l k), accs := none } }) ∧
      (∀ k, k ≠ l → ladleOf w k = ladleOf s k) ∧ w.host = s.host ∧ w.comp.running = s.comp.running ∧
      gateOpen s (n / 8) 0 (n % 8) l = true ∧ e.operands ≤ e.credits ∧ (∀ v, x.urgencyArea = some v → e = v ∨ n % 8 = 7))) ∧
  (∀ (l : Nat) (s : State),
    let x := ladleOf s l
    (∀ e, x.running = some e → mayMove s (e.lane / 8) (e.lane % 8) [l / 8] = false → exec (.ladleEntryComplete l) s = .next s) ∧
    (x.st ≠ .running ∨ x.running = none → exec (.ladleEntryComplete l) s = .next s ∧ exec (.ladlePreempt l) s = .next s) ∧
    (∀ e r, x.st = .running → x.running = some e → tget s.comp.running e.slot = some r → mayMove s (e.lane / 8) (e.lane % 8) [l / 8] = true →
      let next (w : State) : Prop := ∃ q, ladleOf w l = { x with st := .idle, running := none, ptr := (e.lane + 1) % 128, queue := x.queue ++ q } ∧
        (s.comp.whisk = [] → q = [])
      let cycles := r.cycles + (s.mono - x.since) * 3 / 2
      (r.left ≤ 1 → ∃ v : State, exec (.ladleEntryComplete l) s = .next (s.keepHost (finish v e.slot r.status
          (if r.charged then r.preempts * 2 ^ 32 + cycles / 1000 % 2 ^ 32 else r.r0) r.r1)) ∧
        next v ∧ (∀ k, k ≠ l → ladleOf v k = ladleOf s k) ∧
        tget v.comp.running e.slot = none ∧ v.tier = s.tier) ∧
      (1 < r.left → ∃ w, exec (.ladleEntryComplete l) s = .next w ∧
        next w ∧ (∀ k, k ≠ l → ladleOf w k = ladleOf s k) ∧
        tget w.comp.running e.slot = some { r with left := r.left - 1, cycles := cycles } ∧ w.host.due = s.host.due ∧ w.tier = s.tier)) ∧
    (∀ e r, x.st = .running → x.running = some e → tget s.comp.running e.slot = some r →
      let ran := (s.mono - x.since) * 3 / 2
      let urgent := s.image.role = .s ∧ class7Ready s l x = true ∧ e.lane % 8 < 7 ∧ 15000 ≤ ran ∧ x.urgencyArea = none
      let empty := (∃ b, gateBalance s (e.lane / 8) 0 (e.lane % 8) l = some b ∧ b ≤ gateCycles s x) ∧ 75000 ≤ ran ∧ x.budgetArea = none
      (¬ urgent → ¬ empty → exec (.ladlePreempt l) s = .next s) ∧
      (urgent ∨ empty → ∃ w, exec (.ladlePreempt l) s = .next w ∧
        (ladleOf w l).st = .saving ∧ (ladleOf w l).running = none ∧ (ladleOf w l).queue = e :: x.queue ∧ (ladleOf w l).ptr = (e.lane + 1) % 128 ∧
        tget w.comp.running e.slot = some { r with preempts := r.preempts + 1, cycles := r.cycles + ran } ∧
        (∀ k, k ≠ l → ladleOf w k = ladleOf s k) ∧ w.host.due = s.host.due) ∧
      (urgent → ∃ w, exec (.ladlePreempt l) s = .next w ∧ (ladleOf w l).urgencyArea = some e ∧ (ladleOf w l).budgetArea = x.budgetArea) ∧
      (¬ urgent → empty → ∃ w, exec (.ladlePreempt l) s = .next w ∧ (ladleOf w l).budgetArea = some e ∧
        (ladleOf w l).urgencyArea = x.urgencyArea))) ∧
  (∀ (l : Nat) (s : State),
    let x := ladleOf s l
    (x.st ≠ .saving → exec (.ladleSaveComplete l) s = .next s) ∧
    (x.st = .saving → exec (.ladleSaveComplete l) s = .next { s with comp := { s.comp with
      ladles := tset s.comp.ladles l { x with st := .idle } } }) ∧
    (x.st ≠ .restoring → exec (.ladleRestoreComplete l) s = .next s) ∧
    (x.st = .restoring → exec (.ladleRestoreComplete l) s = .next { s with comp := { s.comp with
      ladles := tset s.comp.ladles l { x with st := .running, since := s.mono
                                              work := if x.budgetArea = x.running then x.budgetSave else x.urgencySave
                                              budgetArea := if x.budgetArea = x.running then none else x.budgetArea
                                              urgencyArea := if x.urgencyArea = x.running then none else x.urgencyArea } } })) ∧
  (∀ (t : Tele) (id h positions k n p : Nat), k < 4 → 0 < n → 2 ≤ positions → p < positions →
    tgetD (t.shareDraft id h positions k n).draftHeld (id, h, p * 4 + k) 0 =
      tgetD t.draftHeld (id, h, p * 4 + k) 0 + n / positions + if p = 0 then n % positions else 0) ∧
  (∀ (t : Tele) (h used k : Nat), k < 4 → tgetD t.draftWasted k 0 < 2 ^ 48 →
    tgetD (t.decideDrafts h used).draftWasted k 0 = (tgetD t.draftWasted k 0 +
      ((t.draftKept.filter fun e => e.1.1 = h && decide (used ≤ e.1.2 / 4) && e.1.2 % 4 = k).map (·.2)).sum) % 2 ^ 48 ∧
    (∀ e ∈ (t.decideDrafts h used).draftKept, e.1.1 ≠ h))

/-- Run on the owner of the one request that it names, ATTEND_DECODE completes with 0x0B20 in role P, 0x0710 for a DONE_COUNTER out of range, 0x0306
without its descriptor. The objects that it reads pass their checks, and its Ladles have room. A refused member gets zeros as its output block and
gives the status, with REFUSED_COUNT 1. Otherwise its pages take their places, the new entries are written at the positions from the KV length at its
start on, every token's rows see the positions up to its own, outputs go to OUT_REF, and the running command keeps saturations, slices, status and
DONE_COUNTER. ATTEND_PREFILL does the same for a chunk, seals full pages, and writes statistics where AUX_REF is given; one that would write a sealed
page completes with 0x0202 and writes nothing. ATTEND_BWD writes the gradients. SOFTMAX_COMBINE folds the parts of every row. EXPERT_APPLY writes the
rows of the member's bound version, with one entry on every Ladle, or zeros where the member is refused. -/
def Obligations.AttentionAndExpertsWriteTheirRows : Prop :=
  (∀ (c : Cmd) (id : Nat) (s s1 : State), StartsHere 0x38 c s id s1 →
    let u := here s1 id c
    let x := aArgs c
    let t := cmdTenant u c
    let h := handleOf c
    let names := tensorDirs u t (x.names false)
    tget u.comp.running id = none → stepsPending u id = false → s.hostMem.wf = true →
    (u.image.role = .p → exec (.attendDecode c) s = .next (s.keepHost (finish u id 0x0B20 0 0))) ∧
    (u.image.role ≠ .p → 4096 ≤ x.counter → exec (.attendDecode c) s = .next (s.keepHost (finish u id 0x0710 0 0))) ∧
    (u.image.role ≠ .p → x.counter < 4096 → x.tag = 0 → attentionAhead u id x.layer = true →
      exec (.attendDecode c) s = .next (s.keepHost (setPhase u id (.waiting .earlier)))) ∧
    (u.image.role ≠ .p → x.counter < 4096 → x.tag = 0 → attentionAhead u id x.layer = false → Readable u names →
      (aTensor u t x false = none → exec (.attendDecode c) s = .next (s.keepHost (finish u id 0x0306 0 0))) ∧
      (∀ y o hd, aTensor u t x false = some y → slotMembers u id = [h] → isBatch c = false → ownedOf u h = some o → o.record.phase ≠ 2 →
        let d := aDescOf y.blob
        let fin := fmtOrF32 x.fin
        let fout := fmtOrF32 x.fout
        let sec := sectionBytes d fin false
        let total := 64 + hd.t * sec
        let outBytes := hd.t * tokenBytes x.part fout d
        let ul := takeLengths u id
        let n := lengthAt ul id 0 o
        headers u t x.input sec false 1 0 = ([hd], true) → d.shapeOk = true → d.formatOk = true → x.layer < d.layers → 1 ≤ hd.t → hd.t ≤ 17 →
        hd.t * d.qpk * d.dim ≤ 65536 → wideFmt x.fin = true → (x.part = true ∨ wideFmt x.fout = true) → refCheck u t x.input total false = .ok →
        refCheck u t x.output outBytes false = .ok → d.bytes ≤ y.bytes → Writable u t x.output → shadowed u id = false →
        HasRoom u c → Readable u (layerDirs o x.layer (ceilDiv n 256)) →
        (∀ e, decodeRefusal u id h n d hd = some e → ∃ v : State, Wrote u v t x.output (List.replicate outBytes (0, false)) ∧
          exec (.attendDecode c) s = .next (s.keep (finish v id e (if e = 0x010D then o.record.firstMissing else 0) 1))) ∧
        (∀ p q o1 o2 sat, decodeRefusal u id h n d hd = none →
          let view := refView u t x.input total
          ensurePages (touchRef ul t x.input) h (d.defines t) x.layer (pagesOf n (n + hd.t)) = .ok p →
          ownedOf p h = some o1 → n ≤ o1.record.firstMissing →
          writeEntries p h d y.blob x.layer view fin hd.t (hd.off + 64) n 0 = (q, sat) → ownedOf q h = some o2 →
          let rows := (List.range hd.t).map fun k =>
            tokenRows q o2 d y.blob x.layer view fin (hd.off + 64 + k * sec) (n + k + 1) hd.bad
          let out := rows.flatMap (tokenOut x.part fout d.dim)
          ∃ (w : State) (r : Running), exec (.attendDecode c) s = .next w ∧ Wrote u w t x.output out ∧ ownedOf w h = some o2 ∧
            tget w.comp.running id = some r ∧ r.r0 = sat * 2 ^ 32 + d.kvHeads * ceilDiv (n + hd.t) 256 ∧ r.r1 = 0xFFFFFFFF * 2 ^ 32 ∧
            r.counter = x.counter ∧ w.host.due = q.host.due ∧
            r.status = (if out.any (·.2) then 0x0309 else if rows.any (fun l => l.any (rowNonfinite x.part d.dim)) then 0x0305 else 0))))) ∧
  (∀ (c : Cmd) (id : Nat) (s s1 : State), StartsHere 0x39 c s id s1 →
    let u := here s1 id c
    let x := aArgs c
    let t := cmdTenant u c
    let names := tensorDirs u t (x.names (x.auxWord ≠ 0))
    tget u.comp.running id = none → stepsPending u id = false → s.hostMem.wf = true →
    (u.image.role ≠ .s → exec (.attendPrefill c) s = .next (s.keepHost (finish u id 0x0B20 0 0))) ∧
    (∀ y o, u.image.role = .s → x.counter < 4096 → x.tag = 0 → attentionAhead u id x.layer = false → Readable u names →
      aTensor u t x false = some y → ownedOf u (handleOf c) = some o → o.record.handle = handleOf c → isBatch c = false → finalPhase o.record.phase = false →
      let h := o.record.handle
      let d := aDescOf y.blob
      let fin := fmtOrF32 x.fin
      let fout := fmtOrF32 x.fout
      let sec := sectionBytes d fin false
      let outBytes := x.count * tokenBytes x.part fout d
      let e := aEnv u c y (x.count * sec)
      d.shapeOk = true → d.formatOk = true → x.layer < d.layers → x.start % 256 = 0 → 1 ≤ x.count → x.count ≤ 65536 → wideFmt x.fin = true →
      (x.part = true ∨ wideFmt x.fout = true) → refCheck u t x.input (x.count * sec) false = .ok → refCheck u t x.output outBytes false = .ok →
      (x.auxWord = 0 ∨ refCheck u t x.aux (x.count * d.heads * 8) false = .ok) → d.bytes ≤ y.bytes →
      Writable u t x.output → Writable u t x.aux → shadowed u id = false →
      HasRoom u c → Readable u (layerDirs o x.layer (ceilDiv x.start 256)) →
      (prefillRefusal u o e = some 0x0202 → anySealed o x.layer x.start x.count = true →
        exec (.attendPrefill c) s = .next (s.keepHost (finish u id 0x0202 0 0))) ∧
      (∀ code, prefillRefusal u o e = some code → code ≠ 0x0202 ∨ anySealed o x.layer x.start x.count = false → ∃ v : State,
        Wrote u v t x.output (List.replicate outBytes (0, false)) ∧
        exec (.attendPrefill c) s = .next (s.keep (finish v id code (if code = 0x010D then o.record.firstMissing else 0) 0))) ∧
      (∀ p q o1 sat, prefillRefusal u o e = none →
        ensurePages u h (d.defines t) x.layer (pagesOf x.start (x.start + x.count)) = .ok p →
        writeEntries (touchRef p t x.input) h d y.blob x.layer e.sec fin x.count 0 x.start 0 = (q, sat) → ownedOf q h = some o1 →
        let rows := (List.range x.count).map fun k => tokenRows q o1 d y.blob x.layer e.sec fin (k * sec) (x.start + k + 1) false
        let out := rows.flatMap (tokenOut x.part fout d.dim)
        ∃ (v w : State) (r : Running), exec (.attendPrefill c) s = .next w ∧ Wrote u v t x.output out ∧
          (x.auxWord = 0 → w.tier.tensors = v.tier.tensors ∧ w.hostMem = v.hostMem) ∧
          (x.auxWord ≠ 0 → Wrote v w t x.aux (rows.flatMap statBytes)) ∧ ownedOf w h = some (sealPages o1) ∧
          tget w.comp.running id = some r ∧ r.r0 = sat * 2 ^ 32 + d.kvHeads * ceilDiv (x.start + x.count) 256 ∧ r.r1 = x.count ∧
          r.counter = x.counter ∧ w.host.due = q.host.due))) ∧
  (∀ (c : Cmd) (id : Nat) (s s1 : State) (y : Tensor), Starts 0x3A c s id s1 →
    let u := begun s1 id c
    let x := aArgs c
    let t := cmdTenant u c
    let rows := fld c.w6 63 32
    let parts := fld c.w6 31 24
    let dim := dimOf (fld c.w6 23 22)
    let inBytes := parts * rows * partialBytes dim
    let fout := fmtOrF32 x.fout
    let rowOut := if x.part then partialBytes dim else roundUp (dim * (fout.width / 8)) 64
    let d := aDescOf y.blob
    let got := (List.range rows).map (combineRow (refView u t x.input inBytes) dim rows parts)
    let out := got.flatMap fun z => if x.part then partialRecord dim z else pad64 (finishedRow fout dim z)
    tget u.comp.running id = none → stepsPending u id = false → x.counter < 4096 → x.tag = 0 → Readable u (tensorDirs u t (x.names false)) →
    aTensor u t x false = some y → HasRoom u c → handleOf c = 0 → isBatch c = false → fld c.w6 23 22 < 3 → 2 ≤ parts → parts ≤ 64 → 1 ≤ rows → rows ≤ 1048576 → d.shapeOk = true → d.formatOk = true →
    wideFmt x.fin = true → (x.part = true ∨ wideFmt x.fout = true) → refCheck u t x.input inBytes false = .ok →
    refCheck u t x.output (rows * rowOut) false = .ok → d.bytes ≤ y.bytes → Writable u t x.output → shadowed u id = false →
    ∃ (w : State) (r : Running), exec (.softmaxCombine c) s = .next w ∧ Wrote u w t x.output out ∧ tget w.comp.running id = some r ∧ r.r0 = rows ∧
      r.r1 = 0 ∧ r.left = min rows 160 ∧ r.counter = x.counter ∧ w.host.due = u.host.due) ∧
  (∀ (c : Cmd) (id : Nat) (s s1 : State) (y : Tensor) (o : Owned), StartsHere 0x3B c s id s1 →
    let u := here s1 id c
    let x := aArgs c
    let t := cmdTenant u c
    let d := aDescOf y.blob
    let e := aEnv u c y (x.count * sectionBytes d (fmtOrF32 x.fin) true)
    let statLen := x.count * d.heads * 8
    u.image.role = .c ∨ u.image.role = .s → tget u.comp.running id = none → stepsPending u id = false → x.counter < 4096 → x.tag = 0 →
    attentionAhead u id x.layer = false → Readable u (tensorDirs u t (x.names true)) → aTensor u t x false = some y →
    ownedOf u (handleOf c) = some o → o.record.handle = handleOf c → isBatch c = false → finalPhase o.record.phase = false →
    d.shapeOk = true → d.formatOk = true → x.layer < d.layers → x.start % 256 = 0 → 1 ≤ x.count → x.count ≤ 65536 → wideFmt x.fin = true →
    wideFmt x.fout = true → refCheck u t x.input (x.count * sectionBytes d (fmtOrF32 x.fin) true) false = .ok →
    refCheck u t x.output (bwdBytes e) false = .ok → refCheck u t x.aux statLen false = .ok → d.bytes ≤ y.bytes →
    Writable u t x.output → shadowed u id = false → HasRoom u c → Readable u (layerDirs o x.layer (ceilDiv (x.start + x.count) 256)) →
    (∀ code, bwdRefusal u o e = some code → ∃ v : State, Wrote u v t x.output (List.replicate (bwdBytes e) (0, false)) ∧
      exec (.attendBwd c) s = .next (s.keep (finish v id code (if code = 0x010D then o.record.firstMissing else 0) 0))) ∧
    (bwdRefusal u o e = none →
      let g := bwdAll u o e (refView u t x.aux statLen)
      ∃ (w : State) (r : Running), exec (.attendBwd c) s = .next w ∧
        Wrote u w t x.output (pad64 (wideBytes (fmtOrF32 x.fout) g.1) ++ wideBytes (fmtOrF32 x.fout) g.2) ∧
        tget w.comp.running id = some r ∧ r.r0 = d.kvHeads * ceilDiv (x.start + x.count) 256 ∧ r.r1 = 0 ∧ r.counter = x.counter ∧
        w.host.due = u.host.due ∧ w.req.owned = u.req.owned)) ∧
  (∀ (c : Cmd) (id : Nat) (s s1 : State) (b : XBlock), StartsHere 0xA3 c s id s1 →
    let u := here s1 id c
    let x := xArgs c
    let t := cmdTenant u c
    let h := handleOf c
    let fin := fmtOrF32 x.fin
    let fout := fmtOrF32 x.fout
    tget u.comp.running id = none → u.image.role ≠ .p → x.counter < 4096 → x.tag = 0 → slotMembers u id = [h] →
    xBlocks u t x.input fin [h] false [h] 0 = ([b], true) → 1 ≤ b.rows → b.rows ≤ 65536 → wideFmt x.fin = true → wideFmt x.fout = true →
    refCheck u t x.input (b.stop fin) false = .ok → refCheck u t x.output (b.rows * b.rowStep fout) false = .ok →
    streamCheck u t x false = .ok → Writable u t x.output → shadowed u id = false →
    Readable u (tensorDirs u t (refTensor x.input ++ refTensor x.output)) → HasRoom u c →
    let f := findVersion (touchRef u t x.input) id h x b
    (∀ e, expertRefusal f id h x b = some e → ∃ v : State, Wrote u v t x.output (List.replicate (b.rows * b.rowStep fout) (0, false)) ∧
      exec (.expertApply c) s = .next (s.keep (finish v id e 0 1))) ∧
    (∀ v, expertRefusal f id h x b = none → boundVer f h = some v →
      let g := expertRows (sliceView f x v) v (refView f t x.input (b.stop fin)) fin fout b
      ∃ (w : State) (r : Running), exec (.expertApply c) s = .next w ∧ Wrote u w t x.output g.1 ∧ tget w.comp.running id = some r ∧
        r.left = 160 ∧ r.r0 = 2 ^ 32 + b.rows ∧ r.r1 = 0xFFFFFFFF * 2 ^ 32 ∧ r.counter = x.counter ∧
        r.status = (if g.1.any (·.2) then 0x0309 else if g.2 then 0x0305 else 0) ∧ w.host.due = f.host.due))

/-- Run on the owner, SAMPLE of one request that a check refuses completes with that code, FAILED_COUNT 1, and a record without tokens. Otherwise the
positions run in order; with no token the step's own status completes the command; with tokens the record is written, the tokens are appended to the
log by a LOG_APPEND step that carries the new sampler state, a FINISH step follows where a stop condition was met, the draft cycles of the request are
decided, and the completion waits for the commits. It waits while an earlier SAMPLE or DRAFT_RESET of the request has not run its step, or a grammar
bank that it searches moves. DRAFT_RESET sets DRAFT_LEN to DRAFT_MAX, clears FULL_REJECTS and SUSPENDED, changes no other field, and returns
DRAFT_MAX. CONSTRAINT_LOAD refuses a bad address, format, ID, limit, room or CRC with its code; a good image takes the lowest free slot, its tokens or
states are those of the image, each transition takes an entry, and slot and transitions are returned. CONSTRAINT_RETIRE hides the constraint, waits
while a SAMPLE that read it is in hand, and frees its entries and runs. -/
def Obligations.SamplingAndConstraints : Prop :=
  (∀ (c : Cmd) (id : Nat) (s s1 : State) (o : Owned) (m : SMember), StartsHere 0x40 c s id s1 →
    let u := here s1 id c
    let t := cmdTenant u c
    let h := handleOf c
    let r := refOf c.w2
    let p := paramsOf o.record.sampler
    let k := constraintFor u t p
    stageOf u id = 0 → stepsPending u id = false → fld c.w5 47 32 < 4096 → fld c.w5 63 48 = 0 → sampleAhead u id = false →
    tget u.comp.sampling id = none → grammarHeld u id t = false → Readable u (tensorDirs u t (refTensor r ++ refTensor (refOf c.w3))) →
    slotMembers u id = [h] → isBatch c = false → ownedOf u h = some o → o.record.handle = h → o.record.phase ≠ 2 →
    refCheck u t r 64 false = .ok → refCheck u t (refOf c.w3) 128 false = .ok → readMembers u t r false 1 0 = some [some m] →
    gateOpen u t 4 (classOf c) 0 = true → mayMove u t (classOf c) [] = true → Writable u t (refOf c.w3) → shadowed u id = false → (slotById u id).isSome = true →
    (∀ e, sampleRefusal u id t r h (some m) = some e → ∃ v : State,
      Wrote u v t (refOf c.w3) (clean (sampleRecord h e p o.record.logged (StepOut.none p.gstate))) ∧ ownedOf v h = some o ∧
      exec (.sample c) s = .next (s.keep (finish v id e (if e = 0x010D then o.record.firstMissing else 0) 1))) ∧
    (sampleRefusal u id t r h (some m) = none →
      let d := if p.suspended then 0 else min m.drafts p.draftLen
      let e : SEnv := ⟨p, m, k, o, t, r, d⟩
      let x := e.positions u (d + 1) 0 (StepOut.none p.gstate)
      let p1 := p.afterStep d x.accepted x.gstate
      (x.tokens = [] → ∃ v : State, Wrote u v t (refOf c.w3) (clean (sampleRecord h x.status p o.record.logged x)) ∧ ownedOf v h = some o ∧
        exec (.sample c) s = .next (s.keep (finish v id x.status (b2n x.fallback * 2 ^ 32)
          (if x.status = 0 then 0xFFFFFFFF * 2 ^ 32 else 1)))) ∧
      (x.tokens ≠ [] → ∃ (w : State) (o1 : Owned) (i : Issued) (l : List Issued), exec (.sample c) s = .next w ∧
        Wrote u w t (refOf c.w3) (clean (sampleRecord h x.status p1 (o.record.logged + x.tokens.length) x)) ∧
        ownedOf w h = some o1 ∧ o1.log = o.log ++ x.tokens ∧ o1.record.logged = o.record.logged + x.tokens.length ∧
        o1.record.sampler = p1.store o.record.sampler ∧ o1.record.phase = (if x.stop then 7 else o.record.phase) ∧
        w.req.issued = u.req.issued ++ i :: l ∧ i.step.kind = 2 ∧ i.step.handle = h ∧ i.step.step = o.record.step + 1 ∧ i.step.logged = o.record.logged + x.tokens.length ∧
        i.step.payload = .append x.tokens (p1.store o.record.sampler) ∧
        (if x.stop then ∃ f, l = [f] ∧ f.step.kind = 7 ∧ f.step.newPhase = 7 ∧ f.step.step = o.record.step + 2 else l = []) ∧
        w.tele.draftWasted = (u.tele.decideDrafts h x.tokens.length).draftWasted ∧
        w.tele.draftKept = (u.tele.decideDrafts h x.tokens.length).draftKept ∧ w.host.due = u.host.due))) ∧
  (∀ (c : Cmd) (id : Nat) (s s1 : State), StartsHere 0x40 c s id s1 → stageOf (here s1 id c) id = 0 → stepsPending (here s1 id c) id = false →
    s.hostMem.wf = true → 4096 ≤ fld c.w5 47 32 → exec (.sample c) s = .next (s.keepHost (finish (here s1 id c) id 0x0710 0 0))) ∧
  (∀ (c : Cmd) (id : Nat) (s s1 : State), StartsHere 0x40 c s id s1 →
    let u := here s1 id c
    stageOf u id = 0 → stepsPending u id = false → fld c.w5 47 32 < 4096 → fld c.w5 63 48 = 0 →
    (sampleAhead u id = true → exec (.sample c) s = .next (s.keep (setPhase u id (.waiting .earlier)))) ∧
    (sampleAhead u id = false → grammarHeld u id (cmdTenant u c) = true → exec (.sample c) s = .next (s.keep (setPhase u id (.waiting .engine))))) ∧
  (∀ (c : Cmd) (id : Nat) (s s1 : State) (o : Owned), OneHere 0x41 c s id s1 →
    let u := here s1 id c
    let p := paramsOf o.record.sampler
    ownedOf u (handleOf c) = some o → finalPhase o.record.phase = false →
    (sampleAhead u id = true → exec (.draftReset c) s = .next (s.keepHost (setPhase u id (.waiting .earlier)))) ∧
    (sampleAhead u id = false → ∃ l : List Word,
      exec (.draftReset c) s = .next (s.keepHost (finish (setOwned u (handleOf c) { o with record := { o.record with sampler := l } }) id 0
        p.draftMax 0)) ∧
      paramsOf l = { p with draftLen := p.draftMax, fullRejects := 0, suspended := false } ∧ l.length = 8)) ∧
  (∀ (c : Cmd) (id : Nat) (s s1 : State), Starts 0x42 c s id s1 →
    let u := begun s1 id c
    let t := cmdTenant u c
    let a := c.w2.toNat
    let h := cHeader (u.hostMem.readWords a 8)
    let mine := u.comp.constraints.filter fun k => k.tenant = t
    let slot := freeNumber 0 (u.comp.constraints.map (·.slot))
    let slots := (tenantRec u t).elim 0 (·.grammarSlots)
    let code (e : Nat) : Prop := exec (.constraintLoad c) s = .next (s.keepHost (finish u id e 0 0))
    (a % 64 ≠ 0 → code 0x0304) ∧
    (a % 64 = 0 → hostBad u a 64 = false →
      (h.ok u.hostMem a = false → code 0x0408) ∧
      (h.ok u.hostMem a = true → (∃ k ∈ mine, k.id = h.id) → code 0x0407) ∧
      (h.ok u.hostMem a = true → (∀ k ∈ mine, k.id ≠ h.id) →
        (slots ≤ mine.length → code 0x040A) ∧
        (mine.length < slots → slot < 256 →
          (h.kind = 2 → freeEntriesOf u (banksOf u t 2) < h.count → code 0x040B) ∧
          ((h.kind = 2 → h.count ≤ freeEntriesOf u (banksOf u t 2)) →
            (∀ e, placeImage u t h.id h.bytes = .error e →
              exec (.constraintLoad c) s = .next (s.keepHost (finish (unplaced u e) id 0x040B 0 0))) ∧
            (∀ l p, placeImage u t h.id h.bytes = .ok (l, p) → hostBad u a h.bytes = false →
              let good := crc32c (u.hostMem.readBytes (a + 64) (h.bytes - 64)) = h.crc
              (¬ good → ∃ v : State, exec (.constraintLoad c) s = .next (s.keepHost (finish v id 0x0409 0 0)) ∧ (∀ i ∈ l, tget v.tier.dir i = none) ∧
                v.comp.constraints = p.comp.constraints) ∧
              (good → ∃ (v : State) (k : Constraint),
                exec (.constraintLoad c) s = .next (s.keepHost (finish v id 0 slot (if h.kind = 2 then h.count else 0))) ∧
                v.comp.constraints = p.comp.constraints ++ [k] ∧ k.tenant = t ∧ k.id = h.id ∧ k.slot = slot ∧ k.kind = h.kind ∧ k.vocab = h.vocab ∧
                k.dirs = l ∧ k.retiring = none ∧ (h.kind = 1 → k.tokens = listTokens u.hostMem a h.count ∧ k.entries = []) ∧
                (h.kind = 2 → k.states = (List.range h.states).map (stateEntry u.hostMem a) ∧ k.entries.length = h.count ∧
                  ∀ i, i < h.maskBytes → k.masks.read i = u.hostMem.read (a + h.maskAt + i))))))))) ∧
  (∀ (c : Cmd) (id : Nat) (s s1 : State), Starts 0x43 c s id s1 →
    let u := begun s1 id c
    let t := cmdTenant u c
    let n := fld c.w2 15 0
    let named := u.comp.constraints.filter fun k => k.tenant = t && k.id = n
    (named = [] → exec (.constraintRetire c) s = .next (s.keepHost (finish u id 0x0406 0 0))) ∧
    (∀ k, named = [k] → k.retiring = none →
      (constraintRead u t n = true → ∃ w, exec (.constraintRetire c) s = .next w ∧ constraintOf w t n = none ∧ w.host.due = u.host.due ∧
        w.comp.banks = u.comp.banks) ∧
      (constraintRead u t n = false → ∃ v : State, exec (.constraintRetire c) s = .next (s.keepHost (finish v id 0 0 0)) ∧
        (∀ x ∈ v.comp.constraints, ¬ (x.tenant = t ∧ x.id = n)) ∧ (∀ b ∈ k.entries, tget (bankOf v b.1).entries b.2 = none) ∧
        (∀ i ∈ k.dirs, tget v.tier.dir i = none))))

/-- A bank that is not granted gives 0x0501, an absent one 0x0508, one of another use 0x0502, a bad width or use 0x050A, a bank with valid entries at
set-up 0x0504, an entry or range outside the bank 0x0505, a bank of another width 0x0503, an unknown cursor 0x0506. CAM_BANK_SETUP gives the bank its
width and use; a change leaves it without entries and frees the cursors over it. CAM_WRITE writes one entry and no other. CAM_INVALIDATE removes just
the entries of its range and returns how many were valid. CAM_SEARCH returns a matching entry before which no other matching entry of the selected
banks stands in the order of priority, bank and index, or no match; with more than one and WANT_CURSOR it creates a cursor at that match, or reports
0x0507 where the tenant may have no more. CAM_NEXT goes on after the cursor and frees it with the last match. CAM_CURSOR_FREE frees it. CAM_READ
writes the entry's record. While a bank moves onto a spare, an operation that has passed its checks waits. -/
def Obligations.SearchesFindTheFirstMatch : Prop :=
  (∀ (c : Cmd) (id : Nat) (s s1 : State), Starts 0x50 c s id s1 →
    let u := begun s1 id c
    let t := cmdTenant u c
    let use := fld c.w2 11 10
    let width := fld c.w2 9 8
    let b := fld c.w2 4 0
    let ends (e : Nat) : Prop := exec (.camBankSetup c) s = .next (s.keepHost (finish u id e 0 0))
    (use = 3 ∨ width = 3 ∨ (use ≠ 0 ∧ width ≠ 0) → ends 0x050A) ∧
    (use ≠ 3 → width ≠ 3 → (use = 0 ∨ width = 0) →
      (bankGranted u t b = false → ends 0x0501) ∧
      (bankGranted u t b = true → bankAbsent u b = true → ends 0x0508) ∧
      (bankGranted u t b = true → bankAbsent u b = false → (bankOf u b).validCount ≠ 0 → ends 0x0504) ∧
      (bankGranted u t b = true → bankAbsent u b = false → (bankOf u b).validCount = 0 → bankMoving u b = true →
        exec (.camBankSetup c) s = .next (s.keepHost (setPhase u id (.waiting .engine)))) ∧
      (bankGranted u t b = true → bankAbsent u b = false → (bankOf u b).validCount = 0 → bankMoving u b = false →
        ((bankOf u b).use = use → (bankOf u b).width = 2 ^ width → ends 0) ∧
        ((bankOf u b).use ≠ use ∨ (bankOf u b).width ≠ 2 ^ width → ∃ v : State, exec (.camBankSetup c) s = .next (s.keepHost (finish v id 0 0 0)) ∧
          bankOf v b = { width := 2 ^ width, use := use, entries := [] } ∧ (∀ k, k ≠ b → bankOf v k = bankOf u k) ∧
          v.comp.cursors = u.comp.cursors.filter fun x => !x.2.banks.contains b)))) ∧
  (∀ (c : Cmd) (id : Nat) (s s1 : State), Starts 0x51 c s id s1 →
    let u := begun s1 id c
    let t := cmdTenant u c
    let b := fld c.w2 4 0
    let i := fld c.w2 47 36
    let x := bankOf u b
    let ends (e : Nat) : Prop := exec (.camWrite c) s = .next (s.keepHost (finish u id e 0 0))
    let masked := flag c.w2 5
    Readable u (tensorDirs u t (refTensor (refOf c.w3))) →
    (bankGranted u t b = false → ends 0x0501) ∧
    (bankGranted u t b = true → bankAbsent u b = true → ends 0x0508) ∧
    (bankGranted u t b = true → bankAbsent u b = false → x.use ≠ 0 → ends 0x0502) ∧
    (bankGranted u t b = true → bankAbsent u b = false → x.use = 0 → 4096 / x.width ≤ i → ends 0x0505) ∧
    (bankGranted u t b = true → bankAbsent u b = false → x.use = 0 → i < 4096 / x.width →
      x.width = 1 ∨ refCheck u t (refOf c.w3) ((if masked then 32 else 16) * x.width) false = .ok → bankMoving u b = false → ∃ (v : State) (e : CamEntry),
      exec (.camWrite c) s = .next (s.keepHost (finish v id 0 0 0)) ∧ tget (bankOf v b).entries i = some e ∧
      e.priority = fld c.w2 63 48 ∧ e.masked = masked ∧ e.poison = false ∧
      e.key = (if x.width = 1 then c.w4.toNat + c.w5.toNat * 2 ^ 64 else leNat (refBytes u t (refOf c.w3) 0 (16 * x.width))) ∧
      e.mask = (if masked then (if x.width = 1 then c.w6.toNat + c.w7.toNat * 2 ^ 64
        else leNat (refBytes u t (refOf c.w3) (16 * x.width) (16 * x.width))) else 0) ∧
      (∀ k, k ≠ i → tget (bankOf v b).entries k = tget x.entries k) ∧ (∀ k, k ≠ b → bankOf v k = bankOf u k))) ∧
  (∀ (c : Cmd) (id : Nat) (s s1 : State), Starts 0x52 c s id s1 →
    let u := begun s1 id c
    let b := fld c.w2 4 0
    let first := fld c.w2 47 36
    let count := fld c.w2 63 48
    let x := bankOf u b
    let inside (e : Nat × CamEntry) : Bool := first ≤ e.1 && e.1 < first + count
    bankGranted u (cmdTenant u c) b = true → bankAbsent u b = false → x.use = 0 →
    (count = 0 ∨ 4096 / x.width < first + count → exec (.camInvalidate c) s = .next (s.keepHost (finish u id 0x0505 0 0))) ∧
    (1 ≤ count → first + count ≤ 4096 / x.width → bankMoving u b = true →
      exec (.camInvalidate c) s = .next (s.keepHost (setPhase u id (.waiting .engine)))) ∧
    (1 ≤ count → first + count ≤ 4096 / x.width → bankMoving u b = false → ∃ v : State, exec (.camInvalidate c) s = .next (s.keepHost (finish v id 0
        (x.entries.filter fun e => inside e && !e.2.poison).length 0)) ∧
      (bankOf v b).entries = x.entries.filter (fun e => !inside e) ∧ (bankOf v b).width = x.width ∧ (bankOf v b).use = x.use ∧
      (∀ k, k ≠ b → bankOf v k = bankOf u k))) ∧
  (∀ (c : Cmd) (id : Nat) (s s1 : State), Starts 0x53 c s id s1 →
    let u := begun s1 id c
    let t := cmdTenant u c
    let banks := maskBanks (fld c.w2 63 32)
    let w := 2 ^ fld c.w2 9 8
    let key := if w = 1 then c.w4.toNat + c.w5.toNat * 2 ^ 64 else leNat (refBytes u t (refOf c.w3) 0 (16 * w))
    let found := camMatches u key banks
    let poison := anyPoisoned u banks
    Readable u (tensorDirs u t (refTensor (refOf c.w3))) →
    (fld c.w2 9 8 = 3 ∨ banks = [] → exec (.camSearch c) s = .next (s.keepHost (finish u id 0x050A 0 0))) ∧
    (fld c.w2 9 8 ≠ 3 → banks ≠ [] → (∀ b ∈ banks, bankGranted u t b = true ∧ bankAbsent u b = false ∧ (bankOf u b).use = 0) →
      ((∃ b ∈ banks, (bankOf u b).width ≠ w) → exec (.camSearch c) s = .next (s.keepHost (finish u id 0x0503 0 0))) ∧
      ((∀ b ∈ banks, (bankOf u b).width = w) → (w = 1 ∨ refCheck u t (refOf c.w3) (16 * w) false = .ok) →
        ((∃ b ∈ banks, bankMoving u b = true) → exec (.camSearch c) s = .next (s.keepHost (setPhase u id (.waiting .engine)))) ∧
        ((∀ b ∈ banks, bankMoving u b = false) → (found = [] → exec (.camSearch c) s = .next (s.keepHost (finish u id (if poison then 0x0509 else 0) (b2n poison * 2 ^ 61) 0))) ∧
        (∀ x r, found = x :: r →
          (∃ e, (x.2.2, e) ∈ (bankOf u x.2.1).entries ∧ e.hits key = true ∧ e.priority = x.1 ∧ x.2.1 ∈ banks) ∧
          (∀ b ∈ banks, ∀ i e, (i, e) ∈ (bankOf u b).entries → e.hits key = true → camBefore (e.priority, b, i) x = false) ∧
          (let r0 := 2 ^ 63 + b2n (!r.isEmpty) * 2 ^ 62 + b2n poison * 2 ^ 61 + x.2.1 * 2 ^ 48 + x.1 * 2 ^ 32 + x.2.2
           let n := freeNumber 1 (u.comp.cursors.map (·.1))
           (r = [] ∨ flag c.w2 0 = false → exec (.camSearch c) s = .next (s.keepHost (finish u id (if poison then 0x0509 else 0) r0 0))) ∧
           (r ≠ [] → flag c.w2 0 = true → cursorRoom u t = false →
             exec (.camSearch c) s = .next (s.keepHost (finish u id (if poison then 0x0509 else 0x0507) r0 0))) ∧
           (r ≠ [] → flag c.w2 0 = true → cursorRoom u t = true → ∃ v : State,
             exec (.camSearch c) s = .next (s.keepHost (finish v id (if poison then 0x0509 else 0) r0 n)) ∧
             tget v.comp.cursors n = some { tenant := t, key := key, banks := banks, width := w, pos := x } ∧
             v.comp.banks = u.comp.banks ∧ v.host = u.host))))))) ∧
  (∀ (c : Cmd) (id : Nat) (s s1 : State), Starts 0x54 c s id s1 →
    let u := begun s1 id c
    let n := fld c.w2 15 0
    (cursorOf u (cmdTenant u c) n = none → exec (.camNext c) s = .next (s.keepHost (finish u id 0x0506 0 0))) ∧
    (∀ cur, cursorOf u (cmdTenant u c) n = some cur →
      ((∃ b ∈ cur.banks, bankAbsent u b = true) → exec (.camNext c) s = .next (s.keepHost (finish u id 0x0508 0 0))) ∧
      ((∀ b ∈ cur.banks, bankAbsent u b = false) → (∃ b ∈ cur.banks, bankMoving u b = true) →
        exec (.camNext c) s = .next (s.keepHost (setPhase u id (.waiting .engine)))) ∧
      ((∀ b ∈ cur.banks, bankAbsent u b = false ∧ bankMoving u b = false) →
        let found := (camMatches u cur.key cur.banks).filter (camBefore cur.pos)
        let poison := anyPoisoned u cur.banks
        let st := if poison then 0x0509 else 0
        let cursors (l : Tab Nat Cursor) : State := { u with comp := { u.comp with cursors := l } }
        (found = [] → exec (.camNext c) s = .next (s.keepHost (finish (cursors (tdel u.comp.cursors n)) id st (b2n poison * 2 ^ 61) 0))) ∧
        (∀ x r, found = x :: r → camBefore cur.pos x = true ∧
          (let r0 := 2 ^ 63 + b2n (!r.isEmpty) * 2 ^ 62 + b2n poison * 2 ^ 61 + x.2.1 * 2 ^ 48 + x.1 * 2 ^ 32 + x.2.2
           exec (.camNext c) s = .next (s.keepHost (if r = [] then finish (cursors (tdel u.comp.cursors n)) id st r0 0
             else finish (cursors (tset u.comp.cursors n { cur with pos := x })) id st r0 n))))))) ∧
  (∀ (c : Cmd) (id : Nat) (s s1 : State), Starts 0x55 c s id s1 →
    let u := begun s1 id c
    let n := fld c.w2 15 0
    (cursorOf u (cmdTenant u c) n = none → exec (.camCursorFree c) s = .next (s.keepHost (finish u id 0x0506 0 0))) ∧
    (∀ cur, cursorOf u (cmdTenant u c) n = some cur → exec (.camCursorFree c) s = .next (s.keepHost (finish
      { u with comp := { u.comp with cursors := tdel u.comp.cursors n } } id 0 0 0)))) ∧
  (∀ (c : Cmd) (id : Nat) (s s1 : State), Starts 0x56 c s id s1 →
    let u := begun s1 id c
    let t := cmdTenant u c
    let b := fld c.w2 4 0
    let i := fld c.w2 47 36
    let x := bankOf u b
    bankGranted u t b = true → bankAbsent u b = false →
    (4096 / x.width ≤ i → s.hostMem.wf = true → exec (.camRead c) s = .next (s.keepHost (finish u id 0x0505 0 0))) ∧
    (i < 4096 / x.width → refCheck u t (refOf c.w3) (16 + 32 * x.width) false = .ok → Writable u t (refOf c.w3) → shadowed u id = false →
      (∀ e, tget x.entries i = some e → ∃ v : State, exec (.camRead c) s = .next (s.keep (finish v id 0 0 0)) ∧
        Wrote u v t (refOf c.w3) (clean (leBytes 8 (e.priority * 2 ^ 48 + b2n e.poison * 4 + b2n e.masked * 2 + b2n (!e.poison)) ++ leBytes 8 0 ++
          leBytes (16 * x.width) e.key ++ leBytes (16 * x.width) (if e.masked then e.mask else 0))) ∧ v.comp.banks = u.comp.banks) ∧
      (tget x.entries i = none → ∃ (v : State) (bs : List Byte), exec (.camRead c) s = .next (s.keep (finish v id 0 0 0)) ∧
        Wrote u v t (refOf c.w3) (clean bs) ∧ bs.length = 16 + 32 * x.width ∧ bit (bs.headD 0).toNat 0 = false ∧ v.free = u.free + 1)))

/-- On a module of role C or S (else 0x0B20) INDEX_CREATE checks address, fields (0x0527), version (0x0521), limits (0x0524) and room (0x0523), and
adds a LOADING version with its runs. INDEX_LOAD_PART takes the next records of a partition (0x0525 else, 0x0522 for a bad record) and holds the bytes
of host memory. INDEX_COMMIT of a whole version makes it HELD or CURRENT and retires the CURRENT one; a bad CRC removes it with 0x0526. INDEX_RETIRE
makes it RETIRING, and such a version is freed with its runs. INDEX_QUERY returns state, CURRENT version, DELETE_SEQ, vectors and tombstones. A walk
returns at most K vectors, none deleted and each passing the filter. VECTOR_SEARCH writes a result block for each query and returns its counts; while
the budget of a stack holds its walks, or a tag bank of its filter moves, it waits. VECTOR_DELETE sets every named tombstone, raises DELETE_SEQ by
one, and counts new and old ones. With another member as TARGET both are sent to it; a TARGET outside the membership gives 0x052A. -/
def Obligations.VectorIndicesAndSearches : Prop :=
  (∀ (c : Cmd) (id : Nat) (s s1 : State), Starts 0x58 c s id s1 →
    let u := begun s1 id c
    let t := cmdTenant u c
    let a := c.w2.toNat
    let v := descriptorOf t u.hostMem a
    let ends (e : Nat) : Prop := exec (.indexCreate c) s = .next (s.keepHost (finish u id e 0 0))
    (holdsIndices u = false → ends 0x0B20) ∧
    (holdsIndices u = true → a % 64 ≠ 0 → ends 0x0304) ∧
    (holdsIndices u = true → a % 64 = 0 → hostBad u a 384 = false →
      (v.formatOk = false → ends 0x0527) ∧
      (v.formatOk = true → (ixVer u t v.index v.version).isSome = true → ends 0x0521) ∧
      (v.formatOk = true → ixVer u t v.index v.version = none →
        (ixLimit u t v.index = true → ends 0x0524) ∧
        (∀ e, ixLimit u t v.index = false → placeParts u v (zipIndex v.parts) = .error e →
          exec (.indexCreate c) s = .next (s.keepHost (finish (unplaced u e) id 0x0523 0 0))) ∧
        (∀ l p, ixLimit u t v.index = false → placeParts u v (zipIndex v.parts) = .ok (l, p) →
          exec (.indexCreate c) s = .next (s.keepHost (finish
            { p with comp := { p.comp with indices := p.comp.indices ++ [{ v with dirs := l }] } } id 0
            (v.parts.map fun y => (partRuns v.recordBytes y.count).sum).sum 0)))))) ∧
  (∀ (c : Cmd) (id : Nat) (s s1 : State) (v : IxVer) (p : Part), Starts 0x59 c s id s1 →
    let u := begun s1 id c
    let t := cmdTenant u c
    let a := c.w2.toNat
    let i := fld c.w3 63 48
    let n := fld c.w3 47 32
    let k := fld c.w3 31 27
    let first := fld c.w4 63 32
    let cnt := fld c.w4 31 0
    holdsIndices u = true → a % 64 = 0 → k < 20 → 1 ≤ cnt → cnt ≤ 1048576 → i ≠ 0 → n ≠ 0 → ixVer u t i n = some v → v.parts[k]? = some p →
    (v.st ≠ .loading ∨ first ≠ p.loaded ∨ p.count < first + cnt → exec (.indexLoadPart c) s = .next (s.keepHost (finish u id 0x0525 0 0))) ∧
    (v.st = .loading → first = p.loaded → first + cnt ≤ p.count →
      ((∃ j, j < cnt ∧ recordOkAt u.hostMem v p.count (first + j) (a + j * v.recordBytes) = false) →
        exec (.indexLoadPart c) s = .next (s.keepHost (finish u id 0x0522 0 0))) ∧
      ((∀ j, j < cnt → recordOkAt u.hostMem v p.count (first + j) (a + j * v.recordBytes) = true) →
        p.records.fill = none → Memory.wf p.records.cells = true → ∃ (q : State) (y : IxVer) (z : Part),
        exec (.indexLoadPart c) s = .next (s.keepHost (finish q id 0 (first + cnt) 0)) ∧ ixVer q t i n = some y ∧ y.parts[k]? = some z ∧
        z.loaded = first + cnt ∧ z.count = p.count ∧ y.st = .loading ∧
        (∀ x, x < cnt * v.recordBytes → blobByte z.records (first * v.recordBytes + x) = u.hostMem.read (a + x)) ∧
        (∀ x, x < first * v.recordBytes → blobByte z.records x = blobByte p.records x) ∧ (∀ j, j ≠ k → y.parts[j]? = v.parts[j]?)))) ∧
  (∀ (c : Cmd) (id : Nat) (s s1 : State) (v : IxVer), Starts 0x5A c s id s1 →
    let u := begun s1 id c
    let t := cmdTenant u c
    let i := fld c.w2 31 16
    let n := fld c.w2 15 0
    holdsIndices u = true → ixVer u t i n = some v →
    (v.st = .loading → (∃ p ∈ v.parts, p.loaded < p.count) → exec (.indexCommit c) s = .next (s.keepHost (finish u id 0x0525 0 0))) ∧
    (v.st = .loading → (∀ p ∈ v.parts, p.count ≤ p.loaded) → v.crcOk = false → ∃ q : State,
      exec (.indexCommit c) s = .next (s.keepHost (finish q id 0x0526 0 0)) ∧ ixVer q t i n = none ∧ (∀ d ∈ v.dirs, tget q.tier.dir d = none)) ∧
    (v.st = .loading → (∀ p ∈ v.parts, p.count ≤ p.loaded) → v.crcOk = true → flag c.w3 0 = false → ∃ q : State,
      exec (.indexCommit c) s = .next (s.keepHost (finish q id 0 0 0)) ∧ ixVer q t i n = some { v with st := .held }) ∧
    ((v.st = .loading ∧ (∀ p ∈ v.parts, p.count ≤ p.loaded) ∧ v.crcOk = true) ∨ v.st = .held → flag c.w3 0 = true → ∃ q : State,
      exec (.indexCommit c) s = .next (s.keepHost (finish q id 0 0 0)) ∧ ixVer q t i n = some { v with st := .current } ∧
      (∀ y ∈ u.comp.indices, y.tenant = t → y.index = i → y.version ≠ n → y.st = .current → { y with st := .retiring } ∈ q.comp.indices)) ∧
    (v.st = .current ∨ v.st = .retiring → exec (.indexCommit c) s = .next (s.keepHost (finish u id 0x0525 0 0)))) ∧
  (∀ (c : Cmd) (id : Nat) (s s1 : State), Starts 0x5B c s id s1 →
    let u := begun s1 id c
    let t := cmdTenant u c
    let i := fld c.w2 31 16
    let n := fld c.w2 15 0
    holdsIndices u = true →
    (ixVer u t i n = none → exec (.indexRetire c) s = .next (s.keepHost (finish u id 0x0520 0 0))) ∧
    (∀ v, ixVer u t i n = some v → ∃ q : State, exec (.indexRetire c) s = .next (s.keepHost (finish q id 0 0 0)) ∧
      ixVer q t i n = some { v with st := .retiring } ∧ q.tier = u.tier)) ∧
  (∀ (t i n : Nat) (s : State),
    (∀ v, ixVer s t i n = some v → v.st = .retiring → ∃ q, exec (.indexVersionFree t i n) s = .next q ∧ ixVer q t i n = none ∧
      (∀ d ∈ v.dirs, tget q.tier.dir d = none) ∧ (∀ d, d ∉ v.dirs → tget q.tier.dir d = tget s.tier.dir d)) ∧
    ((∀ v, ixVer s t i n = some v → v.st ≠ .retiring) → exec (.indexVersionFree t i n) s = .next s)) ∧
  (∀ (c : Cmd) (id : Nat) (s s1 : State), Starts 0x5E c s id s1 →
    let u := begun s1 id c
    let t := cmdTenant u c
    let i := fld c.w2 31 16
    let n := fld c.w2 15 0
    let cur := (ixCurrent u t i).elim 0 (·.version)
    let named := if n = 0 then ixCurrent u t i else ixVer u t i n
    holdsIndices u = true →
    (named = none → exec (.indexQuery c) s = .next (s.keepHost (finish u id 0 (cur * 2 ^ 40) 0))) ∧
    (∀ v, named = some v → exec (.indexQuery c) s = .next (s.keepHost (finish u id 0 (v.st.code * 2 ^ 56 + cur * 2 ^ 40 + v.deleteSeq)
      ((v.parts.map (·.count)).sum * 2 ^ 32 + (v.parts.map fun p => p.tomb.length).sum))))) ∧
  (∀ e : WEnv, e.walk.res.length ≤ e.k ∧ ∀ x ∈ e.walk.res, x.n ∉ e.p.tomb ∧ e.passes x.n = true) ∧
  (∀ (c : Cmd) (id : Nat) (s s1 : State), Starts 0x5C c s id s1 →
    let u := begun s1 id c
    let t := cmdTenant u c
    let x := searchArgs c
    let r := refOf c.w2
    s.hostMem.wf = true → Readable u (tensorDirs u t (refTensor r)) →
    (isRemote u x.target = true → isMember u x.target = false → exec (.vectorSearch c) s = .next (s.keepHost (finish u id 0x052A 0 0))) ∧
    (isRemote u x.target = false → holdsIndices u = true → x.ok = false → exec (.vectorSearch c) s = .next (s.keepHost (finish u id 0x0527 0 0))) ∧
    (isRemote u x.target = false → holdsIndices u = true → x.ok = true → searchVersion u t x.index x.version = none →
      exec (.vectorSearch c) s = .next (s.keepHost (finish u id 0x0520 0 0))) ∧
    (isRemote u x.target = true → isMember u x.target = true → x.ok = true → refCheck u t r 0 false = .ok →
      refCheck u t (refOf c.w3) (x.queries * (64 + 16 * x.k)) false = .ok → canSend u = true → ∃ (w : State) (d : Cmd) (input : List (Byte × Bool)),
      exec (.vectorSearch c) s = .next w ∧ w.req.outbox = u.req.outbox ++ [(x.target, .search d input)] ∧
      d = (if c.src.isSome then c else { c with src := some (selfId u, t), tag := id }) ∧ w.host.due = u.host.due ∧ w.comp = u.comp) ∧
    (∀ v, isRemote u x.target = false → holdsIndices u = true → x.ok = true → searchVersion u t x.index x.version = some v → tagChecks u t x = none →
      refCheck u t r (x.queries * v.vbytes) false = .ok → refCheck u t (refOf c.w3) (x.queries * (64 + 16 * x.k)) false = .ok →
      Writable u t (refOf c.w3) → shadowed u id = false →
      let view := refView u t r (x.queries * v.vbytes)
      let outs := (List.range x.queries).map fun j => (searchOne u v x view.1 (view.2 + j * v.vbytes), blobBad view.1 (view.2 + j * v.vbytes) v.vbytes)
      (walksHeld u c = true → exec (.vectorSearch c) s = .next (s.keep (setPhase u id (.waiting .engine)))) ∧
      (walksHeld u c = false → ∃ q : State, Wrote u q t (refOf c.w3) (outs.flatMap fun o => o.1.bytes.map fun y => (y, o.2)) ∧
        exec (.vectorSearch c) s = .next (s.keep (finish q id
          (if outs.any (·.1.missing) then 0x052C else if outs.any (·.1.poison) then 0x052B else 0)
          ((outs.filter (·.1.missing)).length * 2 ^ 32 + (outs.filter (·.1.short)).length) ((outs.map (·.1.expansions)).sum % 2 ^ 32)))))) ∧
  (∀ (c : Cmd) (id : Nat) (s s1 : State), Starts 0x5D c s id s1 →
    let u := begun s1 id c
    let t := cmdTenant u c
    let x := deleteArgs c
    let r := refOf c.w3
    let ids := idsOf (carryInput u t r (4 * x.count)) x.count
    Readable u (tensorDirs u t (refTensor r)) →
    (isRemote u x.target = true → isMember u x.target = false → exec (.vectorDelete c) s = .next (s.keepHost (finish u id 0x052A 0 0))) ∧
    (isRemote u x.target = true → isMember u x.target = true → x.ok = true → refCheck u t r (4 * x.count) false = .ok → canSend u = true →
      ∃ (w : State) (d : Cmd) (input : List (Byte × Bool)), exec (.vectorDelete c) s = .next w ∧
      w.req.outbox = u.req.outbox ++ [(x.target, .search d input)] ∧ d = (if c.src.isSome then c else { c with src := some (selfId u, t), tag := id }) ∧ w.host.due = u.host.due) ∧
    (∀ v, isRemote u x.target = false → holdsIndices u = true → x.ok = true → searchVersion u t x.index x.version = some v →
      refCheck u t r (4 * x.count) false = .ok →
      ((∃ k ∈ ids, v.has k = false) → exec (.vectorDelete c) s = .next (s.keepHost (finish u id 0x0529 0 0))) ∧
      ((∀ k ∈ ids, v.has k = true) → ∃ (q : State) (y : IxVer) (fresh old : Nat),
        exec (.vectorDelete c) s = .next (s.keepHost (finish q id 0 fresh (wrapAdd 32 v.deleteSeq 1 * 2 ^ 32 + old))) ∧
        ixVer q v.tenant v.index v.version = some y ∧ y.deleteSeq = wrapAdd 32 v.deleteSeq 1 ∧ fresh + old = ids.length ∧
        (∀ k ∈ ids, ∃ p, y.parts[k / 2 ^ 27]? = some p ∧ k % 2 ^ 27 ∈ p.tomb) ∧
        (∀ (j : Nat) (p p1 : Part), v.parts[j]? = some p → y.parts[j]? = some p1 → p1.records = p.records ∧ p1.count = p.count ∧
          (∀ n ∈ p1.tomb, n ∈ p.tomb ∨ j * 2 ^ 27 + n ∈ ids)) ∧
        y.counts.2 = v.counts.2 + fresh)))

/-- PRESS_STREAM_OPEN gives the lowest free stream of the tenant (0x0602 beyond 1,024 and 4,096). A command on an unknown or closing stream ends with
0x0601. PRESS_STREAM_CLOSE ends waiting installs with 0x0609 and frees the stream when no earlier command names it. PRESS_TABLE_INSTALL takes a good
image (0x0603 else, 0x0604 for a generation held); where no install is ahead and the destination slot has no queued block the table is the newest at
once, else the install waits, and commits at its turn when that count is zero. After 10 ms of waiting one event is recorded. PRESS_ENCODE writes the
coded blocks, takes one reference for each on the newest table, and completes when they are written; while its gates hold the traffic it waits; a
block never grows by more than its header and padding, and a clean block of zeros takes 16 bytes. PRESS_DECODE writes every block slot and counts the
poisoned ones. PRESS_TABLE_READ writes the image of a held generation (0x0608 else). -/
def Obligations.ThePressCodesAndInstalls : Prop :=
  (∀ (c : Cmd) (id : Nat) (s s1 : State), Starts 0x60 c s id s1 →
    let u := begun s1 id c
    let t := cmdTenant u c
    let mine := (u.comp.press.filter fun e => e.1.1 = t).map fun e => e.1.2
    let n := freeNumber 1 mine
    let empty : Press := { slotA := none, slotB := none, newestB := false, installs := [], closing := none }
    tget u.rel.mirrors id = none →
    (1024 ≤ mine.length ∨ 4096 ≤ u.comp.press.length → exec (.pressStreamOpen c) s = .next (s.keepHost (finish u id 0x0602 0 0))) ∧
    (mine.length < 1024 → u.comp.press.length < 4096 → exec (.pressStreamOpen c) s = .next (s.keepHost (finish
      { u with comp := { u.comp with press := tset u.comp.press (t, n) empty } } id 0 n 0)))) ∧
  (∀ (c : Cmd) (id : Nat) (s s1 : State), Starts 0x61 c s id s1 →
    let u := begun s1 id c
    let t := cmdTenant u c
    let n := fld c.w2 15 0
    ((∀ x, tget u.comp.press (t, n) = some x → x.closing.isSome = true) →
      exec (.pressStreamClose c) s = .next (s.keepHost (finish u id 0x0601 0 0))) ∧
    (∀ x, tget u.comp.press (t, n) = some x → x.closing = none → x.installs = [] →
      (pressBusy u t n id = true → ∃ w, exec (.pressStreamClose c) s = .next w ∧ tget w.comp.press (t, n) = some { x with closing := some id } ∧
        pressOf w t n = none ∧ w.host.due = u.host.due) ∧
      (pressBusy u t n id = false → ∃ v : State, exec (.pressStreamClose c) s = .next (s.keepHost (finish v id 0 0 0)) ∧
        tget v.comp.press (t, n) = none ∧ (∀ k, k ≠ (t, n) → tget v.comp.press k = tget u.comp.press k))) ∧
    (∀ x i y, tget u.comp.press (t, n) = some x → x.closing = none → x.installs = [i] → i.slot ≠ id → slotById u i.slot = some y →
      y.cmd.src = none → y.phase ≠ .finished → y.dead = false → u.rel.mirrors = [] → ∃ (w : State) (d : Completion),
      exec (.pressStreamClose c) s = .next w ∧ d ∈ w.host.due ∧ d.slot = i.slot ∧ d.status = 0x0609)) ∧
  (∀ (c : Cmd) (id : Nat) (s s1 : State), Starts 0x64 c s id s1 →
    let u := begun s1 id c
    let t := cmdTenant u c
    let n := fld c.w3 63 48
    let a := c.w2.toNat
    let img := u.hostMem.readBytes a 192
    let g := bits (leNat (img.take 8)) 63 60
    let ends (e : Nat) : Prop := exec (.pressTableInstall c) s = .next (s.keepHost (finish u id e 0 0))
    (a % 64 ≠ 0 → ends 0x0304) ∧
    (a % 64 = 0 → pressOf u t n = none → ends 0x0601) ∧
    (∀ x, a % 64 = 0 → pressOf u t n = some x →
      (hostBad u a 192 = true ∨ imageOk img = false → ends 0x0603) ∧
      (hostBad u a 192 = false → imageOk img = true →
        (∀ y, x.installs = [] → x.slotOfGen g = some y → ends 0x0604) ∧
        (x.installs = [] → x.slotOfGen g = none → x.waitingOn = 0 → ∃ (v : State) (z : Press),
          exec (.pressTableInstall c) s = .next (s.keepHost (finish v id 0 (b2n x.toB) 0)) ∧ tget v.comp.press (t, n) = some z ∧
          z.newest = some { lengths := imageLengths img, gen := g, queued := 0 } ∧ (if x.toB then z.slotA = x.slotA else z.slotB = x.slotB) ∧
          z.installs = []) ∧
        (x.installs ≠ [] ∨ (x.slotOfGen g = none ∧ x.waitingOn ≠ 0) → ∃ (w : State) (i : Install), exec (.pressTableInstall c) s = .next w ∧
          tget w.comp.press (t, n) = some { x with installs := x.installs ++ [i] } ∧ i.slot = id ∧ i.lengths = imageLengths img ∧
          i.gen = some g ∧ i.since = u.mono ∧ w.host.due = u.host.due)))) ∧
  (∀ (t n : Nat) (x : Press) (i : Install) (l : List Install) (s : State), tget s.comp.press (t, n) = some x → x.installs = i :: l →
    (x.waitingOn ≠ 0 → exec (.pressInstallCommit t n) s = .next s) ∧
    (∀ g, x.waitingOn = 0 → i.gen = some g → i.build = false →
      ((x.slotOfGen g).isSome = true → ∃ v : State, exec (.pressInstallCommit t n) s = .next (s.keepHost (finish v i.slot 0x0604 0 0)) ∧
        tget v.comp.press (t, n) = some { x with installs := l }) ∧
      (x.slotOfGen g = none → ∃ (v : State) (z : Press), exec (.pressInstallCommit t n) s = .next (s.keepHost (finish v i.slot 0 (b2n x.toB) 0)) ∧
        tget v.comp.press (t, n) = some z ∧ z.newest = some { lengths := i.lengths, gen := g, queued := 0 } ∧ z.installs = l)) ∧
    (x.waitingOn = 0 → i.gen = none → i.build = true → ∃ (w : State) (z : Press), exec (.pressInstallCommit t n) s = .next w ∧
      tget w.comp.press (t, n) = some z ∧ z.newest = some { lengths := i.lengths, gen := (x.newest.map fun y => (y.gen + 1) % 16).getD 0, queued := 0 } ∧
      z.installs = l ∧ w.host.due = s.host.due) ∧
    (i.recorded = true ∨ s.mono < i.since + 10000000 → exec (.pressInstallWait t n) s = .next s) ∧
    (i.recorded = false → i.since + 10000000 ≤ s.mono → ∃ w, exec (.pressInstallWait t n) s = .next w ∧
      tget w.comp.press (t, n) = some { x with installs := { i with recorded := true } :: l } ∧
      tgetD w.tele.events (23, 0x44) 0 = wrapAdd 48 (tgetD s.tele.events (23, 0x44) 0) 1 ∧ w.host.due = s.host.due)) ∧
  (∀ (L : List Nat) (g : Nat) (b : List Byte), (encodeBlock L g b false).bytes.length ≤ 16 + roundUp b.length 16 ∧
    ((∀ z ∈ b, z = 0) → (encodeBlock L g b false).mode = 2 ∧ (encodeBlock L g b false).bytes.length = 16) ∧
    (encodeBlock L g b false).poison = false) ∧
  (∀ (c : Cmd) (id : Nat) (s s1 : State), Starts 0x62 c s id s1 →
    let u := begun s1 id c
    let t := cmdTenant u c
    let n := fld c.w4 63 48
    let len := fld c.w4 31 0
    stageOf u id = 0 → fld c.w5 47 32 < 4096 → fld c.w5 63 48 = 0 → s.hostMem.wf = true →
    (1 ≤ len → len ≤ 67108864 → pressOf u t n = none → exec (.pressEncode c) s = .next (s.keepHost (finish u id 0x0601 0 0))) ∧
    (len = 0 ∨ 67108864 < len → exec (.pressEncode c) s = .next (s.keepHost (finish u id 0x0607 0 0))) ∧
    (∀ x, 1 ≤ len → len ≤ 67108864 → pressOf u t n = some x → refCheck u t (refOf c.w2) len false = .ok →
      refCheck u t (refOf c.w3) (ceilDiv len 4096 * 4112) false = .ok → flag c.w4 47 = false →
      (x.newest = none → exec (.pressEncode c) s = .next (s.keepHost (finish u id 0x0605 0 0))) ∧
      (x.newest ≠ none → mayMove u t (classOf c) (List.range 20) = false → exec (.pressEncode c) s = .next (s.keepHost (setPhase u id (.waiting .engine)))) ∧
      (∀ y, x.newest = some y → Writable u t (refOf c.w3) → shadowed u id = false → (slotById u id).isSome = true →
        Readable u (tensorDirs u t (refTensor (refOf c.w2))) → mayMove u t (classOf c) (List.range 20) = true →
        let bs := (inputBlocks (refView u t (refOf c.w2) len) len).map fun b => encodeBlock y.lengths y.gen b.1 b.2
        let out := bs.flatMap fun b => b.bytes.map fun z => (z, b.poison)
        ∃ w, exec (.pressEncode c) s = .next w ∧ Wrote u w t (refOf c.w3) out ∧ stageOf w id = 3 ∧
          tget w.comp.press (t, n) = some (x.refer y.gen bs.length) ∧ w.host.due = u.host.due ∧
          tget w.comp.samples id = some (if bs.any (·.poison) then 0x0606 else 0, out.length * 2 ^ 32 + (bs.filter (·.mode = 0)).length,
            y.gen * 2 ^ 32 + (bs.filter (·.mode = 2)).length, fld c.w5 47 32, packRefs [(y.gen, bs.length)])))) ∧
  (∀ (enc : Bool) (c : Cmd) (id st r0 r1 refs : Nat) (x : Press) (s : State), opcodeOf c = (if enc then 0x62 else 0x63) →
    claim s c = none → inHandSlots s c = [id] → stageOf s id = 3 → tget s.comp.samples id = some (st, r0, r1, 0, refs) →
    tget s.comp.press (cmdTenant s c, fld c.w4 63 48) = some x → ∃ v : State,
    exec (if enc then .pressEncode c else .pressDecode c) s = .next (s.keep (finish v id st r0 r1)) ∧ tget v.comp.samples id = none ∧
    tget v.comp.press (cmdTenant s c, fld c.w4 63 48) = some ((unpackRefs refs).foldl (fun y g => y.release g.1 g.2) x) ∧ v.hostMem = s.hostMem) ∧
  (∀ (c : Cmd) (id : Nat) (s s1 : State) (x : Press), Starts 0x63 c s id s1 →
    let u := begun s1 id c
    let t := cmdTenant u c
    let n := fld c.w4 63 48
    let len := fld c.w4 31 0
    let blocks := fld c.w6 31 0
    let ds := decodeBlocks x (refView u t (refOf c.w2) len) len blocks (some 0)
    stageOf u id = 0 → fld c.w5 47 32 < 4096 → fld c.w5 63 48 = 0 → s.hostMem.wf = true → pressOf u t n = some x →
    (len < 16 ∨ blocks = 0 ∨ 16384 < blocks → exec (.pressDecode c) s = .next (s.keepHost (finish u id 0x0607 0 0))) ∧
    (16 ≤ len → len ≤ 16384 * 4112 → 1 ≤ blocks → blocks ≤ 16384 → refCheck u t (refOf c.w2) len false = .ok →
      refCheck u t (refOf c.w3) (blocks * 4096) false = .ok → Writable u t (refOf c.w3) → shadowed u id = false → u.host.link.up = true →
      Readable u (tensorDirs u t (refTensor (refOf c.w2))) → mayMove u t (classOf c) (List.range 20) = true →
      (slotById u id).isSome = true → ∃ (w : State) (r0 r1 refs : Nat), exec (.pressDecode c) s = .next w ∧ stageOf w id = 3 ∧
      (∀ (i : Nat) (d : Decoded), ds[i]? = some d →
        refBytes w t (refOf c.w3) (4096 * i) (slotBytes d).length = (slotBytes d).map (·.1)) ∧ ds.length = blocks ∧
      tget w.comp.samples id = some (if ds.all (·.out.isSome) then 0 else 0x0606, r0, r1, fld c.w5 47 32, refs) ∧
      r0 = (ds.map fun d => d.out.elim 4096 (·.length)).sum * 2 ^ 32 + (ds.filter (·.out.isNone)).length ∧
      r1 = (ds.findIdx? (·.out.isNone)).getD 0xFFFFFFFF ∧ w.host.due = u.host.due)) ∧
  (∀ (c : Cmd) (id : Nat) (s s1 : State), Starts 0x65 c s id s1 →
    let u := begun s1 id c
    let t := cmdTenant u c
    let a := c.w2.toNat
    let ends (e : Nat) : Prop := exec (.pressTableRead c) s = .next (s.keepHost (finish u id e 0 0))
    s.hostMem.wf = true → a % 64 = 0 →
    (pressOf u t (fld c.w3 63 48) = none → ends 0x0601) ∧
    (∀ x, pressOf u t (fld c.w3 63 48) = some x →
      (x.slotOfGen (fld c.w3 3 0) = none → ends 0x0608) ∧
      (∀ y, x.slotOfGen (fld c.w3 3 0) = some y → shadowed u id = false → ∃ v : State,
        exec (.pressTableRead c) s = .next (s.keep (finish v id 0 0 0)) ∧ Wrote u v t (.host a) (clean (tableImage y.lengths y.gen)) ∧
        v.comp = u.comp)))

/-- EP_OPEN ends with 0x0711 for a request, a batch or a number outside the tenant's range, 0x0710 for a counter of 4,096 or more, 0x0705 for a
requested number open or in quarantine, 0x0704 with none free or no context left, 0x070F with no region entry; else it opens the requested or lowest
free number with the next generation, and RESULT0 and RESULT1 give both and the new key. EP_CLOSE of an endpoint not usable ends with 0x0703; with
nothing in hand it closes it, destroys its key, begins its quarantine and completes; its one posted receive is cancelled with 0x070E; while it has a
send record it waits. A quarantine ends once its time has come. MKEY_CREATE checks its reference and gives a key to the region as described;
MKEY_DESTROY of a key not the tenant's ends with 0x070A, else the entry is gone, its generation has risen, its index is in quarantine, and it
completes when no access to it is in hand. CTR_SET writes a counter, returns its old value and releases the SENDs that it reaches; COUNTER_TRIGGER
starts each released SEND: where what R459 checks has changed it ends with that code, else its send record is made, or it waits for one.
XPORT_CTX_ATTACH is function 0's, once and only under CONTEXT_STORE 1 (0x0711 else), with an address aligned to 2 MiB (0x0304 else).
CONTEXT_FETCH_COMPLETE makes a context resident, and KEY_DERIVED puts a pair key at hand as the newest of 4,096; a frame that waited for either is
received then. -/
def Obligations.EndpointsKeysAndCounters : Prop :=
  (∀ (c : Cmd) (id : Nat) (s s1 : State) (r : TenantRec), Starts 0x70 c s id s1 →
    let u := begun s1 id c
    let t := cmdTenant u c
    let n := fld c.w2 15 0
    let inRange (m : Nat) : Prop := r.endpointBase ≤ m ∧ m < r.endpointBase + r.endpointCount
    let free (m : Nat) : Prop := inRange m ∧ (epOf u m).opened = false ∧ (∀ q, (epOf u m).quarantine = some q → q ≤ u.time)
    let ends (e : Nat) : Prop := exec (.epOpen c) s = .next (s.keepHost (finish u id e 0 0))
    tenantRec u t = some r →
    (handleOf c ≠ 0 ∨ isBatch c = true ∨ (n ≠ 0 ∧ ¬ inRange n) → ends 0x0711) ∧
    (handleOf c = 0 → isBatch c = false → n = 0 ∨ inRange n →
      (4096 ≤ fld c.w2 31 16 → ends 0x0710) ∧
      (fld c.w2 31 16 < 4096 →
        (n ≠ 0 → ¬ free n → ends 0x0705) ∧
        (n = 0 → (∀ m, ¬ free m) → ends 0x0704) ∧
        (∀ m, free m → (n ≠ 0 → m = n) → (n = 0 → ∀ k, k < m → ¬ free k) →
          (contextLimit u ≤ (openEps u).length → ends 0x0704) ∧
          ((openEps u).length < contextLimit u → regionRoom u t false = false → ends 0x070F) ∧
          ((openEps u).length < contextLimit u → regionRoom u t false = true → ∃ (v : State) (key : Nat),
            let g := ((epOf u m).gen + 1) % 256
            exec (.epOpen c) s = .next (s.keepHost (finish v id 0 (g * 65536 + m) key)) ∧
            (epOf v m).opened = true ∧ (epOf v m).gen = g ∧ (epOf v m).tenant = t ∧ (epOf v m).tOpen = u.time ∧ (epOf v m).mkey = key ∧
            (epOf v m).keyedCounter = fld c.w2 31 16 ∧ (epOf v m).recvs = [] ∧ (epOf v m).nextSerial = 0 ∧
            (∀ k, k ≠ m → epOf v k = epOf u k) ∧ key = keyOf u (freeRegion u) ∧
            (∃ x : Region, tget v.xport.regions (freeRegion u) = some x ∧ x.kind = 1 ∧ x.endpoint = m ∧ x.tenant = t ∧ x.system = false) ∧
            (∀ k, k ≠ freeRegion u → tget v.xport.regions k = tget u.xport.regions k)))))) ∧
  (∀ (c : Cmd) (id : Nat) (s s1 : State), Starts 0x71 c s id s1 →
    let u := begun s1 id c
    let t := cmdTenant u c
    let n := fld c.w2 15 0
    let e := epOf u n
    handleOf c = 0 → isBatch c = false →
    (epUsable u n t = false → exec (.epClose c) s = .next (s.keepHost (finish u id 0x0703 0 0))) ∧
    (epUsable u n t = true → waitingSends u n t = [] → (∀ r ∈ u.xport.recvs, r.dstEp ≠ n) → (∀ r ∈ u.xport.sends, r.ep = n → r.gen ≠ e.gen) →
      let closed (v : State) : Prop := (epOf v n).opened = false ∧ (epOf v n).quarantine = some (u.time + lifetimeNs u) ∧ (epOf v n).gen = e.gen ∧
        (epOf v n).recvs = [] ∧ tget v.xport.regions (e.mkey % 2 ^ 24) = none ∧ (∀ k, k ≠ n → epOf v k = epOf u k) ∧ v.xport.sends = u.xport.sends
      (e.recvs = [] → ∃ v : State, exec (.epClose c) s = .next (s.keepHost (finish v id 0 0 0)) ∧ closed v) ∧
      (∀ p y, e.recvs = [p] → slotById u p.slot = some y → p.slot ≠ id → y.cmd.src = none → y.phase ≠ .finished → y.dead = false →
        u.rel.mirrors = [] → ∃ (v : State) (d : Completion), exec (.epClose c) s = .next (s.keepHost (finish v id 0 0 1)) ∧ closed v ∧
        d ∈ v.host.due ∧ d.slot = p.slot ∧ d.status = 0x070E)) ∧
    (∀ r, epUsable u n t = true → waitingSends u n t = [] → (∀ x ∈ u.xport.recvs, x.dstEp ≠ n) → e.recvs = [] → u.xport.sends = [r] → r.ep = n →
      r.gen = e.gen → r.failed.isSome = true → r.abortPkt.queued = true → ∃ w, exec (.epClose c) s = .next w ∧ (epOf w n).opened = true ∧
      (epOf w n).closer = some id ∧ w.xport.sends = [r] ∧ w.host.due = u.host.due)) ∧
  (∀ (n q : Nat) (s : State),
    (tget s.xport.regionQuarantine n = some q → q ≤ s.time → exec (.endpointQuarantineEnd true n) s = .next (setXport s
      { s.xport with regionQuarantine := tdel s.xport.regionQuarantine n })) ∧
    (tget s.xport.regionQuarantine n = some q → s.time < q → exec (.endpointQuarantineEnd true n) s = .next s) ∧
    ((epOf s n).quarantine = some q → q ≤ s.time → exec (.endpointQuarantineEnd false n) s = .next (setXport s
      { s.xport with eps := tset s.xport.eps n { epOf s n with quarantine := none } })) ∧
    ((epOf s n).quarantine = some q → s.time < q → exec (.endpointQuarantineEnd false n) s = .next s)) ∧
  (∀ (c : Cmd) (id : Nat) (s s1 : State), Starts 0x75 c s id s1 →
    let u := begun s1 id c
    let t := cmdTenant u c
    let n := fld c.w3 63 24 + 1
    let i := freeRegion u
    let x : Region := { space := fld c.w2 63 62, location := fld c.w2 61 0, length := n, tenant := t, reduce := flag c.w3 3, atomic := flag c.w3 2,
                        write := flag c.w3 1, read := flag c.w3 0, system := false, kind := 0, endpoint := 0, job := 0 }
    let ends (e : Nat) : Prop := exec (.mkeyCreate c) s = .next (s.keepHost (finish u id e 0 0))
    handleOf c = 0 → isBatch c = false →
    (∀ e, refCheck u t (refOf c.w2) n false = .bad e → e ≠ 0 → ends e) ∧
    (refCheck u t (refOf c.w2) n false = .ok → regionRoom u t false = false → ends 0x070F) ∧
    (refCheck u t (refOf c.w2) n false = .ok → regionRoom u t false = true → exec (.mkeyCreate c) s = .next (s.keepHost (finish
      (setXport u { u.xport with regions := tset u.xport.regions i x }) id 0 (tgetD u.xport.gens i 0 * 2 ^ 24 + i) 0)))) ∧
  (∀ (c : Cmd) (id : Nat) (s s1 : State), Starts 0x76 c s id s1 →
    let u := begun s1 id c
    let key := fld c.w2 31 0
    let i := key % 2 ^ 24
    let mine : Prop := ∃ r, keyRegion u key = some (i, r) ∧ r.kind = 0 ∧ r.system = false ∧ r.tenant = cmdTenant u c
    handleOf c = 0 → isBatch c = false →
    (¬ mine → exec (.mkeyDestroy c) s = .next (s.keepHost (finish u id 0x070A 0 0))) ∧
    (mine →
      ((∀ w ∈ u.tray.work, w.region ≠ i) → ∃ v : State, exec (.mkeyDestroy c) s = .next (s.keepHost (finish v id 0 0 0)) ∧
        tget v.xport.regions i = none ∧ (∀ k, k ≠ i → tget v.xport.regions k = tget u.xport.regions k) ∧
        tgetD v.xport.gens i 0 = (tgetD u.xport.gens i 0 + 1) % 256 ∧ tget v.xport.regionQuarantine i = some (u.time + lifetimeNs u)) ∧
      ((∃ w ∈ u.tray.work, w.region = i) → ∃ v : State, exec (.mkeyDestroy c) s = .next v ∧ tget v.xport.regions i = none ∧ v.host.due = u.host.due))) ∧
  (∀ (c : Cmd) (id : Nat) (s s1 : State), Starts 0x77 c s id s1 →
    let u := begun s1 id c
    let t := cmdTenant u c
    let k := fld c.w2 15 0
    handleOf c = 0 → isBatch c = false →
    (k = 0 → exec (.ctrSet c) s = .next (s.keepHost (finish u id 0x0711 0 0))) ∧
    (4096 ≤ k → exec (.ctrSet c) s = .next (s.keepHost (finish u id 0x0710 0 0))) ∧
    (1 ≤ k → k < 4096 → ∃ v : State, exec (.ctrSet c) s = .next (s.keepHost (finish v id 0 (tgetD u.xport.counters (t, k) 0) 0)) ∧
      tgetD v.xport.counters (t, k) 0 = c.w3.toNat ∧ (∀ j, j ≠ (t, k) → tgetD v.xport.counters j 0 = tgetD u.xport.counters j 0) ∧
      (∀ x ∈ u.host.slots, x.phase = .waiting .tag → opcodeOf x.cmd = 0x72 → fld x.cmd.w6 63 48 = k → cmdTenant u x.cmd = t →
        fld x.cmd.w6 47 0 ≤ c.w3.toNat → { x with phase := .waiting .released } ∈ v.host.slots) ∧
      (∀ x ∈ u.host.slots, ¬ (opcodeOf x.cmd = 0x72 ∧ x.phase = .waiting .tag) → x ∈ v.host.slots))) ∧
  (∀ (t k : Nat) (x : Slot) (s : State), (s.host.slots.filter fun y => decide (y.phase = .waiting .released) && opcodeOf y.cmd = 0x72 &&
      fld y.cmd.w6 63 48 = k && cmdTenant s y.cmd = t) = [x] →
    (∀ e, sendRefusal s x.cmd = some e → exec (.counterTrigger t k) s = .next (s.keepHost (finish s x.id e 0 0))) ∧
    (sendRefusal s x.cmd = none → sendRoom s t = false → exec (.counterTrigger t k) s = .next (setPhase s x.id (.waiting .room))) ∧
    (sendRefusal s x.cmd = none → sendRoom s t = true → fld x.cmd.w3 63 46 ≠ selfId s → keyHeld s (fld x.cmd.w3 63 46) (epochOf s.time) = false →
      (∀ r ∈ s.xport.sends, r.id < s.xport.nextSend) → ∃ (w : State) (r : SendRec), exec (.counterTrigger t k) s = .next w ∧
      w.xport.sends = s.xport.sends ++ [r] ∧ r.slot = x.id ∧ r.ep = fld x.cmd.w3 15 0 ∧ r.dest = fld x.cmd.w3 63 46 ∧ r.length = fld x.cmd.w4 63 31 ∧
      r.serial = (epOf s r.ep).nextSerial ∧ r.packets = [] ∧ w.host.due = s.host.due)) ∧
  (∀ (c : Cmd) (id : Nat) (s s1 : State), Starts 0x78 c s id s1 →
    let u := begun s1 id c
    let good : Prop := handleOf c = 0 ∧ isBatch c = false ∧ u.image.fabric.contextStore = 1 ∧ u.xport.ctxArea = none
    (c.fn ≠ 0 → exec (.xportCtxAttach c) s = .next (s.keepHost (finish u id 0x0B21 0 0))) ∧
    (c.fn = 0 → ¬ good → exec (.xportCtxAttach c) s = .next (s.keepHost (finish u id 0x0711 0 0))) ∧
    (c.fn = 0 → good → c.w2.toNat % 2097152 ≠ 0 → exec (.xportCtxAttach c) s = .next (s.keepHost (finish u id 0x0304 0 0))) ∧
    (c.fn = 0 → good → c.w2.toNat % 2097152 = 0 → exec (.xportCtxAttach c) s = .next (s.keepHost (finish
      (setXport u { u.xport with ctxArea := some c.w2.toNat }) id 0 0 0)))) ∧
  (∀ (n : Nat) (s : State),
    ((epOf s n).opened = false → exec (.contextFetchComplete n) s = .next s) ∧
    ((epOf s n).opened = true → s.xport.resident.length < 8188 ∨ n ∈ s.xport.resident →
      ((∀ m ∈ s.xport.miss, destEp m.frame.payload ≠ some n) → ∃ w, exec (.contextFetchComplete n) s = .next w ∧ n ∈ w.xport.resident ∧
        w.xport.miss = s.xport.miss ∧ w.xport.eps = s.xport.eps ∧ w.fab = s.fab ∧ w.host = s.host) ∧
      (∀ m, s.xport.miss = [m] → destEp m.frame.payload = some n → ∃ v : State,
        exec (.contextFetchComplete n) s = .next (s.keepHost (receiveFrame v m.port m.sub m.frame)) ∧ n ∈ v.xport.resident ∧ v.xport.miss = [] ∧
        v.fab = s.fab ∧ v.host = s.host))) ∧
  (∀ (peer epoch : Nat) (s : State),
    (secretFor s epoch = none → exec (.keyDerived peer epoch) s = .next s) ∧
    ((secretFor s epoch).isSome = true → sendsTo s peer = [] → (peerOf s peer).ops = [] → s.xport.keys.length ≤ 4096 →
      let newest (v : State) : Prop := v.xport.keys.getLast? = some (peer, epoch) ∧ v.xport.keys.length ≤ 4096 ∧ v.fab = s.fab ∧ v.host = s.host
      ((∀ m ∈ s.xport.miss, ∀ b, pairHdr m.frame.payload = some b → ¬ (b.src = peer ∧ epochOf b.stamp = epoch)) → ∃ w,
        exec (.keyDerived peer epoch) s = .next w ∧ newest w ∧ w.xport.miss = s.xport.miss ∧ w.xport.sends = s.xport.sends) ∧
      (∀ m b, s.xport.miss = [m] → pairHdr m.frame.payload = some b → b.src = peer → epochOf b.stamp = epoch → ∃ v : State,
        exec (.keyDerived peer epoch) s = .next (s.keepHost (receiveFrame v m.port m.sub m.frame)) ∧ newest v ∧ v.xport.miss = [])))

/-- SEND is refused in order with 0x0711, 0x0710, 0x0703, the reference's code, 0x0702 and 0x0706; one whose counter is below its threshold or whose
tag has not come waits; else it takes a send record with the endpoint's next serial, or waits for one, and while its budget holds it at the crossbar
no packet leaves; with a pair key and a path every packet of the window stands in an egress queue stamped with the time; with a key and no path it
fails with 0x0706. RECV is refused likewise, and posts its buffer last, or waits for its tag. FLUSH completes with what it covers when all of it has
ended and its queue has no fence before it. A DATA packet that fails the checks is counted and dropped; one of a remembered message is answered with a
FINAL ACK and writes nothing; unkeyed with a wrong key, no posted receive, or one too small it is answered REFUSE 0x0A, NOT_READY with 20 us, REFUSE
0x09; else its bytes are written at 4096 times its number, a message complete by it completes its receive with its length and sender and is
remembered, and one not complete leaves a record. A keyed one writes its region and raises the endpoint's counter. ACK_COALESCE_TIMER acknowledges
once 2 us have passed. A FINAL ACK frees the record and ends the operation; another notes what is placed. NOT_READY holds a packet HINT_US; it goes
out again after; 1,000 ms after the first refusal the message fails with 0x0708. -/
def Obligations.MessagesAreSentPlacedAndAcknowledged : Prop :=
  let answered' (v w : State) (p : XPacket) (type packet reason hint : Nat) (final : Bool) (data : List Byte) : Prop :=
    ∀ r : RoutePath, p.base.src ≠ selfId v →
      pathOf v p.base.src (entropyOf (messageId p.base.src p.hdr.srcEp p.hdr.srcGen p.hdr.serial) packet 0) = some r →
      ∃ (q : Queued) (k : XPacket), (tgetD w.shape.queues (r.port, r.sub, p.base.cls, (epOf v p.hdr.dstEp).tenant) []).getLast? = some q ∧
        q.exempt = true ∧ q.frame.payload = .xport k ∧ k.base.dest = p.base.src ∧ k.data = data ∧ k.hdr.type = type ∧ k.hdr.final = final ∧
        k.hdr.dstEp = p.hdr.srcEp ∧ k.hdr.dstGen = p.hdr.srcGen ∧ k.hdr.srcEp = p.hdr.dstEp ∧ k.hdr.srcGen = p.hdr.dstGen ∧
        k.hdr.serial = p.hdr.serial ∧ k.hdr.packet = packet ∧ k.hdr.reason = reason ∧ k.hdr.hintUs = hint
  let at' (r : Ref) (o : Nat) : Ref := match r with
    | .tensor id b => .tensor id (b + o)
    | .host a => .host (a + o)
    | x => x
  let alive (v : State) (i : Nat) : Prop := ∃ y : Slot, slotById v i = some y ∧ y.cmd.src = none ∧ y.phase ≠ .finished ∧ y.dead = false
  (∀ (c : Cmd) (id : Nat) (s s1 : State), Starts 0x72 c s id s1 →
    let u := begun s1 id c
    let t := cmdTenant u c
    let len := fld c.w4 63 31
    let tag := fld c.w5 63 48
    let trig := fld c.w6 63 48
    let n := fld c.w3 15 0
    let dest := fld c.w3 63 46
    let params : Prop := handleOf c = 0 ∧ isBatch c = false ∧ len ≤ 4294967296 ∧ fld c.w4 18 17 ≤ 1 ∧ (fld c.w4 18 17 = 0 → fld c.w7 31 0 = 0) ∧
      (tag = 0 ∨ trig = 0)
    let numbers : Prop := tag < 4096 ∧ fld c.w5 47 32 < 4096 ∧ trig < 4096
    let ends (e : Nat) : Prop := exec (.send c) s = .next (s.keepHost (finish u id e 0 0))
    let begins (v : State) : Prop :=
      let record (w : State) (r : SendRec) : Prop := exec (.send c) s = .next w ∧ w.xport.sends = v.xport.sends ++ [r] ∧ r.slot = id ∧ r.tenant = t ∧
        r.ep = n ∧ r.gen = (epOf v n).gen ∧ r.serial = (epOf v n).nextSerial ∧ r.dest = dest ∧ r.dstEp = fld c.w3 45 30 ∧ r.dstGen = fld c.w3 29 22 ∧
        r.mode = fld c.w4 18 17 ∧ r.mkey = fld c.w7 63 32 ∧ r.off64 = fld c.w7 31 0 ∧ r.tag = fld c.w4 30 19 ∧ r.length = len ∧ r.ref = c.w2 ∧
        r.completed = false ∧ r.failed = none ∧ (epOf w n).nextSerial = wrapAdd 32 (epOf v n).nextSerial 1 ∧ w.host.due = v.host.due
      (sendRoom v t = false → exec (.send c) s = .next (s.keepHost (setPhase v id (.waiting .room)))) ∧
      (sendRoom v t = true → dest ≠ selfId v → keyHeld v dest (epochOf v.time) = false → ∃ w r, record w r ∧ r.packets = []) ∧
      (sendRoom v t = true → 0 < len → mayMove v t (classOf c) [] = false → ∃ w r, record w r ∧ r.packets = []) ∧
      (sendRoom v t = true → dest ≠ selfId v → keyHeld v dest (epochOf v.time) = true → usablePaths v dest ≠ [] →
        gateBalance v t 2 (classOf c) 0 = none ∨ (len ≤ 4096 ∧ mayMove v t (classOf c) [] = true) → ∃ w r, record w r ∧
        (∀ p, p < 1024 → p < packetsOf len → (r.tx p).queued = true ∧ (r.tx p).sent = false ∧ (r.tx p).stamp = v.time) ∧
        (∀ x, len ≤ 4096 → pathOf v dest (entropyOf (messageId (selfId v) n r.gen r.serial) 0 0) = some x →
          ∃ q : Queued, (tgetD w.shape.queues (x.port, x.sub, classOf c, t) []).getLast? = some q ∧ q.tenant = some t ∧ q.exempt = false ∧
          q.bytes = frameBytes v (32 + len))) ∧
      (sendRoom v t = true → dest ≠ selfId v → keyHeld v dest (epochOf v.time) = true → usablePaths v dest = [] → v.rel.mirrors = [] →
        mayMove v t (classOf c) [] = true → ∃ (w : State)
        (d : Completion), exec (.send c) s = .next w ∧ d ∈ w.host.due ∧ d.slot = id ∧ d.status = 0x0706 ∧ w.xport.sends = v.xport.sends)
    (¬ params → ends 0x0711) ∧ (params → ¬ numbers → ends 0x0710) ∧
    (params → numbers → epUsable u n t = false → ends 0x0703) ∧
    (params → numbers → epUsable u n t = true →
      (∀ e, refCheck u t (refOf c.w2) len false = .bad e → e ≠ 0 → ends e) ∧
      (refCheck u t (refOf c.w2) len false = .ok →
        (u.fab.id = none ∨ holdsTime u = false → ends 0x0702) ∧
        (u.fab.id.isSome = true → holdsTime u = true → isMember u dest = false → ends 0x0706) ∧
        (u.fab.id.isSome = true → holdsTime u = true → isMember u dest = true → alive u id → (∀ r ∈ u.xport.sends, r.id < u.xport.nextSend) →
          (trig = 0 → tag = 0 → begins u) ∧
          (trig ≠ 0 → fld c.w6 47 0 ≤ tgetD u.xport.counters (t, trig) 0 → begins u) ∧
          (trig ≠ 0 → tgetD u.xport.counters (t, trig) 0 < fld c.w6 47 0 →
            exec (.send c) s = .next (s.keepHost (setPhase u id (.waiting .tag)))) ∧
          (tag ≠ 0 → (tagCounts u t tag).2 < (tagCounts u t tag).1 → begins (setTag u t tag ((tagCounts u t tag).1, (tagCounts u t tag).2 + 1))) ∧
          (tag ≠ 0 → (tagCounts u t tag).1 ≤ (tagCounts u t tag).2 → ∃ w, exec (.send c) s = .next w ∧
            w.comp.waitTags = u.comp.waitTags ++ [(t, tag, id)] ∧ (slotById w id).map (·.phase) = some (.waiting .tag) ∧ w.xport = u.xport))))) ∧
  (∀ (c : Cmd) (id : Nat) (s s1 : State), Starts 0x73 c s id s1 →
    let u := begun s1 id c
    let t := cmdTenant u c
    let n := fld c.w3 15 0
    let len := fld c.w3 63 31
    let tag := fld c.w5 63 48
    let params : Prop := handleOf c = 0 ∧ isBatch c = false ∧ len ≤ 4294967296
    let numbers : Prop := tag < 4096 ∧ fld c.w5 47 32 < 4096
    let ends (e : Nat) : Prop := exec (.recv c) s = .next (s.keepHost (finish u id e 0 0))
    let posted (k : Nat × Nat) : Prop := ∃ w, exec (.recv c) s = .next w ∧
      epOf w n = { epOf u n with recvs := (epOf u n).recvs ++ [{ slot := id, ref := c.w2, capacity := len, done := fld c.w5 47 32 }] } ∧
      (∀ m, m ≠ n → epOf w m = epOf u m) ∧ (slotById w id).map (·.phase) = some (.waiting .fabric) ∧ w.host.due = u.host.due ∧
      (tag ≠ 0 → tagCounts w t tag = k)
    (¬ params → ends 0x0711) ∧ (params → ¬ numbers → ends 0x0710) ∧
    (params → numbers → epUsable u n t = false → ends 0x0703) ∧
    (params → numbers → epUsable u n t = true →
      (∀ e, refCheck u t (refOf c.w2) len false = .bad e → e ≠ 0 → ends e) ∧
      (refCheck u t (refOf c.w2) len false = .ok → alive u id →
        (tag = 0 → posted (0, 0)) ∧
        (tag ≠ 0 → (tagCounts u t tag).2 < (tagCounts u t tag).1 → posted ((tagCounts u t tag).1, (tagCounts u t tag).2 + 1)) ∧
        (tag ≠ 0 → (tagCounts u t tag).1 ≤ (tagCounts u t tag).2 → ∃ w, exec (.recv c) s = .next w ∧
          w.comp.waitTags = u.comp.waitTags ++ [(t, tag, id)] ∧ (slotById w id).map (·.phase) = some (.waiting .tag) ∧ w.xport = u.xport)))) ∧
  (∀ (c : Cmd) (id : Nat) (s s1 : State) (y : Slot), Starts 0x74 c s id s1 →
    let u := begun s1 id c
    let n := fld c.w2 15 0
    let l := u.host.ops.filter fun o => o.id < u.host.nextOp && decide (o.kind = .remote (fld c.w2 63 46) n)
    let bad := (l.filter fun o => o.ended = some false).length
    let ends (e : Nat) : Prop := exec (.flush c) s = .next (s.keepHost (finish u id e 0 0))
    handleOf c = 0 → isBatch c = false → slotById u id = some y → y.cmd = c →
    (epUsable u n (cmdTenant u c) = false → ends 0x0703) ∧
    (epUsable u n (cmdTenant u c) = true → fabricNotReady u = true → ends 0x0702) ∧
    (epUsable u n (cmdTenant u c) = true → fabricNotReady u = false →
      ((∀ o ∈ l, o.ended.isSome = true) → fenceAhead u id c = false → ∃ v : State,
        exec (.flush c) s = .next (s.keepHost (finish v id (if bad = 0 then 0 else 0x0010) l.length bad)) ∧
        (∀ o, o ∈ v.host.ops ↔ o ∈ u.host.ops ∧ o ∉ l)) ∧
      ((∃ o ∈ l, o.ended = none) ∨ fenceAhead u id c = true → ∃ w, exec (.flush c) s = .next w ∧ (slotById w id).map (·.phase) = some (.waiting .fabric) ∧
        w.host.ops = u.host.ops ∧ w.host.due = u.host.due))) ∧
  (∀ (p : XPacket) (s : State),
    let v0 := takeItem s (.xport p)
    let v := useContext v0 p.hdr.dstEp
    let e := epOf v p.hdr.dstEp
    let fresh : Prop := recordRoom v = true ∧ (∀ r ∈ v.xport.remembered, r.of p = false) ∧ (∀ r ∈ v.xport.recvs, r.of p = false)
    let same (w : State) : Prop := w.tier.tensors = v.tier.tensors ∧ w.hostMem = v.hostMem ∧ w.xport.recvs = v.xport.recvs ∧ w.host.due = v.host.due ∧
      epOf w p.hdr.dstEp = e
    s.hostMem.wf = true →
    (p.hdr.type ≠ 0 ∨ v0.rel.quarantined = true → exec (.data p) s = .next (s.keep v0)) ∧
    (∀ why, p.hdr.type = 0 → v0.rel.quarantined = false → packetCheck v0 p = some why → ∃ w, exec (.data p) s = .next w ∧
      tgetD w.fab.dropped why 0 = tgetD v0.fab.dropped why 0 + 1 ∧ w.xport = v0.xport ∧ w.tier = v0.tier ∧ w.hostMem = s.hostMem ∧ w.host = v0.host) ∧
    (p.hdr.type = 0 → v0.rel.quarantined = false → packetCheck v0 p = none → 256 ≤ p.hdr.dstEp → v.rel.mirrors = [] →
      (∀ m ∈ v.xport.remembered, m.of p = true → ∃ w, exec (.data p) s = .next w ∧ same w ∧ answered' v w p 1 0 0 0 true []) ∧
      (∀ x rest, fresh → p.hdr.mode = 0 → p.hdr.mkey = e.mkey → e.recvs = x :: rest → x.capacity < p.hdr.msgLength →
        ∃ w, exec (.data p) s = .next w ∧ same w ∧ answered' v w p 3 p.hdr.packet 0x09 0 false []) ∧
      (fresh → p.hdr.mode = 0 → p.hdr.mkey ≠ e.mkey → ∃ w, exec (.data p) s = .next w ∧ same w ∧ answered' v w p 3 p.hdr.packet 0x0A 0 false []) ∧
      (fresh → p.hdr.mode = 0 → p.hdr.mkey = e.mkey → e.recvs = [] → ∃ w, exec (.data p) s = .next w ∧ same w ∧
        answered' v w p 2 p.hdr.packet 0 20 false []) ∧
      (∀ x rest, fresh → p.hdr.mode = 0 → p.hdr.mkey = e.mkey → e.recvs = x :: rest → p.hdr.msgLength ≤ x.capacity →
        Writable v e.tenant (refOf x.ref) →
        refCheck v e.tenant (refOf x.ref) x.capacity false = .ok →
        (p.hdr.msgLength ≤ 4096 → alive v x.slot → ∃ (w : State) (d : Completion), exec (.data p) s = .next w ∧
          Wrote v w e.tenant (refOf x.ref) (clean p.data) ∧ (epOf w p.hdr.dstEp).recvs = rest ∧ d ∈ w.host.due ∧ d.slot = x.slot ∧ d.status = 0 ∧
          d.result0 = p.hdr.msgLength ∧ d.result1 = p.base.src * 2 ^ 46 + p.hdr.srcEp * 2 ^ 30 + p.hdr.srcGen * 2 ^ 22 + p.hdr.tag ∧
          (∃ m ∈ w.xport.remembered, m.of p = true ∧ m.aborted = false) ∧ w.xport.recvs = v.xport.recvs ∧ answered' v w p 1 0 0 0 true []) ∧
        (4096 < p.hdr.msgLength → ∃ (w : State) (r : RecvRec), exec (.data p) s = .next w ∧
          Wrote v w e.tenant (at' (refOf x.ref) (4096 * p.hdr.packet)) (clean p.data) ∧ (epOf w p.hdr.dstEp).recvs = rest ∧ r ∈ w.xport.recvs ∧
          r.of p = true ∧ r.placed = [p.hdr.packet] ∧ r.recv = some x ∧ r.length = p.hdr.msgLength ∧ w.host.due = v.host.due)) ∧
      (∀ i g, fresh → p.hdr.mode = 1 → keyRegion v p.hdr.mkey = some (i, g) → g.kind = 0 → g.space = 2 → p.hdr.msgLength ≤ 4096 →
        keyCheck v p.hdr.mkey e.tenant (64 * p.hdr.off64 + 4096 * p.hdr.packet) p.data.length [.write] = none → e.keyedCounter ≠ 0 →
        ∃ w, exec (.data p) s = .next w ∧ Wrote v w e.tenant (.host (g.location % 2 ^ 62 + 64 * p.hdr.off64)) (clean p.data) ∧
        tgetD w.xport.counters (e.tenant, e.keyedCounter) 0 = wrapAdd 64 (tgetD v.xport.counters (e.tenant, e.keyedCounter) 0) 1 ∧
        (∃ m ∈ w.xport.remembered, m.of p = true) ∧ answered' v w p 1 0 0 0 true []) ∧
      (∀ i g, fresh → p.hdr.mode = 1 → keyRegion v p.hdr.mkey = some (i, g) → g.kind = 0 → g.write = false →
        ∃ w, exec (.data p) s = .next w ∧ same w ∧ answered' v w p 3 p.hdr.packet 0x0B 0 false []))) ∧
  (∀ (src ep gen serial : Nat) (r : RecvRec) (s : State), s.xport.recvs = [r] → r.src = src → r.srcEp = ep → r.srcGen = gen → r.serial = serial → 256 ≤ r.dstEp →
    (r.oldest = none → exec (.ackCoalesceTimer src ep gen serial) s = .next s) ∧
    (∀ t, r.oldest = some t → s.mono < t + 2000 → exec (.ackCoalesceTimer src ep gen serial) s = .next s) ∧
    (∀ t, r.oldest = some t → t + 2000 ≤ s.mono → ∃ (w : State) (low : Nat), exec (.ackCoalesceTimer src ep gen serial) s = .next w ∧
      w.xport.recvs = [{ r with newly := 0, oldest := none }] ∧ (∀ p, p < low → p ∈ r.placed) ∧ low ∉ r.placed ∧
      answered' s w (r.packet s) 1 low 0 0 false (ackBits r.placed low))) ∧
  (∀ (p : XPacket) (r : SendRec) (s : State),
    let v0 := takeItem s (.xport p)
    let good (type : Nat) : Prop := p.hdr.type = type ∧ v0.rel.quarantined = false ∧ packetCheck v0 p = none ∧ s.xport.sends = [r] ∧
      r.ep = p.hdr.dstEp ∧ r.gen = p.hdr.dstGen ∧ r.serial = p.hdr.serial ∧ r.dest = p.base.src ∧ r.failed = none
    (good 1 → p.hdr.final = true → r.completed = true → (epOf v0 r.ep).closer = none → (∀ x ∈ s.host.slots, opcodeOf x.cmd ≠ 0x74) → ∃ w,
      exec (.ack p) s = .next w ∧ w.xport.sends = [] ∧ w.host.due = s.host.due ∧
      w.host.ops = s.host.ops.map fun o => if o.id = r.op ∧ o.ended = none then { o with ended := some true } else o) ∧
    (good 1 → p.hdr.final = true → r.completed = false → (epOf v0 r.ep).closer = none → s.rel.mirrors = [] → alive v0 r.slot → ∃ (w : State)
      (d : Completion), exec (.ack p) s = .next w ∧ w.xport.sends = [] ∧ d ∈ w.host.due ∧ d.slot = r.slot ∧ d.status = 0 ∧
      d.result0 = packetsOf r.length) ∧
    (good 1 → p.hdr.final = false → r.dest ≠ selfId s → keyHeld s r.dest (epochOf s.time) = false → ∃ (w : State) (x : SendRec),
      exec (.ack p) s = .next w ∧ w.xport.sends = [x] ∧ x.id = r.id ∧ max r.low (min p.hdr.packet (packetsOf r.length)) ≤ x.low ∧ x.failed = none ∧
      (∀ q, x.low ≤ q → thas r.packets q = true → (x.tx q).sent = (r.tx q).sent ∧ ((x.tx q).acked = true ↔ (r.tx q).acked = true ∨
        (p.hdr.packet ≤ q ∧ q < p.hdr.packet + 8 * p.data.length ∧
          ((p.data.getD ((q - p.hdr.packet) / 8) 0).toNat >>> ((q - p.hdr.packet) % 8)) % 2 = 1) ∨ q < p.hdr.packet))) ∧
    (good 2 → r.low ≤ p.hdr.packet → (r.tx p.hdr.packet).sent = true → (r.tx p.hdr.packet).acked = false → ∃ (w : State) (x : SendRec),
      exec (.notReady p) s = .next w ∧ w.xport.sends = [x] ∧ x.id = r.id ∧ (x.tx p.hdr.packet).holdUntil = some (s.mono + p.hdr.hintUs * 1000) ∧
      (x.tx p.hdr.packet).refusedAt = some (((r.tx p.hdr.packet).refusedAt).getD s.mono) ∧ (x.tx p.hdr.packet).sent = false ∧
      (x.tx p.hdr.packet).queued = false ∧ (∀ q, q ≠ p.hdr.packet → x.tx q = r.tx q) ∧ x.low = r.low)) ∧
  (∀ (n p : Nat) (r : SendRec) (s : State), s.xport.sends = [r] → r.id = n → r.failed = none →
    (∀ t, (r.tx p).holdUntil = some t → s.mono < t → exec (.notReadyRetry n p) s = .next s) ∧
    (∀ t, (r.tx p).holdUntil = some t → t ≤ s.mono → p = 0 → r.low = 0 → r.length ≤ 4096 → (r.tx p).sent = false → (r.tx p).queued = false →
      r.dest ≠ selfId s → keyHeld s r.dest (epochOf s.time) = true → usablePaths s r.dest ≠ [] →
      mayMove s r.tenant r.cls [] = true → ∃ (w : State) (x : SendRec),
      exec (.notReadyRetry n p) s = .next w ∧ w.xport.sends = [x] ∧ (x.tx p).queued = true ∧ (x.tx p).holdUntil = none ∧
      (x.tx p).refusedAt = (r.tx p).refusedAt ∧ (x.tx p).stamp = s.time) ∧
    ((∀ t, (r.tx p).refusedAt = some t → s.mono < t + 1000000000 ∨ (r.tx p).acked = true) → exec (.notReadyTimeout n p) s = .next s) ∧
    (∀ t, (r.tx p).refusedAt = some t → t + 1000000000 ≤ s.mono → (r.tx p).acked = false → r.completed = false → s.rel.mirrors = [] → alive s r.slot →
      r.dest ≠ selfId s → keyHeld s r.dest (epochOf s.time) = false → ∃ (w : State) (d : Completion) (x : SendRec),
      exec (.notReadyTimeout n p) s = .next w ∧ d ∈ w.host.due ∧ d.slot = r.slot ∧ d.status = 0x0708 ∧ w.xport.sends = [x] ∧
      x.failed = some 0x0708 ∧ x.packets = []))

/-- A base, transport or tray header of 32 bytes and an announcement of 64 read back, most significant byte first, as the fields laid out; a packet
begins with its base header in clear, and one of KIND 2 or 3 has its body in clear and a 16-byte tag; both ends form one nonce of 12 bytes, from SRC
and SEQ or from the serial number and SEQ. FRAME_RECEIVE on a link that is not ON does nothing. Of a transport packet it drops and counts, in this
order, one with a bad checksum, a wrong EtherType or UDP port, version or KIND, another destination, one that finds the transport engine not ON, a
sender or receiver without time, a STAMP more than 1 us ahead or older than the lifetime, no secret, a bad tag or key epoch (with event 0x64), and one
that a unit's checks refuse; without its key or context at hand it waits in the miss buffer; else it stands in the receive buffer. REFUSE fails the
message with 0x0700 plus REASON: its SEND ends with that code, or an event record reports it where the SEND has completed. ABORT cancels the receive
with 0x070D, frees the record, remembers the ID as aborted and answers with a FINAL ACK. A packet that is overdue and that its budget does not hold
goes out again with the next attempt, twice the interval up to 256 us and its old STAMP; the ABORT of a failed message likewise. A packet whose
lifetime has passed fails its message with 0x0707; an ABORT's frees the record. An ID is forgotten once its lifetime has passed, fragments after 100
ms. SYSTEM_ENDPOINT_RETRY sends what was refused 1 ms ago. -/
def Obligations.FramesArriveAndMessagesEnd : Prop :=
  let alive (v : State) (i : Nat) : Prop := ∃ y : Slot, slotById v i = some y ∧ y.cmd.src = none ∧ y.phase ≠ .finished ∧ y.dead = false
  let away (s : State) (r : SendRec) : Prop := r.dest ≠ selfId s ∧ keyHeld s r.dest (epochOf s.time) = false
  let sends (s : State) (r : SendRec) : Prop := r.dest ≠ selfId s ∧ keyHeld s r.dest (epochOf s.time) = true ∧ usablePaths s r.dest ≠ []
  (∀ (b : BaseHdr) (rest : List Byte), b.ok = true → (baseBytes b).length = 32 ∧ baseOf (baseBytes b ++ rest) = b) ∧
  (∀ (h : TransHdr) (rest : List Byte), h.ok = true → (transBytes h).length = 32 ∧ transOf (transBytes h ++ rest) = h) ∧
  (∀ (h : TrayHdr) (rest : List Byte), h.ok = true → (trayBytes h).length = 32 ∧ trayOf (trayBytes h ++ rest) = h) ∧
  (∀ (a : Announce) (rest : List Byte), a.ok = true → a.role < 4 → a.portDies < 4 → a.link < 64 → a.linksOn < 2 ^ 64 →
    (announceBytes a).length = 64 ∧ announceOfBytes (announceBytes a ++ rest) = a) ∧
  (∀ (p : Payload) (b : BaseHdr) (bs : List Byte) (s : State), packetHeader p = some b → packetBytes s p = some bs → bs.take 32 = baseBytes b ∧
    (2 ≤ b.kind → (bs.drop 32).take (bodyBytes p).length = bodyBytes p ∧ bs.length = 32 + (bodyBytes p).length + 16)) ∧
  (∀ (p : Payload) (b : BaseHdr) (s r : State), packetHeader p = some b →
    (b.kind < 2 → b.ok = true → ∃ n, sealNonce s p = some n ∧ openNonce r p = some n ∧ n.length = 12 ∧ beNat (n.take 3) = b.src ∧ n.getD 3 1 = 0 ∧
      beNat (n.drop 4) = b.seq) ∧
    (∀ a, 2 ≤ b.kind → b.ok = true → p = .announce b a → a.serial = s.fuses.serial → ∃ n, sealNonce s p = some n ∧ openNonce r p = some n ∧
      n.length = 12 ∧ beNat (n.take 4) = a.serial % 2 ^ 32 ∧ beNat (n.drop 4) = b.seq)) ∧
  (∀ (port sub : Nat) (f : Frame) (s : State), linkExists s port sub = false ∨ linkOn s port sub = false → exec (.frameReceive port sub f) s = .next s) ∧
  (∀ (port sub : Nat) (f : Frame) (s : State), linkExists s port sub = true → linkOn s port sub = true → f.payload = .ptp → port < 16 →
    fillOf s port sub 7 + f.bytes < 49152 → ∃ w, exec (.frameReceive port sub f) s = .next w ∧
    w.fab.inbox = s.fab.inbox ++ [{ port := port, sub := sub, cls := 7, bytes := f.bytes, item := .ptp }] ∧ w.xport = s.xport ∧ w.tray = s.tray) ∧
  (∀ (port sub : Nat) (f : Frame) (p : XPacket) (s : State), linkExists s port sub = true → linkOn s port sub = true → f.payload = .xport p → port < 16 →
    let b := p.base
    let counts (why : Nat) : Prop := ∃ w, exec (.frameReceive port sub f) s = .next w ∧
      tgetD w.fab.dropped why 0 = tgetD s.fab.dropped why 0 + 1 ∧ w.fab.inbox = s.fab.inbox ∧ w.xport = s.xport
    let waits : Prop := missBytes s + f.bytes ≤ 2097152 → ∃ w, exec (.frameReceive port sub f) s = .next w ∧
      w.xport.miss = s.xport.miss ++ [{ port := port, sub := sub, frame := f }] ∧ w.fab.inbox = s.fab.inbox
    let etype := if s.image.fabric.encap = 0 then s.image.fabric.ethertype else s.image.fabric.udpPort
    let timely : Prop := b.stamp ≤ s.time + 1000 ∧ s.time ≤ b.stamp + lifetimeNs s
    let pure : Prop := b.keyEpoch = epochOf b.stamp % 256 ∧ f.authentic = true
    (f.checkOk = false → counts 0) ∧
    (f.checkOk = true → f.etype ≠ etype → counts 1) ∧
    (f.checkOk = true → f.etype = etype → b.version ≠ 1 ∨ b.kind ≠ 0 → counts 2) ∧
    (f.checkOk = true → f.etype = etype → b.version = 1 → b.kind = 0 → s.fab.id ≠ some b.dest → counts 3) ∧
    (f.checkOk = true → f.etype = etype → b.version = 1 → b.kind = 0 → s.fab.id = some b.dest → islandDown s 25 = true → counts 19) ∧
    (f.checkOk = true → f.etype = etype → b.version = 1 → b.kind = 0 → s.fab.id = some b.dest → islandDown s 25 = false → s.fab.conflict = [] →
      (b.locked = false ∨ holdsTime s = false → counts 4) ∧
      (b.locked = true → holdsTime s = true → ¬ timely → counts 5) ∧
      (b.locked = true → holdsTime s = true → timely → secretFor s (epochOf b.stamp) = none → counts 18) ∧
      (b.locked = true → holdsTime s = true → timely → (secretFor s (epochOf b.stamp)).isSome = true →
        (keyHeld s b.src (epochOf b.stamp) = false → waits) ∧
        (keyHeld s b.src (epochOf b.stamp) = true → ¬ pure → counts 6 ∧ ∃ w, exec (.frameReceive port sub f) s = .next w ∧
          tgetD w.tele.events (25, 0x64) 0 = wrapAdd 48 (tgetD s.tele.events (25, 0x64) 0) 1) ∧
        (keyHeld s b.src (epochOf b.stamp) = true → pure → senderAhead s b.membership = false →
          (∀ why, packetCheck s p = some why → counts why) ∧
          (packetCheck s p = none → 256 ≤ p.hdr.dstEp → p.hdr.dstEp ∉ s.xport.resident → waits) ∧
          (packetCheck s p = none → p.hdr.dstEp < 256 ∨ p.hdr.dstEp ∈ s.xport.resident → fillOf s port sub b.cls + f.bytes < 49152 → ∃ w,
            exec (.frameReceive port sub f) s = .next w ∧
            w.fab.inbox = s.fab.inbox ++ [{ port := port, sub := sub, cls := b.cls, bytes := f.bytes, item := .xport p }] ∧ w.xport = s.xport))))) ∧
  (∀ (p : XPacket) (r : SendRec) (s : State),
    let v := takeItem s (.xport p)
    p.hdr.type = 3 → v.rel.quarantined = false → packetCheck v p = none → s.xport.sends = [r] → r.ep = p.hdr.dstEp → r.gen = p.hdr.dstGen →
    r.serial = p.hdr.serial → r.dest = p.base.src → r.failed = none → p.hdr.reason ≠ 6 → away s r →
    let failed (w : State) : Prop := exec (.refuse p) s = .next w ∧ ∃ x : SendRec, w.xport.sends = [x] ∧ x.failed = some (0x0700 + p.hdr.reason) ∧
      x.packets = [] ∧ x.completed = true
    (r.completed = false → s.rel.mirrors = [] → alive v r.slot → ∃ (w : State) (d : Completion), failed w ∧ d ∈ w.host.due ∧ d.slot = r.slot ∧
      d.status = 0x0700 + p.hdr.reason) ∧
    (r.completed = true → ∃ w, failed w ∧ tgetD w.tele.events (25, 0x66) 0 = wrapAdd 48 (tgetD s.tele.events (25, 0x66) 0) 1)) ∧
  (∀ (p : XPacket) (s : State),
    let v := takeItem s (.xport p)
    p.hdr.type = 4 → v.rel.quarantined = false → packetCheck v p = none → (∀ m ∈ v.xport.remembered, m.of p = false) →
    let noted (w : State) : Prop := exec (.abort p) s = .next w ∧ (∀ r ∈ w.xport.recvs, r.of p = false) ∧ w.tier = v.tier ∧ w.hostMem = s.hostMem ∧
      ∃ m ∈ w.xport.remembered, m.of p = true ∧ m.aborted = true
    ((∀ r ∈ v.xport.recvs, r.of p = false) → ∃ w, noted w ∧ w.xport.recvs = v.xport.recvs ∧ w.host.due = v.host.due) ∧
    (∀ r x, v.xport.recvs = [r] → r.of p = true → r.recv = some x → s.rel.mirrors = [] → alive v x.slot → ∃ (w : State) (d : Completion), noted w ∧
      d ∈ w.host.due ∧ d.slot = x.slot ∧ d.status = 0x070D)) ∧
  (∀ (n p : Nat) (r : SendRec) (s : State), s.xport.sends = [r] → r.id = n → r.failed = none →
    (p < r.low ∨ (r.tx p).overdue s.mono = false → exec (.retransmitTimer n p) s = .next s) ∧
    (sourceHeld s r.tenant r.cls (packetLen r.length p) = true → exec (.retransmitTimer n p) s = .next s) ∧
    (r.low ≤ p → (r.tx p).overdue s.mono = true → sends s r → sourceHeld s r.tenant r.cls (packetLen r.length p) = false → ∃ (w : State) (x : SendRec), exec (.retransmitTimer n p) s = .next w ∧
      w.xport.sends = [x] ∧ (x.tx p).queued = true ∧ (x.tx p).attempt = (r.tx p).attempt + 1 ∧ (x.tx p).stamp = (r.tx p).stamp ∧
      (x.tx p).interval = min (2 * (r.tx p).interval) 256000 ∧ (∀ q, q ≠ p → x.tx q = r.tx q) ∧ w.host.due = s.host.due) ∧
    (p < r.low ∨ (r.tx p).expired s = false → exec (.deliveryTimeout n p) s = .next s) ∧
    (r.low ≤ p → (r.tx p).expired s = true → r.completed = false → s.rel.mirrors = [] → alive s r.slot → away s r → ∃ (w : State) (d : Completion)
      (x : SendRec), exec (.deliveryTimeout n p) s = .next w ∧ d ∈ w.host.due ∧ d.slot = r.slot ∧ d.status = 0x0707 ∧ w.xport.sends = [x] ∧
      x.failed = some 0x0707)) ∧
  (∀ (n p : Nat) (r : SendRec) (s : State), s.xport.sends = [r] → r.id = n → r.failed.isSome = true →
    (r.abortPkt.overdue s.mono = true → sends s r → ∃ (w : State) (x : SendRec), exec (.retransmitTimer n p) s = .next w ∧ w.xport.sends = [x] ∧
      x.abortPkt.queued = true ∧ x.abortPkt.attempt = r.abortPkt.attempt + 1 ∧ x.abortPkt.stamp = r.abortPkt.stamp ∧ x.failed = r.failed) ∧
    (r.abortPkt.expired s = true → (epOf s r.ep).closer = none → ∃ w, exec (.deliveryTimeout n p) s = .next w ∧ w.xport.sends = [] ∧
      w.host.due = s.host.due)) ∧
  (∀ (src ep gen serial : Nat) (s : State), ∃ w, exec (.completionTableExpiry src ep gen serial) s = .next w ∧
    (∀ m, m ∈ w.xport.remembered ↔ m ∈ s.xport.remembered ∧
      ¬ (m.src = src ∧ m.srcEp = ep ∧ m.srcGen = gen ∧ m.serial = serial ∧ m.maxStamp + lifetimeNs s < s.time)) ∧ w.fab = s.fab ∧ w.host = s.host) ∧
  (∀ (k : Nat) (s : State), ∃ w, exec (.fragmentDiscard k) s = .next w ∧
    (∀ x, x ∈ w.fab.fragments ↔ x ∈ s.fab.fragments ∧ ¬ (x.subtype = k ∧ x.since + 100000000 ≤ s.mono)) ∧ w.xport = s.xport ∧ w.host = s.host) ∧
  (∀ s : State, ((∀ x ∈ s.req.retry, s.mono < x.2.2 + 1000000) → exec .systemEndpointRetry s = .next s) ∧
    ((∀ x ∈ s.req.retry, x.2.2 + 1000000 ≤ s.mono) → canSend s = true → ∃ w, exec .systemEndpointRetry s = .next w ∧ w.req.retry = [] ∧
      w.req.outbox = s.req.outbox ++ s.req.retry.map (fun x => (x.1, x.2.1)) ∧ w.fab = s.fab ∧ w.host = s.host))

/-- TRAY_LOAD, STORE, ATOMIC and REDUCE end with the first of 0x0801, 0x0710 (not ATOMIC), 0x0808, 0x0806, 0x0803, 0x0802, the reference's code (not
ATOMIC) and 0x0702 that applies; a poisoned source of a STORE or REDUCE gives 0x0309. Else, with no tag to wait for, the command issues one operation
toward its home with the next OP_ID and the header of its fields, marks the home's slot for its job, and counts as covered unless it is a LOAD; held
by its class's crossbar budget (not a LOAD), or with no pair key, the request waits; with budget, key, path and credit it stands in an egress queue
and holds a credit. Toward the module itself a LOAD or ATOMIC enters its own home queues at once, and a STORE completes with its OP_ID in RESULT1.
TRAY_MCAST_STORE issues one such operation to each member of its group (0x0807 without one) with the member's key and address plus OFFSET. TRAY_ALLOC
of 64 KiB to 1 GiB takes free slabs of the stack with the most, zeroes them and returns a new key and the tray address (0x0801, 0x0808, 0x0806,
0x070F, 0x0201, 0x020D refuse it). TRAY_GROUP_SET sets a group of up to 32 members, one per slot, or clears it; its list's address must be 64-byte
aligned (0x0304), whatever COUNT is. -/
def Obligations.TrayCommandsIssueTheirOperations : Prop :=
  let alive (v : State) (i : Nat) : Prop := ∃ y : Slot, slotById v i = some y ∧ y.cmd.src = none ∧ y.phase ≠ .finished ∧ y.dead = false
  let idle (v : State) (home : Nat) : Prop := ∀ o ∈ (peerOf v home).ops, o.sent = true ∨ o.queued = true
  let plain (op : Nat) (i : Cmd → Instr) : Prop := ∀ (c : Cmd) (id : Nat) (s s1 : State), Starts op c s id s1 →
    let u := begun s1 id c
    let t := cmdTenant u c
    let slot := fld c.w3 45 0 / 2 ^ 41
    let home := slotId u slot
    let len := fld c.w2 12 0
    let h : TrayHdr := { type := 0, op := op - 0x80, aop := fld c.w2 31 28, width := fld c.w2 27 26, dtype := fld c.w2 25 24, opId := 0, ackedBelow := 0,
                         status := 0, poison := false, addr := fld c.w3 45 0, mkey := fld c.w2 63 32, len := len }
    let form : Prop := handleOf c = 0 ∧ isBatch c = false ∧ trayFormatBad h = false
    let numbers : Prop := op ≠ 0x82 → fld c.w5 63 48 < 4096 ∧ fld c.w5 47 32 < 4096
    let mine : Prop := jobOf c ≠ 0 ∧ jobFrozen u t (jobOf c) = false
    let placed : Prop := isMember u home = true ∧ trayAlignBad h = false
    let held : Prop := op = 0x82 ∨ refCheck u t (refOf c.w4) len false = .ok
    let ready : Prop := home = selfId u ∨ (u.fab.id.isSome = true ∧ holdsTime u = true)
    let source : Prop := op = 0x81 ∨ op = 0x83 → refBad u t (refOf c.w4) 0 len = false
    let moves : Prop := op = 0x80 ∨ mayMove u t (classOf c) [] = true
    let ends (e : Nat) : Prop := exec (i c) s = .next (s.keepHost (finish u id e 0 0))
    let issues (w : State) (o : TrayOp) : Prop := exec (i c) s = .next w ∧ (peerOf w home).ops = (peerOf u home).ops ++ [o] ∧
      o.opId = (peerOf u home).nextOp ∧ (peerOf w home).nextOp = wrapAdd 16 (peerOf u home).nextOp 1 ∧ o.slot = id ∧ o.tenant = t ∧ o.job = jobOf c ∧
      o.req.hdr = { h with opId := (peerOf u home).nextOp } ∧ o.sent = false ∧ w.host.due = u.host.due ∧
      bit (tgetD w.tray.masks (t, jobOf c) 0) slot = true ∧ (∀ m, m ≠ home → peerOf w m = peerOf u m) ∧
      (op ≠ 0x80 → ∃ k ∈ w.host.ops, k.slot = id ∧ k.kind = .tray ∧ k.ended = none)
    (¬ form → ends 0x0801) ∧ (form → ¬ numbers → ends 0x0710) ∧
    (form → numbers → (jobOf c = 0 → ends 0x0808) ∧ (jobOf c ≠ 0 → jobFrozen u t (jobOf c) = true → ends 0x0806)) ∧
    (form → numbers → mine →
      (isMember u home = false → ends 0x0803) ∧ (isMember u home = true → trayAlignBad h = true → ends 0x0802)) ∧
    (∀ e, form → numbers → mine → placed → op ≠ 0x82 → refCheck u t (refOf c.w4) len false = .bad e → e ≠ 0 → ends e) ∧
    (form → numbers → mine → placed → held → (¬ ready → ends 0x0702) ∧ (ready → ¬ source → ends 0x0309)) ∧
    (form → numbers → mine → placed → held → ready → source → op = 0x82 ∨ fld c.w5 63 48 = 0 → alive u id → idle u home →
      (¬ moves ∨ home ≠ selfId u ∧ keyHeld u home (epochOf u.time) = false → ∃ w o, issues w o ∧ o.queued = false) ∧
      (∀ x, moves → home ≠ selfId u → keyHeld u home (epochOf u.time) = true → (peerOf u home).ops = [] → 0 < (peerOf u home).credits →
        pathOf u home (trayEntropy (selfId u) (peerOf u home).nextOp 0) = some x → ∃ (w : State) (o : TrayOp) (q : Queued), issues w o ∧
        o.queued = true ∧ o.credit = true ∧ (peerOf w home).credits = (peerOf u home).credits - 1 ∧
        (tgetD w.shape.queues (x.port, x.sub, classOf c, t) []).getLast? = some q ∧ q.tenant = some t) ∧
      (moves → home = selfId u → (peerOf u home).ops = [] → 0 < (peerOf u home).credits → op = 0x80 ∨ op = 0x82 → ∃ (w : State) (k : TPacket),
        exec (i c) s = .next w ∧ w.fab.inbox = u.fab.inbox ++ [{ port := 16, sub := 0, cls := classOf c, bytes := 0, item := .tray k }] ∧
        k.hdr.op = op - 0x80 ∧ k.hdr.opId = (peerOf u home).nextOp ∧ k.hdr.addr = h.addr ∧ k.hdr.mkey = h.mkey ∧ k.base.src = home) ∧
      (moves → home = selfId u → (peerOf u home).ops = [] → 0 < (peerOf u home).credits → op = 0x81 ∨ op = 0x83 → u.rel.mirrors = [] →
        (∀ p ∈ u.tray.peers, ∀ o ∈ p.2.ops, o.slot ≠ id) → ∃ (w : State) (d : Completion) (k : TPacket), exec (i c) s = .next w ∧ d ∈ w.host.due ∧
        d.slot = id ∧ d.status = 0 ∧ d.result1 = (peerOf u home).nextOp ∧
        w.fab.inbox = u.fab.inbox ++ [{ port := 16, sub := 0, cls := classOf c, bytes := 0, item := .tray k }] ∧
        k.data = refBytes u t (refOf c.w4) 0 len))
  plain 0x80 (fun c => .trayLoad c) ∧ plain 0x81 (fun c => .trayStore c) ∧ plain 0x82 (fun c => .trayAtomic c) ∧ plain 0x83 (fun c => .trayReduce c) ∧
  (∀ (c : Cmd) (id : Nat) (s s1 : State), Starts 0x84 c s id s1 →
    let u := begun s1 id c
    let t := cmdTenant u c
    let len := fld c.w2 12 0
    let g := fld c.w2 63 56
    let ends (e : Nat) : Prop := exec (.trayMcastStore c) s = .next (s.keepHost (finish u id e 0 0))
    let form : Prop := handleOf c = 0 ∧ isBatch c = false ∧ 1 ≤ len ∧ len ≤ 4096
    (¬ form → ends 0x0801) ∧
    (form → 4096 ≤ fld c.w5 63 48 ∨ 4096 ≤ fld c.w5 47 32 → ends 0x0710) ∧
    (form → fld c.w5 63 48 = 0 → fld c.w5 47 32 < 4096 →
      (jobOf c = 0 → ends 0x0808) ∧ (jobOf c ≠ 0 → jobFrozen u t (jobOf c) = true → ends 0x0806) ∧
      (jobOf c ≠ 0 → jobFrozen u t (jobOf c) = false →
        ((∀ x, tget u.tray.groups g = some x → x.tenant ≠ t) → ends 0x0807) ∧
        (∀ x, tget u.tray.groups g = some x → x.tenant = t →
          ((∃ m ∈ x.members, isMember u (slotId u (m.2 / 2 ^ 41)) = false) → ends 0x0803) ∧
          ((∀ m ∈ x.members, isMember u (slotId u (m.2 / 2 ^ 41)) = true) → refCheck u t (refOf c.w4) len false = .ok → u.fab.id.isSome = true →
            holdsTime u = true → refBad u t (refOf c.w4) 0 len = false → alive u id → (x.members.map fun m => m.2 / 2 ^ 41).Nodup →
            (∀ m ∈ x.members, slotId u (m.2 / 2 ^ 41) ≠ selfId u ∧ keyHeld u (slotId u (m.2 / 2 ^ 41)) (epochOf u.time) = false) →
            ∃ w, exec (.trayMcastStore c) s = .next w ∧ stageOf w id = x.members.length ∧ w.host.due = u.host.due ∧
            ∀ m ∈ x.members, let home := slotId u (m.2 / 2 ^ 41)
              ∃ o : TrayOp, (peerOf w home).ops = (peerOf u home).ops ++ [o] ∧ o.slot = id ∧ o.opId = (peerOf u home).nextOp ∧ o.req.hdr.op = 4 ∧
              o.req.hdr.len = len ∧ o.req.hdr.mkey = m.1 ∧ o.req.hdr.addr = (m.2 + fld c.w3 40 0) % 2 ^ 46 ∧
              bit (tgetD w.tray.masks (t, jobOf c) 0) (m.2 / 2 ^ 41) = true))))) ∧
  (∀ (c : Cmd) (id : Nat) (s s1 : State), Starts 0x85 c s id s1 →
    let u := begun s1 id c
    let t := cmdTenant u c
    let b := c.w2.toNat
    let n := b / 65536
    let stack := (stacksByFree u).headD 0
    let ends (e : Nat) : Prop := exec (.trayAlloc c) s = .next (s.keepHost (finish u id e 0 0))
    let form : Prop := handleOf c = 0 ∧ isBatch c = false ∧ 65536 ≤ b ∧ b ≤ 1073741824 ∧ b % 65536 = 0
    (¬ form → ends 0x0801) ∧ (form → jobOf c = 0 → ends 0x0808) ∧ (form → jobOf c ≠ 0 → jobFrozen u t (jobOf c) = true → ends 0x0806) ∧
    (form → jobOf c ≠ 0 → jobFrozen u t (jobOf c) = false →
      (regionRoom u t false = false → ends 0x070F) ∧
      (regionRoom u t false = true → overQuota u t 1 n = true ∨ freeRun u stack n = none → ends 0x0201) ∧
      (∀ f, regionRoom u t false = true → overQuota u t 1 n = false → freeRun u stack n = some f →
        u.tier.dir.length + ceilDiv n 64 ≤ 16777216 → ∃ v : State,
        let addr := selfId u % 32 * 2 ^ 41 + stack * 2 ^ 36 + f * 65536
        exec (.trayAlloc c) s = .next (s.keepHost (finish v id 0 (keyOf u (freeRegion u)) addr)) ∧
        (∀ a, a < b → v.tray.mem.read (stack * 2 ^ 36 + f * 65536 + a) = 0) ∧
        (∃ x : Region, tget v.xport.regions (freeRegion u) = some x ∧ x.space = 3 ∧ x.location = addr ∧ x.length = b ∧ x.tenant = t ∧
          x.job = jobOf c ∧ x.kind = 0 ∧ x.read = flag c.w3 0 ∧ x.write = flag c.w3 1 ∧ x.atomic = flag c.w3 2 ∧ x.reduce = flag c.w3 3) ∧
        (∀ k, k ≠ freeRegion u → tget v.xport.regions k = tget u.xport.regions k) ∧
        (∀ p ∈ spans f n, (stack, p.1, p.2) ∈ v.tier.used)))) ∧
  (∀ (c : Cmd) (id : Nat) (s s1 : State), Starts 0x86 c s id s1 →
    let u := begun s1 id c
    let t := cmdTenant u c
    let g := fld c.w2 63 56
    let n := fld c.w2 5 0
    let a := c.w3.toNat
    let ms := (List.range n).map fun k => (bits (u.hostMem.readNat (a + 16 * k) 8) 63 32, u.hostMem.readNat (a + 16 * k + 8) 8 % 2 ^ 46)
    let slots := ms.map fun m => m.2 / 2 ^ 41
    let ends (e : Nat) : Prop := exec (.trayGroupSet c) s = .next (s.keepHost (finish u id e 0 0))
    let form : Prop := handleOf c = 0 ∧ isBatch c = false ∧ n ≤ 32
    let mine : Prop := jobOf c ≠ 0 ∧ jobFrozen u t (jobOf c) = false
    (¬ form → ends 0x0801) ∧ (form → a % 64 ≠ 0 → ends 0x0304) ∧
    (form → n = 0 → a % 64 = 0 → mine → ∃ v : State, exec (.trayGroupSet c) s = .next (s.keepHost (finish v id 0 0 0)) ∧ tget v.tray.groups g = none ∧
      (∀ k, k ≠ g → tget v.tray.groups k = tget u.tray.groups k)) ∧
    (form → n ≠ 0 → a % 64 = 0 → hostBad u a (16 * n) = false →
      (¬ slots.Nodup → ends 0x0801) ∧
      (slots.Nodup → (jobOf c = 0 → ends 0x0808) ∧ (jobOf c ≠ 0 → jobFrozen u t (jobOf c) = true → ends 0x0806) ∧
        (mine → (∃ k ∈ slots, isMember u (slotId u k) = false) → ends 0x0803) ∧
        (mine → (∀ k ∈ slots, isMember u (slotId u k) = true) → ∃ v : State, exec (.trayGroupSet c) s = .next (s.keepHost (finish v id 0 n 0)) ∧
          tget v.tray.groups g = some { tenant := t, job := jobOf c, members := ms } ∧ (∀ k, k ≠ g → tget v.tray.groups k = tget u.tray.groups k) ∧
          ∀ k ∈ slots, bit (tgetD v.tray.masks (t, jobOf c) 0) k = true))))

/-- A TRAY_REQUEST of another tray, or for another slot, or of no member is dropped. A new ID of a source with fewer than 16 requests queued is
checked: 0x0801, 0x0802, 0x070A, 0x070B, 0x070C or 0x0806 is answered and held; else it joins the queue of its first line. An ID that waits is
ignored, one whose reply is held is answered with it again, an older one or one released or expired with 0x0804. A line operation performs the first
request of the line's queue, when the round-robin arbiter of the source slots grants its source and the budgets let the line be filled: a LOAD returns
the bytes; a STORE writes them; an ATOMIC stores its result of the old value and returns that; a REDUCE reduces its elements; no other byte of the
line changes; on its last line the reply is sent and held and the credit is free, else it joins the next line. A held line is written back after 1 us
without an operation. A held reply expires after 16 ms. TRAY_REPLY returns the credit, ends the operation and completes a LOAD, its bytes written, or
an ATOMIC with its old value; 0x0806 freezes the job. A request is sent again 10 and then 20 us after its transmission, twice at most and only as its
budget allows; after 50 us of running clock, or a stop of 1,000 ms, it is lost with 0x0805 and its job freezes. -/
def Obligations.TheTrayHomeAndTheInitiator : Prop :=
  let alive (v : State) (i : Nat) : Prop := ∃ y : Slot, slotById v i = some y ∧ y.cmd.src = none ∧ y.phase ≠ .finished ∧ y.dead = false
  (∀ (p : TPacket) (s : State),
    let v := takeItem s (.tray p)
    let src := p.base.src
    let n := p.hdr.opId
    let x := sourceOf v src
    let d := signed 16 (n + 65536 - x.highest)
    let kept (w : State) (r : OpState) : Prop := exec (.trayRequest p) s = .next w ∧ idState (sourceOf w src) n = r ∧ w.tray.work = v.tray.work ∧
      w.tray.mem = v.tray.mem ∧ w.tray.buffer = v.tray.buffer
    let refuses (e : Nat) : Prop := ∃ (w : State) (r : TPacket) (t : Nat), kept w (.held r t) ∧ r.hdr.type = 1 ∧ r.hdr.status = e ∧ r.hdr.opId = n ∧
      r.base.dest = src ∧ r.data = [] ∧ t = s.mono
    (p.hdr.type = 1 → exec (.trayRequest p) s = .next s) ∧
    (p.hdr.type ≠ 1 → v.rel.quarantined = false →
      (¬ (src / 32 = selfId s / 32 ∧ p.base.dest / 32 = selfId s / 32 ∧ p.hdr.addr / 2 ^ 41 = p.base.dest % 32) → ∃ w,
        exec (.trayRequest p) s = .next w ∧ tgetD w.fab.dropped 15 0 = tgetD v.fab.dropped 15 0 + 1 ∧ w.tray = v.tray) ∧
      (src / 32 = selfId s / 32 → p.base.dest / 32 = selfId s / 32 → p.hdr.addr / 2 ^ 41 = p.base.dest % 32 →
        (isMember v src = false → ∃ w, exec (.trayRequest p) s = .next w ∧ tgetD w.fab.dropped 7 0 = tgetD v.fab.dropped 7 0 + 1 ∧ w.tray = v.tray) ∧
        (isMember v src = true → 1 ≤ d ∨ (-255 ≤ d ∧ d < 1 ∧ idState x n = .empty) → x.queued < 16 →
          let good : Prop := p.hdr.type = 0 ∧ trayFormatBad p.hdr = false ∧ p.data.length = requestLen p.hdr
          let need := touchedLen p.hdr
          let a := p.hdr.addr % 2 ^ 41
          (¬ good → refuses 0x0801) ∧ (good → trayAlignBad p.hdr = true → refuses 0x0802) ∧
          (good → trayAlignBad p.hdr = false → keyRegion v p.hdr.mkey = none → refuses 0x070A) ∧
          (∀ i g, good → trayAlignBad p.hdr = false → keyRegion v p.hdr.mkey = some (i, g) →
            (g.space ≠ 3 → refuses 0x070A) ∧
            (g.space = 3 → g.kind = 0 → g.grants (opRight p.hdr.op) = false → refuses 0x070B) ∧
            (g.space = 3 → g.kind = 0 → g.grants (opRight p.hdr.op) = true →
              (a < g.location % 2 ^ 41 ∨ g.location % 2 ^ 41 + g.length < a + need → refuses 0x070C) ∧
              (g.location % 2 ^ 41 ≤ a → a + need ≤ g.location % 2 ^ 41 + g.length →
                ((g.tenant, g.job) ∈ v.tray.frozen → refuses 0x0806) ∧
                ((g.tenant, g.job) ∉ v.tray.frozen → ∃ w, exec (.trayRequest p) s = .next w ∧ idState (sourceOf w src) n = .waiting ∧
                  (sourceOf w src).queued = x.queued + 1 ∧
                  w.tray.work = v.tray.work ++ [{ pkt := p, region := i, nextLine := a / 64, gathered := [], poison := false }] ∧
                  w.tray.mem = v.tray.mem))))) ∧
        (isMember v src = true → (1 ≤ d ∨ idState x n = .empty) → -255 ≤ d → 16 ≤ x.queued → ∃ w, exec (.trayRequest p) s = .next w ∧
          tgetD w.fab.dropped 14 0 = tgetD v.fab.dropped 14 0 + 1 ∧ w.tray.work = v.tray.work) ∧
        (isMember v src = true → -255 ≤ d → d < 1 → idState x n = .waiting → ∃ w, kept w .waiting ∧ w.shape = v.shape ∧ w.fab = v.fab) ∧
        (∀ r t, isMember v src = true → -255 ≤ d → d < 1 → idState x n = .held r t → 0 ≤ signed 16 (n + 65536 - p.hdr.ackedBelow) → src ≠ selfId s →
          r.base.dest = src → (∀ y, pathOf v src r.base.entropy = some y → ∃ (w : State) (q : Queued), kept w (.held r t) ∧
            (tgetD w.shape.queues (y.port, y.sub, r.base.cls, ((tget v.xport.regions (p.hdr.mkey % 2 ^ 24)).map (·.tenant)).getD 16) []).getLast? =
              some q ∧ q.frame.payload = .tray r ∧ q.exempt = true)) ∧
        (∀ y, isMember v src = true → d < -255 ∨ (d < 1 ∧ (idState x n = .released ∨ idState x n = .expired)) → src ≠ selfId s →
          pathOf v src (trayEntropy (selfId s) n 0) = some y → ∃ (w : State) (q : Queued) (r : TPacket), exec (.trayRequest p) s = .next w ∧
          w.tray.work = v.tray.work ∧ (tgetD w.shape.queues (y.port, y.sub, p.base.cls, 16) []).getLast? = some q ∧ q.frame.payload = .tray r ∧
          r.hdr.status = 0x0804 ∧ r.hdr.opId = n ∧ r.hdr.type = 1)))) ∧
  (∀ (l : Nat) (s : State), (∀ w ∈ s.tray.work, w.nextLine ≠ l) → exec (.trayLineOperation l) s = .next s) ∧
  (∀ (l : Nat) (w : TrayWork) (s : State), (lineQueue s l).head? = some w → lineGrant s ≠ some (w.pkt.base.src % 32) ∨ lineServed s l w = false →
    exec (.trayLineOperation l) s = .next s) ∧
  (∀ (s : State) (n : Nat), s.tray.linePtr < 32 → lineGrant s = some n → n < 32 ∧ n ∈ lineRequesters s ∧
    ∀ m ∈ lineRequesters s, m < 32 → (n + 32 - s.tray.linePtr) % 32 ≤ (m + 32 - s.tray.linePtr) % 32) ∧
  (∀ (l : Nat) (w : TrayWork) (s : State), s.tray.work = [w] → w.nextLine = l → (∀ x ∈ s.host.slots, opcodeOf x.cmd ≠ 0x76) → closingJobs s = [] →
    s.tray.buffer.length < 256 → s.tray.mem.wf = true → (∀ x ∈ s.tray.buffer, x.bytes.length = 64) →
    lineServed s l w = true → idState (sourceOf s w.pkt.base.src) w.pkt.hdr.opId = .waiting →
    let h := w.pkt.hdr
    let a := h.addr % 2 ^ 41
    let lo := max a (64 * l)
    let hi := min (a + touchedLen h) (64 * l + 64)
    let old := (lineNow s l).1
    let last := (a + touchedLen h - 1) / 64
    let pick (bs : List Byte) (k n : Nat) : List Byte := (bs.drop k).take n
    lo < hi → a / 64 ≤ l → l ≤ last → (h.op ≠ 2 ∨ last = a / 64) → ∃ t, exec (.trayLineOperation l) s = .next t ∧
      (lineNow t l).1.length = 64 ∧ t.tray.linePtr = (w.pkt.base.src % 32 + 1) % 32 ∧ (∀ k, k ≠ l → lineNow t k = lineNow s k) ∧
      (∀ j, j < 64 → 64 * l + j < lo ∨ hi ≤ 64 * l + j → (lineNow t l).1.getD j 0 = old.getD j 0) ∧
      (h.op = 0 → (lineNow t l).1 = old) ∧
      (h.op = 1 ∨ h.op = 4 → w.pkt.data.length = h.len → pick (lineNow t l).1 (lo - 64 * l) (hi - lo) = pick w.pkt.data (lo - a) (hi - lo)) ∧
      (h.op = 2 → pick (lineNow t l).1 (a - 64 * l) (widthBytes h.width) = leBytes (widthBytes h.width) (atomicNew (8 * widthBytes h.width) h.aop
        (leNat (pick old (a - 64 * l) (widthBytes h.width))) (leNat (w.pkt.data.take (widthBytes h.width)))
        (leNat (pick w.pkt.data (widthBytes h.width) (widthBytes h.width))))) ∧
      (h.op = 3 → w.pkt.data.length = h.len → trayAlignBad h = false → ∀ e, e < (hi - lo) / dtypeBytes h.dtype →
        leNat (pick (lineNow t l).1 (lo - 64 * l + dtypeBytes h.dtype * e) (dtypeBytes h.dtype)) % 2 ^ (8 * dtypeBytes h.dtype) =
          reduceOne h.dtype h.aop (leNat (pick old (lo - 64 * l + dtypeBytes h.dtype * e) (dtypeBytes h.dtype)))
            (leNat (pick w.pkt.data (lo - a + dtypeBytes h.dtype * e) (dtypeBytes h.dtype))) % 2 ^ (8 * dtypeBytes h.dtype)) ∧
      (l < last → ∃ w1 : TrayWork, t.tray.work = [w1] ∧ w1.pkt = w.pkt ∧ w1.nextLine = l + 1) ∧
      (l = last → t.tray.work = [] ∧ (sourceOf t w.pkt.base.src).queued = (sourceOf s w.pkt.base.src).queued - 1 ∧
        ∃ (r : TPacket) (k : Nat), idState (sourceOf t w.pkt.base.src) h.opId = .held r k ∧ r.hdr.type = 1 ∧ r.hdr.status = 0 ∧
          r.hdr.opId = h.opId ∧ (h.op = 0 ∨ h.op = 2 → r.data = w.gathered ++ pick old (lo - 64 * l) (hi - lo)) ∧
          (h.op = 1 ∨ h.op = 3 ∨ h.op = 4 → r.data = w.gathered))) ∧
  (∀ (l : Nat) (h : HeldLine) (s : State), s.tray.buffer.find? (·.line = l) = some h →
    (lineQueue s l ≠ [] ∨ s.mono < h.usedAt + 1000 → exec (.combiningWriteback l) s = .next s) ∧
    (lineQueue s l = [] → h.usedAt + 1000 ≤ s.mono → h.bytes.length = 64 → s.tray.mem.wf = true → ∃ t, exec (.combiningWriteback l) s = .next t ∧
      (∀ x ∈ t.tray.buffer, x.line ≠ l) ∧ (∀ k, k ≠ l → lineNow t k = lineNow s k) ∧ t.tray.mem.readBytes (64 * l) 64 = h.bytes ∧
      (s.tray.bad.Nodup → t.tray.bad.contains l = h.poison))) ∧
  (∀ (m n t : Nat) (r : TPacket) (s : State), idState (sourceOf s m) n = .held r t →
    (s.mono < t + 16000000 → exec (.replyExpiry m n) s = .next s) ∧
    (t + 16000000 ≤ s.mono → ∃ w, exec (.replyExpiry m n) s = .next w ∧ idState (sourceOf w m) n = .expired ∧
      (∀ k, k ≠ n → idState (sourceOf w m) k = idState (sourceOf s m) k) ∧ (∀ k, k ≠ m → sourceOf w k = sourceOf s k) ∧ w.tray.mem = s.tray.mem)) ∧
  (∀ (p : TPacket) (o : TrayOp) (s : State),
    let v := takeItem s (.tray p)
    let home := p.base.src
    let h := p.hdr
    let r := peerOf v home
    h.type = 1 → v.rel.quarantined = false → home / 32 = selfId s / 32 → isMember v home = true → r.ops = [o] → o.opId = h.opId → o.sent = true →
    v.rel.mirrors = [] → alive v o.slot → s.hostMem.wf = true →
    let ended (w : State) : Prop := exec (.trayReply p) s = .next w ∧ (peerOf w home).ops = [] ∧ (peerOf w home).credits = min 16 (r.credits + 1)
    let completes (w : State) (st r0 r1 : Nat) : Prop := ∃ d ∈ w.host.due, d.slot = o.slot ∧ d.status = st ∧ d.result0 = r0 ∧ d.result1 = r1
    (o.cmdOp = 0x80 → h.status = 0 → Writable v o.tenant (refOf o.ref) → (∃ n, refCheck v o.tenant (refOf o.ref) n false = .ok) → ∃ w, ended w ∧
      Wrote v w o.tenant (refOf o.ref) (p.data.map fun b => (b, h.poison)) ∧ completes w (if h.poison then 0x0309 else 0) h.len o.opId) ∧
    (o.cmdOp = 0x80 → h.status ≠ 0 → ∃ w, ended w ∧ w.hostMem = s.hostMem ∧ w.tier.tensors = v.tier.tensors ∧ completes w h.status 0 o.opId) ∧
    (o.cmdOp = 0x82 → h.status = 0 → ∃ w, ended w ∧
      completes w (if h.poison then 0x0309 else 0) (leNat p.data % 2 ^ 64) (leNat p.data / 2 ^ 64)) ∧
    (h.status = 0x0806 → ∃ w, ended w ∧ (o.tenant, o.job) ∈ w.tray.frozen) ∧
    (∀ k, o.cmdOp = 0x81 → h.status ≠ 0x0804 → o.covOp = some k → (∀ x ∈ v.host.slots, opcodeOf x.cmd ≠ 0x74) → ∃ w, ended w ∧
      ∀ y ∈ v.host.ops, y.id = k → y.ended = none → { y with ended := some (decide (h.status = 0)) } ∈ w.host.ops)) ∧
  (∀ (home n : Nat) (o : TrayOp) (s : State), (peerOf s home).ops = [o] → o.opId = n →
    (o.sent = false ∨ o.queued = true ∨ 2 ≤ o.attempt ∨ home = selfId s ∨ s.mono < o.lastTx + (if o.attempt = 0 then 10000 else 20000) →
      exec (.trayRetransmitTimer home n) s = .next s) ∧
    (mayMove s o.tenant o.req.base.cls [] = false → 0 < entryBytes s { o with attempt := o.attempt + 1 } → exec (.trayRetransmitTimer home n) s = .next s) ∧
    (∀ y, o.sent = true → o.queued = false → o.attempt < 2 → home ≠ selfId s → o.lastTx + (if o.attempt = 0 then 10000 else 20000) ≤ s.mono →
      o.credit = true → mayMove s o.tenant o.req.base.cls [] = true → keyHeld s home (epochOf s.time) = true → pathOf s home (trayEntropy (selfId s) n (o.attempt + 1)) = some y → ∃ w,
      exec (.trayRetransmitTimer home n) s = .next w ∧ (peerOf w home).ops = [{ o with queued := true, attempt := o.attempt + 1 }] ∧
      (peerOf w home).credits = (peerOf s home).credits ∧ w.host.due = s.host.due) ∧
    (home = selfId s ∨ ((o.sent = false ∨ o.ran < 50000) ∧ o.stopped < 1000000000) → exec (.trayTargetLost home n) s = .next s) ∧
    (home ≠ selfId s → (o.sent = true ∧ 50000 ≤ o.ran) ∨ 1000000000 ≤ o.stopped → s.hostMem.wf = true → ∃ w,
      exec (.trayTargetLost home n) s = .next w ∧ (peerOf w home).ops = [] ∧
      (peerOf w home).credits = (if o.credit = true ∧ o.sent = false then min 16 ((peerOf s home).credits + 1) else (peerOf s home).credits) ∧
      (peerOf w home).lost = (if o.credit = true ∧ o.sent = true then n :: (peerOf s home).lost else (peerOf s home).lost) ∧ (o.tenant, o.job) ∈ w.tray.frozen ∧
      (o.cmdOp = 0x80 ∨ o.cmdOp = 0x82 → s.rel.mirrors = [] → alive s o.slot → ∃ d ∈ w.host.due, d.slot = o.slot ∧ d.status = 0x0805) ∧
      (o.cmdOp = 0x80 → Writable s o.tenant (refOf o.ref) → (∃ k, refCheck s o.tenant (refOf o.ref) k false = .ok) → s.rel.mirrors = [] →
        Wrote s w o.tenant (refOf o.ref) (List.replicate o.req.hdr.len (0, true)))))

/-- An announcement that is due goes out on a link that is ON in READY with a secret in force, with the module's installation, serial number, ID,
role, link, links ON and epoch. An accepted one becomes the link's neighbour; one with the module's ID and another serial number puts the link in
conflict with event 0x61, one with another ID ends that. ASSIGN with the module's serial number gives it the ID only while it has none or a conflict;
else it is counted. ROUTE_UPDATE writes whole entries from its index on, at most 16 paths each, and no others. MEMBERSHIP with a greater epoch is
adopted and no other; one that omits the module quarantines it: its slots fail with 0x0A04, and its messages, tray work and egress queues are gone. A
HEARTBEAT leaves every 1 ms with serial number, epoch, time and a sequence number. A PTP sync within 100 ns keeps its port die's lock, beyond that
loses it; 16 in a row within 10 ns acquire it; no sync for 62.5 ms loses it. The lowest-numbered die that holds lock distributes time, and steps it to
the master's when it acquires lock or is beyond 1 us. A PPS pulse of 100 ns to 500 ms, while no master is visible, makes the module its grandmaster
with its nearest whole second at the edge. When a secret comes into force every link that is ON is announced. -/
def Obligations.TheFabricIsDiscoveredAndTimed : Prop :=
  let announced (s w : State) (l : Nat × Nat) : Prop := ∃ a : Announce, tget w.fab.announced l = some (s.mono, a) ∧
    a.installation = s.image.installationId ∧ a.serial = s.fuses.serial ∧ a.fabricId = s.fab.id.getD 0x3FFFF ∧ a.role = s.image.role.code ∧
    a.portDies = s.order.portDies - 1 ∧ a.link = l.1 * 4 + l.2 ∧ a.linksOn = linksMask s ∧ a.membership = s.fab.epoch ∧
    ∃ (q : Queued) (b : BaseHdr), q ∈ tgetD w.shape.queues (l.1, l.2, 8, 0) [] ∧ q.frame.payload = .announce b a ∧ b.kind = 2 ∧ b.dest = 0x3FFFF
  let counted (s w : State) (island code : Nat) : Prop :=
    tgetD w.tele.events (island, code) 0 = wrapAdd 48 (tgetD s.tele.events (island, code) 0) 1
  let drops (s w : State) (why : Nat) : Prop := tgetD w.fab.dropped why 0 = tgetD s.fab.dropped why 0 + 1
  (∀ (p k : Nat) (s : State),
    let due : Prop := ∀ t a, tget s.fab.announced (p, k) = some (t, a) → t + 100000000 ≤ s.mono ∨ a ≠ announceOf s p k
    (linkExists s p k = false ∨ ¬ due ∨ linkOn s p k = false ∨ mayAnnounce s = false → exec (.announcementSend p k) s = .next s) ∧
    (linkExists s p k = true → due → linkOn s p k = true → isReady s = true → (secretFor s (epochOf s.time)).isSome = true →
      s.rel.quarantined = false → ∃ w, exec (.announcementSend p k) s = .next w ∧ announced s w (p, k) ∧
      (∀ l, l ≠ (p, k) → tget w.fab.announced l = tget s.fab.announced l) ∧ w.host = s.host ∧ w.xport = s.xport)) ∧
  (∀ (p k : Nat) (a : Announce) (s : State),
    let v := takeItem s (.announce p k a)
    v.rel.quarantined = false →
    (a.installation ≠ s.image.installationId → ∃ w, exec (.announcement p k a) s = .next w ∧ drops v w 10 ∧ w.fab.neighbours = v.fab.neighbours) ∧
    (a.installation = s.image.installationId → ∃ w, exec (.announcement p k a) s = .next w ∧ tget w.fab.neighbours (p, k) = some a ∧
      (∀ l, l ≠ (p, k) → tget w.fab.neighbours l = tget v.fab.neighbours l) ∧ w.fab.id = s.fab.id ∧
      (s.fab.id = some a.fabricId → a.serial ≠ s.fuses.serial → (p, k) ∈ w.fab.conflict ∧ counted v w 36 0x61) ∧
      (s.fab.id = some a.fabricId → a.serial = s.fuses.serial → w.fab.conflict = v.fab.conflict) ∧
      (s.fab.id ≠ some a.fabricId → ∀ l, l ∈ w.fab.conflict ↔ l ∈ v.fab.conflict ∧ l ≠ (p, k)))) ∧
  (∀ (serial id pre : Nat) (s : State),
    let v := takeItem s (.control (.assign serial id pre))
    (v.rel.quarantined = true → ∃ w, exec (.assign serial id pre) s = .next w ∧ drops v w 16 ∧ w.fab.id = s.fab.id) ∧
    (v.rel.quarantined = false → serial = s.fuses.serial → id < 0x3FFFF → s.fab.id = none ∨ v.fab.conflict ≠ [] → ∃ w,
      exec (.assign serial id pre) s = .next w ∧ w.fab.id = some id ∧ w.fab.conflict = [] ∧ w.fab.pfx = pre ∧ w.fab.epoch = s.fab.epoch) ∧
    (v.rel.quarantined = false → serial ≠ s.fuses.serial ∨ 0x3FFFF ≤ id ∨ (s.fab.id.isSome = true ∧ v.fab.conflict = []) → ∃ w,
      exec (.assign serial id pre) s = .next w ∧ drops v w 11 ∧ w.fab.id = s.fab.id)) ∧
  (∀ (slots : Bool) (first : Nat) (es : List (List RoutePath)) (s : State),
    (takeItem s (.control (.routeUpdate slots first es))).rel.quarantined = false → ∃ w, exec (.routeUpdate slots first es) s = .next w ∧
    let mine := if slots then w.fab.slotRoutes else w.fab.trayRoutes
    let before := if slots then s.fab.slotRoutes else s.fab.trayRoutes
    (if slots then w.fab.trayRoutes = s.fab.trayRoutes else w.fab.slotRoutes = s.fab.slotRoutes) ∧
    (∀ (k : Nat) (e : List RoutePath), es[k]? = some e → first + k < (if slots then 32 else 8192) → tget mine (first + k) = some (e.take 16)) ∧
    (∀ k : Nat, k < first ∨ first + es.length ≤ k ∨ (if slots then 32 else 8192) ≤ k → tget mine k = tget before k)) ∧
  (∀ (epoch : Nat) (members : List (Nat × Nat)) (s : State),
    let v := takeItem s (.control (.membership epoch members))
    v.rel.quarantined = false →
    (epoch ≤ s.fab.epoch → exec (.membership epoch members) s = .next (s.keep v)) ∧
    (s.fab.epoch < epoch → (∀ m ∈ members, m.1 ≠ selfId s) → ∃ w, exec (.membership epoch members) s = .next w ∧ w.fab.epoch = epoch ∧
      w.fab.members = members ∧ w.rel.quarantined = true ∧ w.xport.sends = [] ∧ w.xport.recvs = [] ∧ w.tray.work = [] ∧ w.shape.queues = [] ∧
      counted v w 25 0x67 ∧ (∀ x y, v.host.slots = [x] → x.phase = .waiting y → x.cmd.src = none → x.dead = false → v.rel.mirrors = [] →
        ∃ d ∈ w.host.due, d.slot = x.id ∧ d.status = 0x0A04)) ∧
    (s.fab.epoch < epoch → (∃ m ∈ members, m.1 = selfId s) → ∃ w, exec (.membership epoch members) s = .next w ∧ w.fab.epoch = epoch ∧
      w.fab.members = members ∧ w.rel.quarantined = false ∧ w.fab.entered = (if s.fab.epoch = 0 then epoch else s.fab.entered) ∧
      (∀ m, (∀ x ∈ members, x.1 ≠ m) → tget w.tray.sources m = none))) ∧
  (∀ s : State,
    let last := if s.rel.heartbeats = 0 then s.rel.kind3At.getD 0 else s.rel.lastBeat
    (s.rel.kind3At = none ∨ s.rel.quarantined = true ∨ s.time < last + 1000000 → exec .heartbeat s = .next s) ∧
    (∀ p k, s.rel.kind3At.isSome = true → s.rel.quarantined = false → last + 1000000 ≤ s.time → s.fab.fmAt = some (p, k) → linkOn s p k = true →
      (secretFor s (epochOf s.time)).isSome = true → ∃ (w : State) (q : Queued) (b : BaseHdr) (l : List Nat), exec .heartbeat s = .next w ∧
      w.rel.heartbeats = s.rel.heartbeats + 1 ∧ w.rel.lastBeat = s.time ∧ (tgetD w.shape.queues (p, k, 8, 0) []).getLast? = some q ∧
      q.frame.payload = .control b 0 1 (.heartbeat l) ∧ l.length = 7 + min 64 s.fab.neighbours.length ∧ l.getD 0 0 = s.fuses.serial ∧
      l.getD 1 0 = s.fab.epoch ∧ l.getD 2 0 = s.time ∧ l.getD 3 0 / 2 ^ 32 = (s.rel.heartbeats + 1) % 2 ^ 32 ∧
      l.getD 6 0 = min 64 s.fab.neighbours.length)) ∧
  (∀ (i : PtpInfo) (s : State),
    let v := takeItem s .ptp
    let off := i.offset.natAbs
    let d := i.port / 4
    let x := dieSyncOf s d
    (running s = false → exec (.ptpMessage i) s = .next s) ∧
    (running s = true → v.rel.quarantined = false → i.port < 16 → ∃ w, exec (.ptpMessage i) s = .next w ∧ w.fab.elected = i.elected ∧
      (i.sync = false → w.fab.locked = s.fab.locked ∧ w.time = s.time ∧ ∀ k, dieSyncOf w k = dieSyncOf s k) ∧
      (i.sync = true → w.fab.lastSync = s.mono ∧ (∀ k, k ≠ d → dieSyncOf w k = dieSyncOf s k) ∧ (w.fab.locked = true ↔ lockedDies w ≠ []) ∧
        (x.locked = true → off ≤ 100 → (dieSyncOf w d).locked = true ∧ w.time = s.time) ∧
        (x.locked = true → 100 < off → (dieSyncOf w d).locked = false ∧ counted v w (36 + d) 0x63 ∧
          w.time = if 1000 < off ∧ timeIsland s = 36 + d then i.masterTime else s.time) ∧
        (x.locked = false → off ≤ 10 → 15 ≤ x.good → (dieSyncOf w d).locked = true ∧
          w.time = if timeIsland w = 36 + d then i.masterTime else s.time) ∧
        (x.locked = false → off ≤ 10 → x.good < 15 → (dieSyncOf w d).locked = false ∧ w.time = s.time ∧ (dieSyncOf w d).good = x.good + 1) ∧
        (x.locked = false → 10 < off → (dieSyncOf w d).locked = false ∧ w.time = s.time ∧ (dieSyncOf w d).good = 0)))) ∧
  (∀ (s : State) (d : Nat), d < 4 → (∀ k, k < d → (dieSyncOf s k).locked = false) → (dieSyncOf s d).locked = true → timeIsland s = 36 + d) ∧
  (∀ s : State, ∃ w, exec .lockLossTimeout s = .next w ∧ w.xport = s.xport ∧ w.time = s.time ∧ ∀ d, d < 4 →
    let x := dieSyncOf s d
    (x.locked = true → x.last + 62500000 ≤ s.mono → (dieSyncOf w d).locked = false ∧ counted s w (36 + d) 0x63) ∧
    (x.locked = false ∨ s.mono < x.last + 62500000 → dieSyncOf w d = x)) ∧
  (∀ (ns : Nat) (s : State),
    let master : Prop := s.fab.locked = true ∨ (s.fab.lastSync ≠ 0 ∧ s.mono < s.fab.lastSync + 62500000)
    let second := (s.time + 500000000) / 1000000000 * 1000000000
    (ns < 100 ∨ 500000000 < ns ∨ running s = false → exec (.ppsInPulse ns) s = .next s) ∧
    (100 ≤ ns → ns ≤ 500000000 → running s = true → master ∨ s.rel.quarantined = true →
      exec (.ppsInPulse ns) s = .next (setFab s { s.fab with ppsAt := some s.mono })) ∧
    (100 ≤ ns → ns ≤ 500000000 → running s = true → ¬ master → s.rel.quarantined = false → ∃ w, exec (.ppsInPulse ns) s = .next w ∧
      w.fab.grandmaster = true ∧ w.fab.ppsAt = some s.mono ∧ w.time = second ∧ w.mono = s.mono)) ∧
  (∀ s : State, (secretFor s (epochOf s.time) = none → exec .domainSecretActivation s = .next s) ∧
    ((secretFor s (epochOf s.time)).isSome = true → isReady s = true → s.rel.quarantined = false → ∃ w,
      exec .domainSecretActivation s = .next w ∧ (∀ l ∈ linksOn s, announced s w l) ∧ w.host = s.host ∧ w.fab.id = s.fab.id))

/-- A PFC frame pauses and releases the classes below 8 it names and no others. A solicitation under ENCAP 1 for an address of the module's links is
answered, no other. Training that ends moves a link STARTING to ON and clears its lanes' failures. An attempt that fails after 500 ms counts its bad
lanes; a lane's second failure in a row puts it on the lowest free spare lane of its die, retires the old one in fuses and resets the link, or makes
the link ABSENT with none free. A link failure moves STARTING and ON to STOPPING with LATCH set; an ON link's egress queues are then empty.
PORT_CONTROL enables or disables a link of the breakout that is not ABSENT (else 0x0701) and returns its status. GATE_ENTRY_CHANGE puts the entry in
force whose span holds the offset into the cycle. FRAME_TRANSMIT_SELECT does nothing on a link that is not ON or is busy, or in quarantine; a frame of
link control leaves first come; an eligible DATA packet leaves with its STAMP, its source read then, and the SEND of a message whose last packet has
left completes with its packets; the link is busy for its charged length; with nothing eligible nothing leaves. -/
def Obligations.LinksTrainPauseAndTransmit : Prop :=
  let link (t : State) (p k : Nat) : FnState := fnState t (.link p k)
  (∀ (p k : Nat) (l : List (Nat × Bool)) (s : State),
    let v := takeItem s (.pfc p k l)
    (linkExists s p k = false ∨ linkOn s p k = false → exec (.pfcFrame p k l) s = .next (s.keepHost v)) ∧
    (linkExists s p k = true → linkOn s p k = true → ∃ w, exec (.pfcFrame p k l) s = .next w ∧ w.host = s.host ∧ w.shape = v.shape ∧
      (∀ x, x ≠ (p, k) → tget w.fab.paused x = tget s.fab.paused x) ∧
      ∀ c, c < 8 → (c ∈ tgetD w.fab.paused (p, k) [] ↔ match (l.filter fun e => e.1 = c).getLast? with
        | some e => e.2 = true
        | none => c ∈ tgetD s.fab.paused (p, k) []))) ∧
  (∀ (p k addr : Nat) (s : State),
    let v := takeItem s (.solicitation p k addr)
    let mine : Prop := ∃ f l, s.fab.id = some f ∧ l ∈ allLinks s ∧
      addr = s.fab.pfx % 2 ^ 64 * 2 ^ 64 + 0x0200 * 2 ^ 32 + ((l.1 * 4 + l.2) * 2 ^ 18 + f) % 2 ^ 32
    (s.image.fabric.encap ≠ 1 ∨ ¬ mine ∨ linkOn s p k = false ∨ s.rel.quarantined = true →
      exec (.neighbourSolicitation p k addr) s = .next (s.keepHost v)) ∧
    (s.image.fabric.encap = 1 → mine → linkOn s p k = true → s.rel.quarantined = false → ∃ (w : State) (q : Queued),
      exec (.neighbourSolicitation p k addr) s = .next w ∧ (tgetD w.shape.queues (p, k, 8, 0) []).getLast? = some q ∧
      q.frame.payload = .advertisement addr ∧ w.fab = v.fab)) ∧
  (∀ (p k : Nat) (s : State),
    (linkExists s p k = false ∨ (link s p k).st ≠ .starting → exec (.linkTrained p k) s = .next s) ∧
    (linkExists s p k = true → (link s p k).st = .starting → ∃ w, exec (.linkTrained p k) s = .next w ∧
      link w p k = { st := .on, latch := (link s p k).latch } ∧ (∀ g, g ≠ .link p k → fnState w g = fnState s g) ∧ (p, k) ∈ w.fab.everOn ∧
      (∀ n ∈ lanesOf s p k, tget w.fab.laneFails (p / 4, n) = none))) ∧
  (∀ (p k : Nat) (bad : List Nat) (s : State),
    (linkExists s p k = false ∨ (link s p k).st ≠ .starting ∨ s.mono < tgetD s.fab.trainSince (p, k) 0 + 500000000 →
      exec (.linkTrainingRetry p k bad) s = .next s) ∧
    (∀ n, linkExists s p k = true → (link s p k).st = .starting → tgetD s.fab.trainSince (p, k) 0 + 500000000 ≤ s.mono →
      (lanesOf s p k).filter bad.contains = [n] →
      let d := p / 4
      let was := physOf s d n
      (tgetD s.fab.laneFails (d, n) 0 = 0 → ∃ w, exec (.linkTrainingRetry p k bad) s = .next w ∧ tgetD w.fab.laneFails (d, n) 0 = 1 ∧
        tget w.fab.trainSince (p, k) = some s.mono ∧ w.fab.spareLane = s.fab.spareLane ∧ link w p k = link s p k ∧ w.fuses.moves = s.fuses.moves) ∧
      (∀ x, tgetD s.fab.laneFails (d, n) 0 = 1 → freeSpareLane s d = some x → linkOfLane s d n = (p, k) → ∃ w, exec (.linkTrainingRetry p k bad) s = .next w ∧
        tget w.fab.spareLane (d, x) = some n ∧ (x = 16 ∨ x = 17) ∧ (healthOf w 2 (d * 18 + was)).state = .retired ∧ tget w.fab.laneFails (d, n) = none ∧
        w.fuses.moves = s.fuses.moves ++ [{ part := 2, index := d * 18 + was, spare := d * 18 + x }] ∧ link w p k = { st := .stopping, latch := true }) ∧
      (tgetD s.fab.laneFails (d, n) 0 = 1 → freeSpareLane s d = none → linkOfLane s d n = (p, k) → ∃ w,
        exec (.linkTrainingRetry p k bad) s = .next w ∧ (link w p k).st = .absent ∧ (healthOf w 2 (d * 18 + was)).state = .exhausted ∧
        w.fuses.moves = s.fuses.moves))) ∧
  (∀ (p k : Nat) (s : State),
    (linkExists s p k = false ∨ ((link s p k).st ≠ .on ∧ (link s p k).st ≠ .starting) → exec (.linkFailure p k) s = .next s) ∧
    (linkExists s p k = true → (link s p k).st = .on ∨ (link s p k).st = .starting → ∃ w, exec (.linkFailure p k) s = .next w ∧
      link w p k = { st := .stopping, latch := true } ∧ (∀ g, g ≠ .link p k → fnState w g = fnState s g) ∧
      ((link s p k).st = .on → ∀ c q, tgetD w.shape.queues (p, k, c, q) [] = []))) ∧
  (∀ (c : Cmd) (id : Nat) (s s1 : State), Starts 0xB1 c s id s1 →
    let u := begun s1 id c
    let p := fld c.w2 63 60
    let k := fld c.w2 59 58
    let x := link u p k
    let y := if flag c.w2 1 then x.disable else if flag c.w2 0 then x.enable else x
    (linkExists u p k = false ∨ x.st = .absent → exec (.portControl c) s = .next (s.keepHost (finish u id 0x0701 0 0))) ∧
    (linkExists u p k = true → x.st ≠ .absent → ∃ v : State, exec (.portControl c) s = .next (s.keepHost (finish v id 0 y.st.code 0)) ∧
      link v p k = y ∧ (∀ g, g ≠ .link p k → fnState v g = fnState u g))) ∧
  (∀ (p i : Nat) (g : GateRec) (e : Nat × Nat) (s : State),
    let cycle := (g.entries.map (·.1)).sum
    let before := ((g.entries.take i).map (·.1)).sum
    let off := (s.time - g.base) % cycle
    s.image.gates.find? (·.port = p) = some g →
    (s.time < g.base → exec (.gateEntryChange p) s = .next s) ∧
    (g.base ≤ s.time → g.entries[i]? = some e → before ≤ off → off < before + e.1 → exec (.gateEntryChange p) s = .next
      { s with shape := { s.shape with gateEntry := tset s.shape.gateEntry p i } })) ∧
  (∀ (p k : Nat) (s : State), linkExists s p k = false ∨ linkOn s p k = false ∨ s.rel.quarantined = true ∨
    100 * (s.mono + 1) ≤ tgetD s.shape.busyUntil (p, k) 0 → exec (.frameTransmitSelect p k) s = .next s) ∧
  (∀ (p k : Nat) (s : State), linkExists s p k = true → linkOn s p k = true → s.rel.quarantined = false →
    tgetD s.shape.busyUntil (p, k) 0 < 100 * (s.mono + 1) →
    let a := accrueAll s p (List.range 8)
    let starts (w : State) (n : Nat) : Prop := exec (.frameTransmitSelect p k) s = .next w ∧
      tgetD w.shape.busyUntil (p, k) 0 = max (100 * s.mono) (tgetD s.shape.busyUntil (p, k) 0) + n * 800 / linkRate s p
    let only (c q : Nat) : Prop := ∀ c' q', (c', q') ≠ (c, q) → tgetD s.shape.queues (p, k, c', q') [] = []
    ((∀ c q, c < 9 → q < 17 → queueEligible a p k c q = false) → ∃ w, exec (.frameTransmitSelect p k) s = .next w ∧ w.fab.sent = s.fab.sent ∧
      w.shape.queues = s.shape.queues ∧ w.host = s.host) ∧
    (∀ x rest l, only 8 0 → tgetD s.shape.queues (p, k, 8, 0) [] = x :: rest → x.frame.payload = .pfc l → ∃ w, starts w (chargedLen s p 8 x.bytes) ∧
      w.fab.sent = (p, k, x.frame) :: s.fab.sent ∧ tgetD w.shape.queues (p, k, 8, 0) [] = rest) ∧
    (∀ (x : Queued) (rest : List Queued) (r : SendRec) (g : XPacket) (c t : Nat), only c t → c < 8 → t < 17 →
      tgetD s.shape.queues (p, k, c, t) [] = x :: rest → queueEligible a p k c t = true → x.frame.payload = .xport g → g.hdr.type = 0 →
      g.hdr.packet = 0 → s.xport.sends = [r] → r.ep = g.hdr.srcEp → r.gen = g.hdr.srcGen → r.serial = g.hdr.serial → r.failed = none →
      r.completed = false → r.low = 0 → r.length ≤ 4096 → (r.tx 0).acked = false → (r.tx 0).queued = true → (r.tx 0).sent = false →
      refBad s r.tenant (refOf r.ref) 0 r.length = false → s.rel.mirrors = [] →
      (∃ y : Slot, slotById s r.slot = some y ∧ y.cmd.src = none ∧ y.phase ≠ .finished ∧ y.dead = false) → ∃ (w : State) (f : Frame) (o : XPacket),
      starts w (chargedLen s p c x.bytes) ∧ w.fab.sent = (p, k, f) :: s.fab.sent ∧ f.payload = .xport o ∧ o.base.stamp = s.time ∧
      o.base.src = selfId s ∧ o.base.dest = r.dest ∧ o.base.locked = holdsTime s ∧ o.hdr.type = 0 ∧ o.hdr.dstEp = r.dstEp ∧ o.hdr.serial = r.serial ∧
      o.hdr.msgLength = r.length ∧ o.hdr.mkey = r.mkey ∧ o.hdr.tag = r.tag ∧ o.data = refBytes s r.tenant (refOf r.ref) 0 r.length ∧
      tgetD w.shape.queues (p, k, c, t) [] = rest ∧
      (∃ y : SendRec, w.xport.sends = [y] ∧ (y.tx 0).sent = true ∧ (y.tx 0).queued = false ∧ y.completed = true) ∧
      ∃ d ∈ w.host.due, d.slot = r.slot ∧ d.status = 0 ∧ d.result0 = 1))

/-- A detection that can happen is recorded with its code; a credit watch, ring or report detector does nothing more; an uncorrectable line poisons
its tensor's line; control logic resets its island, island 30 the module. INJECT is refused with 0x0A01 or 0x0A02, completes at once with COUNT 0,
else waits; a detection of its detector, instance and KIND counts, and the last completes it with the count. CAM_ROW_CHECK records each bank that
differs and moves to the next row. A scrub notes its time. At a sub-window boundary the windows move on, and a SUSPECT or OK part below its figure is
OK. A move begins for a RETIRING part at its boundary, and its end retires the part onto its spare in fuses, or retires the spare and takes the next.
An island in reset comes back ON. SHADOW_CONTROL stops or starts shadowing, else 0x0A05. A mirrored PRESS_STREAM_OPEN allocates the ID given; digests
that match raise the clean count, others clear it with event 0xB0; nothing is written to host memory and no completion is due. A dump boundary writes
the set whole or counts it skipped. -/
def Obligations.FaultsAreRecordedAndPartsReplaced : Prop :=
  let counted (s w : State) (island code : Nat) : Prop :=
    tgetD w.tele.events (island, code) 0 = wrapAdd 48 (tgetD s.tele.events (island, code) 0) 1
  let same (s w : State) : Prop := w.rel = s.rel ∧ w.comp = s.comp ∧ w.tier = s.tier ∧ w.xport = s.xport ∧ w.tray = s.tray ∧ w.fuses.moves = s.fuses.moves
  (∀ (d : Detected) (s : State), (detectable s d = false → exec (.detection d) s = .next s) ∧
    (detectable s d = true → s.rel.injections = [] →
      (d.detector = 0x06 ∨ d.detector = 0x09 ∨ d.detector = 0x0A → ∃ w, exec (.detection d) s = .next w ∧
        counted s w d.island (0x10 + d.detector) ∧ same s w) ∧
      (∀ t id line x, d.detector = 0x01 → d.kind = 1 → d.place = .tensor t id line → d.reader = none → tget s.tier.tensors (t, id) = some x → ∃ w y,
        exec (.detection d) s = .next w ∧ counted s w d.island 0x11 ∧ tget w.tier.tensors (t, id) = some y ∧ line ∈ y.blob.bad ∧
        y.blob.cells = x.blob.cells ∧ (∀ k, k ≠ (t, id) → tget w.tier.tensors k = tget s.tier.tensors k)) ∧
      (d.detector = 0x03 → d.island ≠ 30 → (fnState s (.island d.island)).st = .on → ∃ w, exec (.detection d) s = .next w ∧
        fnState w (.island d.island) = { st := .stopping, latch := true } ∧ tgetD w.tele.events (d.island, 0x2A) 0 = 1) ∧
      (d.detector = 0x03 → d.island = 30 → ∃ w, exec (.detection d) s = .next w ∧ w.boot.state = .reset ∧ w.host.slots = [] ∧ w.comp.running = [])) ∧
    (∀ x y, detectable s d = true → d.detector = 0x06 → s.rel.injections = [x] → x.detector = 0x06 → x.index = d.island → x.kind = 1 →
      slotById s x.slot = some y → y.cmd.src = none → y.phase ≠ .finished → y.dead = false → s.rel.mirrors = [] → ∃ w, exec (.detection d) s = .next w ∧
      tgetD w.tele.injected (d.island, 0x16) 0 = wrapAdd 48 (tgetD s.tele.injected (d.island, 0x16) 0) 1 ∧ w.tele.events = s.tele.events ∧
      (x.left = 1 → w.rel.injections = [] ∧ ∃ c ∈ w.host.due, c.slot = x.slot ∧ c.status = 0 ∧ c.result0 = x.total) ∧
      (2 ≤ x.left → w.rel.injections = [{ x with left := x.left - 1 }] ∧ w.host.due = s.host.due))) ∧
  (∀ (i : Nat) (s : State), imageInForce s = true → s.boot.stop = none → i < 40 → islandAbsent s.order i = false → s.rel.injections = [] →
    (creditHeld s i = true → ∃ w, exec (.creditWatchTimeout i) s = .next w ∧ counted s w i 0x16 ∧ same s w) ∧
    (creditHeld s i = false → exec (.creditWatchTimeout i) s = .next s)) ∧
  (∀ (c : Cmd) (id : Nat) (s s1 : State), Starts 0xB2 c s id s1 →
    let u := begun s1 id c
    let det := fld c.w2 63 56
    let n := fld c.w2 31 16
    let may := if 0x10 ≤ det ∧ det ≤ 0x14 then u.image.injectSensors else u.image.injectDetectors
    let x : Injection := { detector := det, index := fld c.w2 55 40, kind := fld c.w2 39 32, left := n, total := n, score := flag c.w2 0, slot := id }
    let good : Prop := fld c.w2 39 32 ∈ kindsOf det ∧ injectTarget u det (fld c.w2 55 40) = true
    (may = false → exec (.inject c) s = .next (s.keepHost (finish u id 0x0A01 0 0))) ∧
    (may = true → ¬ good → exec (.inject c) s = .next (s.keepHost (finish u id 0x0A02 0 0))) ∧
    (may = true → good → n = 0 → exec (.inject c) s = .next (s.keepHost (finish u id 0 0 0))) ∧
    (may = true → good → n ≠ 0 → ∃ w, exec (.inject c) s = .next w ∧ w.rel.injections = u.rel.injections ++ [x] ∧ w.host.due = u.host.due)) ∧
  (∀ s : State,
    (imageInForce s = false ∨ s.boot.stop ≠ none → exec (.camRowCheck []) s = .next s) ∧
    (imageInForce s = true → s.boot.stop = none → ∃ w, exec (.camRowCheck []) s = .next w ∧ w.comp.checkRow = (s.comp.checkRow + 1) % 4096 ∧
      w.comp.banks = s.comp.banks ∧ w.rel = s.rel) ∧
    (∀ b, imageInForce s = true → s.boot.stop = none → b < 34 → (healthOf s 4 b).state ≠ .retired → s.rel.injections = [] → ∃ w,
      exec (.camRowCheck [(b, false)]) s = .next w ∧ w.comp.checkRow = (s.comp.checkRow + 1) % 4096 ∧ counted s w 24 0x17)) ∧
  (∀ (k : Nat) (s : State),
    (running s = false ∨ 20 ≤ k ∨ (fnState s (.island k)).st ≠ .on → exec (.memoryScrub k) s = .next s) ∧
    (running s = true → k < 20 → (fnState s (.island k)).st = .on →
      exec (.memoryScrub k) s = .next { s with rel := { s.rel with scrubbed := tset s.rel.scrubbed k s.mono } })) ∧
  (∀ (part i : Nat) (h : Health) (s : State), (running s = false ∨ 8 ≤ part → exec (.healthSubwindow part) s = .next s) ∧
    (running s = true → part < 8 → tgetD s.rel.subwindow part 0 < s.time / subWindow s part →
      s.rel.health.filter (fun e => e.1.1 = part) = [((part, i), h)] →
      let k := s.time / subWindow s part - tgetD s.rel.subwindow part 0
      let windows := (List.replicate (min 16 k) 0 ++ h.windows).take 16
      min 65535 windows.sum < (healthFigures s part).suspect → (healthFigures s part).suspect ≤ (healthFigures s part).retire →
      h.state = .ok ∨ h.state = .suspect → ∃ w, exec (.healthSubwindow part) s = .next w ∧ tgetD w.rel.subwindow part 0 = s.time / subWindow s part ∧
      healthOf w part i = { h with windows := windows, state := .ok } ∧ (h.state = .suspect → counted s w (partPlace part i).1 0x28))) ∧
  (∀ (part i : Nat) (s : State), let h := healthOf s part i
    let ready : Prop := h.state = .retiring ∧ s.rel.quarantined = false ∧ running s = true ∧ (fnState s (.island (partPlace part i).1)).st = .on
    (¬ ready ∨ atBoundary s part i = false → exec (.spareMoveBegin part i) s = .next s) ∧
    (ready → atBoundary s part i = true →
      exec (.spareMoveBegin part i) s = .next { s with rel := { s.rel with health := tset s.rel.health (part, i) { h with moving := true } } }) ∧
    (∀ ok, ¬ ready ∨ h.moving = false ∨ h.spare = none → ∃ w, exec (.spareMoveComplete part i ok) s = .next w ∧ same s w) ∧
    (∀ x, ready → h.moving = true → h.spare = some x →
      (part ≠ 0 → ∃ w, exec (.spareMoveComplete part i true) s = .next w ∧ (healthOf w part i).state = .retired ∧ (healthOf w part i).spare = none ∧
        (part, x) ∈ w.rel.spares ∧ w.fuses.moves = s.fuses.moves ++ [{ part := part, index := i, spare := x }] ∧
        counted s w (partPlace part i).1 0x29 ∧ (part = 1 → ∀ l, ladleAtPos s i = some l → tgetD w.rel.ladleAt l (l % 8) = x % 9)) ∧
      (x ≠ i → freeSpare (setHealth (retireSpare s false part x) part i { h with spare := none, moving := false }) part i = none → part ≠ 4 → part ≠ 7 →
        ∃ w, exec (.spareMoveComplete part i false) s = .next w ∧ (healthOf w part x).state = .retired ∧ (healthOf w part i).state = .exhausted ∧
        w.fuses.moves = s.fuses.moves ++ [{ part := part, index := x, spare := x }]) ∧
      (∀ y, x ≠ i → freeSpare (setHealth (retireSpare s false part x) part i { h with spare := none, moving := false }) part i = some y →
        ∃ w, exec (.spareMoveComplete part i false) s = .next w ∧ (healthOf w part x).state = .retired ∧
        healthOf w part i = { h with spare := some y, moving := false }))) ∧
  (∀ (i : Nat) (s : State), let x := fnState s (.island i)
    (thas s.rel.inReset i = false ∨ x.st ≠ .stopping → exec (.islandResetComplete i) s = .next s) ∧
    (thas s.rel.inReset i = true → x = { st := .stopping, latch := true } → ∃ w, exec (.islandResetComplete i) s = .next w ∧
      fnState w (.island i) = { st := .on, latch := false } ∧ thas w.rel.inReset i = false)) ∧
  (∀ (c : Cmd) (id : Nat) (s s1 : State), Starts 0xB3 c s id s1 →
    let u := begun s1 id c
    let m := fld c.w2 63 46
    let good : Prop := isMember u m = true ∧ (m, u.image.role.code) ∈ membersNow u ∧ u.rel.primaryTo = none ∧ u.rel.shadowOf = none
    (flag c.w2 1 = true → exec (.shadowControl c) s = .next (s.keepHost (finish { u with rel := { u.rel with primaryTo := none } } id 0 0 0))) ∧
    (flag c.w2 1 = false → flag c.w2 0 = true → ¬ good → exec (.shadowControl c) s = .next (s.keepHost (finish u id 0x0A05 0 0))) ∧
    (flag c.w2 1 = false → flag c.w2 0 = true → good → exec (.shadowControl c) s = .next (s.keepHost (finish
      { u with rel := { u.rel with primaryTo := some m, mirrorSeq := 0 } } id 0 0 0))) ∧
    (flag c.w2 1 = false → flag c.w2 0 = false → exec (.shadowControl c) s = .next (s.keepHost (finish u id 0 0 0)))) ∧
  (∀ (seq given digest m t : Nat) (c : Cmd) (inputs : List Host.Cell) (s : State),
    (isReady s = false ∨ s.rel.quarantined = true → exec (.mirroredCommand seq c inputs given digest) s = .next s) ∧
    (isReady s = true → s.rel.quarantined = false → c.src = some (m, t) → opcodeOf c = 0x60 → islandShut s c = false → s.host.slots = [] → s.rel.mirrors = [] →
      s.comp.press.length < 1024 → given ≠ 0 → given < 65536 → tget s.comp.press (t, given) = none → ∃ w : State,
      exec (.mirroredCommand seq c inputs given digest) s = .next w ∧
      (∃ x, tget w.comp.press (t, given) = some x ∧ x.slotA = none ∧ x.slotB = none ∧ x.installs = []) ∧ w.rel.shadowOf = some m ∧
      w.rel.shadowSeq = wrapAdd 32 seq 1 ∧ w.host.due = s.host.due ∧ w.host.slots = [] ∧ w.hostMem = s.hostMem ∧ w.host.link = s.host.link ∧
      (seq ≠ 0 → s.rel.shadowOf = some m → seq = s.rel.shadowSeq →
        (digest = mirrorDigest 0 given 0 [] → w.rel.clean = satAdd 28 s.rel.clean 1) ∧
        (digest ≠ mirrorDigest 0 given 0 [] → w.rel.clean = 0 ∧ counted s w 21 0xB0)))) ∧
  (∀ (d : DumpRec) (s : State),
    (s.image.dump = none → exec .dumpBoundary s = .next s) ∧
    (s.image.dump = some d →
      let p := dumpPeriodNow s * 1000
      let period := s.time / p
      let set := dumpSet s period
      let lines := d.bytes / 64
      let need := dumpLines lines s.tele.dumpTail set
      let used := (s.tele.dumpTail + 2 ^ 32 - s.tele.dumpHead) % 2 ^ 32
      let blocked : Prop := (d.dest = 0 ∧ s.host.link.up = false) ∨ lines < used + need
      (∀ r ∈ set, ∃ (i : Nat) (l : List Nat), i < 40 ∧ r = (i * 2 ^ 56 + 2 ^ 48 + r.length / 8 * 2 ^ 32 + period % 2 ^ 32) :: l) ∧
      (isReady s = false ∨ s.boot.stop ≠ none ∨ s.time % p ≠ 0 → exec .dumpBoundary s = .next s) ∧
      (isReady s = true → s.boot.stop = none → s.time % p = 0 → s.hostMem.wf = true →
        (blocked → ∃ w, exec .dumpBoundary s = .next w ∧ w.tele.dumpSkipped = satAdd 32 s.tele.dumpSkipped 1 ∧ w.tele.dumpTail = s.tele.dumpTail ∧
          w.hostMem = s.hostMem ∧ w.tele.dumpRing = s.tele.dumpRing) ∧
        (¬ blocked → ∃ w, exec .dumpBoundary s = .next w ∧ w.tele.dumpTail = wrapAdd 32 s.tele.dumpTail need ∧
          w.tele.dumpSkipped = s.tele.dumpSkipped ∧
          (d.dest = 0 → w.hostMem = dumpWrite s.hostMem d.base lines period s.tele.dumpTail set ∧ w.tele.dumpRing = s.tele.dumpRing) ∧
          (d.dest ≠ 0 → w.tele.dumpRing = dumpWrite s.tele.dumpRing 0 lines period s.tele.dumpTail set ∧ w.hostMem = s.hostMem)))))

/-- A request on a path that does not carry it yet does nothing; every other appends one response with its code, status and tag. GET_IDENTITY without
keys answers 0x0901, else it makes a nonce and sends serial number, keys and nonce in 2,448 bytes. ATTEST answers 0x0904 outside service, 0x0901
without keys and 0x0909 behind five; else it is queued, the first with its report formed; when the signing ends the report and 36,048 bytes of
signatures are sent. PROVISION answers 0x0903 for bad lengths, 0x0904 unless UNPROVISIONED and HELD, 0x0907 for a stale nonce, 0x0906 where a
signature fails, 0x0905 with no bank; else it completes the first fresh bank and raises the lifecycle. ADVANCE likewise raises it under the owner's
key, and to RETURNED resets the module. SET_DOMAIN answers 0x0903, 0x0904, 0x0906 and 0x0908, else it holds the secret unwrapped. SESSION_OPEN on the
management port under the owner's key opens a session; SESSION_CLOSE or 60 s without a request closes it. MEM_READ needs one (0x090A) and a range in
bounds (0x0903), and returns the bytes asked: a page's where the key is its tenant's, and under another key what decrypting the page's ciphertext
gives. A nonce is spent by the request that names it. -/
def Obligations.SecurityRequestsAreAnswered : Prop :=
  let answers (s w : State) (p : Path) (code status tag : Nat) (body : List Byte) : Prop :=
    w.sec.responses = s.sec.responses ++ [⟨p, code, status, tag, body⟩]
  let refreshed (s : State) (p : Path) : Option Nat := if p = .mgmt then s.sec.session.map fun _ => s.mono else s.sec.session
  let signs (s : State) (code : Nat) (nonce : BitVec 256) (body rsa slh : List Byte) : Prop := ∃ r : SectionRec, s.image.owner = some r ∧
    verified r.keyBlock (signedDigest s code nonce body) rsa slh = true
  let fresh (s : State) (nonce : BitVec 256) : Prop := ∃ t, s.sec.nonce = some (nonce, t) ∧ s.mono ≤ t + 60000000000
  let lengths (rsa slh : List Byte) : Prop := rsa.length = 384 ∧ slh.length = 16224
  let served (s : State) : Prop := s.sec.lifecycle = 1 ∨ s.sec.lifecycle = 2
  (∀ (p : Path) (tag a b c d : Nat) (n : BitVec 256) (x y z v w : List Byte) (s : State), mgmtReachable s p = false →
    exec (.getIdentity p tag) s = .next s ∧ exec (.attest p tag n) s = .next s ∧ exec (.provision p tag n x y z) s = .next s ∧
    exec (.advance p tag n a x y) s = .next s ∧ exec (.setDomain p tag a b x y z v w) s = .next s ∧ exec (.sessionOpen p tag n x y) s = .next s ∧
    exec (.sessionClose p tag) s = .next s ∧ exec (.memRead p tag a b c d) s = .next s) ∧
  (∀ (p : Path) (tag : Nat) (s : State), mgmtReachable s p = true →
    (s.sec.keys = false → ∃ w, exec (.getIdentity p tag) s = .next w ∧ answers s w p 0x01 0x0901 tag [] ∧ w.sec.nonce = s.sec.nonce) ∧
    (s.sec.keys = true → ∃ (w : State) (body : List Byte) (n : BitVec 256), exec (.getIdentity p tag) s = .next w ∧ answers s w p 0x01 0 tag body ∧
      body.length = 2448 ∧ leNat (body.take 8) = s.fuses.serial % 2 ^ 64 ∧ leNat (body.drop 2416) = n.toNat ∧ w.sec.nonce = some (n, s.mono) ∧
      w.sec.drbg = s.sec.drbg + 1 ∧ w.sec.session = refreshed s p ∧ w.host = s.host)) ∧
  (∀ (p : Path) (tag : Nat) (n : BitVec 256) (s : State), mgmtReachable s p = true →
    (¬ served s → ∃ w, exec (.attest p tag n) s = .next w ∧ answers s w p 0x02 0x0904 tag [] ∧ w.sec.attest = s.sec.attest) ∧
    (served s → s.sec.keys = false → ∃ w, exec (.attest p tag n) s = .next w ∧ answers s w p 0x02 0x0901 tag [] ∧ w.sec.attest = s.sec.attest) ∧
    (served s → s.sec.keys = true → 5 ≤ s.sec.attest.length → ∃ w, exec (.attest p tag n) s = .next w ∧ answers s w p 0x02 0x0909 tag [] ∧
      w.sec.attest = s.sec.attest) ∧
    (served s → s.sec.keys = true → s.sec.attest = [] → ∃ (w : State) (x : AttestReq), exec (.attest p tag n) s = .next w ∧
      w.sec.responses = s.sec.responses ∧ w.sec.attest = [x] ∧ x.path = p ∧ x.tag = tag ∧ x.nonce = n ∧ leNat (x.report.take 32) = n.toNat ∧
      leNat ((x.report.drop 32).take 8) = s.fuses.serial % 2 ^ 64) ∧
    (∀ a l, served s → s.sec.keys = true → s.sec.attest = a :: l → a.report ≠ [] → l.length < 4 → ∃ w, exec (.attest p tag n) s = .next w ∧
      w.sec.responses = s.sec.responses ∧ w.sec.attest = s.sec.attest ++ [⟨p, tag, n, []⟩])) ∧
  (∀ s : State, (alive s = false ∨ s.sec.attest = [] → exec .attestSignatureComplete s = .next s) ∧
    (∀ x l, alive s = true → s.sec.attest = x :: l → ∃ (w : State) (body : List Byte), exec .attestSignatureComplete s = .next w ∧
      answers s w x.path 0x02 0 x.tag body ∧ body.length = x.report.length + 384 + 35664 ∧ body.take x.report.length = x.report ∧
      w.sec.attest.map (·.tag) = l.map (·.tag))) ∧
  (∀ (p : Path) (tag : Nat) (n : BitVec 256) (key rsa slh : List Byte) (s : State), mgmtReachable s p = true →
    let formed : Prop := key.length = 440 ∧ lengths rsa slh
    let blank : Prop := s.sec.lifecycle = 0 ∧ s.fuses.lifecycle = 0 ∧ s.boot.state = .held
    let refuses (e : Nat) : Prop := ∃ w, exec (.provision p tag n key rsa slh) s = .next w ∧ answers s w p 0x03 e tag [] ∧
      w.fuses.lifecycle = s.fuses.lifecycle ∧ w.fuses.banks.length = s.fuses.banks.length
    (¬ formed → refuses 0x0903) ∧ (formed → ¬ blank → refuses 0x0904) ∧ (formed → blank → ¬ fresh s n → refuses 0x0907) ∧
    (formed → blank → fresh s n → ∃ w, exec (.provision p tag n key rsa slh) s = .next w ∧ w.sec.nonce = none ∧
      let good := verified key (signedDigest s 0x03 n key) rsa slh
      (good = false → answers s w p 0x03 0x0906 tag [] ∧ w.fuses.lifecycle = 0) ∧
      (good = true → freshBank s.fuses = none → answers s w p 0x03 0x0905 tag [] ∧ w.fuses.lifecycle = 0) ∧
      (∀ k b, good = true → freshBank s.fuses = some k → s.fuses.banks[k]? = some b → answers s w p 0x03 0 tag [] ∧ w.fuses.lifecycle = 1 ∧
        w.fuses.banks[k]? = some { hash := b.hash ||| Config.sha384 key, blown := true, complete := true, spoiled := b.spoiled } ∧
        (∀ j, j ≠ k → w.fuses.banks[j]? = s.fuses.banks[j]?)))) ∧
  (∀ (p : Path) (tag target : Nat) (n : BitVec 256) (rsa slh : List Byte) (s : State), mgmtReachable s p = true →
    let formed : Prop := lengths rsa slh ∧ target < 256
    let listed : Prop := served s ∧ ((s.fuses.lifecycle = 1 ∧ target = 2) ∨ ((s.fuses.lifecycle = 1 ∨ s.fuses.lifecycle = 2) ∧ target = 3))
    let refuses (e : Nat) : Prop := ∃ w, exec (.advance p tag n target rsa slh) s = .next w ∧ answers s w p 0x04 e tag [] ∧
      w.fuses.lifecycle = s.fuses.lifecycle
    (¬ formed → refuses 0x0903) ∧ (formed → ¬ listed → refuses 0x0904) ∧ (formed → listed → ¬ fresh s n → refuses 0x0907) ∧
    (formed → listed → fresh s n → ¬ signs s 0x04 n (leBytes 8 target) rsa slh → refuses 0x0906) ∧
    (formed → listed → fresh s n → signs s 0x04 n (leBytes 8 target) rsa slh → ∃ w, exec (.advance p tag n target rsa slh) s = .next w ∧
      w.fuses.lifecycle = target ∧ (target = 2 → answers s w p 0x04 0 tag [] ∧ w.sec.nonce = none ∧ w.boot = s.boot) ∧
      (target = 3 → w.boot.state = .reset ∧ w.host.slots = [] ∧ w.sec.domain = []))) ∧
  (∀ (p : Path) (tag serial activate : Nat) (kem oaep box rsa slh : List Byte) (s : State), mgmtReachable s p = true →
    let formed : Prop := kem.length = 1568 ∧ oaep.length = 384 ∧ box.length = 48 ∧ lengths rsa slh
    let body := leBytes 8 serial ++ leBytes 8 activate ++ kem ++ oaep ++ box
    let refuses (e : Nat) : Prop := ∃ w, exec (.setDomain p tag serial activate kem oaep box rsa slh) s = .next w ∧ answers s w p 0x05 e tag [] ∧
      w.sec.domain = s.sec.domain
    (¬ formed → refuses 0x0903) ∧ (formed → ¬ served s ∨ imageInForce s = false → refuses 0x0904) ∧
    (formed → served s → imageInForce s = true →
      (¬ signs s 0x05 0 body rsa slh → refuses 0x0906) ∧
      (signs s 0x05 0 body rsa slh → s.sec.keys = true → serial ≠ s.fuses.serial ∨ unwrapped s kem oaep box = none → refuses 0x0906) ∧
      (∀ x, signs s 0x05 0 body rsa slh → s.sec.keys = true → serial = s.fuses.serial → unwrapped s kem oaep box = some x →
        (s.sec.domain ≠ [] → activate % 2 ^ 24 ≤ epochOf s.time → refuses 0x0908) ∧
        (s.sec.domain.length < 2 → s.sec.domain = [] ∨ epochOf s.time < activate % 2 ^ 24 → ∃ w,
          exec (.setDomain p tag serial activate kem oaep box rsa slh) s = .next w ∧ answers s w p 0x05 0 tag [] ∧
          w.sec.domain = s.sec.domain ++ [{ activate := activate % 2 ^ 24, secret := x }])))) ∧
  (∀ (p : Path) (tag : Nat) (n : BitVec 256) (rsa slh : List Byte) (s : State), mgmtReachable s p = true →
    let refuses (e : Nat) : Prop := ∃ w, exec (.sessionOpen p tag n rsa slh) s = .next w ∧ answers s w p 0x06 e tag [] ∧
      w.sec.session = refreshed s p
    (¬ lengths rsa slh ∨ p ≠ .mgmt → refuses 0x0903) ∧ (lengths rsa slh → p = .mgmt → ¬ fresh s n → refuses 0x0907) ∧
    (lengths rsa slh → p = .mgmt → fresh s n → (¬ signs s 0x06 n [] rsa slh → refuses 0x0906) ∧
      (signs s 0x06 n [] rsa slh → ∃ w, exec (.sessionOpen p tag n rsa slh) s = .next w ∧ answers s w p 0x06 0 tag [] ∧
        w.sec.session = some s.mono ∧ w.sec.nonce = none))) ∧
  (∀ (p : Path) (tag : Nat) (s : State), mgmtReachable s p = true → ∃ w, exec (.sessionClose p tag) s = .next w ∧
    (p = .mgmt → answers s w p 0x07 0 tag [] ∧ w.sec.session = none) ∧
    (p ≠ .mgmt → answers s w p 0x07 0x0903 tag [] ∧ w.sec.session = s.sec.session)) ∧
  (∀ s : State, (s.sec.session = none → exec .sessionTimeout s = .next s) ∧
    (∀ t, s.sec.session = some t → s.mono < t + 60000000000 → exec .sessionTimeout s = .next s) ∧
    (∀ t, s.sec.session = some t → t + 60000000000 ≤ s.mono → exec .sessionTimeout s = .next { s with sec := { s.sec with session := none } })) ∧
  (∀ (p : Path) (tag stack key off len : Nat) (s : State), mgmtReachable s p = true →
    let inside : Prop := stack < 20 ∧ (key < 16 ∨ key = 0xFF) ∧ off % 64 = 0 ∧ 64 ≤ len ∧ len ≤ 4096 ∧ off + len ≤ s.order.stackBytes
    let refuses (e : Nat) : Prop := ∃ w, exec (.memRead p tag stack key off len) s = .next w ∧ answers s w p 0x08 e tag []
    (p ≠ .mgmt ∨ s.sec.session = none → refuses 0x090A) ∧ (p = .mgmt → s.sec.session.isSome = true → ¬ inside → refuses 0x0903) ∧
    (p = .mgmt → s.sec.session.isSome = true → inside → ∃ (w : State) (body : List Byte), exec (.memRead p tag stack key off len) s = .next w ∧
      answers s w p 0x08 0 tag body ∧ body.length = len ∧ w.sec.session = some s.mono ∧ w.tier = s.tier ∧
      (∀ i d e b, i < len → stack ≠ 0 ∨ systemSlabs s.image + ringSlabs s.image ≤ (off + i) / 65536 →
        slabEntry s stack ((off + i) / 65536) = some (d, e) → e.kind ≤ 2 → tget s.tier.data d = some b →
        let owner := if key = 0xFF then 16 else key
        let tweak := lineTweak stack (off + i)
        let line := (List.range 64).map fun j => blobByte b ((off + i) / 64 * 64 + j - e.run.first * 65536)
        (e.tenant = owner → body.getD i 0 = blobByte b (off + i - e.run.first * 65536)) ∧
        (e.tenant ≠ owner → body.getD i 0 =
          (Config.xtsDecrypt (memoryKey s owner) tweak (Config.xtsEncrypt (memoryKey s e.tenant) tweak line)).getD ((off + i) % 64) 0))))
end

