-- ==== Sys2Proof/Laws/State.lean ====
section
/-!
SUPPORT. One lemma for each field of State under each of the updates that meanings share.
-/
namespace Sys2Proof.Machine

variable (s t : State)

@[simp] theorem keep_pending : (s.keep t).pending = s.pending := rfl
@[simp] theorem keep_order : (s.keep t).order = s.order := rfl
@[simp] theorem keep_fuses : (s.keep t).fuses = s.fuses := rfl
@[simp] theorem keep_image : (s.keep t).image = s.image := rfl
@[simp] theorem keep_nvmFitted : (s.keep t).nvmFitted = s.nvmFitted := rfl
@[simp] theorem keep_nvm : (s.keep t).nvm = s.nvm := rfl
@[simp] theorem keep_hostMem : (s.keep t).hostMem = t.hostMem.canon := rfl
@[simp] theorem keep_time : (s.keep t).time = s.time := rfl
@[simp] theorem keep_mono : (s.keep t).mono = s.mono := rfl
@[simp] theorem keep_free : (s.keep t).free = t.free := rfl
@[simp] theorem keep_boot : (s.keep t).boot = t.boot := rfl
@[simp] theorem keep_host : (s.keep t).host = t.host := rfl
@[simp] theorem keep_mgmt : (s.keep t).mgmt = t.mgmt := rfl
@[simp] theorem keep_gov : (s.keep t).gov = t.gov := rfl
@[simp] theorem keep_tele : (s.keep t).tele = t.tele := rfl
@[simp] theorem keep_rel : (s.keep t).rel = t.rel := rfl
@[simp] theorem keep_sec : (s.keep t).sec = { t.sec with lifecycle := s.sec.lifecycle } := rfl
@[simp] theorem keep_tier : (s.keep t).tier = t.tier := rfl
@[simp] theorem keep_req : (s.keep t).req = t.req := rfl
@[simp] theorem keep_comp : (s.keep t).comp = t.comp := rfl
@[simp] theorem keep_fab : (s.keep t).fab = t.fab := rfl
@[simp] theorem keep_xport : (s.keep t).xport = t.xport := rfl
@[simp] theorem keep_tray : (s.keep t).tray = t.tray := rfl
@[simp] theorem keep_shape : (s.keep t).shape = t.shape := rfl

@[simp] theorem keepHost_pending : (s.keepHost t).pending = s.pending := rfl
@[simp] theorem keepHost_order : (s.keepHost t).order = s.order := rfl
@[simp] theorem keepHost_fuses : (s.keepHost t).fuses = s.fuses := rfl
@[simp] theorem keepHost_image : (s.keepHost t).image = s.image := rfl
@[simp] theorem keepHost_nvmFitted : (s.keepHost t).nvmFitted = s.nvmFitted := rfl
@[simp] theorem keepHost_nvm : (s.keepHost t).nvm = s.nvm := rfl
@[simp] theorem keepHost_hostMem : (s.keepHost t).hostMem = s.hostMem := rfl
@[simp] theorem keepHost_time : (s.keepHost t).time = s.time := rfl
@[simp] theorem keepHost_mono : (s.keepHost t).mono = s.mono := rfl
@[simp] theorem keepHost_free : (s.keepHost t).free = t.free := rfl
@[simp] theorem keepHost_boot : (s.keepHost t).boot = t.boot := rfl
@[simp] theorem keepHost_host : (s.keepHost t).host = t.host := rfl
@[simp] theorem keepHost_mgmt : (s.keepHost t).mgmt = t.mgmt := rfl
@[simp] theorem keepHost_gov : (s.keepHost t).gov = t.gov := rfl
@[simp] theorem keepHost_tele : (s.keepHost t).tele = t.tele := rfl
@[simp] theorem keepHost_rel : (s.keepHost t).rel = t.rel := rfl
@[simp] theorem keepHost_sec : (s.keepHost t).sec = { t.sec with lifecycle := s.sec.lifecycle } := rfl
@[simp] theorem keepHost_tier : (s.keepHost t).tier = t.tier := rfl
@[simp] theorem keepHost_req : (s.keepHost t).req = t.req := rfl
@[simp] theorem keepHost_comp : (s.keepHost t).comp = t.comp := rfl
@[simp] theorem keepHost_fab : (s.keepHost t).fab = t.fab := rfl
@[simp] theorem keepHost_xport : (s.keepHost t).xport = t.xport := rfl
@[simp] theorem keepHost_tray : (s.keepHost t).tray = t.tray := rfl
@[simp] theorem keepHost_shape : (s.keepHost t).shape = t.shape := rfl

@[simp] theorem afterReset_pending : (s.afterReset t).pending = s.pending := rfl
@[simp] theorem afterReset_order : (s.afterReset t).order = s.order := rfl
@[simp] theorem afterReset_fuses : (s.afterReset t).fuses = s.fuses.blow t.fuses := rfl
@[simp] theorem afterReset_image : (s.afterReset t).image = t.image := rfl
@[simp] theorem afterReset_nvmFitted : (s.afterReset t).nvmFitted = s.nvmFitted := rfl
@[simp] theorem afterReset_nvm : (s.afterReset t).nvm = s.nvm := rfl
@[simp] theorem afterReset_hostMem : (s.afterReset t).hostMem = s.hostMem := rfl
@[simp] theorem afterReset_time : (s.afterReset t).time = s.time := rfl
@[simp] theorem afterReset_mono : (s.afterReset t).mono = s.mono := rfl
@[simp] theorem afterReset_free : (s.afterReset t).free = t.free := rfl
@[simp] theorem afterReset_boot : (s.afterReset t).boot = t.boot := rfl
@[simp] theorem afterReset_host : (s.afterReset t).host = t.host := rfl
@[simp] theorem afterReset_mgmt : (s.afterReset t).mgmt = t.mgmt := rfl
@[simp] theorem afterReset_gov : (s.afterReset t).gov = t.gov := rfl
@[simp] theorem afterReset_tele : (s.afterReset t).tele = t.tele := rfl
@[simp] theorem afterReset_rel : (s.afterReset t).rel = t.rel := rfl
@[simp] theorem afterReset_sec : (s.afterReset t).sec = { t.sec with lifecycle := s.sec.lifecycle } := rfl
@[simp] theorem afterReset_tier : (s.afterReset t).tier = t.tier := rfl
@[simp] theorem afterReset_req : (s.afterReset t).req = t.req := rfl
@[simp] theorem afterReset_comp : (s.afterReset t).comp = t.comp := rfl
@[simp] theorem afterReset_fab : (s.afterReset t).fab = t.fab := rfl
@[simp] theorem afterReset_xport : (s.afterReset t).xport = t.xport := rfl
@[simp] theorem afterReset_tray : (s.afterReset t).tray = t.tray := rfl
@[simp] theorem afterReset_shape : (s.afterReset t).shape = t.shape := rfl

@[simp] theorem setQueue_pending (fn q : Nat) (p : QueuePair) : (setQueue s fn q p).pending = s.pending := rfl
@[simp] theorem setQueue_order (fn q : Nat) (p : QueuePair) : (setQueue s fn q p).order = s.order := rfl
@[simp] theorem setQueue_fuses (fn q : Nat) (p : QueuePair) : (setQueue s fn q p).fuses = s.fuses := rfl
@[simp] theorem setQueue_image (fn q : Nat) (p : QueuePair) : (setQueue s fn q p).image = s.image := rfl
@[simp] theorem setQueue_nvmFitted (fn q : Nat) (p : QueuePair) : (setQueue s fn q p).nvmFitted = s.nvmFitted := rfl
@[simp] theorem setQueue_nvm (fn q : Nat) (p : QueuePair) : (setQueue s fn q p).nvm = s.nvm := rfl
@[simp] theorem setQueue_hostMem (fn q : Nat) (p : QueuePair) : (setQueue s fn q p).hostMem = s.hostMem := rfl
@[simp] theorem setQueue_time (fn q : Nat) (p : QueuePair) : (setQueue s fn q p).time = s.time := rfl
@[simp] theorem setQueue_mono (fn q : Nat) (p : QueuePair) : (setQueue s fn q p).mono = s.mono := rfl
@[simp] theorem setQueue_free (fn q : Nat) (p : QueuePair) : (setQueue s fn q p).free = s.free := rfl
@[simp] theorem setQueue_boot (fn q : Nat) (p : QueuePair) : (setQueue s fn q p).boot = s.boot := rfl
@[simp] theorem setQueue_host (fn q : Nat) (p : QueuePair) : (setQueue s fn q p).host = { s.host with queues := tset s.host.queues (fn, q) p } := rfl
@[simp] theorem setQueue_mgmt (fn q : Nat) (p : QueuePair) : (setQueue s fn q p).mgmt = s.mgmt := rfl
@[simp] theorem setQueue_gov (fn q : Nat) (p : QueuePair) : (setQueue s fn q p).gov = s.gov := rfl
@[simp] theorem setQueue_tele (fn q : Nat) (p : QueuePair) : (setQueue s fn q p).tele = s.tele := rfl
@[simp] theorem setQueue_rel (fn q : Nat) (p : QueuePair) : (setQueue s fn q p).rel = s.rel := rfl
@[simp] theorem setQueue_sec (fn q : Nat) (p : QueuePair) : (setQueue s fn q p).sec = s.sec := rfl
@[simp] theorem setQueue_tier (fn q : Nat) (p : QueuePair) : (setQueue s fn q p).tier = s.tier := rfl
@[simp] theorem setQueue_req (fn q : Nat) (p : QueuePair) : (setQueue s fn q p).req = s.req := rfl
@[simp] theorem setQueue_comp (fn q : Nat) (p : QueuePair) : (setQueue s fn q p).comp = s.comp := rfl
@[simp] theorem setQueue_fab (fn q : Nat) (p : QueuePair) : (setQueue s fn q p).fab = s.fab := rfl
@[simp] theorem setQueue_xport (fn q : Nat) (p : QueuePair) : (setQueue s fn q p).xport = s.xport := rfl
@[simp] theorem setQueue_tray (fn q : Nat) (p : QueuePair) : (setQueue s fn q p).tray = s.tray := rfl
@[simp] theorem setQueue_shape (fn q : Nat) (p : QueuePair) : (setQueue s fn q p).shape = s.shape := rfl

@[simp] theorem setKettle_pending (fn : Nat) (k : Kettle) : (setKettle s fn k).pending = s.pending := rfl
@[simp] theorem setKettle_order (fn : Nat) (k : Kettle) : (setKettle s fn k).order = s.order := rfl
@[simp] theorem setKettle_fuses (fn : Nat) (k : Kettle) : (setKettle s fn k).fuses = s.fuses := rfl
@[simp] theorem setKettle_image (fn : Nat) (k : Kettle) : (setKettle s fn k).image = s.image := rfl
@[simp] theorem setKettle_nvmFitted (fn : Nat) (k : Kettle) : (setKettle s fn k).nvmFitted = s.nvmFitted := rfl
@[simp] theorem setKettle_nvm (fn : Nat) (k : Kettle) : (setKettle s fn k).nvm = s.nvm := rfl
@[simp] theorem setKettle_hostMem (fn : Nat) (k : Kettle) : (setKettle s fn k).hostMem = s.hostMem := rfl
@[simp] theorem setKettle_time (fn : Nat) (k : Kettle) : (setKettle s fn k).time = s.time := rfl
@[simp] theorem setKettle_mono (fn : Nat) (k : Kettle) : (setKettle s fn k).mono = s.mono := rfl
@[simp] theorem setKettle_free (fn : Nat) (k : Kettle) : (setKettle s fn k).free = s.free := rfl
@[simp] theorem setKettle_boot (fn : Nat) (k : Kettle) : (setKettle s fn k).boot = s.boot := rfl
@[simp] theorem setKettle_host (fn : Nat) (k : Kettle) : (setKettle s fn k).host = { s.host with kettles := tset s.host.kettles fn k } := rfl
@[simp] theorem setKettle_mgmt (fn : Nat) (k : Kettle) : (setKettle s fn k).mgmt = s.mgmt := rfl
@[simp] theorem setKettle_gov (fn : Nat) (k : Kettle) : (setKettle s fn k).gov = s.gov := rfl
@[simp] theorem setKettle_tele (fn : Nat) (k : Kettle) : (setKettle s fn k).tele = s.tele := rfl
@[simp] theorem setKettle_rel (fn : Nat) (k : Kettle) : (setKettle s fn k).rel = s.rel := rfl
@[simp] theorem setKettle_sec (fn : Nat) (k : Kettle) : (setKettle s fn k).sec = s.sec := rfl
@[simp] theorem setKettle_tier (fn : Nat) (k : Kettle) : (setKettle s fn k).tier = s.tier := rfl
@[simp] theorem setKettle_req (fn : Nat) (k : Kettle) : (setKettle s fn k).req = s.req := rfl
@[simp] theorem setKettle_comp (fn : Nat) (k : Kettle) : (setKettle s fn k).comp = s.comp := rfl
@[simp] theorem setKettle_fab (fn : Nat) (k : Kettle) : (setKettle s fn k).fab = s.fab := rfl
@[simp] theorem setKettle_xport (fn : Nat) (k : Kettle) : (setKettle s fn k).xport = s.xport := rfl
@[simp] theorem setKettle_tray (fn : Nat) (k : Kettle) : (setKettle s fn k).tray = s.tray := rfl
@[simp] theorem setKettle_shape (fn : Nat) (k : Kettle) : (setKettle s fn k).shape = s.shape := rfl

@[simp] theorem setFunc_pending (fn : Nat) (f : FuncRegs) : (setFunc s fn f).pending = s.pending := rfl
@[simp] theorem setFunc_order (fn : Nat) (f : FuncRegs) : (setFunc s fn f).order = s.order := rfl
@[simp] theorem setFunc_fuses (fn : Nat) (f : FuncRegs) : (setFunc s fn f).fuses = s.fuses := rfl
@[simp] theorem setFunc_image (fn : Nat) (f : FuncRegs) : (setFunc s fn f).image = s.image := rfl
@[simp] theorem setFunc_nvmFitted (fn : Nat) (f : FuncRegs) : (setFunc s fn f).nvmFitted = s.nvmFitted := rfl
@[simp] theorem setFunc_nvm (fn : Nat) (f : FuncRegs) : (setFunc s fn f).nvm = s.nvm := rfl
@[simp] theorem setFunc_hostMem (fn : Nat) (f : FuncRegs) : (setFunc s fn f).hostMem = s.hostMem := rfl
@[simp] theorem setFunc_time (fn : Nat) (f : FuncRegs) : (setFunc s fn f).time = s.time := rfl
@[simp] theorem setFunc_mono (fn : Nat) (f : FuncRegs) : (setFunc s fn f).mono = s.mono := rfl
@[simp] theorem setFunc_free (fn : Nat) (f : FuncRegs) : (setFunc s fn f).free = s.free := rfl
@[simp] theorem setFunc_boot (fn : Nat) (f : FuncRegs) : (setFunc s fn f).boot = s.boot := rfl
@[simp] theorem setFunc_host (fn : Nat) (f : FuncRegs) : (setFunc s fn f).host = { s.host with funcs := tset s.host.funcs fn f } := rfl
@[simp] theorem setFunc_mgmt (fn : Nat) (f : FuncRegs) : (setFunc s fn f).mgmt = s.mgmt := rfl
@[simp] theorem setFunc_gov (fn : Nat) (f : FuncRegs) : (setFunc s fn f).gov = s.gov := rfl
@[simp] theorem setFunc_tele (fn : Nat) (f : FuncRegs) : (setFunc s fn f).tele = s.tele := rfl
@[simp] theorem setFunc_rel (fn : Nat) (f : FuncRegs) : (setFunc s fn f).rel = s.rel := rfl
@[simp] theorem setFunc_sec (fn : Nat) (f : FuncRegs) : (setFunc s fn f).sec = s.sec := rfl
@[simp] theorem setFunc_tier (fn : Nat) (f : FuncRegs) : (setFunc s fn f).tier = s.tier := rfl
@[simp] theorem setFunc_req (fn : Nat) (f : FuncRegs) : (setFunc s fn f).req = s.req := rfl
@[simp] theorem setFunc_comp (fn : Nat) (f : FuncRegs) : (setFunc s fn f).comp = s.comp := rfl
@[simp] theorem setFunc_fab (fn : Nat) (f : FuncRegs) : (setFunc s fn f).fab = s.fab := rfl
@[simp] theorem setFunc_xport (fn : Nat) (f : FuncRegs) : (setFunc s fn f).xport = s.xport := rfl
@[simp] theorem setFunc_tray (fn : Nat) (f : FuncRegs) : (setFunc s fn f).tray = s.tray := rfl
@[simp] theorem setFunc_shape (fn : Nat) (f : FuncRegs) : (setFunc s fn f).shape = s.shape := rfl

@[simp] theorem setTenantFn_pending (k : Nat) (f : FnState) : (setTenantFn s k f).pending = s.pending := rfl
@[simp] theorem setTenantFn_order (k : Nat) (f : FnState) : (setTenantFn s k f).order = s.order := rfl
@[simp] theorem setTenantFn_fuses (k : Nat) (f : FnState) : (setTenantFn s k f).fuses = s.fuses := rfl
@[simp] theorem setTenantFn_image (k : Nat) (f : FnState) : (setTenantFn s k f).image = s.image := rfl
@[simp] theorem setTenantFn_nvmFitted (k : Nat) (f : FnState) : (setTenantFn s k f).nvmFitted = s.nvmFitted := rfl
@[simp] theorem setTenantFn_nvm (k : Nat) (f : FnState) : (setTenantFn s k f).nvm = s.nvm := rfl
@[simp] theorem setTenantFn_hostMem (k : Nat) (f : FnState) : (setTenantFn s k f).hostMem = s.hostMem := rfl
@[simp] theorem setTenantFn_time (k : Nat) (f : FnState) : (setTenantFn s k f).time = s.time := rfl
@[simp] theorem setTenantFn_mono (k : Nat) (f : FnState) : (setTenantFn s k f).mono = s.mono := rfl
@[simp] theorem setTenantFn_free (k : Nat) (f : FnState) : (setTenantFn s k f).free = s.free := rfl
@[simp] theorem setTenantFn_boot (k : Nat) (f : FnState) : (setTenantFn s k f).boot = s.boot := rfl
@[simp] theorem setTenantFn_host (k : Nat) (f : FnState) : (setTenantFn s k f).host = { s.host with tenants := tset s.host.tenants k f } := rfl
@[simp] theorem setTenantFn_mgmt (k : Nat) (f : FnState) : (setTenantFn s k f).mgmt = s.mgmt := rfl
@[simp] theorem setTenantFn_gov (k : Nat) (f : FnState) : (setTenantFn s k f).gov = s.gov := rfl
@[simp] theorem setTenantFn_tele (k : Nat) (f : FnState) : (setTenantFn s k f).tele = s.tele := rfl
@[simp] theorem setTenantFn_rel (k : Nat) (f : FnState) : (setTenantFn s k f).rel = s.rel := rfl
@[simp] theorem setTenantFn_sec (k : Nat) (f : FnState) : (setTenantFn s k f).sec = s.sec := rfl
@[simp] theorem setTenantFn_tier (k : Nat) (f : FnState) : (setTenantFn s k f).tier = s.tier := rfl
@[simp] theorem setTenantFn_req (k : Nat) (f : FnState) : (setTenantFn s k f).req = s.req := rfl
@[simp] theorem setTenantFn_comp (k : Nat) (f : FnState) : (setTenantFn s k f).comp = s.comp := rfl
@[simp] theorem setTenantFn_fab (k : Nat) (f : FnState) : (setTenantFn s k f).fab = s.fab := rfl
@[simp] theorem setTenantFn_xport (k : Nat) (f : FnState) : (setTenantFn s k f).xport = s.xport := rfl
@[simp] theorem setTenantFn_tray (k : Nat) (f : FnState) : (setTenantFn s k f).tray = s.tray := rfl
@[simp] theorem setTenantFn_shape (k : Nat) (f : FnState) : (setTenantFn s k f).shape = s.shape := rfl

@[simp] theorem setSlots_pending (l : List Slot) : (setSlots s l).pending = s.pending := rfl
@[simp] theorem setSlots_order (l : List Slot) : (setSlots s l).order = s.order := rfl
@[simp] theorem setSlots_fuses (l : List Slot) : (setSlots s l).fuses = s.fuses := rfl
@[simp] theorem setSlots_image (l : List Slot) : (setSlots s l).image = s.image := rfl
@[simp] theorem setSlots_nvmFitted (l : List Slot) : (setSlots s l).nvmFitted = s.nvmFitted := rfl
@[simp] theorem setSlots_nvm (l : List Slot) : (setSlots s l).nvm = s.nvm := rfl
@[simp] theorem setSlots_hostMem (l : List Slot) : (setSlots s l).hostMem = s.hostMem := rfl
@[simp] theorem setSlots_time (l : List Slot) : (setSlots s l).time = s.time := rfl
@[simp] theorem setSlots_mono (l : List Slot) : (setSlots s l).mono = s.mono := rfl
@[simp] theorem setSlots_free (l : List Slot) : (setSlots s l).free = s.free := rfl
@[simp] theorem setSlots_boot (l : List Slot) : (setSlots s l).boot = s.boot := rfl
@[simp] theorem setSlots_host (l : List Slot) : (setSlots s l).host = { s.host with slots := l } := rfl
@[simp] theorem setSlots_mgmt (l : List Slot) : (setSlots s l).mgmt = s.mgmt := rfl
@[simp] theorem setSlots_gov (l : List Slot) : (setSlots s l).gov = s.gov := rfl
@[simp] theorem setSlots_tele (l : List Slot) : (setSlots s l).tele = s.tele := rfl
@[simp] theorem setSlots_rel (l : List Slot) : (setSlots s l).rel = s.rel := rfl
@[simp] theorem setSlots_sec (l : List Slot) : (setSlots s l).sec = s.sec := rfl
@[simp] theorem setSlots_tier (l : List Slot) : (setSlots s l).tier = s.tier := rfl
@[simp] theorem setSlots_req (l : List Slot) : (setSlots s l).req = s.req := rfl
@[simp] theorem setSlots_comp (l : List Slot) : (setSlots s l).comp = s.comp := rfl
@[simp] theorem setSlots_fab (l : List Slot) : (setSlots s l).fab = s.fab := rfl
@[simp] theorem setSlots_xport (l : List Slot) : (setSlots s l).xport = s.xport := rfl
@[simp] theorem setSlots_tray (l : List Slot) : (setSlots s l).tray = s.tray := rfl
@[simp] theorem setSlots_shape (l : List Slot) : (setSlots s l).shape = s.shape := rfl

@[simp] theorem setTier_pending (x : Tier) : (setTier s x).pending = s.pending := rfl
@[simp] theorem setTier_order (x : Tier) : (setTier s x).order = s.order := rfl
@[simp] theorem setTier_fuses (x : Tier) : (setTier s x).fuses = s.fuses := rfl
@[simp] theorem setTier_image (x : Tier) : (setTier s x).image = s.image := rfl
@[simp] theorem setTier_nvmFitted (x : Tier) : (setTier s x).nvmFitted = s.nvmFitted := rfl
@[simp] theorem setTier_nvm (x : Tier) : (setTier s x).nvm = s.nvm := rfl
@[simp] theorem setTier_hostMem (x : Tier) : (setTier s x).hostMem = s.hostMem := rfl
@[simp] theorem setTier_time (x : Tier) : (setTier s x).time = s.time := rfl
@[simp] theorem setTier_mono (x : Tier) : (setTier s x).mono = s.mono := rfl
@[simp] theorem setTier_free (x : Tier) : (setTier s x).free = s.free := rfl
@[simp] theorem setTier_boot (x : Tier) : (setTier s x).boot = s.boot := rfl
@[simp] theorem setTier_host (x : Tier) : (setTier s x).host = s.host := rfl
@[simp] theorem setTier_mgmt (x : Tier) : (setTier s x).mgmt = s.mgmt := rfl
@[simp] theorem setTier_gov (x : Tier) : (setTier s x).gov = s.gov := rfl
@[simp] theorem setTier_tele (x : Tier) : (setTier s x).tele = s.tele := rfl
@[simp] theorem setTier_rel (x : Tier) : (setTier s x).rel = s.rel := rfl
@[simp] theorem setTier_sec (x : Tier) : (setTier s x).sec = s.sec := rfl
@[simp] theorem setTier_tier (x : Tier) : (setTier s x).tier = x := rfl
@[simp] theorem setTier_req (x : Tier) : (setTier s x).req = s.req := rfl
@[simp] theorem setTier_comp (x : Tier) : (setTier s x).comp = s.comp := rfl
@[simp] theorem setTier_fab (x : Tier) : (setTier s x).fab = s.fab := rfl
@[simp] theorem setTier_xport (x : Tier) : (setTier s x).xport = s.xport := rfl
@[simp] theorem setTier_tray (x : Tier) : (setTier s x).tray = s.tray := rfl
@[simp] theorem setTier_shape (x : Tier) : (setTier s x).shape = s.shape := rfl

@[simp] theorem setFab_pending (x : Fab) : (setFab s x).pending = s.pending := rfl
@[simp] theorem setFab_order (x : Fab) : (setFab s x).order = s.order := rfl
@[simp] theorem setFab_fuses (x : Fab) : (setFab s x).fuses = s.fuses := rfl
@[simp] theorem setFab_image (x : Fab) : (setFab s x).image = s.image := rfl
@[simp] theorem setFab_nvmFitted (x : Fab) : (setFab s x).nvmFitted = s.nvmFitted := rfl
@[simp] theorem setFab_nvm (x : Fab) : (setFab s x).nvm = s.nvm := rfl
@[simp] theorem setFab_hostMem (x : Fab) : (setFab s x).hostMem = s.hostMem := rfl
@[simp] theorem setFab_time (x : Fab) : (setFab s x).time = s.time := rfl
@[simp] theorem setFab_mono (x : Fab) : (setFab s x).mono = s.mono := rfl
@[simp] theorem setFab_free (x : Fab) : (setFab s x).free = s.free := rfl
@[simp] theorem setFab_boot (x : Fab) : (setFab s x).boot = s.boot := rfl
@[simp] theorem setFab_host (x : Fab) : (setFab s x).host = s.host := rfl
@[simp] theorem setFab_mgmt (x : Fab) : (setFab s x).mgmt = s.mgmt := rfl
@[simp] theorem setFab_gov (x : Fab) : (setFab s x).gov = s.gov := rfl
@[simp] theorem setFab_tele (x : Fab) : (setFab s x).tele = s.tele := rfl
@[simp] theorem setFab_rel (x : Fab) : (setFab s x).rel = s.rel := rfl
@[simp] theorem setFab_sec (x : Fab) : (setFab s x).sec = s.sec := rfl
@[simp] theorem setFab_tier (x : Fab) : (setFab s x).tier = s.tier := rfl
@[simp] theorem setFab_req (x : Fab) : (setFab s x).req = s.req := rfl
@[simp] theorem setFab_comp (x : Fab) : (setFab s x).comp = s.comp := rfl
@[simp] theorem setFab_fab (x : Fab) : (setFab s x).fab = x := rfl
@[simp] theorem setFab_xport (x : Fab) : (setFab s x).xport = s.xport := rfl
@[simp] theorem setFab_tray (x : Fab) : (setFab s x).tray = s.tray := rfl
@[simp] theorem setFab_shape (x : Fab) : (setFab s x).shape = s.shape := rfl

end Sys2Proof.Machine
end

