-- ==== Sys2Proof/Laws/Tab.lean ====
section
/-!
SUPPORT. Laws of the tables: what a lookup gives after an entry is set or taken out.
-/
namespace Sys2Proof.Machine

variable {κ α : Type} [DecidableEq κ]

@[simp] theorem tget_nil (k : κ) : tget ([] : Tab κ α) k = none := rfl

theorem tget_tset : ∀ (t : Tab κ α) (k k' : κ) (v : α), tget (tset t k v) k' = if k = k' then some v else tget t k'
  | [], k, k', v => by simp [tset, tget]
  | (k0, v0) :: r, k, k', v => by
    have ih := tget_tset r k k' v
    by_cases h0 : k0 = k
    · subst h0
      by_cases hk : k0 = k' <;> simp [tset, tget, hk]
    · by_cases h1 : k0 = k'
      · have : ¬ k = k' := fun e => h0 (h1.trans e.symm)
        simp only [tset, tget, h0, if_false]
        simp only [h1, if_true, this, if_false]
      · simp [tset, tget, h0, h1, ih]

/-- Setting a key lengthens a table by at most one entry. -/
theorem tset_length_le (t : Tab κ α) (k : κ) (v : α) : (tset t k v).length ≤ t.length + 1 := by
  induction t with
  | nil => simp [tset]
  | cons x r ih =>
    obtain ⟨a, b⟩ := x
    by_cases h : a = k <;> simp [tset, h]; omega

@[simp] theorem tget_tset_self (t : Tab κ α) (k : κ) (v : α) : tget (tset t k v) k = some v := by simp [tget_tset]

theorem tget_tset_ne {k k' : κ} (h : k ≠ k') (t : Tab κ α) (v : α) : tget (tset t k v) k' = tget t k' := by simp [tget_tset, h]

theorem tget_tdel : ∀ (t : Tab κ α) (k k' : κ), tget (tdel t k) k' = if k = k' then none else tget t k'
  | [], k, k' => by simp [tdel, tget]
  | (k0, v0) :: r, k, k' => by
    have ih := tget_tdel r k k'
    by_cases h0 : k0 = k
    · subst h0
      by_cases hk : k0 = k' <;> simp_all [tdel, tget]
    · by_cases h1 : k0 = k'
      · have : ¬ k = k' := fun e => h0 (h1.trans e.symm)
        simp only [tdel, tget, h0, if_false]
        simp only [h1, if_true, this, if_false]
      · simp [tdel, tget, h0, h1, ih]

@[simp] theorem tgetD_tset_self (t : Tab κ α) (k : κ) (v d : α) : tgetD (tset t k v) k d = v := by simp [tgetD]

theorem tgetD_tset_ne {k k' : κ} (h : k ≠ k') (t : Tab κ α) (v d : α) : tgetD (tset t k v) k' d = tgetD t k' d := by
  simp [tgetD, tget_tset_ne h]

@[simp] theorem thas_tset_self (t : Tab κ α) (k : κ) (v : α) : thas (tset t k v) k = true := by simp [thas]

@[simp] theorem thas_tdel_self (t : Tab κ α) (k : κ) : thas (tdel t k) k = false := by simp [thas, tget_tdel]

end Sys2Proof.Machine
end

