-- ==== Sys2Proof/Laws/Ops.lean ====
section
/-!
SUPPORT. What the operations that commands share can do: event records and counters, function status, interrupts.
-/
namespace Sys2Proof.Machine

/-! ### Event records: only the Kettle rings and the counters change -/

/-- Staging a word changes nothing but the staging buffer and the count of the ring that loses one. -/
theorem stageWord_eq (s : State) (fn : Nat) (w : KettleWord) : ∃ k g, stageWord s fn w = { s with host := { s.host with kettles := k, staging := g } } := by
  unfold stageWord
  split
  · exact ⟨s.host.kettles, _, rfl⟩
  · split
    · exact ⟨s.host.kettles, _, rfl⟩
    · exact ⟨_, _, rfl⟩

/-- A record given to a ring changes nothing but the rings and the staging buffer. -/
theorem putRecord_eq (s : State) (fn : Nat) (w : Word) : ∃ k g, putRecord s fn w = { s with host := { s.host with kettles := k, staging := g } } := by
  unfold putRecord
  dsimp only
  split
  · exact ⟨_, s.host.staging, rfl⟩
  · exact stageWord_eq _ _ _

theorem toRings_eq (s : State) (w : Word) (t : Option Nat) : ∃ k g, toRings s w t = { s with host := { s.host with kettles := k, staging := g } } := by
  obtain ⟨k, g, h⟩ := putRecord_eq s 0 w
  unfold toRings
  dsimp only
  rw [h]
  split
  · exact ⟨k, g, rfl⟩
  · split
    · exact ⟨k, g, rfl⟩
    · exact putRecord_eq _ _ _

theorem countEvent_eq (s : State) (i c : Nat) (inj : Bool) (t : Option Nat) : ∃ x, countEvent s i c inj t = { s with tele := x } := by
  cases inj
  · exact ⟨_, rfl⟩
  · exact ⟨_, rfl⟩

theorem eventT_eq (s : State) (i c : Nat) (inj : Bool) (t : Option Nat) (d : Nat) :
    ∃ k g x, eventT s i c inj t d = { s with host := { s.host with kettles := k, staging := g }, tele := x } := by
  unfold eventT
  extract_lets hi
  obtain ⟨x, hx⟩ := countEvent_eq s i c inj t
  obtain ⟨k, g, hk⟩ := toRings_eq { s with tele := x } (eventWord i c hi (islandTime s i)) t
  rw [hx]
  exact ⟨k, g, x, hk⟩

theorem eventA_eq (s : State) (i c a : Nat) : ∃ k g x, eventA s i c a = { s with host := { s.host with kettles := k, staging := g }, tele := x } := by
  unfold eventA
  obtain ⟨x, hx⟩ := countEvent_eq s i c false none
  rw [hx]
  obtain ⟨k, g, hk⟩ := toRings_eq { s with tele := x } (eventWord i c a (islandTime s i)) none
  exact ⟨k, g, x, hk⟩

section
variable (s : State) (i c : Nat) (inj : Bool) (t : Option Nat) (d a : Nat)

@[simp] theorem eventT_order : (eventT s i c inj t d).order = s.order := by obtain ⟨k, g, x, h⟩ := eventT_eq s i c inj t d; rw [h]
@[simp] theorem eventT_fuses : (eventT s i c inj t d).fuses = s.fuses := by obtain ⟨k, g, x, h⟩ := eventT_eq s i c inj t d; rw [h]
@[simp] theorem eventT_image : (eventT s i c inj t d).image = s.image := by obtain ⟨k, g, x, h⟩ := eventT_eq s i c inj t d; rw [h]
@[simp] theorem eventT_nvmFitted : (eventT s i c inj t d).nvmFitted = s.nvmFitted := by obtain ⟨k, g, x, h⟩ := eventT_eq s i c inj t d; rw [h]
@[simp] theorem eventT_nvm : (eventT s i c inj t d).nvm = s.nvm := by obtain ⟨k, g, x, h⟩ := eventT_eq s i c inj t d; rw [h]
@[simp] theorem eventT_hostMem : (eventT s i c inj t d).hostMem = s.hostMem := by obtain ⟨k, g, x, h⟩ := eventT_eq s i c inj t d; rw [h]
@[simp] theorem eventT_time : (eventT s i c inj t d).time = s.time := by obtain ⟨k, g, x, h⟩ := eventT_eq s i c inj t d; rw [h]
@[simp] theorem eventT_mono : (eventT s i c inj t d).mono = s.mono := by obtain ⟨k, g, x, h⟩ := eventT_eq s i c inj t d; rw [h]
@[simp] theorem eventT_free : (eventT s i c inj t d).free = s.free := by obtain ⟨k, g, x, h⟩ := eventT_eq s i c inj t d; rw [h]
@[simp] theorem eventT_pending : (eventT s i c inj t d).pending = s.pending := by obtain ⟨k, g, x, h⟩ := eventT_eq s i c inj t d; rw [h]
@[simp] theorem eventT_boot : (eventT s i c inj t d).boot = s.boot := by obtain ⟨k, g, x, h⟩ := eventT_eq s i c inj t d; rw [h]
@[simp] theorem eventT_mgmt : (eventT s i c inj t d).mgmt = s.mgmt := by obtain ⟨k, g, x, h⟩ := eventT_eq s i c inj t d; rw [h]
@[simp] theorem eventT_gov : (eventT s i c inj t d).gov = s.gov := by obtain ⟨k, g, x, h⟩ := eventT_eq s i c inj t d; rw [h]
@[simp] theorem eventT_sec : (eventT s i c inj t d).sec = s.sec := by obtain ⟨k, g, x, h⟩ := eventT_eq s i c inj t d; rw [h]
@[simp] theorem eventT_tier : (eventT s i c inj t d).tier = s.tier := by obtain ⟨k, g, x, h⟩ := eventT_eq s i c inj t d; rw [h]
@[simp] theorem eventT_req : (eventT s i c inj t d).req = s.req := by obtain ⟨k, g, x, h⟩ := eventT_eq s i c inj t d; rw [h]
@[simp] theorem eventT_comp : (eventT s i c inj t d).comp = s.comp := by obtain ⟨k, g, x, h⟩ := eventT_eq s i c inj t d; rw [h]
@[simp] theorem eventT_fab : (eventT s i c inj t d).fab = s.fab := by obtain ⟨k, g, x, h⟩ := eventT_eq s i c inj t d; rw [h]
@[simp] theorem eventT_xport : (eventT s i c inj t d).xport = s.xport := by obtain ⟨k, g, x, h⟩ := eventT_eq s i c inj t d; rw [h]
@[simp] theorem eventT_tray : (eventT s i c inj t d).tray = s.tray := by obtain ⟨k, g, x, h⟩ := eventT_eq s i c inj t d; rw [h]
@[simp] theorem eventT_shape : (eventT s i c inj t d).shape = s.shape := by obtain ⟨k, g, x, h⟩ := eventT_eq s i c inj t d; rw [h]
@[simp] theorem eventT_rel : (eventT s i c inj t d).rel = s.rel := by obtain ⟨k, g, x, h⟩ := eventT_eq s i c inj t d; rw [h]
@[simp] theorem eventT_host_link : (eventT s i c inj t d).host.link = s.host.link := by obtain ⟨k, g, x, h⟩ := eventT_eq s i c inj t d; rw [h]
@[simp] theorem eventT_host_numVFs : (eventT s i c inj t d).host.numVFs = s.host.numVFs := by obtain ⟨k, g, x, h⟩ := eventT_eq s i c inj t d; rw [h]
@[simp] theorem eventT_host_bar : (eventT s i c inj t d).host.bar = s.host.bar := by obtain ⟨k, g, x, h⟩ := eventT_eq s i c inj t d; rw [h]
@[simp] theorem eventT_host_vfBar : (eventT s i c inj t d).host.vfBar = s.host.vfBar := by obtain ⟨k, g, x, h⟩ := eventT_eq s i c inj t d; rw [h]
@[simp] theorem eventT_host_nextStart : (eventT s i c inj t d).host.nextStart = s.host.nextStart := by obtain ⟨k, g, x, h⟩ := eventT_eq s i c inj t d; rw [h]
@[simp] theorem eventT_host_tenants : (eventT s i c inj t d).host.tenants = s.host.tenants := by obtain ⟨k, g, x, h⟩ := eventT_eq s i c inj t d; rw [h]
@[simp] theorem eventT_host_funcs : (eventT s i c inj t d).host.funcs = s.host.funcs := by obtain ⟨k, g, x, h⟩ := eventT_eq s i c inj t d; rw [h]
@[simp] theorem eventT_host_queues : (eventT s i c inj t d).host.queues = s.host.queues := by obtain ⟨k, g, x, h⟩ := eventT_eq s i c inj t d; rw [h]
@[simp] theorem eventT_host_fetchPtr : (eventT s i c inj t d).host.fetchPtr = s.host.fetchPtr := by obtain ⟨k, g, x, h⟩ := eventT_eq s i c inj t d; rw [h]
@[simp] theorem eventT_host_slots : (eventT s i c inj t d).host.slots = s.host.slots := by obtain ⟨k, g, x, h⟩ := eventT_eq s i c inj t d; rw [h]
@[simp] theorem eventT_host_nextSlot : (eventT s i c inj t d).host.nextSlot = s.host.nextSlot := by obtain ⟨k, g, x, h⟩ := eventT_eq s i c inj t d; rw [h]
@[simp] theorem eventT_host_due : (eventT s i c inj t d).host.due = s.host.due := by obtain ⟨k, g, x, h⟩ := eventT_eq s i c inj t d; rw [h]
@[simp] theorem eventT_host_ops : (eventT s i c inj t d).host.ops = s.host.ops := by obtain ⟨k, g, x, h⟩ := eventT_eq s i c inj t d; rw [h]
@[simp] theorem eventT_host_nextOp : (eventT s i c inj t d).host.nextOp = s.host.nextOp := by obtain ⟨k, g, x, h⟩ := eventT_eq s i c inj t d; rw [h]
@[simp] theorem eventT_host_jobs : (eventT s i c inj t d).host.jobs = s.host.jobs := by obtain ⟨k, g, x, h⟩ := eventT_eq s i c inj t d; rw [h]
@[simp] theorem eventT_host_jobHigh : (eventT s i c inj t d).host.jobHigh = s.host.jobHigh := by obtain ⟨k, g, x, h⟩ := eventT_eq s i c inj t d; rw [h]
@[simp] theorem eventT_host_batches : (eventT s i c inj t d).host.batches = s.host.batches := by obtain ⟨k, g, x, h⟩ := eventT_eq s i c inj t d; rw [h]
@[simp] theorem eventT_host_badLines : (eventT s i c inj t d).host.badLines = s.host.badLines := by obtain ⟨k, g, x, h⟩ := eventT_eq s i c inj t d; rw [h]
@[simp] theorem eventT_host_signals : (eventT s i c inj t d).host.signals = s.host.signals := by obtain ⟨k, g, x, h⟩ := eventT_eq s i c inj t d; rw [h]
@[simp] theorem eventT_host_readData : (eventT s i c inj t d).host.readData = s.host.readData := by obtain ⟨k, g, x, h⟩ := eventT_eq s i c inj t d; rw [h]
@[simp] theorem eventA_order : (eventA s i c a).order = s.order := by obtain ⟨k, g, x, h⟩ := eventA_eq s i c a; rw [h]
@[simp] theorem eventA_fuses : (eventA s i c a).fuses = s.fuses := by obtain ⟨k, g, x, h⟩ := eventA_eq s i c a; rw [h]
@[simp] theorem eventA_image : (eventA s i c a).image = s.image := by obtain ⟨k, g, x, h⟩ := eventA_eq s i c a; rw [h]
@[simp] theorem eventA_nvmFitted : (eventA s i c a).nvmFitted = s.nvmFitted := by obtain ⟨k, g, x, h⟩ := eventA_eq s i c a; rw [h]
@[simp] theorem eventA_nvm : (eventA s i c a).nvm = s.nvm := by obtain ⟨k, g, x, h⟩ := eventA_eq s i c a; rw [h]
@[simp] theorem eventA_hostMem : (eventA s i c a).hostMem = s.hostMem := by obtain ⟨k, g, x, h⟩ := eventA_eq s i c a; rw [h]
@[simp] theorem eventA_time : (eventA s i c a).time = s.time := by obtain ⟨k, g, x, h⟩ := eventA_eq s i c a; rw [h]
@[simp] theorem eventA_mono : (eventA s i c a).mono = s.mono := by obtain ⟨k, g, x, h⟩ := eventA_eq s i c a; rw [h]
@[simp] theorem eventA_free : (eventA s i c a).free = s.free := by obtain ⟨k, g, x, h⟩ := eventA_eq s i c a; rw [h]
@[simp] theorem eventA_pending : (eventA s i c a).pending = s.pending := by obtain ⟨k, g, x, h⟩ := eventA_eq s i c a; rw [h]
@[simp] theorem eventA_boot : (eventA s i c a).boot = s.boot := by obtain ⟨k, g, x, h⟩ := eventA_eq s i c a; rw [h]
@[simp] theorem eventA_mgmt : (eventA s i c a).mgmt = s.mgmt := by obtain ⟨k, g, x, h⟩ := eventA_eq s i c a; rw [h]
@[simp] theorem eventA_gov : (eventA s i c a).gov = s.gov := by obtain ⟨k, g, x, h⟩ := eventA_eq s i c a; rw [h]
@[simp] theorem eventA_sec : (eventA s i c a).sec = s.sec := by obtain ⟨k, g, x, h⟩ := eventA_eq s i c a; rw [h]
@[simp] theorem eventA_tier : (eventA s i c a).tier = s.tier := by obtain ⟨k, g, x, h⟩ := eventA_eq s i c a; rw [h]
@[simp] theorem eventA_req : (eventA s i c a).req = s.req := by obtain ⟨k, g, x, h⟩ := eventA_eq s i c a; rw [h]
@[simp] theorem eventA_comp : (eventA s i c a).comp = s.comp := by obtain ⟨k, g, x, h⟩ := eventA_eq s i c a; rw [h]
@[simp] theorem eventA_fab : (eventA s i c a).fab = s.fab := by obtain ⟨k, g, x, h⟩ := eventA_eq s i c a; rw [h]
@[simp] theorem eventA_xport : (eventA s i c a).xport = s.xport := by obtain ⟨k, g, x, h⟩ := eventA_eq s i c a; rw [h]
@[simp] theorem eventA_tray : (eventA s i c a).tray = s.tray := by obtain ⟨k, g, x, h⟩ := eventA_eq s i c a; rw [h]
@[simp] theorem eventA_shape : (eventA s i c a).shape = s.shape := by obtain ⟨k, g, x, h⟩ := eventA_eq s i c a; rw [h]
@[simp] theorem eventA_rel : (eventA s i c a).rel = s.rel := by obtain ⟨k, g, x, h⟩ := eventA_eq s i c a; rw [h]
@[simp] theorem eventA_host_link : (eventA s i c a).host.link = s.host.link := by obtain ⟨k, g, x, h⟩ := eventA_eq s i c a; rw [h]
@[simp] theorem eventA_host_numVFs : (eventA s i c a).host.numVFs = s.host.numVFs := by obtain ⟨k, g, x, h⟩ := eventA_eq s i c a; rw [h]
@[simp] theorem eventA_host_bar : (eventA s i c a).host.bar = s.host.bar := by obtain ⟨k, g, x, h⟩ := eventA_eq s i c a; rw [h]
@[simp] theorem eventA_host_vfBar : (eventA s i c a).host.vfBar = s.host.vfBar := by obtain ⟨k, g, x, h⟩ := eventA_eq s i c a; rw [h]
@[simp] theorem eventA_host_nextStart : (eventA s i c a).host.nextStart = s.host.nextStart := by obtain ⟨k, g, x, h⟩ := eventA_eq s i c a; rw [h]
@[simp] theorem eventA_host_tenants : (eventA s i c a).host.tenants = s.host.tenants := by obtain ⟨k, g, x, h⟩ := eventA_eq s i c a; rw [h]
@[simp] theorem eventA_host_funcs : (eventA s i c a).host.funcs = s.host.funcs := by obtain ⟨k, g, x, h⟩ := eventA_eq s i c a; rw [h]
@[simp] theorem eventA_host_queues : (eventA s i c a).host.queues = s.host.queues := by obtain ⟨k, g, x, h⟩ := eventA_eq s i c a; rw [h]
@[simp] theorem eventA_host_fetchPtr : (eventA s i c a).host.fetchPtr = s.host.fetchPtr := by obtain ⟨k, g, x, h⟩ := eventA_eq s i c a; rw [h]
@[simp] theorem eventA_host_slots : (eventA s i c a).host.slots = s.host.slots := by obtain ⟨k, g, x, h⟩ := eventA_eq s i c a; rw [h]
@[simp] theorem eventA_host_nextSlot : (eventA s i c a).host.nextSlot = s.host.nextSlot := by obtain ⟨k, g, x, h⟩ := eventA_eq s i c a; rw [h]
@[simp] theorem eventA_host_due : (eventA s i c a).host.due = s.host.due := by obtain ⟨k, g, x, h⟩ := eventA_eq s i c a; rw [h]
@[simp] theorem eventA_host_ops : (eventA s i c a).host.ops = s.host.ops := by obtain ⟨k, g, x, h⟩ := eventA_eq s i c a; rw [h]
@[simp] theorem eventA_host_nextOp : (eventA s i c a).host.nextOp = s.host.nextOp := by obtain ⟨k, g, x, h⟩ := eventA_eq s i c a; rw [h]
@[simp] theorem eventA_host_jobs : (eventA s i c a).host.jobs = s.host.jobs := by obtain ⟨k, g, x, h⟩ := eventA_eq s i c a; rw [h]
@[simp] theorem eventA_host_jobHigh : (eventA s i c a).host.jobHigh = s.host.jobHigh := by obtain ⟨k, g, x, h⟩ := eventA_eq s i c a; rw [h]
@[simp] theorem eventA_host_batches : (eventA s i c a).host.batches = s.host.batches := by obtain ⟨k, g, x, h⟩ := eventA_eq s i c a; rw [h]
@[simp] theorem eventA_host_badLines : (eventA s i c a).host.badLines = s.host.badLines := by obtain ⟨k, g, x, h⟩ := eventA_eq s i c a; rw [h]
@[simp] theorem eventA_host_signals : (eventA s i c a).host.signals = s.host.signals := by obtain ⟨k, g, x, h⟩ := eventA_eq s i c a; rw [h]
@[simp] theorem eventA_host_readData : (eventA s i c a).host.readData = s.host.readData := by obtain ⟨k, g, x, h⟩ := eventA_eq s i c a; rw [h]

end

/-! ### Function status -/

theorem Kettle.put_fn (k : Kettle) (w : Word) (n : Nat) : (k.put w n).1.fn = k.fn := by
  unfold Kettle.put
  dsimp only
  split
  · split <;> rfl
  · rfl

theorem setKettle_keeps_fn {s : State} {g : Nat} {k : Kettle} (h : k.fn = (kettleOf s g).fn) (fn : Nat) :
    (kettleOf (setKettle s g k) fn).fn = (kettleOf s fn).fn := by
  by_cases e : g = fn
  · subst e; simpa [kettleOf, setKettle] using h
  · simp [kettleOf, setKettle, tgetD_tset_ne e]

theorem loseRecords_kettle_fn (s : State) (g n fn : Nat) : (kettleOf (loseRecords s g n) fn).fn = (kettleOf s fn).fn := by
  have h : ({ kettleOf s g with lost := satAdd 32 (kettleOf s g).lost n } : Kettle).fn = (kettleOf s g).fn := rfl
  exact setKettle_keeps_fn h fn

theorem stageWord_kettle_fn (s : State) (g : Nat) (w : KettleWord) (fn : Nat) : (kettleOf (stageWord s g w) fn).fn = (kettleOf s fn).fn := by
  unfold stageWord
  split
  · rfl
  · split
    · rfl
    · rw [loseRecords_kettle_fn]; rfl

theorem putRecord_kettle_fn (s : State) (g : Nat) (w : Word) (fn : Nat) : (kettleOf (putRecord s g w) fn).fn = (kettleOf s fn).fn := by
  unfold putRecord
  dsimp only
  split
  · exact setKettle_keeps_fn (Kettle.put_fn _ _ _) fn
  · rw [stageWord_kettle_fn]; exact setKettle_keeps_fn (Kettle.put_fn _ _ _) fn

/-- The kettles' own status survives a record. -/
theorem toRings_kettle_fn (s : State) (w : Word) (t : Option Nat) (fn : Nat) : (kettleOf (toRings s w t) fn).fn = (kettleOf s fn).fn := by
  unfold toRings
  dsimp only
  split
  · exact putRecord_kettle_fn _ _ _ _
  · split
    · exact putRecord_kettle_fn _ _ _ _
    · rw [putRecord_kettle_fn, putRecord_kettle_fn]

theorem countEvent_host (s : State) (i c : Nat) (inj : Bool) (t : Option Nat) : (countEvent s i c inj t).host = s.host := by
  obtain ⟨x, h⟩ := countEvent_eq s i c inj t; rw [h]

theorem countEvent_rel (s : State) (i c : Nat) (inj : Bool) (t : Option Nat) : (countEvent s i c inj t).rel = s.rel := by
  obtain ⟨x, h⟩ := countEvent_eq s i c inj t; rw [h]

@[simp] theorem fnState_eventT (s : State) (i c : Nat) (inj : Bool) (t : Option Nat) (d : Nat) (f : FnId) :
    fnState (eventT s i c inj t d) f = fnState s f := by
  cases f with
  | kettle fn => simp only [fnState, eventT]; rw [toRings_kettle_fn]; simp only [kettleOf, countEvent_host]
  | queue fn q => simp only [fnState, queueOf, eventT_host_queues]
  | tenant k => simp only [fnState, tenantFn, eventT_host_tenants]
  | _ => simp only [fnState, eventT_rel]

@[simp] theorem fnState_eventA (s : State) (i c a : Nat) (f : FnId) : fnState (eventA s i c a) f = fnState s f := by
  cases f with
  | kettle fn => simp only [fnState, eventA]; rw [toRings_kettle_fn]; simp only [kettleOf, countEvent_host]
  | queue fn q => simp only [fnState, queueOf, eventA_host_queues]
  | tenant k => simp only [fnState, tenantFn, eventA_host_tenants]
  | _ => simp only [fnState, eventA_rel]

@[simp] theorem fnState_setFnState (s : State) (f : FnId) (x : FnState) : fnState (setFnState s f x) f = x := by
  cases f <;> simp [fnState, setFnState, tenantFn, setTenantFn, queueOf, setQueue, kettleOf, setKettle]

/-- A function that is moved shows the status it is moved to. -/
@[simp] theorem fnState_moveFn (s : State) (f : FnId) (x : FnState) : fnState (moveFn s f x) f = x := by
  unfold moveFn
  dsimp only
  split
  · simp
  · simp

/-- Setting a function's status changes nothing but the place that holds it. -/
theorem setFnState_eq (s : State) (f : FnId) (x : FnState) : ∃ tn qs ks fs,
    setFnState s f x = { s with host := { s.host with tenants := tn, queues := qs, kettles := ks }, rel := { s.rel with fns := fs } } := by
  cases f <;> exact ⟨_, _, _, _, rfl⟩

/-- Moving a function changes nothing but its status, the Kettle rings and the counters. -/
theorem moveFn_eq (s : State) (f : FnId) (x : FnState) : ∃ tn qs ks sg fs te,
    moveFn s f x = { s with host := { s.host with tenants := tn, queues := qs, kettles := ks, staging := sg }, rel := { s.rel with fns := fs }, tele := te } := by
  obtain ⟨tn, qs, ks, fs, h⟩ := setFnState_eq s f x
  unfold moveFn
  dsimp only
  rw [h]
  split
  · exact ⟨tn, qs, ks, s.host.staging, fs, s.tele, rfl⟩
  · obtain ⟨k, g, y, h2⟩ := eventT_eq { s with host := { s.host with tenants := tn, queues := qs, kettles := ks }, rel := { s.rel with fns := fs } }
      (statusSource { s with host := { s.host with tenants := tn, queues := qs, kettles := ks }, rel := { s.rel with fns := fs } } f).1
      (statusSource { s with host := { s.host with tenants := tn, queues := qs, kettles := ks }, rel := { s.rel with fns := fs } } f).2.1 false
      (statusSource { s with host := { s.host with tenants := tn, queues := qs, kettles := ks }, rel := { s.rel with fns := fs } } f).2.2.2
      (argIndex x.st.code (statusSource { s with host := { s.host with tenants := tn, queues := qs, kettles := ks }, rel := { s.rel with fns := fs } } f).2.2.1)
    exact ⟨tn, qs, k, g, fs, y, h2⟩

section
variable (s : State) (f : FnId) (x : FnState)

@[simp] theorem moveFn_order : (moveFn s f x).order = s.order := by obtain ⟨tn, qs, ks, sg, fs, te, h⟩ := moveFn_eq s f x; rw [h]
@[simp] theorem moveFn_fuses : (moveFn s f x).fuses = s.fuses := by obtain ⟨tn, qs, ks, sg, fs, te, h⟩ := moveFn_eq s f x; rw [h]
@[simp] theorem moveFn_image : (moveFn s f x).image = s.image := by obtain ⟨tn, qs, ks, sg, fs, te, h⟩ := moveFn_eq s f x; rw [h]
@[simp] theorem moveFn_nvmFitted : (moveFn s f x).nvmFitted = s.nvmFitted := by obtain ⟨tn, qs, ks, sg, fs, te, h⟩ := moveFn_eq s f x; rw [h]
@[simp] theorem moveFn_nvm : (moveFn s f x).nvm = s.nvm := by obtain ⟨tn, qs, ks, sg, fs, te, h⟩ := moveFn_eq s f x; rw [h]
@[simp] theorem moveFn_hostMem : (moveFn s f x).hostMem = s.hostMem := by obtain ⟨tn, qs, ks, sg, fs, te, h⟩ := moveFn_eq s f x; rw [h]
@[simp] theorem moveFn_time : (moveFn s f x).time = s.time := by obtain ⟨tn, qs, ks, sg, fs, te, h⟩ := moveFn_eq s f x; rw [h]
@[simp] theorem moveFn_mono : (moveFn s f x).mono = s.mono := by obtain ⟨tn, qs, ks, sg, fs, te, h⟩ := moveFn_eq s f x; rw [h]
@[simp] theorem moveFn_free : (moveFn s f x).free = s.free := by obtain ⟨tn, qs, ks, sg, fs, te, h⟩ := moveFn_eq s f x; rw [h]
@[simp] theorem moveFn_pending : (moveFn s f x).pending = s.pending := by obtain ⟨tn, qs, ks, sg, fs, te, h⟩ := moveFn_eq s f x; rw [h]
@[simp] theorem moveFn_boot : (moveFn s f x).boot = s.boot := by obtain ⟨tn, qs, ks, sg, fs, te, h⟩ := moveFn_eq s f x; rw [h]
@[simp] theorem moveFn_mgmt : (moveFn s f x).mgmt = s.mgmt := by obtain ⟨tn, qs, ks, sg, fs, te, h⟩ := moveFn_eq s f x; rw [h]
@[simp] theorem moveFn_gov : (moveFn s f x).gov = s.gov := by obtain ⟨tn, qs, ks, sg, fs, te, h⟩ := moveFn_eq s f x; rw [h]
@[simp] theorem moveFn_sec : (moveFn s f x).sec = s.sec := by obtain ⟨tn, qs, ks, sg, fs, te, h⟩ := moveFn_eq s f x; rw [h]
@[simp] theorem moveFn_tier : (moveFn s f x).tier = s.tier := by obtain ⟨tn, qs, ks, sg, fs, te, h⟩ := moveFn_eq s f x; rw [h]
@[simp] theorem moveFn_req : (moveFn s f x).req = s.req := by obtain ⟨tn, qs, ks, sg, fs, te, h⟩ := moveFn_eq s f x; rw [h]
@[simp] theorem moveFn_comp : (moveFn s f x).comp = s.comp := by obtain ⟨tn, qs, ks, sg, fs, te, h⟩ := moveFn_eq s f x; rw [h]
@[simp] theorem moveFn_fab : (moveFn s f x).fab = s.fab := by obtain ⟨tn, qs, ks, sg, fs, te, h⟩ := moveFn_eq s f x; rw [h]
@[simp] theorem moveFn_xport : (moveFn s f x).xport = s.xport := by obtain ⟨tn, qs, ks, sg, fs, te, h⟩ := moveFn_eq s f x; rw [h]
@[simp] theorem moveFn_tray : (moveFn s f x).tray = s.tray := by obtain ⟨tn, qs, ks, sg, fs, te, h⟩ := moveFn_eq s f x; rw [h]
@[simp] theorem moveFn_shape : (moveFn s f x).shape = s.shape := by obtain ⟨tn, qs, ks, sg, fs, te, h⟩ := moveFn_eq s f x; rw [h]
@[simp] theorem moveFn_host_link : (moveFn s f x).host.link = s.host.link := by obtain ⟨tn, qs, ks, sg, fs, te, h⟩ := moveFn_eq s f x; rw [h]
@[simp] theorem moveFn_host_numVFs : (moveFn s f x).host.numVFs = s.host.numVFs := by obtain ⟨tn, qs, ks, sg, fs, te, h⟩ := moveFn_eq s f x; rw [h]
@[simp] theorem moveFn_host_bar : (moveFn s f x).host.bar = s.host.bar := by obtain ⟨tn, qs, ks, sg, fs, te, h⟩ := moveFn_eq s f x; rw [h]
@[simp] theorem moveFn_host_vfBar : (moveFn s f x).host.vfBar = s.host.vfBar := by obtain ⟨tn, qs, ks, sg, fs, te, h⟩ := moveFn_eq s f x; rw [h]
@[simp] theorem moveFn_host_nextStart : (moveFn s f x).host.nextStart = s.host.nextStart := by obtain ⟨tn, qs, ks, sg, fs, te, h⟩ := moveFn_eq s f x; rw [h]
@[simp] theorem moveFn_host_funcs : (moveFn s f x).host.funcs = s.host.funcs := by obtain ⟨tn, qs, ks, sg, fs, te, h⟩ := moveFn_eq s f x; rw [h]
@[simp] theorem moveFn_host_fetchPtr : (moveFn s f x).host.fetchPtr = s.host.fetchPtr := by obtain ⟨tn, qs, ks, sg, fs, te, h⟩ := moveFn_eq s f x; rw [h]
@[simp] theorem moveFn_host_slots : (moveFn s f x).host.slots = s.host.slots := by obtain ⟨tn, qs, ks, sg, fs, te, h⟩ := moveFn_eq s f x; rw [h]
@[simp] theorem moveFn_host_nextSlot : (moveFn s f x).host.nextSlot = s.host.nextSlot := by obtain ⟨tn, qs, ks, sg, fs, te, h⟩ := moveFn_eq s f x; rw [h]
@[simp] theorem moveFn_host_due : (moveFn s f x).host.due = s.host.due := by obtain ⟨tn, qs, ks, sg, fs, te, h⟩ := moveFn_eq s f x; rw [h]
@[simp] theorem moveFn_host_ops : (moveFn s f x).host.ops = s.host.ops := by obtain ⟨tn, qs, ks, sg, fs, te, h⟩ := moveFn_eq s f x; rw [h]
@[simp] theorem moveFn_host_nextOp : (moveFn s f x).host.nextOp = s.host.nextOp := by obtain ⟨tn, qs, ks, sg, fs, te, h⟩ := moveFn_eq s f x; rw [h]
@[simp] theorem moveFn_host_jobs : (moveFn s f x).host.jobs = s.host.jobs := by obtain ⟨tn, qs, ks, sg, fs, te, h⟩ := moveFn_eq s f x; rw [h]
@[simp] theorem moveFn_host_jobHigh : (moveFn s f x).host.jobHigh = s.host.jobHigh := by obtain ⟨tn, qs, ks, sg, fs, te, h⟩ := moveFn_eq s f x; rw [h]
@[simp] theorem moveFn_host_batches : (moveFn s f x).host.batches = s.host.batches := by obtain ⟨tn, qs, ks, sg, fs, te, h⟩ := moveFn_eq s f x; rw [h]
@[simp] theorem moveFn_host_badLines : (moveFn s f x).host.badLines = s.host.badLines := by obtain ⟨tn, qs, ks, sg, fs, te, h⟩ := moveFn_eq s f x; rw [h]
@[simp] theorem moveFn_host_signals : (moveFn s f x).host.signals = s.host.signals := by obtain ⟨tn, qs, ks, sg, fs, te, h⟩ := moveFn_eq s f x; rw [h]
@[simp] theorem moveFn_host_readData : (moveFn s f x).host.readData = s.host.readData := by obtain ⟨tn, qs, ks, sg, fs, te, h⟩ := moveFn_eq s f x; rw [h]
@[simp] theorem moveFn_rel_inReset : (moveFn s f x).rel.inReset = s.rel.inReset := by obtain ⟨tn, qs, ks, sg, fs, te, h⟩ := moveFn_eq s f x; rw [h]
@[simp] theorem moveFn_rel_ladleAt : (moveFn s f x).rel.ladleAt = s.rel.ladleAt := by obtain ⟨tn, qs, ks, sg, fs, te, h⟩ := moveFn_eq s f x; rw [h]
@[simp] theorem moveFn_rel_health : (moveFn s f x).rel.health = s.rel.health := by obtain ⟨tn, qs, ks, sg, fs, te, h⟩ := moveFn_eq s f x; rw [h]
@[simp] theorem moveFn_rel_spares : (moveFn s f x).rel.spares = s.rel.spares := by obtain ⟨tn, qs, ks, sg, fs, te, h⟩ := moveFn_eq s f x; rw [h]
@[simp] theorem moveFn_rel_injections : (moveFn s f x).rel.injections = s.rel.injections := by obtain ⟨tn, qs, ks, sg, fs, te, h⟩ := moveFn_eq s f x; rw [h]
@[simp] theorem moveFn_rel_whiskFails : (moveFn s f x).rel.whiskFails = s.rel.whiskFails := by obtain ⟨tn, qs, ks, sg, fs, te, h⟩ := moveFn_eq s f x; rw [h]
@[simp] theorem moveFn_rel_retries : (moveFn s f x).rel.retries = s.rel.retries := by obtain ⟨tn, qs, ks, sg, fs, te, h⟩ := moveFn_eq s f x; rw [h]
@[simp] theorem moveFn_rel_halfWidth : (moveFn s f x).rel.halfWidth = s.rel.halfWidth := by obtain ⟨tn, qs, ks, sg, fs, te, h⟩ := moveFn_eq s f x; rw [h]
@[simp] theorem moveFn_rel_subwindow : (moveFn s f x).rel.subwindow = s.rel.subwindow := by obtain ⟨tn, qs, ks, sg, fs, te, h⟩ := moveFn_eq s f x; rw [h]
@[simp] theorem moveFn_rel_scrubbed : (moveFn s f x).rel.scrubbed = s.rel.scrubbed := by obtain ⟨tn, qs, ks, sg, fs, te, h⟩ := moveFn_eq s f x; rw [h]
@[simp] theorem moveFn_rel_quarantined : (moveFn s f x).rel.quarantined = s.rel.quarantined := by obtain ⟨tn, qs, ks, sg, fs, te, h⟩ := moveFn_eq s f x; rw [h]
@[simp] theorem moveFn_rel_heartbeats : (moveFn s f x).rel.heartbeats = s.rel.heartbeats := by obtain ⟨tn, qs, ks, sg, fs, te, h⟩ := moveFn_eq s f x; rw [h]
@[simp] theorem moveFn_rel_kind3At : (moveFn s f x).rel.kind3At = s.rel.kind3At := by obtain ⟨tn, qs, ks, sg, fs, te, h⟩ := moveFn_eq s f x; rw [h]
@[simp] theorem moveFn_rel_lastBeat : (moveFn s f x).rel.lastBeat = s.rel.lastBeat := by obtain ⟨tn, qs, ks, sg, fs, te, h⟩ := moveFn_eq s f x; rw [h]
@[simp] theorem moveFn_rel_primaryTo : (moveFn s f x).rel.primaryTo = s.rel.primaryTo := by obtain ⟨tn, qs, ks, sg, fs, te, h⟩ := moveFn_eq s f x; rw [h]
@[simp] theorem moveFn_rel_mirrorSeq : (moveFn s f x).rel.mirrorSeq = s.rel.mirrorSeq := by obtain ⟨tn, qs, ks, sg, fs, te, h⟩ := moveFn_eq s f x; rw [h]
@[simp] theorem moveFn_rel_mirrors : (moveFn s f x).rel.mirrors = s.rel.mirrors := by obtain ⟨tn, qs, ks, sg, fs, te, h⟩ := moveFn_eq s f x; rw [h]
@[simp] theorem moveFn_rel_shadowOf : (moveFn s f x).rel.shadowOf = s.rel.shadowOf := by obtain ⟨tn, qs, ks, sg, fs, te, h⟩ := moveFn_eq s f x; rw [h]
@[simp] theorem moveFn_rel_shadowSeq : (moveFn s f x).rel.shadowSeq = s.rel.shadowSeq := by obtain ⟨tn, qs, ks, sg, fs, te, h⟩ := moveFn_eq s f x; rw [h]
@[simp] theorem moveFn_rel_clean : (moveFn s f x).rel.clean = s.rel.clean := by obtain ⟨tn, qs, ks, sg, fs, te, h⟩ := moveFn_eq s f x; rw [h]
@[simp] theorem moveFn_rel_admitted : (moveFn s f x).rel.admitted = s.rel.admitted := by obtain ⟨tn, qs, ks, sg, fs, te, h⟩ := moveFn_eq s f x; rw [h]
@[simp] theorem moveFn_rel_tReady : (moveFn s f x).rel.tReady = s.rel.tReady := by obtain ⟨tn, qs, ks, sg, fs, te, h⟩ := moveFn_eq s f x; rw [h]
@[simp] theorem moveFn_rel_tLost : (moveFn s f x).rel.tLost = s.rel.tLost := by obtain ⟨tn, qs, ks, sg, fs, te, h⟩ := moveFn_eq s f x; rw [h]
@[simp] theorem moveFn_rel_tRecovery : (moveFn s f x).rel.tRecovery = s.rel.tRecovery := by obtain ⟨tn, qs, ks, sg, fs, te, h⟩ := moveFn_eq s f x; rw [h]
@[simp] theorem moveFn_rel_tIsland : (moveFn s f x).rel.tIsland = s.rel.tIsland := by obtain ⟨tn, qs, ks, sg, fs, te, h⟩ := moveFn_eq s f x; rw [h]
@[simp] theorem moveFn_rel_tSpare : (moveFn s f x).rel.tSpare = s.rel.tSpare := by obtain ⟨tn, qs, ks, sg, fs, te, h⟩ := moveFn_eq s f x; rw [h]
@[simp] theorem moveFn_rel_tLink : (moveFn s f x).rel.tLink = s.rel.tLink := by obtain ⟨tn, qs, ks, sg, fs, te, h⟩ := moveFn_eq s f x; rw [h]

end

/-! ### Interrupts -/

/-- Signalling a vector changes nothing but the function's interrupt state and the messages sent. -/
theorem signal_eq (s : State) (fn v : Nat) : ∃ fs sg, signal s fn v = { s with host := { s.host with funcs := fs, signals := sg } } := by
  unfold signal
  extract_lets f recent s1
  by_cases h : (vecMasked f v || recent) = true
  · rw [if_pos h]; exact ⟨_, _, rfl⟩
  · rw [if_neg h]; exact ⟨_, _, rfl⟩

/-- A change of status, with its record and its interrupt, changes nothing but these. -/
theorem change_eq (s : State) (f : FnId) (x : FnState) : ∃ tn qs ks gs fs te fu sg,
    change s f x = { s with host := { s.host with tenants := tn, queues := qs, kettles := ks, staging := gs, funcs := fu, signals := sg },
                            rel := { s.rel with fns := fs }, tele := te } := by
  obtain ⟨tn, qs, ks, gs, fs, te, h⟩ := moveFn_eq s f x
  unfold change tenantSignal
  rw [h]
  split
  · exact ⟨tn, qs, ks, gs, fs, te, s.host.funcs, s.host.signals, rfl⟩
  · split
    · split
      next r _ =>
        obtain ⟨fu, sg, h2⟩ := signal_eq { s with host := { s.host with tenants := tn, queues := qs, kettles := ks, staging := gs }, rel := { s.rel with fns := fs }, tele := te } r.function 0
        exact ⟨tn, qs, ks, gs, fs, te, fu, sg, h2⟩
      next => exact ⟨tn, qs, ks, gs, fs, te, s.host.funcs, s.host.signals, rfl⟩
    · exact ⟨tn, qs, ks, gs, fs, te, s.host.funcs, s.host.signals, rfl⟩

theorem fnState_signal (s : State) (fn v : Nat) (f : FnId) : fnState (signal s fn v) f = fnState s f := by
  obtain ⟨fs, sg, h⟩ := signal_eq s fn v
  rw [h]; cases f <;> rfl

@[simp] theorem fnState_change (s : State) (f : FnId) (x : FnState) : fnState (change s f x) f = x := by
  unfold change tenantSignal
  split
  · simp
  · split
    · split
      · rw [fnState_signal]; simp
      · simp
    · simp

section
variable (s : State) (f : FnId) (x : FnState) (fn v : Nat)

@[simp] theorem change_order : (change s f x).order = s.order := by obtain ⟨tn, qs, ks, gs, fs, te, fu, sg, h⟩ := change_eq s f x; rw [h]
@[simp] theorem change_fuses : (change s f x).fuses = s.fuses := by obtain ⟨tn, qs, ks, gs, fs, te, fu, sg, h⟩ := change_eq s f x; rw [h]
@[simp] theorem change_image : (change s f x).image = s.image := by obtain ⟨tn, qs, ks, gs, fs, te, fu, sg, h⟩ := change_eq s f x; rw [h]
@[simp] theorem change_nvmFitted : (change s f x).nvmFitted = s.nvmFitted := by obtain ⟨tn, qs, ks, gs, fs, te, fu, sg, h⟩ := change_eq s f x; rw [h]
@[simp] theorem change_nvm : (change s f x).nvm = s.nvm := by obtain ⟨tn, qs, ks, gs, fs, te, fu, sg, h⟩ := change_eq s f x; rw [h]
@[simp] theorem change_hostMem : (change s f x).hostMem = s.hostMem := by obtain ⟨tn, qs, ks, gs, fs, te, fu, sg, h⟩ := change_eq s f x; rw [h]
@[simp] theorem change_time : (change s f x).time = s.time := by obtain ⟨tn, qs, ks, gs, fs, te, fu, sg, h⟩ := change_eq s f x; rw [h]
@[simp] theorem change_mono : (change s f x).mono = s.mono := by obtain ⟨tn, qs, ks, gs, fs, te, fu, sg, h⟩ := change_eq s f x; rw [h]
@[simp] theorem change_free : (change s f x).free = s.free := by obtain ⟨tn, qs, ks, gs, fs, te, fu, sg, h⟩ := change_eq s f x; rw [h]
@[simp] theorem change_pending : (change s f x).pending = s.pending := by obtain ⟨tn, qs, ks, gs, fs, te, fu, sg, h⟩ := change_eq s f x; rw [h]
@[simp] theorem change_boot : (change s f x).boot = s.boot := by obtain ⟨tn, qs, ks, gs, fs, te, fu, sg, h⟩ := change_eq s f x; rw [h]
@[simp] theorem change_mgmt : (change s f x).mgmt = s.mgmt := by obtain ⟨tn, qs, ks, gs, fs, te, fu, sg, h⟩ := change_eq s f x; rw [h]
@[simp] theorem change_gov : (change s f x).gov = s.gov := by obtain ⟨tn, qs, ks, gs, fs, te, fu, sg, h⟩ := change_eq s f x; rw [h]
@[simp] theorem change_sec : (change s f x).sec = s.sec := by obtain ⟨tn, qs, ks, gs, fs, te, fu, sg, h⟩ := change_eq s f x; rw [h]
@[simp] theorem change_tier : (change s f x).tier = s.tier := by obtain ⟨tn, qs, ks, gs, fs, te, fu, sg, h⟩ := change_eq s f x; rw [h]
@[simp] theorem change_req : (change s f x).req = s.req := by obtain ⟨tn, qs, ks, gs, fs, te, fu, sg, h⟩ := change_eq s f x; rw [h]
@[simp] theorem change_comp : (change s f x).comp = s.comp := by obtain ⟨tn, qs, ks, gs, fs, te, fu, sg, h⟩ := change_eq s f x; rw [h]
@[simp] theorem change_fab : (change s f x).fab = s.fab := by obtain ⟨tn, qs, ks, gs, fs, te, fu, sg, h⟩ := change_eq s f x; rw [h]
@[simp] theorem change_xport : (change s f x).xport = s.xport := by obtain ⟨tn, qs, ks, gs, fs, te, fu, sg, h⟩ := change_eq s f x; rw [h]
@[simp] theorem change_tray : (change s f x).tray = s.tray := by obtain ⟨tn, qs, ks, gs, fs, te, fu, sg, h⟩ := change_eq s f x; rw [h]
@[simp] theorem change_shape : (change s f x).shape = s.shape := by obtain ⟨tn, qs, ks, gs, fs, te, fu, sg, h⟩ := change_eq s f x; rw [h]
@[simp] theorem change_host_link : (change s f x).host.link = s.host.link := by obtain ⟨tn, qs, ks, gs, fs, te, fu, sg, h⟩ := change_eq s f x; rw [h]
@[simp] theorem change_host_numVFs : (change s f x).host.numVFs = s.host.numVFs := by obtain ⟨tn, qs, ks, gs, fs, te, fu, sg, h⟩ := change_eq s f x; rw [h]
@[simp] theorem change_host_bar : (change s f x).host.bar = s.host.bar := by obtain ⟨tn, qs, ks, gs, fs, te, fu, sg, h⟩ := change_eq s f x; rw [h]
@[simp] theorem change_host_vfBar : (change s f x).host.vfBar = s.host.vfBar := by obtain ⟨tn, qs, ks, gs, fs, te, fu, sg, h⟩ := change_eq s f x; rw [h]
@[simp] theorem change_host_nextStart : (change s f x).host.nextStart = s.host.nextStart := by obtain ⟨tn, qs, ks, gs, fs, te, fu, sg, h⟩ := change_eq s f x; rw [h]
@[simp] theorem change_host_fetchPtr : (change s f x).host.fetchPtr = s.host.fetchPtr := by obtain ⟨tn, qs, ks, gs, fs, te, fu, sg, h⟩ := change_eq s f x; rw [h]
@[simp] theorem change_host_slots : (change s f x).host.slots = s.host.slots := by obtain ⟨tn, qs, ks, gs, fs, te, fu, sg, h⟩ := change_eq s f x; rw [h]
@[simp] theorem change_host_nextSlot : (change s f x).host.nextSlot = s.host.nextSlot := by obtain ⟨tn, qs, ks, gs, fs, te, fu, sg, h⟩ := change_eq s f x; rw [h]
@[simp] theorem change_host_due : (change s f x).host.due = s.host.due := by obtain ⟨tn, qs, ks, gs, fs, te, fu, sg, h⟩ := change_eq s f x; rw [h]
@[simp] theorem change_host_ops : (change s f x).host.ops = s.host.ops := by obtain ⟨tn, qs, ks, gs, fs, te, fu, sg, h⟩ := change_eq s f x; rw [h]
@[simp] theorem change_host_nextOp : (change s f x).host.nextOp = s.host.nextOp := by obtain ⟨tn, qs, ks, gs, fs, te, fu, sg, h⟩ := change_eq s f x; rw [h]
@[simp] theorem change_host_jobs : (change s f x).host.jobs = s.host.jobs := by obtain ⟨tn, qs, ks, gs, fs, te, fu, sg, h⟩ := change_eq s f x; rw [h]
@[simp] theorem change_host_jobHigh : (change s f x).host.jobHigh = s.host.jobHigh := by obtain ⟨tn, qs, ks, gs, fs, te, fu, sg, h⟩ := change_eq s f x; rw [h]
@[simp] theorem change_host_batches : (change s f x).host.batches = s.host.batches := by obtain ⟨tn, qs, ks, gs, fs, te, fu, sg, h⟩ := change_eq s f x; rw [h]
@[simp] theorem change_host_badLines : (change s f x).host.badLines = s.host.badLines := by obtain ⟨tn, qs, ks, gs, fs, te, fu, sg, h⟩ := change_eq s f x; rw [h]
@[simp] theorem change_host_readData : (change s f x).host.readData = s.host.readData := by obtain ⟨tn, qs, ks, gs, fs, te, fu, sg, h⟩ := change_eq s f x; rw [h]
@[simp] theorem change_rel_inReset : (change s f x).rel.inReset = s.rel.inReset := by obtain ⟨tn, qs, ks, gs, fs, te, fu, sg, h⟩ := change_eq s f x; rw [h]
@[simp] theorem change_rel_ladleAt : (change s f x).rel.ladleAt = s.rel.ladleAt := by obtain ⟨tn, qs, ks, gs, fs, te, fu, sg, h⟩ := change_eq s f x; rw [h]
@[simp] theorem change_rel_health : (change s f x).rel.health = s.rel.health := by obtain ⟨tn, qs, ks, gs, fs, te, fu, sg, h⟩ := change_eq s f x; rw [h]
@[simp] theorem change_rel_spares : (change s f x).rel.spares = s.rel.spares := by obtain ⟨tn, qs, ks, gs, fs, te, fu, sg, h⟩ := change_eq s f x; rw [h]
@[simp] theorem change_rel_injections : (change s f x).rel.injections = s.rel.injections := by obtain ⟨tn, qs, ks, gs, fs, te, fu, sg, h⟩ := change_eq s f x; rw [h]
@[simp] theorem change_rel_whiskFails : (change s f x).rel.whiskFails = s.rel.whiskFails := by obtain ⟨tn, qs, ks, gs, fs, te, fu, sg, h⟩ := change_eq s f x; rw [h]
@[simp] theorem change_rel_retries : (change s f x).rel.retries = s.rel.retries := by obtain ⟨tn, qs, ks, gs, fs, te, fu, sg, h⟩ := change_eq s f x; rw [h]
@[simp] theorem change_rel_halfWidth : (change s f x).rel.halfWidth = s.rel.halfWidth := by obtain ⟨tn, qs, ks, gs, fs, te, fu, sg, h⟩ := change_eq s f x; rw [h]
@[simp] theorem change_rel_subwindow : (change s f x).rel.subwindow = s.rel.subwindow := by obtain ⟨tn, qs, ks, gs, fs, te, fu, sg, h⟩ := change_eq s f x; rw [h]
@[simp] theorem change_rel_scrubbed : (change s f x).rel.scrubbed = s.rel.scrubbed := by obtain ⟨tn, qs, ks, gs, fs, te, fu, sg, h⟩ := change_eq s f x; rw [h]
@[simp] theorem change_rel_quarantined : (change s f x).rel.quarantined = s.rel.quarantined := by obtain ⟨tn, qs, ks, gs, fs, te, fu, sg, h⟩ := change_eq s f x; rw [h]
@[simp] theorem change_rel_heartbeats : (change s f x).rel.heartbeats = s.rel.heartbeats := by obtain ⟨tn, qs, ks, gs, fs, te, fu, sg, h⟩ := change_eq s f x; rw [h]
@[simp] theorem change_rel_kind3At : (change s f x).rel.kind3At = s.rel.kind3At := by obtain ⟨tn, qs, ks, gs, fs, te, fu, sg, h⟩ := change_eq s f x; rw [h]
@[simp] theorem change_rel_lastBeat : (change s f x).rel.lastBeat = s.rel.lastBeat := by obtain ⟨tn, qs, ks, gs, fs, te, fu, sg, h⟩ := change_eq s f x; rw [h]
@[simp] theorem change_rel_primaryTo : (change s f x).rel.primaryTo = s.rel.primaryTo := by obtain ⟨tn, qs, ks, gs, fs, te, fu, sg, h⟩ := change_eq s f x; rw [h]
@[simp] theorem change_rel_mirrorSeq : (change s f x).rel.mirrorSeq = s.rel.mirrorSeq := by obtain ⟨tn, qs, ks, gs, fs, te, fu, sg, h⟩ := change_eq s f x; rw [h]
@[simp] theorem change_rel_mirrors : (change s f x).rel.mirrors = s.rel.mirrors := by obtain ⟨tn, qs, ks, gs, fs, te, fu, sg, h⟩ := change_eq s f x; rw [h]
@[simp] theorem change_rel_shadowOf : (change s f x).rel.shadowOf = s.rel.shadowOf := by obtain ⟨tn, qs, ks, gs, fs, te, fu, sg, h⟩ := change_eq s f x; rw [h]
@[simp] theorem change_rel_shadowSeq : (change s f x).rel.shadowSeq = s.rel.shadowSeq := by obtain ⟨tn, qs, ks, gs, fs, te, fu, sg, h⟩ := change_eq s f x; rw [h]
@[simp] theorem change_rel_clean : (change s f x).rel.clean = s.rel.clean := by obtain ⟨tn, qs, ks, gs, fs, te, fu, sg, h⟩ := change_eq s f x; rw [h]
@[simp] theorem change_rel_admitted : (change s f x).rel.admitted = s.rel.admitted := by obtain ⟨tn, qs, ks, gs, fs, te, fu, sg, h⟩ := change_eq s f x; rw [h]
@[simp] theorem change_rel_tReady : (change s f x).rel.tReady = s.rel.tReady := by obtain ⟨tn, qs, ks, gs, fs, te, fu, sg, h⟩ := change_eq s f x; rw [h]
@[simp] theorem change_rel_tLost : (change s f x).rel.tLost = s.rel.tLost := by obtain ⟨tn, qs, ks, gs, fs, te, fu, sg, h⟩ := change_eq s f x; rw [h]
@[simp] theorem change_rel_tRecovery : (change s f x).rel.tRecovery = s.rel.tRecovery := by obtain ⟨tn, qs, ks, gs, fs, te, fu, sg, h⟩ := change_eq s f x; rw [h]
@[simp] theorem change_rel_tIsland : (change s f x).rel.tIsland = s.rel.tIsland := by obtain ⟨tn, qs, ks, gs, fs, te, fu, sg, h⟩ := change_eq s f x; rw [h]
@[simp] theorem change_rel_tSpare : (change s f x).rel.tSpare = s.rel.tSpare := by obtain ⟨tn, qs, ks, gs, fs, te, fu, sg, h⟩ := change_eq s f x; rw [h]
@[simp] theorem change_rel_tLink : (change s f x).rel.tLink = s.rel.tLink := by obtain ⟨tn, qs, ks, gs, fs, te, fu, sg, h⟩ := change_eq s f x; rw [h]
@[simp] theorem signal_order : (signal s fn v).order = s.order := by obtain ⟨fs, sg, h⟩ := signal_eq s fn v; rw [h]
@[simp] theorem signal_fuses : (signal s fn v).fuses = s.fuses := by obtain ⟨fs, sg, h⟩ := signal_eq s fn v; rw [h]
@[simp] theorem signal_image : (signal s fn v).image = s.image := by obtain ⟨fs, sg, h⟩ := signal_eq s fn v; rw [h]
@[simp] theorem signal_nvmFitted : (signal s fn v).nvmFitted = s.nvmFitted := by obtain ⟨fs, sg, h⟩ := signal_eq s fn v; rw [h]
@[simp] theorem signal_nvm : (signal s fn v).nvm = s.nvm := by obtain ⟨fs, sg, h⟩ := signal_eq s fn v; rw [h]
@[simp] theorem signal_hostMem : (signal s fn v).hostMem = s.hostMem := by obtain ⟨fs, sg, h⟩ := signal_eq s fn v; rw [h]
@[simp] theorem signal_time : (signal s fn v).time = s.time := by obtain ⟨fs, sg, h⟩ := signal_eq s fn v; rw [h]
@[simp] theorem signal_mono : (signal s fn v).mono = s.mono := by obtain ⟨fs, sg, h⟩ := signal_eq s fn v; rw [h]
@[simp] theorem signal_free : (signal s fn v).free = s.free := by obtain ⟨fs, sg, h⟩ := signal_eq s fn v; rw [h]
@[simp] theorem signal_pending : (signal s fn v).pending = s.pending := by obtain ⟨fs, sg, h⟩ := signal_eq s fn v; rw [h]
@[simp] theorem signal_boot : (signal s fn v).boot = s.boot := by obtain ⟨fs, sg, h⟩ := signal_eq s fn v; rw [h]
@[simp] theorem signal_mgmt : (signal s fn v).mgmt = s.mgmt := by obtain ⟨fs, sg, h⟩ := signal_eq s fn v; rw [h]
@[simp] theorem signal_gov : (signal s fn v).gov = s.gov := by obtain ⟨fs, sg, h⟩ := signal_eq s fn v; rw [h]
@[simp] theorem signal_sec : (signal s fn v).sec = s.sec := by obtain ⟨fs, sg, h⟩ := signal_eq s fn v; rw [h]
@[simp] theorem signal_tier : (signal s fn v).tier = s.tier := by obtain ⟨fs, sg, h⟩ := signal_eq s fn v; rw [h]
@[simp] theorem signal_req : (signal s fn v).req = s.req := by obtain ⟨fs, sg, h⟩ := signal_eq s fn v; rw [h]
@[simp] theorem signal_comp : (signal s fn v).comp = s.comp := by obtain ⟨fs, sg, h⟩ := signal_eq s fn v; rw [h]
@[simp] theorem signal_fab : (signal s fn v).fab = s.fab := by obtain ⟨fs, sg, h⟩ := signal_eq s fn v; rw [h]
@[simp] theorem signal_xport : (signal s fn v).xport = s.xport := by obtain ⟨fs, sg, h⟩ := signal_eq s fn v; rw [h]
@[simp] theorem signal_tray : (signal s fn v).tray = s.tray := by obtain ⟨fs, sg, h⟩ := signal_eq s fn v; rw [h]
@[simp] theorem signal_shape : (signal s fn v).shape = s.shape := by obtain ⟨fs, sg, h⟩ := signal_eq s fn v; rw [h]
@[simp] theorem signal_rel : (signal s fn v).rel = s.rel := by obtain ⟨fs, sg, h⟩ := signal_eq s fn v; rw [h]
@[simp] theorem signal_tele : (signal s fn v).tele = s.tele := by obtain ⟨fs, sg, h⟩ := signal_eq s fn v; rw [h]
@[simp] theorem signal_host_link : (signal s fn v).host.link = s.host.link := by obtain ⟨fs, sg, h⟩ := signal_eq s fn v; rw [h]
@[simp] theorem signal_host_numVFs : (signal s fn v).host.numVFs = s.host.numVFs := by obtain ⟨fs, sg, h⟩ := signal_eq s fn v; rw [h]
@[simp] theorem signal_host_bar : (signal s fn v).host.bar = s.host.bar := by obtain ⟨fs, sg, h⟩ := signal_eq s fn v; rw [h]
@[simp] theorem signal_host_vfBar : (signal s fn v).host.vfBar = s.host.vfBar := by obtain ⟨fs, sg, h⟩ := signal_eq s fn v; rw [h]
@[simp] theorem signal_host_nextStart : (signal s fn v).host.nextStart = s.host.nextStart := by obtain ⟨fs, sg, h⟩ := signal_eq s fn v; rw [h]
@[simp] theorem signal_host_tenants : (signal s fn v).host.tenants = s.host.tenants := by obtain ⟨fs, sg, h⟩ := signal_eq s fn v; rw [h]
@[simp] theorem signal_host_queues : (signal s fn v).host.queues = s.host.queues := by obtain ⟨fs, sg, h⟩ := signal_eq s fn v; rw [h]
@[simp] theorem signal_host_fetchPtr : (signal s fn v).host.fetchPtr = s.host.fetchPtr := by obtain ⟨fs, sg, h⟩ := signal_eq s fn v; rw [h]
@[simp] theorem signal_host_slots : (signal s fn v).host.slots = s.host.slots := by obtain ⟨fs, sg, h⟩ := signal_eq s fn v; rw [h]
@[simp] theorem signal_host_nextSlot : (signal s fn v).host.nextSlot = s.host.nextSlot := by obtain ⟨fs, sg, h⟩ := signal_eq s fn v; rw [h]
@[simp] theorem signal_host_due : (signal s fn v).host.due = s.host.due := by obtain ⟨fs, sg, h⟩ := signal_eq s fn v; rw [h]
@[simp] theorem signal_host_ops : (signal s fn v).host.ops = s.host.ops := by obtain ⟨fs, sg, h⟩ := signal_eq s fn v; rw [h]
@[simp] theorem signal_host_nextOp : (signal s fn v).host.nextOp = s.host.nextOp := by obtain ⟨fs, sg, h⟩ := signal_eq s fn v; rw [h]
@[simp] theorem signal_host_jobs : (signal s fn v).host.jobs = s.host.jobs := by obtain ⟨fs, sg, h⟩ := signal_eq s fn v; rw [h]
@[simp] theorem signal_host_jobHigh : (signal s fn v).host.jobHigh = s.host.jobHigh := by obtain ⟨fs, sg, h⟩ := signal_eq s fn v; rw [h]
@[simp] theorem signal_host_batches : (signal s fn v).host.batches = s.host.batches := by obtain ⟨fs, sg, h⟩ := signal_eq s fn v; rw [h]
@[simp] theorem signal_host_badLines : (signal s fn v).host.badLines = s.host.badLines := by obtain ⟨fs, sg, h⟩ := signal_eq s fn v; rw [h]
@[simp] theorem signal_host_readData : (signal s fn v).host.readData = s.host.readData := by obtain ⟨fs, sg, h⟩ := signal_eq s fn v; rw [h]
@[simp] theorem signal_host_kettles : (signal s fn v).host.kettles = s.host.kettles := by obtain ⟨fs, sg, h⟩ := signal_eq s fn v; rw [h]
@[simp] theorem signal_host_staging : (signal s fn v).host.staging = s.host.staging := by obtain ⟨fs, sg, h⟩ := signal_eq s fn v; rw [h]

end

end Sys2Proof.Machine
end

