-- ==== Sys2Proof/Laws/Commands.lean ====
section
/-!
SUPPORT. How a host command begins: the frame that every one runs in, and the route of one that may be forwarded.
-/
namespace Sys2Proof.Laws
open Sys2Proof.Machine

/-- A command that starts runs its own rule in the state in which it begins. -/
theorem runCmd_starts {op : Nat} {c : Cmd} {s s1 : State} {id : Nat} (h : Starts op c s id s1) (body : Bool → Nat → State → State) :
    runCmd op c s body = body false id (begun s1 id c) := by
  obtain ⟨h1, h2, h3⟩ := h
  simp only [runCmd, h1, ne_eq, not_true_eq_false, if_false, h2, h3]
  rfl

/-- A command that fails a check of the accepting module ends with its code. -/
theorem runCmd_checked {op : Nat} {c : Cmd} {s s1 : State} {id e : Nat} (h1 : opcodeOf c = op) (h2 : claim s c = some (id, s1))
    (h3 : hostChecks s1 c = some e) (body : Bool → Nat → State → State) : runCmd op c s body = fail s1 id e := by
  simp only [runCmd, h1, ne_eq, not_true_eq_false, if_false, h2, h3]

/-- A command of another OPCODE is not the row's. -/
theorem runCmd_other {op : Nat} {c : Cmd} {s : State} (h : opcodeOf c ≠ op) (body : Bool → Nat → State → State) : runCmd op c s body = s := by
  simp [runCmd, h]

/-- A command whose members are owned here goes on here. -/
theorem routed_here {s : State} {id : Nat} {c : Cmd} (h : routeOf s id c = .here) (k : Bool → State → State) :
    routed s id c false k = k false (noteStart (noteArrival (keepGone s id) id) id) := by
  simp [routed, h]

/-- A command that starts and runs here runs its own rule in `here`. -/
theorem runCmd_here {op : Nat} {c : Cmd} {s s1 : State} {id : Nat} (h : StartsHere op c s id s1) (k : Bool → Nat → Bool → State → State) :
    (runCmd op c s fun again id s => routed s id c again (k again id)) = k false id false (here s1 id c) := by
  rw [runCmd_starts h.1, routed_here h.2]; rfl

end Sys2Proof.Laws
end

