-- ==== Sys2Proof/Laws/Memory.lean ====
section
/-!
SUPPORT. Laws of the byte memories: what a read gives after a write, and that every operation keeps the canonical form.
-/
namespace Sys2Proof.Machine.Memory

/-- A memory from a lower bound on is a memory from any smaller bound on. -/
theorem wfFrom_mono {lo lo' : Nat} (h : lo' ≤ lo) : ∀ {m : Memory}, m.wfFrom lo = true → m.wfFrom lo' = true
  | [], _ => rfl
  | (a, b) :: r, hm => by
    simp only [wfFrom, Bool.and_eq_true, decide_eq_true_eq] at hm ⊢
    exact ⟨⟨le_trans h hm.1.1, hm.1.2⟩, hm.2⟩

/-- Below its first address a memory reads as 0. -/
theorem read_below {lo a : Nat} (h : a < lo) : ∀ {m : Memory}, m.wfFrom lo = true → m.read a = 0
  | [], _ => rfl
  | (a', b) :: r, hm => by
    simp only [wfFrom, Bool.and_eq_true, decide_eq_true_eq] at hm
    have hne : a' ≠ a := by omega
    simp only [read, hne, if_false]
    exact read_below (lo := a' + 1) (by omega) hm.2

theorem write_wfFrom {lo a : Nat} {b : Byte} (h : lo ≤ a) : ∀ {m : Memory}, m.wfFrom lo = true → (m.write a b).wfFrom lo = true
  | [], _ => by
    unfold write
    split
    · rfl
    · simp_all [wfFrom]
  | (a', b') :: r, hm => by
    simp only [wfFrom, Bool.and_eq_true, decide_eq_true_eq] at hm
    obtain ⟨⟨h1, h2⟩, h3⟩ := hm
    unfold write
    split
    · split
      · simp_all [wfFrom]
      · simp_all [wfFrom]
    · split
      · split
        · exact wfFrom_mono (by omega) h3
        · subst_vars; simp_all [wfFrom]
      · simp only [wfFrom, Bool.and_eq_true, decide_eq_true_eq]
        exact ⟨⟨h1, h2⟩, write_wfFrom (by omega) h3⟩

/-- A write keeps the canonical form. -/
theorem write_wf {m : Memory} (h : m.wf = true) (a : Nat) (b : Byte) : (m.write a b).wf = true := write_wfFrom (Nat.zero_le a) h

theorem writeBytes_wf : ∀ (bs : List Byte) {m : Memory} (_ : m.wf = true) (a : Nat), (m.writeBytes a bs).wf = true
  | [], _, h, _ => h
  | b :: bs, _, h, a => writeBytes_wf bs (write_wf h a b) (a + 1)

theorem place_wf : ∀ (l : List Host.Cell) {m : Memory} (_ : m.wf = true), (m.place l).wf = true
  | [], _, h => h
  | (a, b) :: r, _, h => place_wf r (write_wf h a b)

theorem filter_wfFrom (p : Host.Cell → Bool) : ∀ {lo : Nat} {m : Memory}, m.wfFrom lo = true → Memory.wfFrom lo (m.filter p) = true
  | _, [], _ => rfl
  | lo, (a, b) :: r, hm => by
    simp only [wfFrom, Bool.and_eq_true, decide_eq_true_eq] at hm
    simp only [List.filter_cons]
    split
    · simp only [wfFrom, Bool.and_eq_true, decide_eq_true_eq]
      exact ⟨hm.1, filter_wfFrom p hm.2⟩
    · exact wfFrom_mono (by omega) (filter_wfFrom p hm.2)

theorem clear_wf {m : Memory} (h : m.wf = true) (a n : Nat) : (m.clear a n).wf = true := filter_wfFrom _ h

theorem canonFrom_wfFrom : ∀ (m : Memory) (lo : Nat), (canonFrom lo m).wfFrom lo = true
  | [], _ => rfl
  | (a, b) :: r, lo => by
    unfold canonFrom
    by_cases h1 : a < lo
    · simpa [h1] using canonFrom_wfFrom r lo
    · by_cases h2 : b = 0
      · simpa [h2] using canonFrom_wfFrom r lo
      · have h3 : lo ≤ a := Nat.le_of_not_lt h1
        simp only [h1, h2, decide_false, Bool.or_self, Bool.false_eq_true, if_false, wfFrom, h3, decide_true, Bool.true_and, ne_eq,
          not_false_eq_true]
        exact canonFrom_wfFrom r (a + 1)

theorem canonFrom_of_wfFrom : ∀ {m : Memory} {lo : Nat}, m.wfFrom lo = true → canonFrom lo m = m
  | [], _, _ => rfl
  | (a, b) :: r, lo, hm => by
    simp only [wfFrom, Bool.and_eq_true, decide_eq_true_eq] at hm
    obtain ⟨⟨h1, h2⟩, h3⟩ := hm
    have h4 : ¬ a < lo := Nat.not_lt.mpr h1
    have h5 : (decide (a < lo) || decide (b = 0)) = false := by simp only [h4, h2, decide_false, Bool.or_self]
    unfold canonFrom
    rw [canonFrom_of_wfFrom h3]
    simp only [h5, Bool.false_eq_true, if_false]

/-- The canonical form of any list of cells is canonical. -/
theorem canon_wf (m : Memory) : m.canon.wf = true := canonFrom_wfFrom m 0

/-- A memory in canonical form is its own canonical form. -/
theorem canon_of_wf {m : Memory} (h : m.wf = true) : m.canon = m := canonFrom_of_wfFrom h

theorem read_cons (a x : Nat) (b : Byte) (r : Memory) : read ((a, b) :: r) x = if a = x then b else read r x := rfl

theorem read_writeFrom {lo a x : Nat} {b : Byte} (h : lo ≤ a) :
    ∀ {m : Memory}, m.wfFrom lo = true → (m.write a b).read x = if x = a then b else m.read x
  | [], _ => by
    unfold write
    by_cases hb : b = 0
    · by_cases hx : x = a <;> simp only [hb, hx, if_true, if_false, read]
    · by_cases hx : x = a
      · simp only [hb, hx, if_true, if_false, read]
      · have hne : ¬ a = x := fun e => hx e.symm
        simp only [hb, hx, if_false, read, hne]
  | (a', b') :: r, hm => by
    simp only [wfFrom, Bool.and_eq_true, decide_eq_true_eq] at hm
    obtain ⟨⟨h1, h2⟩, h3⟩ := hm
    unfold write
    split
    next hlt =>
      by_cases hb : b = 0
      · by_cases hx : x = a
        · have hne : ¬ a' = a := by omega
          have hz := read_below (a := a) (lo := a' + 1) (by omega) h3
          simp only [hb, hx, if_true, read_cons, hne, if_false, hz]
        · simp only [hb, hx, if_true, if_false]
      · by_cases hx : x = a
        · simp only [hb, hx, if_true, if_false, read_cons]
        · have hne : ¬ a = x := fun e => hx e.symm
          simp only [hb, hx, if_false, read_cons, hne]
    next hge =>
      split
      next heq =>
        subst heq
        by_cases hx : x = a
        · have hz := read_below (a := a) (lo := a + 1) (by omega) h3
          by_cases hb : b = 0
          · simp only [hb, hx, if_true, hz]
          · simp only [hb, hx, if_true, if_false, read_cons]
        · have hne : ¬ a = x := fun e => hx e.symm
          by_cases hb : b = 0
          · simp only [hb, hx, if_true, if_false, read_cons, hne]
          · simp only [hb, hx, if_false, read_cons, hne]
      next hne =>
        have ih := read_writeFrom (lo := a' + 1) (a := a) (x := x) (b := b) (by omega) h3
        rw [read_cons, read_cons, ih]
        by_cases hx' : a' = x
        · have : ¬ x = a := by omega
          simp only [hx', this, if_true, if_false]
        · simp only [hx', if_false]

/-- A read after a write: the byte written at its address, the byte before elsewhere. -/
theorem read_write {m : Memory} (h : m.wf = true) (a x : Nat) (b : Byte) : (m.write a b).read x = if x = a then b else m.read x :=
  read_writeFrom (Nat.zero_le a) h

/-- Outside the bytes written, a read gives what it gave before. -/
theorem read_writeBytes_outside : ∀ (bs : List Byte) {m : Memory} (_ : m.wf = true) {a x : Nat} (_ : x < a ∨ a + bs.length ≤ x),
    (m.writeBytes a bs).read x = m.read x
  | [], _, _, _, _, _ => rfl
  | b :: bs, m, h, a, x, hx => by
    have hx' : x < a ∨ a + (bs.length + 1) ≤ x := by simpa using hx
    have h1 := read_writeBytes_outside bs (write_wf h a b) (a := a + 1) (x := x) (by omega)
    have h2 : x ≠ a := by omega
    simp [writeBytes, h1, read_write h, h2]

/-- Within the bytes written, a read gives them. -/
theorem read_writeBytes_inside : ∀ (bs : List Byte) {m : Memory} (_ : m.wf = true) {a i : Nat} (hi : i < bs.length),
    (m.writeBytes a bs).read (a + i) = bs[i]
  | b :: bs, m, h, a, 0, _ => by
    simp only [writeBytes, Nat.add_zero, List.getElem_cons_zero]
    rw [read_writeBytes_outside bs (write_wf h a b) (by omega)]
    simp [read_write h]
  | b :: bs, m, h, a, i + 1, hi => by
    have hi' : i < bs.length := by simpa using hi
    have h1 := read_writeBytes_inside bs (write_wf h a b) (a := a + 1) hi'
    have : a + (i + 1) = a + 1 + i := by omega
    simp only [writeBytes, this, h1, List.getElem_cons_succ]

end Sys2Proof.Machine.Memory
end

