-- ==== Sys2Proof/Laws/Step.lean ====
section
/-!
SUPPORT. What one step can do: every command answers a next state, of one of the forms of `Change`.
-/
namespace Sys2Proof.Laws
open Machine

/-- The outcome is a next state of one of the forms of `Change`. -/
def Ok (i : Instr) (s : State) (o : Host.Outcome State Fault Refusal) : Prop := ∃ t, o = .next t ∧ Change i s t

theorem ok_same (i : Instr) (s : State) : Ok i s (.next s) := ⟨s, rfl, .quiet s⟩
theorem ok_quiet (i : Instr) (s u : State) : Ok i s (quiet s u) := ⟨_, rfl, .quiet u⟩
theorem ok_ordinary {i : Instr} (h : writesHost i = true) (s u : State) : Ok i s (ordinary s u) := ⟨_, rfl, .ordinary u h⟩
theorem ok_clocked {i : Instr} (h : stepsTime i = true) (h2 : writesHost i = true) (s u : State) : Ok i s (clocked s u) := ⟨_, rfl, .clocked u h h2⟩
theorem ok_fusing {i : Instr} (h : blowsFuses i = true) (s u : State) : Ok i s (fusing s u) := ⟨_, rfl, .fusing u h⟩
theorem ok_reset {i : Instr} (h : resetsAll i = true) (s u : State) : Ok i s (.next (s.afterReset u)) := ⟨_, rfl, .afterReset u h⟩

theorem fabricTrainingEnd_ok (s : State) : Ok (.fabricTrainingEnd) s (execFabricTrainingEnd s) := by
  unfold execFabricTrainingEnd
  repeat' split
  all_goals first | with_reducible exact ok_same _ _ | with_reducible exact ok_quiet _ _ _
theorem enterReady_ok (s : State) : Ok (.enterReady) s (execEnterReady s) := by
  unfold execEnterReady
  repeat' split
  all_goals first | with_reducible exact ok_same _ _ | with_reducible exact ok_quiet _ _ _ | with_reducible exact ok_fusing rfl _ _
theorem emergencyStop_ok (cause : StopCause) (s : State) : Ok (.emergencyStop cause) s (execEmergencyStop cause s) := ok_quiet _ _ _
theorem stopRampEnd_ok (s : State) : Ok (.stopRampEnd) s (execStopRampEnd s) := by
  unfold execStopRampEnd
  repeat' split
  all_goals first | with_reducible exact ok_same _ _ | with_reducible exact ok_quiet _ _ _ | with_reducible exact ok_reset rfl _ _
theorem modResetLow_ok (ns : Nat) (s : State) : Ok (.modResetLow ns) s (execModResetLow ns s) := by
  unfold execModResetLow
  dsimp only
  repeat' split
  all_goals first | with_reducible exact ok_same _ _ | with_reducible exact ok_quiet _ _ _
theorem pwrOkLow_ok (ns : Nat) (s : State) : Ok (.pwrOkLow ns) s (execPwrOkLow ns s) := by
  unfold execPwrOkLow
  dsimp only
  repeat' split
  all_goals first | with_reducible exact ok_same _ _ | with_reducible exact ok_quiet _ _ _
theorem perstN_ok (s : State) : Ok (.perstN) s (execPerstN s) := by
  unfold execPerstN
  dsimp only
  repeat' split
  all_goals first | with_reducible exact ok_same _ _ | with_reducible exact ok_quiet _ _ _
theorem hostLinkTrained_ok (width : Nat) (rate : Nat) (flit : Bool) (s : State) : Ok (.hostLinkTrained width rate flit) s (execHostLinkTrained width rate flit s) := by
  unfold execHostLinkTrained
  dsimp only
  repeat' split
  all_goals first | with_reducible exact ok_same _ _ | with_reducible exact ok_quiet _ _ _
theorem sensorTrip_ok (sensor : Nat) (s : State) : Ok (.sensorTrip sensor) s (execSensorTrip sensor s) := by
  unfold execSensorTrip
  repeat' split
  all_goals first | with_reducible exact ok_same _ _ | with_reducible exact ok_quiet _ _ _
theorem junctionThrottle_ok (sensor : Nat) (tj : Int) (s : State) : Ok (.junctionThrottle sensor tj) s (execJunctionThrottle sensor tj s) := by
  unfold execJunctionThrottle
  dsimp only
  repeat' split
  all_goals first | with_reducible exact ok_same _ _ | with_reducible exact ok_quiet _ _ _
theorem thermalStopRelease_ok (ns : Nat) (s : State) : Ok (.thermalStopRelease ns) s (execThermalStopRelease ns s) := by
  unfold execThermalStopRelease
  repeat' split
  all_goals first | with_reducible exact ok_same _ _ | with_reducible exact ok_quiet _ _ _
theorem boundaryScanInstruction_ok (code : ScanInstr) (s : State) : Ok (.boundaryScanInstruction code) s (execBoundaryScanInstruction code s) := by
  unfold execBoundaryScanInstruction
  dsimp only
  repeat' split
  all_goals first | with_reducible exact ok_same _ _ | with_reducible exact ok_quiet _ _ _
theorem internalTestSelect_ok (s : State) : Ok (.internalTestSelect) s (execInternalTestSelect s) := by
  unfold execInternalTestSelect
  dsimp only
  repeat' split
  all_goals first | with_reducible exact ok_same _ _ | with_reducible exact ok_quiet _ _ _
theorem ppsInPulse_ok (ns : Nat) (s : State) : Ok (.ppsInPulse ns) s (execPpsInPulse ns s) := by
  unfold execPpsInPulse
  dsimp only
  repeat' split
  all_goals first | with_reducible exact ok_same _ _ | with_reducible exact ok_quiet _ _ _ | with_reducible exact ok_clocked rfl rfl _ _
theorem entropyHealthFail_ok (s : State) : Ok (.entropyHealthFail) s (execEntropyHealthFail s) := by
  unfold execEntropyHealthFail
  repeat' split
  all_goals first | with_reducible exact ok_same _ _ | with_reducible exact ok_quiet _ _ _
theorem governorStep_ok (demand : Nat) (s : State) : Ok (.governorStep demand) s (execGovernorStep demand s) := by
  unfold execGovernorStep
  dsimp only
  repeat' split
  all_goals first | with_reducible exact ok_same _ _ | with_reducible exact ok_quiet _ _ _
theorem governorCalibrate_ok (s : State) : Ok (.governorCalibrate) s (execGovernorCalibrate s) := by
  unfold execGovernorCalibrate
  repeat' split
  all_goals first | with_reducible exact ok_same _ _ | with_reducible exact ok_quiet _ _ _
theorem avsRailRead_ok (samples : List RailSample) (s : State) : Ok (.avsRailRead samples) s (execAvsRailRead samples s) := by
  unfold execAvsRailRead
  dsimp only
  repeat' split
  all_goals first | with_reducible exact ok_same _ _ | with_reducible exact ok_quiet _ _ _
theorem budgetPeriodBoundary_ok (s : State) : Ok (.budgetPeriodBoundary) s (execBudgetPeriodBoundary s) := by
  unfold execBudgetPeriodBoundary
  repeat' split
  all_goals first | with_reducible exact ok_same _ _ | with_reducible exact ok_quiet _ _ _
theorem ageEpoch_ok (s : State) : Ok (.ageEpoch) s (execAgeEpoch s) := by
  unfold execAgeEpoch
  repeat' split
  all_goals first | with_reducible exact ok_same _ _ | with_reducible exact ok_quiet _ _ _
theorem pressurePark_ok (s : State) : Ok (.pressurePark) s (execPressurePark s) := by
  unfold execPressurePark
  dsimp only
  repeat' split
  all_goals first | with_reducible exact ok_same _ _ | with_reducible exact ok_quiet _ _ _
theorem demotionPlaced_ok (dir : Nat) (s : State) : Ok (.demotionPlaced dir) s (execDemotionPlaced dir s) := by
  unfold execDemotionPlaced
  dsimp only
  repeat' split
  all_goals first | with_reducible exact ok_same _ _ | with_reducible exact ok_quiet _ _ _
theorem promotionPlaced_ok (dir : Nat) (s : State) : Ok (.promotionPlaced dir) s (execPromotionPlaced dir s) := ok_quiet _ _ _
theorem oldRunDrained_ok (dir : Nat) (s : State) : Ok (.oldRunDrained dir) s (execOldRunDrained dir s) := ok_quiet _ _ _
theorem dumpBoundary_ok (s : State) : Ok (.dumpBoundary) s (execDumpBoundary s) := by
  unfold execDumpBoundary
  dsimp only
  repeat' split
  all_goals first | with_reducible exact ok_same _ _ | with_reducible exact ok_quiet _ _ _ | with_reducible exact ok_ordinary rfl _ _
theorem healthSubwindow_ok (part : Nat) (s : State) : Ok (.healthSubwindow part) s (execHealthSubwindow part s) := by
  unfold execHealthSubwindow
  repeat' split
  all_goals first | with_reducible exact ok_same _ _ | with_reducible exact ok_quiet _ _ _ | with_reducible exact ok_fusing rfl _ _
theorem memoryScrub_ok (stack : Nat) (s : State) : Ok (.memoryScrub stack) s (execMemoryScrub stack s) := by
  unfold execMemoryScrub
  repeat' split
  all_goals first | with_reducible exact ok_same _ _ | with_reducible exact ok_quiet _ _ _
theorem camRowCheck_ok (diff : List (Nat × Bool)) (s : State) : Ok (.camRowCheck diff) s (execCamRowCheck diff s) := by
  unfold execCamRowCheck
  dsimp only
  repeat' split
  all_goals first | with_reducible exact ok_same _ _ | with_reducible exact ok_quiet _ _ _ | with_reducible exact ok_fusing rfl _ _
theorem detection_ok (d : Detected) (s : State) : Ok (.detection d) s (execDetection d s) := by
  unfold execDetection
  repeat' split
  all_goals first | with_reducible exact ok_same _ _ | with_reducible exact ok_quiet _ _ _ | with_reducible exact ok_fusing rfl _ _ | with_reducible exact ok_reset rfl _ _
theorem islandResetComplete_ok (island : Nat) (s : State) : Ok (.islandResetComplete island) s (execIslandResetComplete island s) := ok_quiet _ _ _
theorem spareMoveBegin_ok (part : Nat) (k : Nat) (s : State) : Ok (.spareMoveBegin part k) s (execSpareMoveBegin part k s) := ok_quiet _ _ _
theorem spareMoveComplete_ok (part : Nat) (k : Nat) (ok : Bool) (s : State) : Ok (.spareMoveComplete part k ok) s (execSpareMoveComplete part k ok s) := by
  unfold execSpareMoveComplete
  repeat' split
  all_goals first | with_reducible exact ok_same _ _ | with_reducible exact ok_quiet _ _ _ | with_reducible exact ok_fusing rfl _ _
theorem creditWatchTimeout_ok (island : Nat) (s : State) : Ok (.creditWatchTimeout island) s (execCreditWatchTimeout island s) := by
  unfold execCreditWatchTimeout
  dsimp only
  repeat' split
  all_goals first | with_reducible exact ok_same _ _ | with_reducible exact ok_quiet _ _ _
theorem functionEnable_ok (f : FnId) (s : State) : Ok (.functionEnable f) s (execFunctionEnable f s) := ok_quiet _ _ _
theorem functionDisable_ok (f : FnId) (s : State) : Ok (.functionDisable f) s (execFunctionDisable f s) := ok_quiet _ _ _
theorem initialisationComplete_ok (f : FnId) (s : State) : Ok (.initialisationComplete f) s (execInitialisationComplete f s) := ok_quiet _ _ _
theorem shutdownComplete_ok (f : FnId) (s : State) : Ok (.shutdownComplete f) s (execShutdownComplete f s) := ok_ordinary rfl _ _
theorem tenantEnable_ok (fn : Nat) (s : State) : Ok (.tenantEnable fn) s (execTenantEnable fn s) := by
  unfold execTenantEnable
  repeat' split
  all_goals first | with_reducible exact ok_same _ _ | with_reducible exact ok_quiet _ _ _
theorem tenantDisable_ok (fn : Nat) (s : State) : Ok (.tenantDisable fn) s (execTenantDisable fn s) := by
  unfold execTenantDisable
  repeat' split
  all_goals first | with_reducible exact ok_same _ _ | with_reducible exact ok_quiet _ _ _
theorem queueEnable_ok (fn : Nat) (q : Nat) (s : State) : Ok (.queueEnable fn q) s (execQueueEnable fn q s) := by
  unfold execQueueEnable
  repeat' split
  all_goals first | with_reducible exact ok_same _ _ | with_reducible exact ok_quiet _ _ _
theorem queueDisable_ok (fn : Nat) (q : Nat) (s : State) : Ok (.queueDisable fn q) s (execQueueDisable fn q s) := by
  unfold execQueueDisable
  repeat' split
  all_goals first | with_reducible exact ok_same _ _ | with_reducible exact ok_quiet _ _ _
theorem queueShutdownTimeout_ok (fn : Nat) (q : Nat) (s : State) : Ok (.queueShutdownTimeout fn q) s (execQueueShutdownTimeout fn q s) := by
  unfold execQueueShutdownTimeout
  dsimp only
  repeat' split
  all_goals first | with_reducible exact ok_same _ _ | with_reducible exact ok_quiet _ _ _
theorem queueConfigWrite_ok (fn : Nat) (q : Nat) (off : Nat) (v : Nat) (s : State) : Ok (.queueConfigWrite fn q off v) s (execQueueConfigWrite fn q off v s) := by
  unfold execQueueConfigWrite
  dsimp only
  repeat' split
  all_goals first | with_reducible exact ok_same _ _ | with_reducible exact ok_quiet _ _ _
theorem sqTailDoorbell_ok (fn : Nat) (q : Nat) (v : Nat) (placed : List (Nat × BitVec 8)) (bad : List Nat) (s : State) : Ok (.sqTailDoorbell fn q v placed bad) s (execSqTailDoorbell fn q v placed bad s) := by
  unfold execSqTailDoorbell
  dsimp only
  repeat' split
  all_goals first | with_reducible exact ok_same _ _ | with_reducible exact ok_quiet _ _ _ | with_reducible exact ok_ordinary rfl _ _
theorem cqHeadDoorbell_ok (fn : Nat) (q : Nat) (v : Nat) (s : State) : Ok (.cqHeadDoorbell fn q v) s (execCqHeadDoorbell fn q v s) := by
  unfold execCqHeadDoorbell
  dsimp only
  repeat' split
  all_goals first | with_reducible exact ok_same _ _ | with_reducible exact ok_quiet _ _ _
theorem commandFetch_ok (s : State) : Ok (.commandFetch) s (execCommandFetch s) := by
  unfold execCommandFetch
  dsimp only
  repeat' split
  all_goals first | with_reducible exact ok_same _ _ | with_reducible exact ok_quiet _ _ _
theorem completionPost_ok (fn : Nat) (q : Nat) (s : State) : Ok (.completionPost fn q) s (execCompletionPost fn q s) := by
  unfold execCompletionPost
  dsimp only
  repeat' split
  all_goals first | with_reducible exact ok_same _ _ | with_reducible exact ok_quiet _ _ _ | with_reducible exact ok_ordinary rfl _ _
theorem interruptCoalesceTimer_ok (fn : Nat) (vector : Nat) (s : State) : Ok (.interruptCoalesceTimer fn vector) s (execInterruptCoalesceTimer fn vector s) := by
  unfold execInterruptCoalesceTimer
  dsimp only
  repeat' split
  all_goals first | with_reducible exact ok_same _ _ | with_reducible exact ok_quiet _ _ _
theorem irqMaskWrite_ok (fn : Nat) (m : IrqMask) (v : Nat) (s : State) : Ok (.irqMaskWrite fn m v) s (execIrqMaskWrite fn m v s) := by
  unfold execIrqMaskWrite
  dsimp only
  repeat' split
  all_goals first | with_reducible exact ok_same _ _ | with_reducible exact ok_quiet _ _ _
theorem kettleFlushTimer_ok (fn : Nat) (s : State) : Ok (.kettleFlushTimer fn) s (execKettleFlushTimer fn s) := by
  unfold execKettleFlushTimer
  dsimp only
  repeat' split
  all_goals first | with_reducible exact ok_same _ _ | with_reducible exact ok_quiet _ _ _
theorem kettleWordWrite_ok (fn : Nat) (parityBad : Bool) (s : State) : Ok (.kettleWordWrite fn parityBad) s (execKettleWordWrite fn parityBad s) := by
  unfold execKettleWordWrite
  dsimp only
  repeat' split
  all_goals first | with_reducible exact ok_same _ _ | with_reducible exact ok_quiet _ _ _ | with_reducible exact ok_ordinary rfl _ _
theorem kettleEnable_ok (fn : Nat) (s : State) : Ok (.kettleEnable fn) s (execKettleEnable fn s) := by
  unfold execKettleEnable
  repeat' split
  all_goals first | with_reducible exact ok_same _ _ | with_reducible exact ok_quiet _ _ _
theorem kettleDisable_ok (fn : Nat) (s : State) : Ok (.kettleDisable fn) s (execKettleDisable fn s) := by
  unfold execKettleDisable
  repeat' split
  all_goals first | with_reducible exact ok_same _ _ | with_reducible exact ok_quiet _ _ _
theorem kettleConfigWrite_ok (fn : Nat) (off : Nat) (v : Nat) (s : State) : Ok (.kettleConfigWrite fn off v) s (execKettleConfigWrite fn off v s) := by
  unfold execKettleConfigWrite
  dsimp only
  repeat' split
  all_goals first | with_reducible exact ok_same _ _ | with_reducible exact ok_quiet _ _ _
theorem kettleHeadWrite_ok (fn : Nat) (v : Nat) (s : State) : Ok (.kettleHeadWrite fn v) s (execKettleHeadWrite fn v s) := by
  unfold execKettleHeadWrite
  dsimp only
  repeat' split
  all_goals first | with_reducible exact ok_same _ _ | with_reducible exact ok_quiet _ _ _
theorem knobWrite_ok (p : Path) (v : Nat) (s : State) : Ok (.knobWrite p v) s (execKnobWrite p v s) := by
  unfold execKnobWrite
  dsimp only
  repeat' split
  all_goals first | with_reducible exact ok_same _ _ | with_reducible exact ok_quiet _ _ _
theorem pctrCfgWrite_ok (p : Path) (v : Nat) (s : State) : Ok (.pctrCfgWrite p v) s (execPctrCfgWrite p v s) := by
  unfold execPctrCfgWrite
  dsimp only
  repeat' split
  all_goals first | with_reducible exact ok_same _ _ | with_reducible exact ok_quiet _ _ _
theorem dumpHeadWrite_ok (p : Path) (v : Nat) (s : State) : Ok (.dumpHeadWrite p v) s (execDumpHeadWrite p v s) := by
  unfold execDumpHeadWrite
  dsimp only
  repeat' split
  all_goals first | with_reducible exact ok_same _ _ | with_reducible exact ok_quiet _ _ _
theorem mgmtCtrLoRead_ok (p : Path) (s : State) : Ok (.mgmtCtrLoRead p) s (execMgmtCtrLoRead p s) := by
  unfold execMgmtCtrLoRead
  dsimp only
  repeat' split
  all_goals first | with_reducible exact ok_same _ _ | with_reducible exact ok_quiet _ _ _
theorem hostCtrLoRead_ok (fn : Nat) (s : State) : Ok (.hostCtrLoRead fn) s (execHostCtrLoRead fn s) := by
  unfold execHostCtrLoRead
  dsimp only
  repeat' split
  all_goals first | with_reducible exact ok_same _ _ | with_reducible exact ok_quiet _ _ _
theorem mgmtTimeLoRead_ok (p : Path) (s : State) : Ok (.mgmtTimeLoRead p) s (execMgmtTimeLoRead p s) := by
  unfold execMgmtTimeLoRead
  dsimp only
  repeat' split
  all_goals first | with_reducible exact ok_same _ _ | with_reducible exact ok_quiet _ _ _
theorem mgmtRailVRead_ok (p : Path) (s : State) : Ok (.mgmtRailVRead p) s (execMgmtRailVRead p s) := by
  unfold execMgmtRailVRead
  dsimp only
  repeat' split
  all_goals first | with_reducible exact ok_same _ _ | with_reducible exact ok_quiet _ _ _
theorem registerWrite_ok (r : RegSpace) (off : Nat) (v : Nat) (s : State) : Ok (.registerWrite r off v) s (execRegisterWrite r off v s) := by
  unfold execRegisterWrite
  repeat' split
  all_goals first | with_reducible exact ok_same _ _ | with_reducible exact ok_quiet _ _ _
theorem nop_ok (c : Cmd) (s : State) : Ok (.nop c) s (execNop c s) := ok_quiet _ _ _
theorem jobOpen_ok (c : Cmd) (s : State) : Ok (.jobOpen c) s (execJobOpen c s) := ok_quiet _ _ _
theorem jobClose_ok (c : Cmd) (s : State) : Ok (.jobClose c) s (execJobClose c s) := ok_quiet _ _ _
theorem batchRegister_ok (c : Cmd) (s : State) : Ok (.batchRegister c) s (execBatchRegister c s) := ok_quiet _ _ _
theorem batchRelease_ok (c : Cmd) (s : State) : Ok (.batchRelease c) s (execBatchRelease c s) := ok_quiet _ _ _
theorem tenantReset_ok (c : Cmd) (s : State) : Ok (.tenantReset c) s (execTenantReset c s) := ok_quiet _ _ _
theorem queueFence_ok (c : Cmd) (s : State) : Ok (.queueFence c) s (execQueueFence c s) := ok_quiet _ _ _
theorem placeFence_ok (c : Cmd) (s : State) : Ok (.placeFence c) s (execPlaceFence c s) := ok_quiet _ _ _
theorem trayFence_ok (c : Cmd) (s : State) : Ok (.trayFence c) s (execTrayFence c s) := ok_quiet _ _ _
theorem fenceComplete_ok (c : Cmd) (s : State) : Ok (.fenceComplete c) s (execFenceComplete c s) := by
  unfold execFenceComplete
  repeat' split
  all_goals first | with_reducible exact ok_same _ _ | with_reducible exact ok_quiet _ _ _
theorem forwardRetryTimer_ok (r : SendReport) (s : State) : Ok (.forwardRetryTimer r) s (execForwardRetryTimer r s) := by
  unfold execForwardRetryTimer
  repeat' split
  all_goals first | with_reducible exact ok_same _ _ | with_reducible exact ok_quiet _ _ _
theorem forwardTimeout_ok (r : OwnerReport) (s : State) : Ok (.forwardTimeout r) s (execForwardTimeout r s) := by
  unfold execForwardTimeout
  repeat' split
  all_goals first | with_reducible exact ok_same _ _ | with_reducible exact ok_quiet _ _ _
theorem forwardedCommandArrival_ok (c : Cmd) (members : List Nat) (input : List (BitVec 8 × Bool)) (s : State) : Ok (.forwardedCommandArrival c members input) s (execForwardedCommandArrival c members input s) := ok_ordinary rfl _ _
theorem forwardedCompletionArrival_ok (c : Cmd) (status : Nat) (r0 : Nat) (r1 : Nat) (data : List (BitVec 8 × Bool)) (s : State) : Ok (.forwardedCompletionArrival c status r0 r1 data) s (execForwardedCompletionArrival c status r0 r1 data s) := by
  unfold execForwardedCompletionArrival
  dsimp only
  repeat' split
  all_goals first | with_reducible exact ok_same _ _ | with_reducible exact ok_quiet _ _ _ | with_reducible exact ok_ordinary rfl _ _
theorem admitRequest_ok (c : Cmd) (s : State) : Ok (.admitRequest c) s (execAdmitRequest c s) := ok_quiet _ _ _
theorem prefillChunk_ok (c : Cmd) (kv : List PageData) (s : State) : Ok (.prefillChunk c kv) s (execPrefillChunk c kv s) := ok_quiet _ _ _
theorem handoff_ok (c : Cmd) (s : State) : Ok (.handoff c) s (execHandoff c s) := ok_quiet _ _ _
theorem park_ok (c : Cmd) (s : State) : Ok (.park c) s (execPark c s) := ok_quiet _ _ _
theorem resume_ok (c : Cmd) (s : State) : Ok (.resume c) s (execResume c s) := ok_quiet _ _ _
theorem cancel_ok (c : Cmd) (s : State) : Ok (.cancel c) s (execCancel c s) := ok_quiet _ _ _
theorem query_ok (c : Cmd) (s : State) : Ok (.query c) s (execQuery c s) := ok_quiet _ _ _
theorem logRead_ok (c : Cmd) (s : State) : Ok (.logRead c) s (execLogRead c s) := ok_quiet _ _ _
theorem recordRead_ok (c : Cmd) (s : State) : Ok (.recordRead c) s (execRecordRead c s) := ok_quiet _ _ _
theorem ledgerStepResendTimer_ok (h : Nat) (s : State) : Ok (.ledgerStepResendTimer h) s (execLedgerStepResendTimer h s) := ok_quiet _ _ _
theorem ledgerStepArrival_ok (copy : Nat) (x : LStep) (s : State) : Ok (.ledgerStepArrival copy x) s (execLedgerStepArrival copy x s) := ok_quiet _ _ _
theorem ledgerNotice_ok (n : Notice) (s : State) : Ok (.ledgerNotice n) s (execLedgerNotice n s) := ok_quiet _ _ _
theorem ledgerQuery_ok (h : Nat) (src : Nat) (form : QueryForm) (s : State) : Ok (.ledgerQuery h src form) s (execLedgerQuery h src form s) := ok_quiet _ _ _
theorem ledgerQueryRetryTimer_ok (h : Nat) (s : State) : Ok (.ledgerQueryRetryTimer h) s (execLedgerQueryRetryTimer h s) := ok_quiet _ _ _
theorem ledgerAnswer_ok (n : Notice) (s : State) : Ok (.ledgerAnswer n) s (execLedgerAnswer n s) := ok_ordinary rfl _ _
theorem ledgerErase_ok (h : Nat) (s : State) : Ok (.ledgerErase h) s (execLedgerErase h s) := by
  unfold execLedgerErase
  repeat' split
  all_goals first | with_reducible exact ok_same _ _ | with_reducible exact ok_quiet _ _ _
theorem repairCopyArrival_ok (copy : Nat) (r : ReqRec) (log : List Nat) (s : State) : Ok (.repairCopyArrival copy r log) s (execRepairCopyArrival copy r log s) := by
  unfold execRepairCopyArrival
  dsimp only
  repeat' split
  all_goals first | with_reducible exact ok_same _ _ | with_reducible exact ok_quiet _ _ _
theorem endOfRepair_ok (epoch : Nat) (src : Nat) (s : State) : Ok (.endOfRepair epoch src) s (execEndOfRepair epoch src s) := by
  unfold execEndOfRepair
  dsimp only
  repeat' split
  all_goals first | with_reducible exact ok_same _ _ | with_reducible exact ok_quiet _ _ _
theorem headFreezeEnd_ok (h : Nat) (s : State) : Ok (.headFreezeEnd h) s (execHeadFreezeEnd h s) := by
  unfold execHeadFreezeEnd
  dsimp only
  repeat' split
  all_goals first | with_reducible exact ok_same _ _ | with_reducible exact ok_quiet _ _ _
theorem offer_ok (o : Offer) (s : State) : Ok (.offer o) s (execOffer o s) := by
  unfold execOffer
  dsimp only
  repeat' split
  all_goals first | with_reducible exact ok_same _ _ | with_reducible exact ok_quiet _ _ _
theorem placed_ok (h : Nat) (sender : Nat) (body : TongsBody) (s : State) : Ok (.placed h sender body) s (execPlaced h sender body s) := by
  unfold execPlaced
  dsimp only
  repeat' split
  all_goals first | with_reducible exact ok_same _ _ | with_reducible exact ok_quiet _ _ _
theorem handoffRefuse_ok (h : Nat) (sender : Nat) (body : TongsBody) (s : State) : Ok (.handoffRefuse h sender body) s (execHandoffRefuse h sender body s) := by
  unfold execHandoffRefuse
  dsimp only
  repeat' split
  all_goals first | with_reducible exact ok_same _ _ | with_reducible exact ok_quiet _ _ _
theorem lastPageSent_ok (h : Nat) (s : State) : Ok (.lastPageSent h) s (execLastPageSent h s) := by
  unfold execLastPageSent
  repeat' split
  all_goals first | with_reducible exact ok_same _ _ | with_reducible exact ok_quiet _ _ _
theorem handoffPagePlaced_ok (h : Nat) (p : PageData) (s : State) : Ok (.handoffPagePlaced h p) s (execHandoffPagePlaced h p s) := by
  unfold execHandoffPagePlaced
  dsimp only
  repeat' split
  all_goals first | with_reducible exact ok_same _ _ | with_reducible exact ok_quiet _ _ _
theorem replicaArrival_ok (h : Nat) (p : ReplicaData) (s : State) : Ok (.replicaArrival h p) s (execReplicaArrival h p s) := by
  unfold execReplicaArrival
  dsimp only
  repeat' split
  all_goals first | with_reducible exact ok_same _ _ | with_reducible exact ok_quiet _ _ _
theorem allPagesPlaced_ok (r : FlushReport) (s : State) : Ok (.allPagesPlaced r) s (execAllPagesPlaced r s) := by
  unfold execAllPagesPlaced
  dsimp only
  repeat' split
  all_goals first | with_reducible exact ok_same _ _ | with_reducible exact ok_quiet _ _ _
theorem orphanTimerExpiry_ok (h : Nat) (s : State) : Ok (.orphanTimerExpiry h) s (execOrphanTimerExpiry h s) := by
  unfold execOrphanTimerExpiry
  repeat' split
  all_goals first | with_reducible exact ok_same _ _ | with_reducible exact ok_quiet _ _ _
theorem recoveryClaim_ok (h : Nat) (survivors : List PageData) (s : State) : Ok (.recoveryClaim h survivors) s (execRecoveryClaim h survivors s) := by
  unfold execRecoveryClaim
  dsimp only
  repeat' split
  all_goals first | with_reducible exact ok_same _ _ | with_reducible exact ok_quiet _ _ _
theorem pagePromote_ok (c : Cmd) (s : State) : Ok (.pagePromote c) s (execPagePromote c s) := ok_quiet _ _ _
theorem pageDemote_ok (c : Cmd) (s : State) : Ok (.pageDemote c) s (execPageDemote c s) := ok_quiet _ _ _
theorem pagePin_ok (c : Cmd) (s : State) : Ok (.pagePin c) s (execPagePin c s) := ok_quiet _ _ _
theorem pageUnpin_ok (c : Cmd) (s : State) : Ok (.pageUnpin c) s (execPageUnpin c s) := ok_quiet _ _ _
theorem pageDrop_ok (c : Cmd) (s : State) : Ok (.pageDrop c) s (execPageDrop c s) := ok_quiet _ _ _
theorem prefixLookup_ok (c : Cmd) (s : State) : Ok (.prefixLookup c) s (execPrefixLookup c s) := ok_quiet _ _ _
theorem prefixPublish_ok (c : Cmd) (s : State) : Ok (.prefixPublish c) s (execPrefixPublish c s) := ok_quiet _ _ _
theorem prefixRelease_ok (c : Cmd) (s : State) : Ok (.prefixRelease c) s (execPrefixRelease c s) := ok_quiet _ _ _
theorem windowOpen_ok (c : Cmd) (s : State) : Ok (.windowOpen c) s (execWindowOpen c s) := ok_quiet _ _ _
theorem windowAdvance_ok (c : Cmd) (s : State) : Ok (.windowAdvance c) s (execWindowAdvance c s) := ok_quiet _ _ _
theorem windowClose_ok (c : Cmd) (s : State) : Ok (.windowClose c) s (execWindowClose c s) := ok_quiet _ _ _
theorem windowSlotFill_ok (stream : Nat) (s : State) : Ok (.windowSlotFill stream) s (execWindowSlotFill stream s) := by
  unfold execWindowSlotFill
  dsimp only
  repeat' split
  all_goals first | with_reducible exact ok_same _ _ | with_reducible exact ok_quiet _ _ _
theorem t3Attach_ok (c : Cmd) (s : State) : Ok (.t3Attach c) s (execT3Attach c s) := ok_quiet _ _ _
theorem tierQuery_ok (c : Cmd) (s : State) : Ok (.tierQuery c) s (execTierQuery c s) := ok_quiet _ _ _
theorem modelDefine_ok (c : Cmd) (s : State) : Ok (.modelDefine c) s (execModelDefine c s) := ok_quiet _ _ _
theorem loanAskArrival_ok (m : LoanMsg) (s : State) : Ok (.loanAskArrival m) s (execLoanAskArrival m s) := by
  unfold execLoanAskArrival
  dsimp only
  repeat' split
  all_goals first | with_reducible exact ok_same _ _ | with_reducible exact ok_quiet _ _ _
theorem loanGrantArrival_ok (m : LoanMsg) (s : State) : Ok (.loanGrantArrival m) s (execLoanGrantArrival m s) := by
  unfold execLoanGrantArrival
  dsimp only
  repeat' split
  all_goals first | with_reducible exact ok_same _ _ | with_reducible exact ok_quiet _ _ _
theorem loanOfferArrival_ok (m : LoanMsg) (s : State) : Ok (.loanOfferArrival m) s (execLoanOfferArrival m s) := by
  unfold execLoanOfferArrival
  dsimp only
  repeat' split
  all_goals first | with_reducible exact ok_same _ _ | with_reducible exact ok_quiet _ _ _
theorem loanDeclineArrival_ok (m : LoanMsg) (s : State) : Ok (.loanDeclineArrival m) s (execLoanDeclineArrival m s) := by
  unfold execLoanDeclineArrival
  dsimp only
  repeat' split
  all_goals first | with_reducible exact ok_same _ _ | with_reducible exact ok_quiet _ _ _
theorem recall_ok (m : LoanMsg) (s : State) : Ok (.recall m) s (execRecall m s) := by
  unfold execRecall
  dsimp only
  repeat' split
  all_goals first | with_reducible exact ok_same _ _ | with_reducible exact ok_quiet _ _ _
theorem recallEmpty_ok (lender : Nat) (id : Nat) (s : State) : Ok (.recallEmpty lender id) s (execRecallEmpty lender id s) := by
  unfold execRecallEmpty
  repeat' split
  all_goals first | with_reducible exact ok_same _ _ | with_reducible exact ok_quiet _ _ _
theorem returnGrant_ok (m : LoanMsg) (s : State) : Ok (.returnGrant m) s (execReturnGrant m s) := by
  unfold execReturnGrant
  dsimp only
  repeat' split
  all_goals first | with_reducible exact ok_same _ _ | with_reducible exact ok_quiet _ _ _
theorem recallDeadlineExpiry_ok (id : Nat) (s : State) : Ok (.recallDeadlineExpiry id) s (execRecallDeadlineExpiry id s) := by
  unfold execRecallDeadlineExpiry
  dsimp only
  repeat' split
  all_goals first | with_reducible exact ok_same _ _ | with_reducible exact ok_quiet _ _ _
theorem revoked_ok (m : LoanMsg) (s : State) : Ok (.revoked m) s (execRevoked m s) := by
  unfold execRevoked
  dsimp only
  repeat' split
  all_goals first | with_reducible exact ok_same _ _ | with_reducible exact ok_quiet _ _ _
theorem gemm_ok (c : Cmd) (s : State) : Ok (.gemm c) s (execGemm c s) := ok_ordinary rfl _ _
theorem gemv_ok (c : Cmd) (s : State) : Ok (.gemv c) s (execGemv c s) := ok_ordinary rfl _ _
theorem gatherRows_ok (c : Cmd) (s : State) : Ok (.gatherRows c) s (execGatherRows c s) := ok_ordinary rfl _ _
theorem vector_ok (c : Cmd) (s : State) : Ok (.vector c) s (execVector c s) := ok_ordinary rfl _ _
theorem tensorAlloc_ok (c : Cmd) (s : State) : Ok (.tensorAlloc c) s (execTensorAlloc c s) := ok_quiet _ _ _
theorem tensorFree_ok (c : Cmd) (s : State) : Ok (.tensorFree c) s (execTensorFree c s) := ok_quiet _ _ _
theorem ladleEntryStart_ok (l : Nat) (s : State) : Ok (.ladleEntryStart l) s (execLadleEntryStart l s) := ok_quiet _ _ _
theorem ladleEntryComplete_ok (l : Nat) (s : State) : Ok (.ladleEntryComplete l) s (execLadleEntryComplete l s) := ok_quiet _ _ _
theorem ladlePreempt_ok (l : Nat) (s : State) : Ok (.ladlePreempt l) s (execLadlePreempt l s) := ok_quiet _ _ _
theorem ladleSaveComplete_ok (l : Nat) (s : State) : Ok (.ladleSaveComplete l) s (execLadleSaveComplete l s) := by
  unfold execLadleSaveComplete
  dsimp only
  repeat' split
  all_goals first | with_reducible exact ok_same _ _ | with_reducible exact ok_quiet _ _ _
theorem ladleRestoreComplete_ok (l : Nat) (s : State) : Ok (.ladleRestoreComplete l) s (execLadleRestoreComplete l s) := by
  unfold execLadleRestoreComplete
  dsimp only
  repeat' split
  all_goals first | with_reducible exact ok_same _ _ | with_reducible exact ok_quiet _ _ _
theorem attendDecode_ok (c : Cmd) (s : State) : Ok (.attendDecode c) s (execAttendDecode c s) := ok_ordinary rfl _ _
theorem attendPrefill_ok (c : Cmd) (s : State) : Ok (.attendPrefill c) s (execAttendPrefill c s) := ok_ordinary rfl _ _
theorem softmaxCombine_ok (c : Cmd) (s : State) : Ok (.softmaxCombine c) s (execSoftmaxCombine c s) := ok_ordinary rfl _ _
theorem attendBwd_ok (c : Cmd) (s : State) : Ok (.attendBwd c) s (execAttendBwd c s) := ok_ordinary rfl _ _
theorem adapterLoad_ok (c : Cmd) (s : State) : Ok (.adapterLoad c) s (execAdapterLoad c s) := ok_quiet _ _ _
theorem adapterRoomAvailable_ok (tenant : Nat) (adapter : Nat) (version : Nat) (s : State) : Ok (.adapterRoomAvailable tenant adapter version) s (execAdapterRoomAvailable tenant adapter version s) := by
  unfold execAdapterRoomAvailable
  repeat' split
  all_goals first | with_reducible exact ok_same _ _ | with_reducible exact ok_quiet _ _ _
theorem adapterLoadComplete_ok (tenant : Nat) (adapter : Nat) (version : Nat) (s : State) : Ok (.adapterLoadComplete tenant adapter version) s (execAdapterLoadComplete tenant adapter version s) := ok_quiet _ _ _
theorem adapterRetire_ok (c : Cmd) (s : State) : Ok (.adapterRetire c) s (execAdapterRetire c s) := ok_quiet _ _ _
theorem adapterVersionFree_ok (tenant : Nat) (adapter : Nat) (version : Nat) (s : State) : Ok (.adapterVersionFree tenant adapter version) s (execAdapterVersionFree tenant adapter version s) := by
  unfold execAdapterVersionFree
  repeat' split
  all_goals first | with_reducible exact ok_same _ _ | with_reducible exact ok_quiet _ _ _
theorem adapterQuery_ok (c : Cmd) (s : State) : Ok (.adapterQuery c) s (execAdapterQuery c s) := ok_quiet _ _ _
theorem expertApply_ok (c : Cmd) (s : State) : Ok (.expertApply c) s (execExpertApply c s) := ok_ordinary rfl _ _
theorem sample_ok (c : Cmd) (s : State) : Ok (.sample c) s (execSample c s) := ok_ordinary rfl _ _
theorem draftReset_ok (c : Cmd) (s : State) : Ok (.draftReset c) s (execDraftReset c s) := ok_quiet _ _ _
theorem constraintLoad_ok (c : Cmd) (s : State) : Ok (.constraintLoad c) s (execConstraintLoad c s) := ok_quiet _ _ _
theorem constraintRetire_ok (c : Cmd) (s : State) : Ok (.constraintRetire c) s (execConstraintRetire c s) := ok_quiet _ _ _
theorem camBankSetup_ok (c : Cmd) (s : State) : Ok (.camBankSetup c) s (execCamBankSetup c s) := ok_quiet _ _ _
theorem camWrite_ok (c : Cmd) (s : State) : Ok (.camWrite c) s (execCamWrite c s) := ok_quiet _ _ _
theorem camInvalidate_ok (c : Cmd) (s : State) : Ok (.camInvalidate c) s (execCamInvalidate c s) := ok_quiet _ _ _
theorem camSearch_ok (c : Cmd) (s : State) : Ok (.camSearch c) s (execCamSearch c s) := ok_quiet _ _ _
theorem camNext_ok (c : Cmd) (s : State) : Ok (.camNext c) s (execCamNext c s) := ok_quiet _ _ _
theorem camCursorFree_ok (c : Cmd) (s : State) : Ok (.camCursorFree c) s (execCamCursorFree c s) := ok_quiet _ _ _
theorem camRead_ok (c : Cmd) (s : State) : Ok (.camRead c) s (execCamRead c s) := ok_ordinary rfl _ _
theorem indexCreate_ok (c : Cmd) (s : State) : Ok (.indexCreate c) s (execIndexCreate c s) := ok_quiet _ _ _
theorem indexLoadPart_ok (c : Cmd) (s : State) : Ok (.indexLoadPart c) s (execIndexLoadPart c s) := ok_quiet _ _ _
theorem indexCommit_ok (c : Cmd) (s : State) : Ok (.indexCommit c) s (execIndexCommit c s) := ok_quiet _ _ _
theorem indexRetire_ok (c : Cmd) (s : State) : Ok (.indexRetire c) s (execIndexRetire c s) := ok_quiet _ _ _
theorem indexVersionFree_ok (tenant : Nat) (index : Nat) (version : Nat) (s : State) : Ok (.indexVersionFree tenant index version) s (execIndexVersionFree tenant index version s) := by
  unfold execIndexVersionFree
  repeat' split
  all_goals first | with_reducible exact ok_same _ _ | with_reducible exact ok_quiet _ _ _
theorem vectorSearch_ok (c : Cmd) (s : State) : Ok (.vectorSearch c) s (execVectorSearch c s) := ok_ordinary rfl _ _
theorem vectorDelete_ok (c : Cmd) (s : State) : Ok (.vectorDelete c) s (execVectorDelete c s) := ok_quiet _ _ _
theorem indexQuery_ok (c : Cmd) (s : State) : Ok (.indexQuery c) s (execIndexQuery c s) := ok_quiet _ _ _
theorem pressStreamOpen_ok (c : Cmd) (s : State) : Ok (.pressStreamOpen c) s (execPressStreamOpen c s) := ok_quiet _ _ _
theorem pressStreamClose_ok (c : Cmd) (s : State) : Ok (.pressStreamClose c) s (execPressStreamClose c s) := ok_quiet _ _ _
theorem pressEncode_ok (c : Cmd) (s : State) : Ok (.pressEncode c) s (execPressEncode c s) := ok_ordinary rfl _ _
theorem pressDecode_ok (c : Cmd) (s : State) : Ok (.pressDecode c) s (execPressDecode c s) := ok_ordinary rfl _ _
theorem pressTableInstall_ok (c : Cmd) (s : State) : Ok (.pressTableInstall c) s (execPressTableInstall c s) := ok_quiet _ _ _
theorem pressInstallCommit_ok (tenant : Nat) (stream : Nat) (s : State) : Ok (.pressInstallCommit tenant stream) s (execPressInstallCommit tenant stream s) := by
  unfold execPressInstallCommit
  repeat' split
  all_goals first | with_reducible exact ok_same _ _ | with_reducible exact ok_quiet _ _ _
theorem pressInstallWait_ok (tenant : Nat) (stream : Nat) (s : State) : Ok (.pressInstallWait tenant stream) s (execPressInstallWait tenant stream s) := by
  unfold execPressInstallWait
  repeat' split
  all_goals first | with_reducible exact ok_same _ _ | with_reducible exact ok_quiet _ _ _
theorem pressTableRead_ok (c : Cmd) (s : State) : Ok (.pressTableRead c) s (execPressTableRead c s) := ok_ordinary rfl _ _
theorem epOpen_ok (c : Cmd) (s : State) : Ok (.epOpen c) s (execEpOpen c s) := ok_quiet _ _ _
theorem epClose_ok (c : Cmd) (s : State) : Ok (.epClose c) s (execEpClose c s) := ok_quiet _ _ _
theorem endpointQuarantineEnd_ok (region : Bool) (index : Nat) (s : State) : Ok (.endpointQuarantineEnd region index) s (execEndpointQuarantineEnd region index s) := by
  unfold execEndpointQuarantineEnd
  repeat' split
  all_goals first | with_reducible exact ok_same _ _ | with_reducible exact ok_quiet _ _ _
theorem send_ok (c : Cmd) (s : State) : Ok (.send c) s (execSend c s) := ok_quiet _ _ _
theorem counterTrigger_ok (tenant : Nat) (counter : Nat) (s : State) : Ok (.counterTrigger tenant counter) s (execCounterTrigger tenant counter s) := ok_quiet _ _ _
theorem recv_ok (c : Cmd) (s : State) : Ok (.recv c) s (execRecv c s) := ok_quiet _ _ _
theorem flush_ok (c : Cmd) (s : State) : Ok (.flush c) s (execFlush c s) := ok_quiet _ _ _
theorem mkeyCreate_ok (c : Cmd) (s : State) : Ok (.mkeyCreate c) s (execMkeyCreate c s) := ok_quiet _ _ _
theorem mkeyDestroy_ok (c : Cmd) (s : State) : Ok (.mkeyDestroy c) s (execMkeyDestroy c s) := ok_quiet _ _ _
theorem ctrSet_ok (c : Cmd) (s : State) : Ok (.ctrSet c) s (execCtrSet c s) := ok_quiet _ _ _
theorem xportCtxAttach_ok (c : Cmd) (s : State) : Ok (.xportCtxAttach c) s (execXportCtxAttach c s) := ok_quiet _ _ _
theorem contextFetchComplete_ok (ep : Nat) (s : State) : Ok (.contextFetchComplete ep) s (execContextFetchComplete ep s) := by
  unfold execContextFetchComplete
  dsimp only
  repeat' split
  all_goals first | with_reducible exact ok_same _ _ | with_reducible exact ok_quiet _ _ _
theorem keyDerived_ok (peer : Nat) (epoch : Nat) (s : State) : Ok (.keyDerived peer epoch) s (execKeyDerived peer epoch s) := by
  unfold execKeyDerived
  dsimp only
  repeat' split
  all_goals first | with_reducible exact ok_same _ _ | with_reducible exact ok_quiet _ _ _
theorem frameReceive_ok (port : Nat) (sub : Nat) (f : Frame) (s : State) : Ok (.frameReceive port sub f) s (execFrameReceive port sub f s) := by
  unfold execFrameReceive
  repeat' split
  all_goals first | with_reducible exact ok_same _ _ | with_reducible exact ok_quiet _ _ _
theorem data_ok (p : XPacket) (s : State) : Ok (.data p) s (execData p s) := ok_ordinary rfl _ _
theorem ackCoalesceTimer_ok (src : Nat) (srcEp : Nat) (srcGen : Nat) (serial : Nat) (s : State) : Ok (.ackCoalesceTimer src srcEp srcGen serial) s (execAckCoalesceTimer src srcEp srcGen serial s) := by
  unfold execAckCoalesceTimer
  repeat' split
  all_goals first | with_reducible exact ok_same _ _ | with_reducible exact ok_quiet _ _ _
theorem ack_ok (p : XPacket) (s : State) : Ok (.ack p) s (execAck p s) := ok_quiet _ _ _
theorem notReady_ok (p : XPacket) (s : State) : Ok (.notReady p) s (execNotReady p s) := ok_quiet _ _ _
theorem notReadyRetry_ok (send : Nat) (packet : Nat) (s : State) : Ok (.notReadyRetry send packet) s (execNotReadyRetry send packet s) := by
  unfold execNotReadyRetry
  repeat' split
  all_goals first | with_reducible exact ok_same _ _ | with_reducible exact ok_quiet _ _ _
theorem notReadyTimeout_ok (send : Nat) (packet : Nat) (s : State) : Ok (.notReadyTimeout send packet) s (execNotReadyTimeout send packet s) := by
  unfold execNotReadyTimeout
  repeat' split
  all_goals first | with_reducible exact ok_same _ _ | with_reducible exact ok_quiet _ _ _
theorem refuse_ok (p : XPacket) (s : State) : Ok (.refuse p) s (execRefuse p s) := ok_quiet _ _ _
theorem abort_ok (p : XPacket) (s : State) : Ok (.abort p) s (execAbort p s) := ok_quiet _ _ _
theorem retransmitTimer_ok (send : Nat) (packet : Nat) (s : State) : Ok (.retransmitTimer send packet) s (execRetransmitTimer send packet s) := by
  unfold execRetransmitTimer
  dsimp only
  repeat' split
  all_goals first | with_reducible exact ok_same _ _ | with_reducible exact ok_quiet _ _ _
theorem deliveryTimeout_ok (send : Nat) (packet : Nat) (s : State) : Ok (.deliveryTimeout send packet) s (execDeliveryTimeout send packet s) := by
  unfold execDeliveryTimeout
  repeat' split
  all_goals first | with_reducible exact ok_same _ _ | with_reducible exact ok_quiet _ _ _
theorem completionTableExpiry_ok (src : Nat) (srcEp : Nat) (srcGen : Nat) (serial : Nat) (s : State) : Ok (.completionTableExpiry src srcEp srcGen serial) s (execCompletionTableExpiry src srcEp srcGen serial s) := ok_quiet _ _ _
theorem trayLoad_ok (c : Cmd) (s : State) : Ok (.trayLoad c) s (execTrayLoad c s) := ok_quiet _ _ _
theorem trayStore_ok (c : Cmd) (s : State) : Ok (.trayStore c) s (execTrayStore c s) := ok_quiet _ _ _
theorem trayAtomic_ok (c : Cmd) (s : State) : Ok (.trayAtomic c) s (execTrayAtomic c s) := ok_quiet _ _ _
theorem trayReduce_ok (c : Cmd) (s : State) : Ok (.trayReduce c) s (execTrayReduce c s) := ok_quiet _ _ _
theorem trayMcastStore_ok (c : Cmd) (s : State) : Ok (.trayMcastStore c) s (execTrayMcastStore c s) := ok_quiet _ _ _
theorem trayAlloc_ok (c : Cmd) (s : State) : Ok (.trayAlloc c) s (execTrayAlloc c s) := ok_quiet _ _ _
theorem trayGroupSet_ok (c : Cmd) (s : State) : Ok (.trayGroupSet c) s (execTrayGroupSet c s) := ok_quiet _ _ _
theorem trayRequest_ok (p : TPacket) (s : State) : Ok (.trayRequest p) s (execTrayRequest p s) := by
  unfold execTrayRequest
  dsimp only
  repeat' split
  all_goals first | with_reducible exact ok_same _ _ | with_reducible exact ok_quiet _ _ _
theorem trayLineOperation_ok (line : Nat) (s : State) : Ok (.trayLineOperation line) s (execTrayLineOperation line s) := ok_quiet _ _ _
theorem combiningWriteback_ok (line : Nat) (s : State) : Ok (.combiningWriteback line) s (execCombiningWriteback line s) := by
  unfold execCombiningWriteback
  repeat' split
  all_goals first | with_reducible exact ok_same _ _ | with_reducible exact ok_quiet _ _ _
theorem trayReply_ok (p : TPacket) (s : State) : Ok (.trayReply p) s (execTrayReply p s) := by
  unfold execTrayReply
  dsimp only
  repeat' split
  all_goals first | with_reducible exact ok_same _ _ | with_reducible exact ok_quiet _ _ _ | with_reducible exact ok_ordinary rfl _ _
theorem trayRetransmitTimer_ok (home : Nat) (opId : Nat) (s : State) : Ok (.trayRetransmitTimer home opId) s (execTrayRetransmitTimer home opId s) := by
  unfold execTrayRetransmitTimer
  dsimp only
  repeat' split
  all_goals first | with_reducible exact ok_same _ _ | with_reducible exact ok_quiet _ _ _
theorem trayTargetLost_ok (home : Nat) (opId : Nat) (s : State) : Ok (.trayTargetLost home opId) s (execTrayTargetLost home opId s) := by
  unfold execTrayTargetLost
  repeat' split
  all_goals first | with_reducible exact ok_same _ _ | with_reducible exact ok_quiet _ _ _ | with_reducible exact ok_ordinary rfl _ _
theorem replyExpiry_ok (src : Nat) (opId : Nat) (s : State) : Ok (.replyExpiry src opId) s (execReplyExpiry src opId s) := by
  unfold execReplyExpiry
  dsimp only
  repeat' split
  all_goals first | with_reducible exact ok_same _ _ | with_reducible exact ok_quiet _ _ _
theorem announcementSend_ok (port : Nat) (sub : Nat) (s : State) : Ok (.announcementSend port sub) s (execAnnouncementSend port sub s) := by
  unfold execAnnouncementSend
  repeat' split
  all_goals first | with_reducible exact ok_same _ _ | with_reducible exact ok_quiet _ _ _
theorem announcement_ok (port : Nat) (sub : Nat) (a : Announce) (s : State) : Ok (.announcement port sub a) s (execAnnouncement port sub a s) := by
  unfold execAnnouncement
  dsimp only
  repeat' split
  all_goals first | with_reducible exact ok_same _ _ | with_reducible exact ok_quiet _ _ _
theorem assign_ok (serial : Nat) (id : Nat) (pfx : Nat) (s : State) : Ok (.assign serial id pfx) s (execAssign serial id pfx s) := ok_quiet _ _ _
theorem routeUpdate_ok (slotTable : Bool) (first : Nat) (entries : List (List RoutePath)) (s : State) : Ok (.routeUpdate slotTable first entries) s (execRouteUpdate slotTable first entries s) := ok_quiet _ _ _
theorem membership_ok (epoch : Nat) (members : List (Nat × Nat)) (s : State) : Ok (.membership epoch members) s (execMembership epoch members s) := ok_ordinary rfl _ _
theorem fragmentDiscard_ok (subtype : Nat) (s : State) : Ok (.fragmentDiscard subtype) s (execFragmentDiscard subtype s) := ok_quiet _ _ _
theorem heartbeat_ok (s : State) : Ok (.heartbeat) s (execHeartbeat s) := by
  unfold execHeartbeat
  dsimp only
  repeat' split
  all_goals first | with_reducible exact ok_same _ _ | with_reducible exact ok_quiet _ _ _
theorem ptpMessage_ok (p : PtpInfo) (s : State) : Ok (.ptpMessage p) s (execPtpMessage p s) := by
  unfold execPtpMessage
  dsimp only
  repeat' split
  all_goals first | with_reducible exact ok_same _ _ | with_reducible exact ok_quiet _ _ _ | with_reducible exact ok_clocked rfl rfl _ _
theorem lockLossTimeout_ok (s : State) : Ok (.lockLossTimeout) s (execLockLossTimeout s) := ok_quiet _ _ _
theorem pfcFrame_ok (port : Nat) (sub : Nat) (classes : List (Nat × Bool)) (s : State) : Ok (.pfcFrame port sub classes) s (execPfcFrame port sub classes s) := by
  unfold execPfcFrame
  dsimp only
  repeat' split
  all_goals first | with_reducible exact ok_same _ _ | with_reducible exact ok_quiet _ _ _
theorem neighbourSolicitation_ok (port : Nat) (sub : Nat) (addr : Nat) (s : State) : Ok (.neighbourSolicitation port sub addr) s (execNeighbourSolicitation port sub addr s) := by
  unfold execNeighbourSolicitation
  dsimp only
  repeat' split
  all_goals first | with_reducible exact ok_same _ _ | with_reducible exact ok_quiet _ _ _
theorem linkTrained_ok (port : Nat) (sub : Nat) (s : State) : Ok (.linkTrained port sub) s (execLinkTrained port sub s) := by
  unfold execLinkTrained
  dsimp only
  repeat' split
  all_goals first | with_reducible exact ok_same _ _ | with_reducible exact ok_quiet _ _ _
theorem linkTrainingRetry_ok (port : Nat) (sub : Nat) (badLanes : List Nat) (s : State) : Ok (.linkTrainingRetry port sub badLanes) s (execLinkTrainingRetry port sub badLanes s) := by
  unfold execLinkTrainingRetry
  dsimp only
  repeat' split
  all_goals first | with_reducible exact ok_same _ _ | with_reducible exact ok_quiet _ _ _ | with_reducible exact ok_fusing rfl _ _
theorem linkFailure_ok (port : Nat) (sub : Nat) (s : State) : Ok (.linkFailure port sub) s (execLinkFailure port sub s) := by
  unfold execLinkFailure
  repeat' split
  all_goals first | with_reducible exact ok_same _ _ | with_reducible exact ok_quiet _ _ _
theorem portControl_ok (c : Cmd) (s : State) : Ok (.portControl c) s (execPortControl c s) := ok_quiet _ _ _
theorem frameTransmitSelect_ok (port : Nat) (sub : Nat) (s : State) : Ok (.frameTransmitSelect port sub) s (execFrameTransmitSelect port sub s) := by
  unfold execFrameTransmitSelect
  repeat' split
  all_goals first | with_reducible exact ok_same _ _ | with_reducible exact ok_quiet _ _ _ | with_reducible exact ok_ordinary rfl _ _
theorem gateEntryChange_ok (port : Nat) (s : State) : Ok (.gateEntryChange port) s (execGateEntryChange port s) := by
  unfold execGateEntryChange
  repeat' split
  all_goals first | with_reducible exact ok_same _ _ | with_reducible exact ok_quiet _ _ _
theorem domainSecretActivation_ok (s : State) : Ok (.domainSecretActivation) s (execDomainSecretActivation s) := by
  unfold execDomainSecretActivation
  repeat' split
  all_goals first | with_reducible exact ok_same _ _ | with_reducible exact ok_quiet _ _ _
theorem inject_ok (c : Cmd) (s : State) : Ok (.inject c) s (execInject c s) := ok_quiet _ _ _
theorem shadowControl_ok (c : Cmd) (s : State) : Ok (.shadowControl c) s (execShadowControl c s) := ok_quiet _ _ _
theorem mirroredCommand_ok (seq : Nat) (c : Cmd) (inputs : List (Nat × BitVec 8)) (given : Nat) (digest : Nat) (s : State) : Ok (.mirroredCommand seq c inputs given digest) s (execMirroredCommand seq c inputs given digest s) := by
  unfold execMirroredCommand
  repeat' split
  all_goals first | with_reducible exact ok_same _ _ | with_reducible exact ok_quiet _ _ _
theorem getIdentity_ok (p : Path) (tag : Nat) (s : State) : Ok (.getIdentity p tag) s (execGetIdentity p tag s) := by
  unfold execGetIdentity
  unfold request
  repeat' split
  all_goals first | with_reducible exact ok_same _ _ | with_reducible exact ok_quiet _ _ _
theorem attest_ok (p : Path) (tag : Nat) (nonce : BitVec 256) (s : State) : Ok (.attest p tag nonce) s (execAttest p tag nonce s) := by
  unfold execAttest
  unfold request
  repeat' split
  all_goals first | with_reducible exact ok_same _ _ | with_reducible exact ok_quiet _ _ _
theorem provision_ok (p : Path) (tag : Nat) (nonce : BitVec 256) (keyBlock : List (BitVec 8)) (rsa : List (BitVec 8)) (slh : List (BitVec 8)) (s : State) : Ok (.provision p tag nonce keyBlock rsa slh) s (execProvision p tag nonce keyBlock rsa slh s) := by
  unfold execProvision
  repeat' split
  all_goals first | with_reducible exact ok_same _ _ | with_reducible exact ok_quiet _ _ _ | with_reducible exact ok_fusing rfl _ _
theorem advance_ok (p : Path) (tag : Nat) (nonce : BitVec 256) (target : Nat) (rsa : List (BitVec 8)) (slh : List (BitVec 8)) (s : State) : Ok (.advance p tag nonce target rsa slh) s (execAdvance p tag nonce target rsa slh s) := by
  unfold execAdvance
  dsimp only
  repeat' split
  all_goals first | with_reducible exact ok_same _ _ | with_reducible exact ok_quiet _ _ _ | with_reducible exact ok_fusing rfl _ _ | with_reducible exact ok_reset rfl _ _
theorem setDomain_ok (p : Path) (tag : Nat) (serial : Nat) (activate : Nat) (kem : List (BitVec 8)) (oaep : List (BitVec 8)) (sealedSecret : List (BitVec 8)) (rsa : List (BitVec 8)) (slh : List (BitVec 8)) (s : State) : Ok (.setDomain p tag serial activate kem oaep sealedSecret rsa slh) s (execSetDomain p tag serial activate kem oaep sealedSecret rsa slh s) := by
  unfold execSetDomain
  unfold request
  repeat' split
  all_goals first | with_reducible exact ok_same _ _ | with_reducible exact ok_quiet _ _ _
theorem sessionOpen_ok (p : Path) (tag : Nat) (nonce : BitVec 256) (rsa : List (BitVec 8)) (slh : List (BitVec 8)) (s : State) : Ok (.sessionOpen p tag nonce rsa slh) s (execSessionOpen p tag nonce rsa slh s) := by
  unfold execSessionOpen
  unfold request
  repeat' split
  all_goals first | with_reducible exact ok_same _ _ | with_reducible exact ok_quiet _ _ _
theorem sessionClose_ok (p : Path) (tag : Nat) (s : State) : Ok (.sessionClose p tag) s (execSessionClose p tag s) := by
  unfold execSessionClose
  unfold request
  repeat' split
  all_goals first | with_reducible exact ok_same _ _ | with_reducible exact ok_quiet _ _ _
theorem sessionTimeout_ok (s : State) : Ok (.sessionTimeout) s (execSessionTimeout s) := by
  unfold execSessionTimeout
  repeat' split
  all_goals first | with_reducible exact ok_same _ _ | with_reducible exact ok_quiet _ _ _
theorem memRead_ok (p : Path) (tag : Nat) (stack : Nat) (tenant : Nat) (off : Nat) (len : Nat) (s : State) : Ok (.memRead p tag stack tenant off len) s (execMemRead p tag stack tenant off len s) := by
  unfold execMemRead
  unfold request
  repeat' split
  all_goals first | with_reducible exact ok_same _ _ | with_reducible exact ok_quiet _ _ _
theorem functionLevelReset_ok (fn : Nat) (s : State) : Ok (.functionLevelReset fn) s (execFunctionLevelReset fn s) := by
  unfold execFunctionLevelReset
  dsimp only
  repeat' split
  all_goals first | with_reducible exact ok_same _ _ | with_reducible exact ok_quiet _ _ _
theorem windowSlotFilled_ok (stream : Nat) (layer : Nat) (s : State) : Ok (.windowSlotFilled stream layer) s (execWindowSlotFilled stream layer s) := by
  unfold execWindowSlotFilled
  dsimp only
  repeat' split
  all_goals first | with_reducible exact ok_same _ _ | with_reducible exact ok_quiet _ _ _
theorem waitReleaseReport_ok (c : Cmd) (s : State) : Ok (.waitReleaseReport c) s (execWaitReleaseReport c s) := by
  unfold execWaitReleaseReport
  dsimp only
  repeat' split
  all_goals first | with_reducible exact ok_same _ _ | with_reducible exact ok_quiet _ _ _
theorem systemEndpointRetry_ok (s : State) : Ok (.systemEndpointRetry) s (execSystemEndpointRetry s) := ok_quiet _ _ _
theorem attestSignatureComplete_ok (s : State) : Ok (.attestSignatureComplete) s (execAttestSignatureComplete s) := by
  unfold execAttestSignatureComplete
  repeat' split
  all_goals first | with_reducible exact ok_same _ _ | with_reducible exact ok_quiet _ _ _

theorem moduleStart_ok (b : BoardStart) (s : State) : Ok (.moduleStart b) s (execModuleStart b s) := by
  unfold execModuleStart
  split
  · exact ⟨_, rfl, .start b _ rfl⟩
  · exact ok_quiet _ s { s with boot := { s.boot with resetN := true, pwrOk := true } }

/-- Every command answers a next state of one of the forms of `Change`. -/
theorem exec_ok (i : Instr) (s : State) : Ok i s (exec i s) :=
  match i with
  | .moduleStart _ => moduleStart_ok _ s
  | .fabricTrainingEnd => fabricTrainingEnd_ok s
  | .enterReady => enterReady_ok s
  | .emergencyStop _ => emergencyStop_ok _ s
  | .stopRampEnd => stopRampEnd_ok s
  | .modResetLow _ => modResetLow_ok _ s
  | .pwrOkLow _ => pwrOkLow_ok _ s
  | .perstN => perstN_ok s
  | .hostLinkTrained _ _ _ => hostLinkTrained_ok _ _ _ s
  | .sensorTrip _ => sensorTrip_ok _ s
  | .junctionThrottle _ _ => junctionThrottle_ok _ _ s
  | .thermalStopRelease _ => thermalStopRelease_ok _ s
  | .boundaryScanInstruction _ => boundaryScanInstruction_ok _ s
  | .internalTestSelect => internalTestSelect_ok s
  | .ppsInPulse _ => ppsInPulse_ok _ s
  | .entropyHealthFail => entropyHealthFail_ok s
  | .governorStep _ => governorStep_ok _ s
  | .governorCalibrate => governorCalibrate_ok s
  | .avsRailRead _ => avsRailRead_ok _ s
  | .budgetPeriodBoundary => budgetPeriodBoundary_ok s
  | .ageEpoch => ageEpoch_ok s
  | .pressurePark => pressurePark_ok s
  | .demotionPlaced _ => demotionPlaced_ok _ s
  | .promotionPlaced _ => promotionPlaced_ok _ s
  | .oldRunDrained _ => oldRunDrained_ok _ s
  | .dumpBoundary => dumpBoundary_ok s
  | .healthSubwindow _ => healthSubwindow_ok _ s
  | .memoryScrub _ => memoryScrub_ok _ s
  | .camRowCheck _ => camRowCheck_ok _ s
  | .detection _ => detection_ok _ s
  | .islandResetComplete _ => islandResetComplete_ok _ s
  | .spareMoveBegin _ _ => spareMoveBegin_ok _ _ s
  | .spareMoveComplete _ _ _ => spareMoveComplete_ok _ _ _ s
  | .creditWatchTimeout _ => creditWatchTimeout_ok _ s
  | .functionEnable _ => functionEnable_ok _ s
  | .functionDisable _ => functionDisable_ok _ s
  | .initialisationComplete _ => initialisationComplete_ok _ s
  | .shutdownComplete _ => shutdownComplete_ok _ s
  | .tenantEnable _ => tenantEnable_ok _ s
  | .tenantDisable _ => tenantDisable_ok _ s
  | .queueEnable _ _ => queueEnable_ok _ _ s
  | .queueDisable _ _ => queueDisable_ok _ _ s
  | .queueShutdownTimeout _ _ => queueShutdownTimeout_ok _ _ s
  | .queueConfigWrite _ _ _ _ => queueConfigWrite_ok _ _ _ _ s
  | .sqTailDoorbell _ _ _ _ _ => sqTailDoorbell_ok _ _ _ _ _ s
  | .cqHeadDoorbell _ _ _ => cqHeadDoorbell_ok _ _ _ s
  | .commandFetch => commandFetch_ok s
  | .completionPost _ _ => completionPost_ok _ _ s
  | .interruptCoalesceTimer _ _ => interruptCoalesceTimer_ok _ _ s
  | .irqMaskWrite _ _ _ => irqMaskWrite_ok _ _ _ s
  | .kettleFlushTimer _ => kettleFlushTimer_ok _ s
  | .kettleWordWrite _ _ => kettleWordWrite_ok _ _ s
  | .kettleEnable _ => kettleEnable_ok _ s
  | .kettleDisable _ => kettleDisable_ok _ s
  | .kettleConfigWrite _ _ _ => kettleConfigWrite_ok _ _ _ s
  | .kettleHeadWrite _ _ => kettleHeadWrite_ok _ _ s
  | .knobWrite _ _ => knobWrite_ok _ _ s
  | .pctrCfgWrite _ _ => pctrCfgWrite_ok _ _ s
  | .dumpHeadWrite _ _ => dumpHeadWrite_ok _ _ s
  | .mgmtCtrLoRead _ => mgmtCtrLoRead_ok _ s
  | .hostCtrLoRead _ => hostCtrLoRead_ok _ s
  | .mgmtTimeLoRead _ => mgmtTimeLoRead_ok _ s
  | .mgmtRailVRead _ => mgmtRailVRead_ok _ s
  | .registerWrite _ _ _ => registerWrite_ok _ _ _ s
  | .nop _ => nop_ok _ s
  | .jobOpen _ => jobOpen_ok _ s
  | .jobClose _ => jobClose_ok _ s
  | .batchRegister _ => batchRegister_ok _ s
  | .batchRelease _ => batchRelease_ok _ s
  | .tenantReset _ => tenantReset_ok _ s
  | .queueFence _ => queueFence_ok _ s
  | .placeFence _ => placeFence_ok _ s
  | .trayFence _ => trayFence_ok _ s
  | .fenceComplete _ => fenceComplete_ok _ s
  | .forwardRetryTimer _ => forwardRetryTimer_ok _ s
  | .forwardTimeout _ => forwardTimeout_ok _ s
  | .forwardedCommandArrival _ _ _ => forwardedCommandArrival_ok _ _ _ s
  | .forwardedCompletionArrival _ _ _ _ _ => forwardedCompletionArrival_ok _ _ _ _ _ s
  | .admitRequest _ => admitRequest_ok _ s
  | .prefillChunk _ _ => prefillChunk_ok _ _ s
  | .handoff _ => handoff_ok _ s
  | .park _ => park_ok _ s
  | .resume _ => resume_ok _ s
  | .cancel _ => cancel_ok _ s
  | .query _ => query_ok _ s
  | .logRead _ => logRead_ok _ s
  | .recordRead _ => recordRead_ok _ s
  | .ledgerStepResendTimer _ => ledgerStepResendTimer_ok _ s
  | .ledgerStepArrival _ _ => ledgerStepArrival_ok _ _ s
  | .ledgerNotice _ => ledgerNotice_ok _ s
  | .ledgerQuery _ _ _ => ledgerQuery_ok _ _ _ s
  | .ledgerQueryRetryTimer _ => ledgerQueryRetryTimer_ok _ s
  | .ledgerAnswer _ => ledgerAnswer_ok _ s
  | .ledgerErase _ => ledgerErase_ok _ s
  | .repairCopyArrival _ _ _ => repairCopyArrival_ok _ _ _ s
  | .endOfRepair _ _ => endOfRepair_ok _ _ s
  | .headFreezeEnd _ => headFreezeEnd_ok _ s
  | .offer _ => offer_ok _ s
  | .placed _ _ _ => placed_ok _ _ _ s
  | .handoffRefuse _ _ _ => handoffRefuse_ok _ _ _ s
  | .lastPageSent _ => lastPageSent_ok _ s
  | .handoffPagePlaced _ _ => handoffPagePlaced_ok _ _ s
  | .replicaArrival _ _ => replicaArrival_ok _ _ s
  | .allPagesPlaced _ => allPagesPlaced_ok _ s
  | .orphanTimerExpiry _ => orphanTimerExpiry_ok _ s
  | .recoveryClaim _ _ => recoveryClaim_ok _ _ s
  | .pagePromote _ => pagePromote_ok _ s
  | .pageDemote _ => pageDemote_ok _ s
  | .pagePin _ => pagePin_ok _ s
  | .pageUnpin _ => pageUnpin_ok _ s
  | .pageDrop _ => pageDrop_ok _ s
  | .prefixLookup _ => prefixLookup_ok _ s
  | .prefixPublish _ => prefixPublish_ok _ s
  | .prefixRelease _ => prefixRelease_ok _ s
  | .windowOpen _ => windowOpen_ok _ s
  | .windowAdvance _ => windowAdvance_ok _ s
  | .windowClose _ => windowClose_ok _ s
  | .windowSlotFill _ => windowSlotFill_ok _ s
  | .t3Attach _ => t3Attach_ok _ s
  | .tierQuery _ => tierQuery_ok _ s
  | .modelDefine _ => modelDefine_ok _ s
  | .loanAskArrival _ => loanAskArrival_ok _ s
  | .loanGrantArrival _ => loanGrantArrival_ok _ s
  | .loanOfferArrival _ => loanOfferArrival_ok _ s
  | .loanDeclineArrival _ => loanDeclineArrival_ok _ s
  | .recall _ => recall_ok _ s
  | .recallEmpty _ _ => recallEmpty_ok _ _ s
  | .returnGrant _ => returnGrant_ok _ s
  | .recallDeadlineExpiry _ => recallDeadlineExpiry_ok _ s
  | .revoked _ => revoked_ok _ s
  | .gemm _ => gemm_ok _ s
  | .gemv _ => gemv_ok _ s
  | .gatherRows _ => gatherRows_ok _ s
  | .vector _ => vector_ok _ s
  | .tensorAlloc _ => tensorAlloc_ok _ s
  | .tensorFree _ => tensorFree_ok _ s
  | .ladleEntryStart _ => ladleEntryStart_ok _ s
  | .ladleEntryComplete _ => ladleEntryComplete_ok _ s
  | .ladlePreempt _ => ladlePreempt_ok _ s
  | .ladleSaveComplete _ => ladleSaveComplete_ok _ s
  | .ladleRestoreComplete _ => ladleRestoreComplete_ok _ s
  | .attendDecode _ => attendDecode_ok _ s
  | .attendPrefill _ => attendPrefill_ok _ s
  | .softmaxCombine _ => softmaxCombine_ok _ s
  | .attendBwd _ => attendBwd_ok _ s
  | .adapterLoad _ => adapterLoad_ok _ s
  | .adapterRoomAvailable _ _ _ => adapterRoomAvailable_ok _ _ _ s
  | .adapterLoadComplete _ _ _ => adapterLoadComplete_ok _ _ _ s
  | .adapterRetire _ => adapterRetire_ok _ s
  | .adapterVersionFree _ _ _ => adapterVersionFree_ok _ _ _ s
  | .adapterQuery _ => adapterQuery_ok _ s
  | .expertApply _ => expertApply_ok _ s
  | .sample _ => sample_ok _ s
  | .draftReset _ => draftReset_ok _ s
  | .constraintLoad _ => constraintLoad_ok _ s
  | .constraintRetire _ => constraintRetire_ok _ s
  | .camBankSetup _ => camBankSetup_ok _ s
  | .camWrite _ => camWrite_ok _ s
  | .camInvalidate _ => camInvalidate_ok _ s
  | .camSearch _ => camSearch_ok _ s
  | .camNext _ => camNext_ok _ s
  | .camCursorFree _ => camCursorFree_ok _ s
  | .camRead _ => camRead_ok _ s
  | .indexCreate _ => indexCreate_ok _ s
  | .indexLoadPart _ => indexLoadPart_ok _ s
  | .indexCommit _ => indexCommit_ok _ s
  | .indexRetire _ => indexRetire_ok _ s
  | .indexVersionFree _ _ _ => indexVersionFree_ok _ _ _ s
  | .vectorSearch _ => vectorSearch_ok _ s
  | .vectorDelete _ => vectorDelete_ok _ s
  | .indexQuery _ => indexQuery_ok _ s
  | .pressStreamOpen _ => pressStreamOpen_ok _ s
  | .pressStreamClose _ => pressStreamClose_ok _ s
  | .pressEncode _ => pressEncode_ok _ s
  | .pressDecode _ => pressDecode_ok _ s
  | .pressTableInstall _ => pressTableInstall_ok _ s
  | .pressInstallCommit _ _ => pressInstallCommit_ok _ _ s
  | .pressInstallWait _ _ => pressInstallWait_ok _ _ s
  | .pressTableRead _ => pressTableRead_ok _ s
  | .epOpen _ => epOpen_ok _ s
  | .epClose _ => epClose_ok _ s
  | .endpointQuarantineEnd _ _ => endpointQuarantineEnd_ok _ _ s
  | .send _ => send_ok _ s
  | .counterTrigger _ _ => counterTrigger_ok _ _ s
  | .recv _ => recv_ok _ s
  | .flush _ => flush_ok _ s
  | .mkeyCreate _ => mkeyCreate_ok _ s
  | .mkeyDestroy _ => mkeyDestroy_ok _ s
  | .ctrSet _ => ctrSet_ok _ s
  | .xportCtxAttach _ => xportCtxAttach_ok _ s
  | .contextFetchComplete _ => contextFetchComplete_ok _ s
  | .keyDerived _ _ => keyDerived_ok _ _ s
  | .frameReceive _ _ _ => frameReceive_ok _ _ _ s
  | .data _ => data_ok _ s
  | .ackCoalesceTimer _ _ _ _ => ackCoalesceTimer_ok _ _ _ _ s
  | .ack _ => ack_ok _ s
  | .notReady _ => notReady_ok _ s
  | .notReadyRetry _ _ => notReadyRetry_ok _ _ s
  | .notReadyTimeout _ _ => notReadyTimeout_ok _ _ s
  | .refuse _ => refuse_ok _ s
  | .abort _ => abort_ok _ s
  | .retransmitTimer _ _ => retransmitTimer_ok _ _ s
  | .deliveryTimeout _ _ => deliveryTimeout_ok _ _ s
  | .completionTableExpiry _ _ _ _ => completionTableExpiry_ok _ _ _ _ s
  | .trayLoad _ => trayLoad_ok _ s
  | .trayStore _ => trayStore_ok _ s
  | .trayAtomic _ => trayAtomic_ok _ s
  | .trayReduce _ => trayReduce_ok _ s
  | .trayMcastStore _ => trayMcastStore_ok _ s
  | .trayAlloc _ => trayAlloc_ok _ s
  | .trayGroupSet _ => trayGroupSet_ok _ s
  | .trayRequest _ => trayRequest_ok _ s
  | .trayLineOperation _ => trayLineOperation_ok _ s
  | .combiningWriteback _ => combiningWriteback_ok _ s
  | .trayReply _ => trayReply_ok _ s
  | .trayRetransmitTimer _ _ => trayRetransmitTimer_ok _ _ s
  | .trayTargetLost _ _ => trayTargetLost_ok _ _ s
  | .replyExpiry _ _ => replyExpiry_ok _ _ s
  | .announcementSend _ _ => announcementSend_ok _ _ s
  | .announcement _ _ _ => announcement_ok _ _ _ s
  | .assign _ _ _ => assign_ok _ _ _ s
  | .routeUpdate _ _ _ => routeUpdate_ok _ _ _ s
  | .membership _ _ => membership_ok _ _ s
  | .fragmentDiscard _ => fragmentDiscard_ok _ s
  | .heartbeat => heartbeat_ok s
  | .ptpMessage _ => ptpMessage_ok _ s
  | .lockLossTimeout => lockLossTimeout_ok s
  | .pfcFrame _ _ _ => pfcFrame_ok _ _ _ s
  | .neighbourSolicitation _ _ _ => neighbourSolicitation_ok _ _ _ s
  | .linkTrained _ _ => linkTrained_ok _ _ s
  | .linkTrainingRetry _ _ _ => linkTrainingRetry_ok _ _ _ s
  | .linkFailure _ _ => linkFailure_ok _ _ s
  | .portControl _ => portControl_ok _ s
  | .frameTransmitSelect _ _ => frameTransmitSelect_ok _ _ s
  | .gateEntryChange _ => gateEntryChange_ok _ s
  | .domainSecretActivation => domainSecretActivation_ok s
  | .inject _ => inject_ok _ s
  | .shadowControl _ => shadowControl_ok _ s
  | .mirroredCommand _ _ _ _ _ => mirroredCommand_ok _ _ _ _ _ s
  | .getIdentity _ _ => getIdentity_ok _ _ s
  | .attest _ _ _ => attest_ok _ _ _ s
  | .provision _ _ _ _ _ _ => provision_ok _ _ _ _ _ _ s
  | .advance _ _ _ _ _ _ => advance_ok _ _ _ _ _ _ s
  | .setDomain _ _ _ _ _ _ _ _ _ => setDomain_ok _ _ _ _ _ _ _ _ _ s
  | .sessionOpen _ _ _ _ _ => sessionOpen_ok _ _ _ _ _ s
  | .sessionClose _ _ => sessionClose_ok _ _ s
  | .sessionTimeout => sessionTimeout_ok s
  | .memRead _ _ _ _ _ _ => memRead_ok _ _ _ _ _ _ s
  | .functionLevelReset _ => functionLevelReset_ok _ s
  | .windowSlotFilled _ _ => windowSlotFilled_ok _ _ s
  | .waitReleaseReport _ => waitReleaseReport_ok _ s
  | .systemEndpointRetry => systemEndpointRetry_ok s
  | .attestSignatureComplete => attestSignatureComplete_ok s

/-- The inversion lemma of a command: what its next state can be. -/
theorem exec_change {i : Instr} {s t : State} (h : exec i s = .next t) : Change i s t := by
  obtain ⟨u, hu, hc⟩ := exec_ok i s
  rw [h] at hu
  cases hu
  exact hc

/-- A step with a command in front runs that command on the rest of the queue. -/
theorem step_of_pending {s : State} {i : Instr} {r : List Instr} (h : s.pending = i :: r) : step s = exec i { s with pending := r } := by
  unfold step; rw [h]

/-- A step on an empty queue is the passage of a nanosecond. -/
theorem step_of_empty {s : State} (h : s.pending = []) : step s = .next (tick s) := by
  unfold step; rw [h]

/-- What the passage of a nanosecond does to the clocks, and what it leaves alone. -/
theorem tick_frame (s : State) : (tick s).time = (clockNs s).time ∧ (tick s).mono = s.mono + 1 ∧ (tick s).pending = s.pending ∧
    (tick s).hostMem = s.hostMem ∧ (tick s).nvm = s.nvm ∧ (tick s).nvmFitted = s.nvmFitted ∧ (tick s).image = s.image ∧ (tick s).fuses = s.fuses ∧
    (tick s).order = s.order ∧ (tick s).sec.lifecycle = s.sec.lifecycle := by
  have h : ∀ u v : State, (u.keepHost v).time = u.time ∧ (u.keepHost v).mono = u.mono ∧ (u.keepHost v).pending = u.pending ∧
      (u.keepHost v).hostMem = u.hostMem ∧ (u.keepHost v).nvm = u.nvm ∧ (u.keepHost v).nvmFitted = u.nvmFitted ∧ (u.keepHost v).image = u.image ∧
      (u.keepHost v).fuses = u.fuses ∧ (u.keepHost v).order = u.order ∧ (u.keepHost v).sec.lifecycle = u.sec.lifecycle :=
    fun _ _ => ⟨rfl, rfl, rfl, rfl, rfl, rfl, rfl, rfl, rfl, rfl⟩
  have e : ∃ v, tick s = (ppsNs (clockNs s)).keepHost v := ⟨_, rfl⟩
  obtain ⟨v, e⟩ := e
  rw [e]
  obtain ⟨h1, h2, h3, h4, h5, h6, h7, h8, h9, h10⟩ := h (ppsNs (clockNs s)) v
  have c : (clockNs s).mono = s.mono + 1 ∧ (clockNs s).pending = s.pending ∧ (clockNs s).hostMem = s.hostMem ∧ (clockNs s).nvm = s.nvm ∧
      (clockNs s).nvmFitted = s.nvmFitted ∧ (clockNs s).image = s.image ∧ (clockNs s).fuses = s.fuses ∧ (clockNs s).order = s.order ∧
      (clockNs s).sec = s.sec := by
    unfold clockNs
    split <;> exact ⟨rfl, rfl, rfl, rfl, rfl, rfl, rfl, rfl, rfl⟩
  obtain ⟨c1, c2, c3, c4, c5, c6, c7, c8, c9⟩ := c
  exact ⟨h1, h2.trans c1, h3.trans c2, h4.trans c3, h5.trans c4, h6.trans c5, h7.trans c6, h8.trans c7, h9.trans c8,
    h10.trans (congrArg (·.lifecycle) c9)⟩

end Sys2Proof.Laws
end

