-- ==== Sys2Proof/Laws/Tiers.lean ====
section
/-!
SUPPORT. Laws of the tiers: the lowest free number, directory entries, and runs taken span by span.
-/
namespace Sys2Proof.Laws
open Sys2Proof.Machine

/-- The lowest free number is at most as far from its start as there are numbers taken. -/
theorem freeNumber_le (lo : Nat) (l : List Nat) : freeNumber lo l ≤ lo + l.length := by
  unfold freeNumber
  cases h : ((List.range (l.length + 1)).map (· + lo)).find? (fun x => !l.contains x) with
  | none => simp
  | some a =>
    have m := List.mem_of_find?_eq_some h
    simp at m
    simp; omega

/-- What the system objects take does not hang on the runs and entries of other objects. -/
theorem systemCount_setTier (s : State) (u : List (Nat × Nat × Nat)) (d : Tab Nat DirEntry) (f : Tab Nat Nat) :
    systemCount (setTier s { s.tier with used := u, dir := d, freeSeq := f }) = systemCount s := by
  unfold systemCount fixedSlabs growingSlabs growingBytes
  rfl

/-- A directory with room takes an entry. -/
theorem newEntry_some {s : State} {m : Nat} (hm : systemCount s = m) (r : Run) (kind tenant layer page back : Nat) (persist : Bool)
    (h : s.tier.dir.length + m < 16777216) :
    ∃ i v, newEntry s r kind tenant layer page back persist = some (i, v) ∧ v.tier.dir.length ≤ s.tier.dir.length + 1 ∧ systemCount v = m := by
  have f := freeNumber_le 0 (s.tier.dir.map (·.1))
  rw [List.length_map] at f
  unfold newEntry
  rw [hm]
  have n : ¬ 16777216 ≤ freeNumber 0 (s.tier.dir.map (·.1)) + m := by omega
  simp only [n, if_false]
  exact ⟨_, _, rfl, tset_length_le _ _ _, (systemCount_setTier s s.tier.used _ _).trans hm⟩

/-- A directory with room takes a span. -/
theorem takeSpan_some (stack t b : Nat) {m : Nat} (x : Nat × Nat) {s : State} (hm : systemCount s = m) (h : s.tier.dir.length + m < 16777216) :
    ∃ v, takeSpan s stack t b x = some v ∧ v.tier.dir.length ≤ s.tier.dir.length + 1 ∧ systemCount v = m := by
  unfold takeSpan
  obtain ⟨i, v, e, hv, hs⟩ := newEntry_some ((systemCount_setTier s (s.tier.used ++ [(stack, x)]) s.tier.dir s.tier.freeSeq).trans hm)
    { fabric := selfId s, loc := stack, first := x.1, base := locBase s stack, slabs := x.2, gen := slabGen s.tier stack x.1 } 3 t 0 0 b true h
  exact ⟨v, by simp only [e, Option.map_some], hv, hs⟩

/-- A directory with room takes an entry for every span. -/
theorem takeSpans_some (stack t b : Nat) {m : Nat} (l : List (Nat × Nat)) {s : State} (hm : systemCount s = m)
    (h : s.tier.dir.length + m + l.length ≤ 16777216) : (takeSpans s stack t b l).isSome = true := by
  induction l generalizing s with
  | nil => rfl
  | cons x r ih =>
    simp only [List.length_cons] at h
    obtain ⟨v, e, hv, hs⟩ := takeSpan_some stack t b x hm (by omega)
    simp only [takeSpans, e, Option.bind_some]
    exact ih hs (by omega)

/-- A new region entry changes neither the directory nor what the system objects take. -/
theorem systemCount_newRegion (s : State) (r : Region) : systemCount (newRegion s r).2 = systemCount s := by
  unfold systemCount fixedSlabs growingSlabs growingBytes
  rfl

/-- With room in the directory, the slabs of a grant are lent. -/
theorem lendRun_some {s : State} {m : Nat} (hm : systemCount s = m) (borrower stack slab : Nat) (h : s.tier.dir.length + m + 256 ≤ 16777216) :
    (lendRun s borrower stack slab).isSome = true := by
  have l : (spans slab 16384).length = 256 := by simp [spans, ceilDiv]
  have k := takeSpans_some stack 16 (regionBack (newRegion s (grantRegion s stack slab)).1) (spans slab 16384)
    ((systemCount_newRegion s (grantRegion s stack slab)).trans hm) (by rw [l]; exact h)
  unfold lendRun
  rw [Option.isSome_map]
  exact k

/-- With a run of a grant's size on some stack, a free region entry and room in the directory, a grant is lent. -/
theorem lend_some {s : State} {m : Nat} (hm : systemCount s = m) (borrower : Nat) (x : Nat × Nat)
    (h1 : bigRun s 16384 (stacksByFree s) = some x) (h2 : regionRoom s 0 true = true)
    (h3 : s.tier.dir.length + m + 256 ≤ 16777216) : ∃ g v, lend s borrower = some (g, v) := by
  obtain ⟨y, hy⟩ := Option.isSome_iff_exists.1 (lendRun_some hm borrower x.1 x.2 h3)
  exact ⟨y.1, y.2, by unfold lend; simp only [h1, h2, if_true, hy]⟩

end Sys2Proof.Laws
end

