-- ==== Sys2Proof/Laws/Wire.lean ====
section
/-!
SUPPORT. Laws of the byte orders and of the headers' field maps: what is read is what was laid out.
-/
namespace Sys2Proof.Machine

/-- Reading the fields of a map gives each value cut to its width. -/
theorem splitFields_joinFields : ∀ l : List (Nat × Nat), splitFields (l.map (·.1)) (joinFields l) = l.map fun f => f.2 % 2 ^ f.1
  | [] => rfl
  | (w, v) :: l => by
    have hw : 0 < 2 ^ w := Nat.two_pow_pos w
    have hv : v % 2 ^ w < 2 ^ w := Nat.mod_lt _ hw
    simp only [List.map_cons, joinFields, splitFields, List.cons.injEq]
    refine ⟨by rw [Nat.add_mul_mod_self_left]; exact Nat.mod_mod _ _, ?_⟩
    rw [Nat.add_mul_div_left _ _ hw, Nat.div_eq_of_lt hv, Nat.zero_add]
    exact splitFields_joinFields l

theorem unpackFields_packFields (l : List (Nat × Nat)) : unpackFields (l.map (·.1)) (packFields l) = l.map fun f => f.2 % 2 ^ f.1 := by
  simp only [unpackFields, packFields, ← List.map_reverse, splitFields_joinFields, List.reverse_reverse]

/-- A field map is no wider than its fields together. -/
theorem joinFields_lt : ∀ l : List (Nat × Nat), joinFields l < 2 ^ (l.map (·.1)).sum
  | [] => by simp [joinFields]
  | (w, v) :: l => by
    have hv : v % 2 ^ w < 2 ^ w := Nat.mod_lt _ (Nat.two_pow_pos w)
    have h := joinFields_lt l
    simp only [joinFields, List.map_cons, List.sum_cons, Nat.pow_add]
    calc v % 2 ^ w + 2 ^ w * joinFields l < 2 ^ w + 2 ^ w * joinFields l := by omega
      _ = 2 ^ w * (joinFields l + 1) := by ring
      _ ≤ 2 ^ w * 2 ^ (l.map (·.1)).sum := Nat.mul_le_mul_left _ h

theorem packFields_lt (l : List (Nat × Nat)) : packFields l < 2 ^ (l.map (·.1)).sum := by
  have h := joinFields_lt l.reverse
  rwa [List.map_reverse, List.sum_reverse] at h

@[simp] theorem leBytes_length : ∀ n x : Nat, (leBytes n x).length = n
  | 0, _ => rfl
  | n + 1, x => by simp [leBytes, leBytes_length n]

@[simp] theorem beBytes_length (n x : Nat) : (beBytes n x).length = n := by simp [beBytes]

theorem leNat_leBytes : ∀ n x : Nat, leNat (leBytes n x) = x % 256 ^ n
  | 0, x => by simp [leBytes, leNat, Nat.mod_one]
  | n + 1, x => by
    show (BitVec.ofNat 8 x).toNat + 256 * leNat (leBytes n (x / 256)) = _
    have h : (BitVec.ofNat 8 x).toNat = x % 256 := BitVec.toNat_ofNat x 8
    rw [h, leNat_leBytes n, show 256 ^ (n + 1) = 256 * 256 ^ n from Nat.pow_succ', Nat.mod_mul]

theorem beNat_beBytes (n x : Nat) : beNat (beBytes n x) = x % 256 ^ n := by simp [beNat, beBytes, leNat_leBytes]

/-- The fields read from a header of `n` bytes are those laid out, each cut to its width; what follows the header is not looked at. -/
theorem unpackFields_bytes (n : Nat) (l : List (Nat × Nat)) (rest : List Byte) (h : (l.map (·.1)).sum = 8 * n) :
    unpackFields (l.map (·.1)) (beNat ((beBytes n (packFields l) ++ rest).take n)) = l.map fun f => f.2 % 2 ^ f.1 := by
  have hp := packFields_lt l
  rw [List.take_append_of_le_length (by simp), List.take_of_length_le (by simp), beNat_beBytes, Nat.mod_eq_of_lt, unpackFields_packFields]
  rwa [show (256 : Nat) = 2 ^ 8 from rfl, ← Nat.pow_mul, ← h]

/-- A Tongs header is that of its body with its own handle and sender. -/
@[simp] theorem header_body (t : Tongs) (bits : List Nat) : (t.body bits).header t.handle t.sender = t := rfl

@[simp] theorem body_bits (t : Tongs) (bits : List Nat) : (t.body bits).bits = bits := rfl

end Sys2Proof.Machine
end

