-- ==== Sys2Proof/Tests/Slice0.lean ====
section
/-!
SUPPORT. Tests: ill-formed terms, witnesses for the statements, and single steps with results taken from the manual's tables.
-/
namespace Sys2Proof.Tests
set_option Elab.async false
open Sys2Proof.Machine

/-! ### Small states -/

/-- Tenant 1 on function 1 with two queue pairs and endpoints 256–259; tenant 0 on function 0. -/
def tenantA : TenantRec :=
  { tenant := 1, queuePairs := 2, function := 1, priority := 0, jobLimit := 2, camBanks := 2, grammarSlots := 4, counterRead := false,
    endpointBase := 256, endpointCount := 4 }
def tenantZ : TenantRec := { tenantA with tenant := 0, function := 0, endpointBase := 512 }

def image : Image := { Image.none with role := .c, tenants := [tenantA, tenantZ], fabricId := 32, installationId := 7 }

def isOn : FnState := { st := .on, latch := false }

/-- A queue pair of 64 entries that is ON. -/
def pair : QueuePair := { QueuePair.reset with fn := isOn, sqBase := 0x10000, cqBase := 0x20000, sqLog := 6, cqLog := 6 }

/-- The module in READY with both tenants and a queue pair of each ON, fabric ID 32 in a membership of two, and time held. -/
def up : State :=
  { State.reset with
    image := image, time := 5000, mono := 7000
    boot := { Boot.reset with state := .ready, resetN := true, pwrOk := true }
    host := { HostIf.reset with link := { up := true, width := 16, rate := 6, flit := true }, tenants := [(1, isOn), (0, isOn)],
                                queues := [((1, 0), pair), ((0, 0), pair)], kettles := [(0, Kettle.reset)], nextSlot := 2 }
    sec := { Sec.reset with lifecycle := 2, keys := true, domain := [{ activate := 0, secret := 5 }] }
    fab := { Fab.reset with id := some 32, locked := true, epoch := 3, members := [(32, 2), (33, 2)], entered := 1 } }

/-- `up` with one function's status. -/
def withFn (f : FnId) (x : FnState) (s : State) : State := { s with rel := { s.rel with fns := tset s.rel.fns f x } }
def withPair (p : QueuePair) (s : State) : State := setQueue s 1 0 p
def withRing (k : Kettle) (s : State) : State := setKettle s 1 k
def tenantOff : State := { up with host := { up.host with tenants := [(1, .clean), (0, isOn)] } }
/-- A command of tenant 1 by opcode and words 1 to 7. -/
def cmd (op w1 w2 w3 w4 w5 w6 w7 : Nat) : Cmd :=
  { fn := 1, q := 0, src := none, w0 := BitVec.ofNat 64 op, w1 := BitVec.ofNat 64 w1, w2 := BitVec.ofNat 64 w2, w3 := BitVec.ofNat 64 w3,
    w4 := BitVec.ofNat 64 w4, w5 := BitVec.ofNat 64 w5, w6 := BitVec.ofNat 64 w6, w7 := BitVec.ofNat 64 w7 }
/-- The same of function 0. -/
def cmd0 (op w1 w2 w3 w4 w5 w6 w7 : Nat) : Cmd := { cmd op w1 w2 w3 w4 w5 w6 w7 with fn := 0 }

/-- The slot of a command that has been fetched. -/
def fetched (id : Nat) (c : Cmd) : Slot :=
  { id := id, cmd := c, order := 0, arrived := 0, members := [], phase := .fetched, sentAt := 0, sentTo := none, askedAt := 0, aux := 0, injected := false, dead := false }

/-- The command stands fetched in slot 1 of a state. -/
def on (s : State) (c : Cmd) : State := { s with host := { s.host with slots := [fetched 1 c], nextSlot := 2 } }

/-- Does the command start in slot 1 of its state? -/
def startsB (op : Nat) (c : Cmd) (s : State) : Bool :=
  opcodeOf c == op && !islandShut (on s c) c && !heldBack (on s c) 1 c && (hostChecks (on s c) c).isNone

theorem starts_of {op : Nat} {c : Cmd} {s : State} (h : startsB op c s = true) : Starts op c (on s c) 1 (on s c) := by
  simp only [startsB, Bool.and_eq_true, Bool.not_eq_true', beq_iff_eq, Option.isNone_iff_eq_none] at h
  obtain ⟨⟨⟨h1, h2⟩, h3⟩, h4⟩ := h
  refine ⟨h1, ?_, h4⟩
  have f : (on s c).host.slots.find? (fun x => sameQueue x.cmd c && decide (x.phase = .fetched)) = some (fetched 1 c) := by
    simp [on, fetched, sameQueue]
  have h3 : heldBack (on s c) (fetched 1 c).id c = false := h3
  simp only [claim, h2, f, h3, Bool.false_eq_true, if_false]
  simp [fetched]

/-- The state in which the command begins, from slot 1. -/
def beg (s : State) (c : Cmd) : State := begun (on s c) 1 c

/-! ### Requests -/

/-- A handle of tenant 1. -/
def h0 : Nat := 2 ^ 60 + 5

/-- A record of request `h0`: model 2, 300 tokens logged of a prompt of 300, in the given phase, step 7, epoch 3. -/
def rec0 (phase : Nat) : ReqRec :=
  { handle := h0, epoch := 3, step := 7, phase := phase, prior := 0, target := 0, replicas := 0, recoveries := 0, peer := 0x3FFFF, owner := 32,
    origin := 32, decodeTarget := 0x3FFFF, job := 0, model := 2, composition := 0, adapter := 0, adapterVersion := 0, promptTokens := 300,
    tokenLimit := 10, logged := 300, firstMissing := 0xFFFFFFFF, placed := 0, pageList := 0, admitTime := 0, seed := 0,
    sampler := List.replicate 8 0, stepTime := 0, stepDigest := 77, createDigest := 0, logLocator := 0 }

/-- Its working copy at the owner, with no page. -/
def own0 (phase : Nat) : Owned :=
  { record := rec0 phase, log := List.replicate 300 1, pages := [], blocks := [], handoff := none, lastDone := false, lastStart := 0,
    adapterRef := false, refs := [] }

/-- Model 2 of tenant 1: one layer of one head of 64 elements in format 0. -/
def model2 : ModelDef :=
  { tenant := 1, model := 2, layers := 1, kvHeads := 1, qpk := 1, headDim := 64, kvFmt := 0, kvScale := 0, kvGroup := 32, pageBytes := 65536 }

/-- `up` owning request `h0`. -/
def serve (o : Owned) : State :=
  { up with tier := { Tier.reset with models := [model2] }, req := { Req.reset with owned := [(h0, o)] } }

def page0 (k dir upto : Nat) : (Nat × Nat) × PageEntry :=
  ((0, k), { dir := dir, present := true, full := false, shared := false, pin := false, upto := upto })
def served : State := serve (own0 4)
/-- A reference to host memory. -/
def host (a : Nat) : Nat := 2 * 2 ^ 62 + a
/-- Bytes at addresses of host memory. -/
def bytesAt (a : Nat) (l : List Nat) : List (Nat × BitVec 8) := l.zipIdx.map fun b => (a + b.2, BitVec.ofNat 8 b.1)
/-- A descriptor tensor: model 2, one layer, one head of 64, KV format 0, group 0 (Table 8.1). -/
def descTensor (model dim fmt : Nat) : Tensor :=
  { bytes := 64, dirs := [], freeing := false
    blob := { fill := none, bad := [], cells := Memory.place [] [(7, BitVec.ofNat 8 (model / 256)), (6, BitVec.ofNat 8 model), (3, BitVec.ofNat 8 (dim * 16 + fmt))] } }
/-- A request whose 300 tokens have their pages. -/
def prefilling : Owned := { own0 1 with pages := [page0 0 10 256, page0 1 11 44] }
/-- `up` as the only member, so that it holds all three copies of every entry. -/
def alone (s : State) : State := { s with fab := { s.fab with members := [(32, 2)] } }

theorem startsHere_of {op : Nat} {c : Cmd} {s : State} (h : startsB op c s = true) (r : routeOf (begun (on s c) 1 c) 1 c = .here) :
    StartsHere op c (on s c) 1 (on s c) := ⟨starts_of h, r⟩

theorem oneHere_of {op : Nat} {c : Cmd} {s : State} (h : startsB op c s = true) (r : routeOf (begun (on s c) 1 c) 1 c = .here)
    (b : isBatch c = false) : OneHere op c (on s c) 1 (on s c) := ⟨startsHere_of h r, b⟩

/-- Run a command on a state that holds it fetched. -/
def run (f : Cmd → Instr) (c : Cmd) (s : State) : Host.Outcome State Fault Refusal := exec (f c) (on s c)

/-- The last completion that is due after a step: status and the two results. -/
def ended (o : Host.Outcome State Fault Refusal) : Option (Nat × Nat × Nat) :=
  match o with
  | .next t => t.host.due.getLast?.map fun d => (d.status, d.result0, d.result1)
  | _ => none

/-- A property of the next state. -/
def after (o : Host.Outcome State Fault Refusal) (f : State → Bool) : Bool :=
  match o with
  | .next t => f t
  | _ => false

/-! ### The fabric -/

/-- Endpoint 256 of tenant 1: open since time 100 with generation 5, key 7, counter 9 for keyed messages. -/
def ep256 : Endpoint := { Endpoint.fresh with opened := true, gen := 5, tOpen := 100, tenant := 1, mkey := 7, keyedCounter := 9 }
def region (kind space location length : Nat) : Region :=
  { space := space, location := location, length := length, tenant := 1, reduce := true, atomic := true, write := true, read := true, system := false, kind := kind,
    endpoint := 256, job := 0 }
def hop : RoutePath := { port := 0, sub := 0, farPort := 0, farSub := 0 }
/-- `up` with endpoint 256 and its region entry 7, a pair key with module 33 for epoch 0, and link 0.0 ON as the path to it. -/
def netUp : State :=
  withFn (.link 0 0) isOn { up with
    xport := { Xport.reset with eps := [(256, ep256)], resident := [256], regions := [(7, region 1 0 0 1)], keys := [(33, 0)] }
    fab := { up.fab with trayRoutes := [(1, [hop])], slotRoutes := [(1, [hop])] } }
/-- A send record of slot 1: one packet of `len` bytes from endpoint 256 to endpoint 300 of module 33. -/
def sendRec (len : Nat) : SendRec :=
  { id := 0, slot := 1, tenant := 1, cls := 0, ep := 256, gen := 5, serial := 11, dest := 33, dstEp := 300, dstGen := 2, mode := 0, mkey := 0, off64 := 0, tag := 0,
    length := len, ref := BitVec.ofNat 64 (host 0x1000), doneCounter := 0, low := 0, packets := [], completed := false, failed := none, abortPkt := .fresh, op := 1 }
/-- A SEND of tenant 1 that waits on the fabric in slot 1. -/
def sendCmd : Cmd := cmd 0x72 0 (host 0x1000) (33 * 2 ^ 46 + 300 * 2 ^ 30 + 2 * 2 ^ 22 + 256) (64 * 2 ^ 31) 0 0 0
def inSlot (c : Cmd) (s : State) : State := { s with host := { s.host with slots := [{ fetched 1 c with phase := .waiting .fabric }], nextSlot := 2 } }
def sending (r : SendRec) : State := inSlot sendCmd { netUp with xport := { netUp.xport with sends := [r], nextSend := 1 } }
/-- A packet of module 33, endpoint 300, generation 2, serial 4, to endpoint 256. -/
def base33 (kind len : Nat) : BaseHdr :=
  { version := 1, kind := kind, cls := 0, locked := true, entropy := 0, membership := 3, dest := 32, src := 33, length := len, stamp := 4900, keyEpoch := 0, seq := 1 }
def pkt (type mode len mkey : Nat) (data : List Nat) : XPacket :=
  { base := base33 0 data.length, data := data.map (BitVec.ofNat 8)
    hdr := { type := type, mode := mode, final := false, dstEp := 256, dstGen := 5, srcEp := 300, srcGen := 2, reason := 0, serial := 4, packet := 0, msgLength := len,
             tag := 6, hintUs := 0, mkey := mkey, off64 := 0 } }
/-- A control packet that answers record `sendRec`. -/
def answer (type reason hint : Nat) (final : Bool) (data : List Nat) : XPacket :=
  { pkt type 0 0 0 data with hdr := { (pkt type 0 0 0 data).hdr with final := final, reason := reason, serial := 11, hintUs := hint } }
/-- Completions that are due: slot, status, results. -/
def dueOf (t : State) : List (Nat × Nat × Nat × Nat) := t.host.due.map fun d => (d.slot, d.status, d.result0, d.result1)
/-- Frames that wait in the queue of class 0 of link 0.0 for tenant 1. -/
def queuedX (t : State) : List XPacket :=
  (tgetD t.shape.queues (0, 0, 0, 1) []).filterMap fun q => match q.frame.payload with | .xport p => some p | _ => none
/-- A posted receive of slot 0 at 0x3000, with counter 9. -/
def posted (cap : Nat) : PostedRecv := { slot := 0, ref := BitVec.ofNat 64 (host 0x3000), capacity := cap, done := 9 }
/-- A frame with a packet of 64 bytes for endpoint 256. -/
def frame (p : Payload) : Frame := { checkOk := true, etype := 0, link := 0, authentic := true, bytes := 166, payload := p }
def withKeys (l : List (Nat × Nat)) (s : State) : State := { s with xport := { s.xport with keys := l } }
/-- RECV of 64 bytes at 0x3000. -/
def recvC (n len tag : Nat) : Cmd := cmd 0x73 0 (host 0x3000) (len * 2 ^ 31 + n) 0 (tag * 2 ^ 48 + 9 * 2 ^ 32) 0 0
/-- Endpoint 256 with a posted receive of slot 0. -/
def recvUp (cap : Nat) (x : Xport) : State :=
  let s := { netUp with xport := { x with eps := [(256, { ep256 with recvs := [posted cap] })] } }
  { s with host := { s.host with slots := [{ fetched 0 (recvC 256 cap 0) with phase := .waiting .fabric }], nextSlot := 1 } }
def data3 : XPacket := pkt 0 0 3 7 [7, 8, 9]
/-- A receive record with packets 0 and 2 placed since time `old`. -/
def rec02 (old : Option Nat) : RecvRec :=
  { src := 33, srcEp := 300, srcGen := 2, serial := 4, dstEp := 256, mode := 0, mkey := 7, off64 := 0, tag := 6, length := 20000, placed := [2, 0], placedBytes := 8192,
    recv := some (posted 20000), newly := 2, oldest := old, maxStamp := 0, cls := 0 }
def coalesce (old : Option Nat) : State := recvUp 20000 { netUp.xport with recvs := [rec02 old] }
def sentPkt (f : TxPacket → TxPacket) : SendRec := { sendRec 64 with packets := [(0, f { TxPacket.fresh with sent := true, stamp := 4000, lastTx := 3000 })] }
/-- A tray address: slot, then byte. -/
def trayAt (slot a : Nat) : Nat := slot * 2 ^ 41 + a
/-- Kinds of frames of link control that wait on link 0.0. -/
def control0 (t : State) : List Payload := (tgetD t.shape.queues (0, 0, 8, 0) []).map (·.frame.payload)
def ann (serial id : Nat) : Announce :=
  { installation := 7, serial := serial, fabricId := id, role := 2, portDies := 3, link := 0, linksOn := 1, membership := 3 }
def withFab (g : Fab → Fab) : State := { netUp with fab := g netUp.fab }
def countOf (o : Host.Outcome State Fault Refusal) (island code : Nat) : Nat := match o with | .next t => tgetD t.tele.events (island, code) 0 | _ => 0
def drop1 (o : Host.Outcome State Fault Refusal) (why : Nat) : Nat := match o with | .next t => tgetD t.fab.dropped why 0 | _ => 0

/-! ### Steps, invariants and runs -/

/-- The hypotheses of the invariant statements: the two memories of `up`, and an empty queue. -/
theorem test_memories_and_empty_queue : MemoriesWf up ∧ up.pending = [] ∧ MemoriesWf State.reset := by
  unfold MemoriesWf; decide
/-- A tick. -/
theorem test_tick : after (step up) (fun t => t.time = 5001 && t.mono = 7001) = true := by decide
/-- The front command runs and leaves the queue's rest (a write of a page that does not exist changes nothing). -/
theorem test_front : after (step { up with pending := [.sqTailDoorbell 1 9 1 [] [], .perstN] }) (fun t => t.pending = [.perstN]) = true := by decide
/-- A step that ends in a next state, as the statement on structure needs. -/
theorem test_structure_has_steps : ∃ t, exec (.modResetLow 999) up = .next t := ⟨_, rfl⟩

/-! ### Start-up, stops, sensors, governor -/

def board : BoardStart := { nvm := none, nvmOk := true, sectionsOk := true, seedOk := true, entropyOk := true, addr := 2, retrained := [], failedStacks := [] }

/-- Reset may start; without the seed, with a failed entropy test and without the NVM it is held in steps 1, 1 and 2 (Table 3.10); an NVM of
zeros has no header (step 2, IMAGE_HEADER). -/
theorem test_moduleStart : mayStart State.reset = true ∧
    after (exec (.moduleStart { board with seedOk := false }) State.reset)
      (fun t => t.boot.state = .held && t.boot.step = 1 && t.boot.reason = 0x0901 && t.boot.mgmtAddr = 2) = true ∧
    after (exec (.moduleStart { board with entropyOk := false }) State.reset) (fun t => t.boot.step = 1 && t.boot.resetN && t.boot.pwrOk) = true ∧
    after (exec (.moduleStart { board with nvmOk := false }) State.reset) (fun t => t.boot.state = .held && t.boot.step = 2 && !t.boot.nvmPins) = true ∧
    after (exec (.moduleStart { board with sectionsOk := false }) State.reset) (fun t => t.boot.state = .held && t.boot.step = 3) = true ∧
    after (exec (.moduleStart board) State.reset) (fun t => t.boot.state = .held && t.boot.step = 2) = true := by decide
/-- A module that runs does not start again. -/
theorem test_moduleStart_running : mayStart up = false := by decide

def training : State := { up with boot := { up.boot with state := .training, step := 8, trainStart := 0 }, mono := 500000000 }

/-- 500 ms after step 8 began it ends; one nanosecond before, it does not. -/
theorem test_fabricTrainingEnd : after (exec .fabricTrainingEnd training) (fun t => t.boot.trainEnded) = true ∧
    after (exec .fabricTrainingEnd { training with mono := 499999999 }) (fun t => !t.boot.trainEnded) = true := by decide
/-- READY, with the fabric ID that the image gives. -/
theorem test_enterReady :
    after (exec .enterReady { training with boot := { training.boot with trainEnded := true } })
      (fun t => t.boot.state = .ready && t.boot.step = 9 && t.fab.id = some 32) = true := by decide +kernel

/-- A stop by a sensor's ERASE zeroises the keys, one by power does not. -/
theorem test_emergencyStop : alive up = true ∧
    after (exec (.emergencyStop .sensorErase) (on up (cmd 0 0 0 0 0 0 0 0)))
      (fun t => t.boot.stop = some .sensorErase && !t.sec.keys && t.sec.domain = [] && t.host.slots = [] && t.gov.state = 4) = true ∧
    after (exec (.emergencyStop .powerOk) up) (fun t => t.sec.keys && t.boot.stop = some .powerOk) = true := by decide
/-- 999 ns of MOD_RESET_N and 99 ns of PWR_OK change nothing; 1 µs and 100 ns stop (R590). -/
theorem test_pins :
    after (exec (.modResetLow 999) up) (fun t => t.boot.stop = none) = true ∧
    after (exec (.modResetLow 1000) up) (fun t => t.boot.stop = some .resetPin && !t.boot.resetN && t.boot.startFrom = 7000 + 9000) = true ∧
    after (exec (.pwrOkLow 99) up) (fun t => t.boot.stop = none) = true ∧
    after (exec (.pwrOkLow 100) up) (fun t => t.boot.stop = some .powerOk && !t.boot.pwrOk) = true := by decide
theorem test_entropyHealthFail : after (exec .entropyHealthFail up) (fun t => t.boot.stop = some .entropy) = true ∧
    after (exec .entropyHealthFail training) (fun t => t.boot.state = .held && t.boot.step = 8 && t.boot.reason = Status.entropyFailure && !t.host.link.up) = true := by decide
/-- At the floor of 20 A the module enters reset; above it, it does not (R508). -/
theorem test_stopRampEnd :
    after (exec .stopRampEnd { up with boot := { up.boot with stop := some .junction }, gov := { up.gov with current := 20000 } })
      (fun t => t.boot.state = .reset && t.boot.stop = none && !t.sec.keys && t.fab.id = none && t.time = 5000) = true ∧
    after (exec .stopRampEnd { up with boot := { up.boot with stop := some .junction }, gov := { up.gov with current := 20001 } })
      (fun t => t.boot.state = .ready) = true := by decide

/-- A sensor of each response: LOG leaves the module running, a weaker response than the one in force changes no pin. -/
theorem test_sensorTrip : injectionFor up 0x14 0 4 = none ∧
    after (exec (.sensorTrip 4) { up with image := { image with sensors := [(4, 2)] } })
      (fun t => t.sec.lastTrip = some (4, 2) && !t.sec.alarmN && t.boot.stop = some .sensorErase && !t.sec.keys) = true ∧
    after (exec (.sensorTrip 0) { up with image := { image with sensors := [(0, 1), (4, 2)] } })
      (fun t => t.sec.lastTrip = some (0, 1) && t.boot.stop = some .sensorReset && t.sec.keys) = true ∧
    after (exec (.sensorTrip 1) { up with sec := { up.sec with response := some 1 }, image := { image with sensors := [(0, 1), (4, 2)] } })
      (fun t => t.sec.lastTrip = some (1, 1) && t.sec.alarmN && t.boot.stop = none) = true := by decide
/-- 100 °C is 1,600 sixteenths: 10 W less; 115 °C (1,840) stops; below 100 °C 10 W more. -/
theorem test_junctionThrottle :
    after (exec (.junctionThrottle 3 1600) up) (fun t => t.gov.lowered = 10 && t.boot.stop = none && t.gov.tjSensor = 3) = true ∧
    after (exec (.junctionThrottle 0 1840) up) (fun t => t.boot.stop = some .junction) = true ∧
    after (exec (.junctionThrottle 0 1599) { up with gov := { up.gov with lowered := 30 } }) (fun t => t.gov.lowered = 20) = true := by decide
theorem test_thermalStopRelease :
    after (exec (.thermalStopRelease 10000) { State.reset with boot := { Boot.reset with thermalHold := true } })
      (fun t => !t.boot.thermalHold && t.boot.resetN) = true ∧
    after (exec (.thermalStopRelease 9999) { State.reset with boot := { Boot.reset with thermalHold := true } }) (fun t => t.boot.thermalHold) = true := by decide
/-- HIGHZ stops, BYPASS does not; Test-Logic-Reset is noted. -/
theorem test_boundaryScanInstruction : scanStops .highz = true ∧ scanStops .bypass = false ∧
    after (exec (.boundaryScanInstruction .highz) up) (fun t => t.boot.stop = some .boundaryScan && !t.boot.tapReset) = true ∧
    after (exec (.boundaryScanInstruction .testLogicReset) { up with boot := { up.boot with tapReset := false } }) (fun t => t.boot.tapReset) = true ∧
    after (exec (.boundaryScanInstruction .idcode) State.reset) (fun t => t.boot.tapData.isSome) = true := by decide
/-- In PROVISIONED (1) the keys go and the islands are off; in SECURE (2) nothing happens. -/
theorem test_internalTestSelect :
    after (exec .internalTestSelect { up with sec := { up.sec with lifecycle := 1 } })
      (fun t => !t.sec.keys && t.boot.testHold && t.host.slots = [] && (fnState t (.island 21)).st = .off) = true ∧
    after (exec .internalTestSelect up) (fun t => t.sec.keys && !t.boot.testHold) = true := by decide

/-- Demand below, inside and above the band, and a step of a module that stops. -/
theorem test_governorStep :
    after (exec (.governorStep 1000) { up with gov := { up.gov with current := 100000 } }) (fun t => t.gov.current = 100000 - diDtNow up * 100) = true ∧
    after (exec (.governorStep 0) { up with gov := { up.gov with current := 0 } }) (fun t => t.gov.current = 0 && t.gov.duty = 64) = true ∧
    after (exec (.governorStep 900000) { up with gov := { up.gov with current := 800000 } }) (fun t => t.gov.current = 800000 && t.free = 1) = true ∧
    after (exec (.governorStep 5) { up with boot := { up.boot with stop := some .junction }, gov := { up.gov with current := 700000 } })
      (fun t => t.gov.state = 4 && t.gov.current = 700000 - diDtNow up * 100) = true := by decide
theorem test_governorCalibrate : after (exec .governorCalibrate { up with time := 2000000 }) (fun t => t.gov.calibrations = 1) = true ∧
    after (exec .governorCalibrate { up with time := 2000001 }) (fun t => t.gov.calibrations = 0) = true := by decide
theorem test_avsRailRead :
    after (exec (.avsRailRead [{ rail := 9, mv := 750, deciAmp := 4000 }]) { up with time := 300000 })
      (fun t => railReadings t 9 = [{ at' := 7000, mv := 750, deciAmp := 4000 }] && railReadings t 0 = []) = true := by decide
/-- With no reading the average is 0: below 0.98 P the ceiling rises by a hundredth, to 800 A at most (R506). -/
theorem test_budgetPeriodBoundary :
    after (exec .budgetPeriodBoundary { up with time := 20000, image := { image with sustainedW := 1000 }, gov := { up.gov with ceiling := 700000 } })
      (fun t => t.gov.ceiling = 707000) = true ∧
    after (exec .budgetPeriodBoundary { up with time := 20000, image := { image with sustainedW := 1000 }, gov := { up.gov with ceiling := 800000 } })
      (fun t => t.gov.ceiling = 800000) = true := by decide

/-! ### Functions, queue pairs, rings -/

def word8 : KettleWord := { slots := [1, 2, 3, 4, 5, 6, 7, 8], valid := 8 }
def ring : Kettle := { Kettle.reset with fn := isOn, base := 0x8000, sizeLog := 6 }
def withStaged (l : List (Nat × KettleWord)) (s : State) : State := { s with host := { s.host with staging := l } }

/-- Table 2.11: enables from OFF and STOPPING, disables from ON and STOPPING, the ends of initialisation and shut-down with and without LATCH. -/
theorem test_functions :
    after (exec (.functionEnable (.ladle 3)) (withFn (.ladle 3) .clean up)) (fun t => fnState t (.ladle 3) = { st := .starting, latch := false }) = true ∧
    after (exec (.functionEnable (.bank 1)) (withFn (.bank 1) { st := .stopping, latch := false } up))
      (fun t => fnState t (.bank 1) = { st := .stopping, latch := true }) = true ∧
    after (exec (.functionDisable (.island 22)) (withFn (.island 22) isOn up))
      (fun t => (fnState t (.island 22)).st = .stopping && t.tele.events.map (·.2) = [1]) = true ∧
    after (exec (.functionDisable (.ladle 3)) (withFn (.ladle 3) { st := .stopping, latch := true } up)) (fun t => !(fnState t (.ladle 3)).latch) = true ∧
    after (exec (.initialisationComplete (.ladle 3)) (withFn (.ladle 3) { st := .starting, latch := false } up)) (fun t => (fnState t (.ladle 3)).st = .on) = true ∧
    after (exec (.shutdownComplete (.ladle 3)) (withFn (.ladle 3) { st := .stopping, latch := true } up))
      (fun t => fnState t (.ladle 3) = { st := .starting, latch := false }) = true ∧
    after (exec (.shutdownComplete (.ladle 3)) (withFn (.ladle 3) { st := .stopping, latch := false } up))
      (fun t => fnState t (.ladle 3) = .clean) = true := by decide

def pairOff : QueuePair := { pair with fn := .clean, sqTail := 5, cqHead := 4, code := 0x0B2F }

/-- Function 1 has tenant 1; function 2 has none and its enables and disables change nothing. -/
theorem test_tenant_enable_disable : tenantOfFn up 1 = some tenantA ∧ tenantOfFn up 2 = none ∧
    after (exec (.tenantEnable 1) tenantOff) (fun t => (fnState t (.tenant 1)).st = .starting) = true ∧
    after (exec (.tenantDisable 1) up) (fun t => (fnState t (.tenant 1)).st = .stopping) = true := by decide
/-- R88: tenant not ON gives 0x0B31, a base not 4 KiB aligned and a size of 2^5 give 0x0B30, else STARTING with cleared pointers. -/
theorem test_queueEnable :
    after (exec (.queueEnable 1 0) (withPair pairOff tenantOff)) (fun t => queueOf t 1 0 = { pairOff with code := 0x0B31 }) = true ∧
    after (exec (.queueEnable 1 0) (withPair { pairOff with sqBase := 0x10040 } up)) (fun t => (queueOf t 1 0).code = 0x0B30) = true ∧
    after (exec (.queueEnable 1 0) (withPair { pairOff with cqLog := 5 } up)) (fun t => (queueOf t 1 0).code = 0x0B30) = true ∧
    after (exec (.queueEnable 1 0) (withPair pairOff up))
      (fun t => (queueOf t 1 0).fn.st = .starting && (queueOf t 1 0).sqTail = 0 && (queueOf t 1 0).code = 0) = true ∧
    after (exec (.queueEnable 1 0) tenantOff) (fun t => queueOf t 1 0 = pair) = true := by decide
/-- R90: the fetched, unstarted command is refused with 0x0B2C. -/
theorem test_queueDisable : unstarted (on up (cmd 0 0 0 0 0 0 0 0)) 1 0 = [fetched 1 (cmd 0 0 0 0 0 0 0 0)] ∧
    ended (exec (.queueDisable 1 0) (on up (cmd 0 0 0 0 0 0 0 0))) = some (0x0B2C, 0, 0) := by decide
/-- R90: one nanosecond before 5 ms nothing, at 5 ms the pair is OFF. -/
theorem test_queueShutdownTimeout :
    after (exec (.queueShutdownTimeout 1 0) (withPair { pair with fn := { st := .stopping, latch := false } } { up with mono := 4999999 }))
      (fun t => (queueOf t 1 0).fn.st = .stopping) = true ∧
    after (exec (.queueShutdownTimeout 1 0) (withPair { pair with fn := { st := .stopping, latch := false } } { up with mono := 5000000 }))
      (fun t => (queueOf t 1 0).fn = .clean) = true := by decide
theorem test_kettleEnable :
    after (exec (.kettleEnable 1) (withRing { ring with fn := .clean } tenantOff)) (fun t => (kettleOf t 1).code = 0x0B31) = true ∧
    after (exec (.kettleEnable 1) (withRing { ring with fn := .clean, sizeLog := 21 } up)) (fun t => (kettleOf t 1).code = 0x0B30) = true ∧
    after (exec (.kettleEnable 1) (withRing { ring with fn := .clean, tail := 9 } up))
      (fun t => (kettleOf t 1).fn.st = .starting && (kettleOf t 1).tail = 0 && (kettleOf t 1).lost = 1) = true ∧
    after (exec (.kettleEnable 1) (withRing ring tenantOff)) (fun t => kettleOf t 1 = ring) = true := by decide
/-- R118: one staged word of 8 records and two open records are lost (the status record that follows the disable finds no open ring). -/
theorem test_kettleDisable :
    after (exec (.kettleDisable 1) (withStaged [(1, word8), (0, word8)] (withRing { ring with opened := [1, 2] } up)))
      (fun t => t.host.staging = [(0, word8)] && (kettleOf t 1).opened = [] && 10 ≤ (kettleOf t 1).lost) = true := by decide

/-- R91 at the entry count: 63 is accepted, 64 is not; page 2 of function 1 does not exist. -/
theorem test_sqTailDoorbell : pageExists up 1 0 = true ∧ pageExists up 1 2 = false ∧ up.hostMem.wf = true ∧
    after (exec (.sqTailDoorbell 1 0 63 [(0x10000, 7)] [3]) up)
      (fun t => (queueOf t 1 0).sqTail = 63 && t.hostMem = [(0x10000, 7)] && t.host.badLines = [3]) = true ∧
    after (exec (.sqTailDoorbell 1 0 64 [] []) up) (fun t => (queueOf t 1 0).sqTail = 0 && (queueOf t 1 0).code = 0x0B2E) = true := by decide
/-- R91: a head that reaches the tail is accepted, one past it is not. -/
theorem test_cqHeadDoorbell :
    after (exec (.cqHeadDoorbell 1 0 3) (withPair { pair with cqTail := 3, unreadSince := some 5 } up))
      (fun t => (queueOf t 1 0).cqHead = 3 && (queueOf t 1 0).unreadSince = none) = true ∧
    after (exec (.cqHeadDoorbell 1 0 4) (withPair { pair with cqTail := 3 } up)) (fun t => (queueOf t 1 0).code = 0x0B2E && (queueOf t 1 0).cqHead = 0) = true ∧
    after (exec (.cqHeadDoorbell 1 0 64) up) (fun t => (queueOf t 1 0).code = 0x0B2E) = true := by decide
/-- R87 and the field places of Table 4.4. -/
theorem test_queueConfigWrite :
    after (exec (.queueConfigWrite 1 0 0x014 5) (withPair pairOff up)) (fun t => (queueOf t 1 0).sqBase = 0x500010000) = true ∧
    after (exec (.queueConfigWrite 1 0 0x020 0x0A09) (withPair pairOff up)) (fun t => (queueOf t 1 0).sqLog = 9 && (queueOf t 1 0).cqLog = 10) = true ∧
    after (exec (.queueConfigWrite 1 0 0x010 5) up) (fun t => queueOf t 1 0 = { pair with code := 0x0B2F }) = true ∧
    after (exec (.queueConfigWrite 1 0 0x030 5) up) (fun t => queueOf t 1 0 = pair) = true := by decide
theorem test_kettleConfigWrite :
    after (exec (.kettleConfigWrite 1 0x008 7) (withRing { ring with fn := .clean } up)) (fun t => (kettleOf t 1).sizeLog = 7) = true ∧
    after (exec (.kettleConfigWrite 1 0x000 7) (withRing ring up)) (fun t => kettleOf t 1 = { ring with code := 0x0B2F }) = true := by decide

/-- One entry with opcode 0 and CID 5 at SQ entry 0. -/
def oneEntry : State := withPair { pair with sqTail := 1 } { up with hostMem := [(0x10006, 5)] }

/-- The pair of function 1 is the one eligible pair, and its entry passes the checks. -/
theorem test_commandFetch : fetchEligible oneEntry 1 0 = true ∧ isReady oneEntry = true ∧ fetchEligible oneEntry 0 0 = false ∧
    oneEntry.host.queues.map (·.1) = [(1, 0), (0, 0)] ∧ slotById oneEntry 2 = none ∧
    after (exec .commandFetch oneEntry) (fun t => t.host.slots.map (·.id) = [2] && (queueOf t 1 0).sqHead = 1 && t.host.fetchPtr = 65 &&
      t.host.slots.map (·.cmd.w0) = [BitVec.ofNat 64 (5 * 2 ^ 48)] && t.host.due = []) = true := by decide
/-- R101: an unreadable line of the queue completes with 0x0B2D, CID 0xFFFF and the entry's index. -/
theorem test_commandFetch_unreadable :
    after (exec .commandFetch { oneEntry with host := { oneEntry.host with badLines := [0x400] } })
      (fun t => t.host.due.map (fun d => (d.cid, d.status, d.result0)) = [(0xFFFF, 0x0B2D, 0)]) = true := by decide
/-- No link: nothing. -/
theorem test_commandFetch_down :
    after (exec .commandFetch { oneEntry with host := { oneEntry.host with link := { oneEntry.host.link with up := false } } })
      (fun t => t.host.slots = []) = true := by decide

/-- A finished command in slot 1 with its completion due. -/
def dueOne : State :=
  let c := cmd 0 0 0 0 0 0 0 0
  let d : Completion := { slot := 1, fn := 1, q := 0, cid := 0x0102, status := 0x0304, handle := 9, result0 := 5, result1 := 6,
                          forwarded := false, notify := true, injected := false, tenant := 1 }
  { up with host := { up.host with slots := [{ fetched 1 c with phase := .finished }], due := [d] } }

/-- Table 4.8: phase 1 in bit 0, STATUS from bit 32, CID from bit 48; the slot is released; an unmasked vector would be signalled, masked pends. -/
theorem test_completionPost : ((slotById dueOne 1).map (·.cmd.src)) = some none ∧ dueOne.hostMem.wf = true ∧
    after (exec (.completionPost 1 0) dueOne) (fun t => t.hostMem.readNat 0x20000 8 = 0x0102030400000001 && t.hostMem.readNat 0x20010 8 = 5 &&
      (queueOf t 1 0).cqTail = 1 && t.host.slots = [] && t.host.due = [] && t.host.signals = []) = true ∧
    after (exec (.completionPost 1 0) (setFunc dueOne 1 { funcOf dueOne 1 with maskLo := 0 })) (fun t => t.host.signals = [(1, 2)]) = true := by decide
/-- R102: with 63 of 64 entries unread nothing is written. -/
theorem test_completionPost_full : after (exec (.completionPost 1 0) (withPair { pair with cqTail := 63 } dueOne)) (fun t => t.host.due.length = 1) = true := by
  decide

/-- R111: 8 µs after the first unread completion; masked vectors pend. -/
theorem test_interruptCoalesceTimer :
    after (exec (.interruptCoalesceTimer 1 2) (setFunc (withPair { pair with unreadSince := some 0 } { up with mono := 8000 }) 1 { FuncRegs.reset with maskLo := 0 }))
      (fun t => t.host.signals = [(1, 2)]) = true ∧
    after (exec (.interruptCoalesceTimer 1 2) (withPair { pair with unreadSince := some 0 } { up with mono := 8000 }))
      (fun t => t.host.signals = [] && (funcOf t 1).vecPending.contains 2) = true := by decide
theorem test_irqMaskWrite :
    after (exec (.irqMaskWrite 1 .hi 5) up) (fun t => (funcOf t 1).maskHi = 5) = true ∧
    after (exec (.irqMaskWrite 1 .evt 1) up) (fun t => (funcOf t 1).maskFunc && !(funcOf t 1).maskKettle) = true ∧
    after (exec (.irqMaskWrite 1 (.msix 4) 1) up) (fun t => (funcOf t 1).vecMasked = [4]) = true ∧
    after (exec (.irqMaskWrite 1 .lo 0xFFFFFFFD) (setFunc up 1 { FuncRegs.reset with vecPending := [3] }))
      (fun t => t.host.signals = [(1, 3)] && (funcOf t 1).vecPending = []) = true := by decide

/-- R113, R114: five pads after three records. -/
theorem test_kettleFlushTimer :
    after (exec (.kettleFlushTimer 1) (withRing { ring with opened := [1, 2, 3], openedAt := 0 } { up with mono := 20000 }))
      (fun t => (kettleOf t 1).opened = [] && t.host.staging.map (fun x => (x.1, x.2.valid, x.2.slots.length)) = [(1, 3, 8)]) = true ∧
    after (exec (.kettleFlushTimer 1) (withStaged (List.replicate 64 (0, word8)) (withRing { ring with opened := [1] } { up with mono := 20000 })))
      (fun t => (kettleOf t 0).lost = 8 && t.host.staging.length = 64) = true ∧
    after (exec (.kettleFlushTimer 1) (withRing { ring with opened := [1, 2, 3], openedAt := 1 } { up with mono := 20000 }))
      (fun t => (kettleOf t 1).opened = [1, 2, 3]) = true := by decide
/-- R116: a full ring of 64 words overwrites its oldest, of 8 records; a word that fails parity counts as poisoned. -/
theorem test_kettleWordWrite :
    after (exec (.kettleWordWrite 1 false) (withStaged [(0, word8), (1, word8)] (withRing ring up)))
      (fun t => (kettleOf t 1).tail = 1 && t.host.staging = [(0, word8)] && t.hostMem.readNat 0x8008 8 = 2) = true ∧
    after (exec (.kettleWordWrite 1 true) (withStaged [(1, word8)] (withRing { ring with tail := 64, counts := [(0, 8)] } up)))
      (fun t => (kettleOf t 1).head = 1 && (kettleOf t 1).lost = 8 && (kettleOf t 1).poison = 1 && t.hostMem.read 0x8007 = 0xFE) = true := by decide
/-- R117: a head at the tail is accepted, one past it is ignored. -/
theorem test_kettleHeadWrite :
    after (exec (.kettleHeadWrite 1 10) (withRing { ring with tail := 10, head := 4 } up)) (fun t => (kettleOf t 1).head = 10) = true ∧
    after (exec (.kettleHeadWrite 1 11) (withRing { ring with tail := 10, head := 4 } up)) (fun t => (kettleOf t 1).head = 4) = true := by decide

/-! ### Registers -/

def knobbed : State := { up with image := { image with knobs := [{ knob := 1, max := 900, min := 300 }], sustainedW := 500 } }
def sel (k i : Nat) (s : State) : State := { s with mgmt := { s.mgmt with mgmt := { s.mgmt.mgmt with knob := k, knobIndex := i } } }

/-- R73 in its order: not listed 0x0B10, no such instance 0x0B12, out of bounds 0x0B11 (899 and 900 are inside, 901 not), else due at the boundary. -/
theorem test_knobWrite : mgmtReachable up .mgmt = true ∧ mgmtReachable State.reset .mgmt = false ∧
    tget (knobInstances knobbed.image 1) 0 = some 500 ∧ tget (knobInstances knobbed.image 1) 1 = none ∧
    after (exec (.knobWrite .mgmt 5) (sel 2 0 knobbed)) (fun t => t.mgmt.mgmt.knobResult = 0x0B10) = true ∧
    after (exec (.knobWrite .mgmt 5) (sel 1 1 knobbed)) (fun t => t.mgmt.mgmt.knobResult = 0x0B12) = true ∧
    after (exec (.knobWrite .mgmt 901) (sel 1 0 knobbed)) (fun t => t.mgmt.mgmt.knobResult = 0x0B11 && t.mgmt.knobsDue = []) = true ∧
    after (exec (.knobWrite .mgmt 900) (sel 1 0 knobbed)) (fun t => t.mgmt.mgmt.knobResult = 0 && t.mgmt.knobsDue = [((1, 0), 900)]) = true := by decide
/-- Table 20.7: ENABLE bit 31, TENANT from bit 25, SIGNAL from 16, THRESHOLD from 8. -/
theorem test_pctrCfgWrite : islandAbsent up.order 0 = false ∧
    after (exec (.pctrCfgWrite .mgmt 0x86010300) up) (fun t => tget t.tele.pctrs (0, 0) =
      some { enable := true, edge := false, filter := false, tenant := 3, signal := 1, threshold := 3, count := 0, last := 0 } &&
      tgetD t.tele.configSeq 0 0 = 1) = true := by decide
/-- R571. -/
theorem test_dumpHeadWrite :
    after (exec (.dumpHeadWrite .mgmt 4) { up with tele := { up.tele with dumpTail := 4 } }) (fun t => t.tele.dumpHead = 4) = true ∧
    after (exec (.dumpHeadWrite .mgmt 5) { up with tele := { up.tele with dumpTail := 4 } }) (fun t => t.tele.dumpHead = 0) = true := by decide
/-- R574: item 0x0108 is event counter 8 of the selected island. -/
theorem test_mgmtCtrLoRead :
    after (exec (.mgmtCtrLoRead .mgmt) { up with tele := { up.tele with events := [((0, 8), 0x500000007)] }
                                                 mgmt := { up.mgmt with mgmt := { up.mgmt.mgmt with ctrItem := 0x0108 } } })
      (fun t => t.host.readData = 7 && t.mgmt.ctrHi = 5) = true := by decide
/-- R532: select 0 is the time since READY in µs. -/
theorem test_mgmtTimeLoRead :
    after (exec (.mgmtTimeLoRead .mgmt) { up with rel := { up.rel with tReady := 5000 * 2 ^ 32 } })
      (fun t => t.host.readData = 0 && t.mgmt.timeHi = 5) = true := by decide
/-- R594: VALID is bit 31 while the reading is at most 1 ms old. -/
theorem test_mgmtRailVRead :
    after (exec (.mgmtRailVRead .mgmt) { up with gov := { up.gov with rails := [(0, [{ at' := 6000, mv := 750, deciAmp := 42 }])] } })
      (fun t => t.host.readData = 0x80000000 + 750 && t.mgmt.railI = 42) = true ∧
    after (exec (.mgmtRailVRead .mgmt) { up with gov := { up.gov with rails := [(0, [{ at' := 6000, mv := 750, deciAmp := 42 }])] }, mono := 1006001 })
      (fun t => t.host.readData = 750) = true ∧
    after (exec (.mgmtRailVRead .mgmt) up) (fun t => t.host.readData = 0 && t.mgmt.railI = 0) = true := by decide
/-- R575: a tenant without the right reads zero. -/
theorem test_hostCtrLoRead :
    after (exec (.hostCtrLoRead 1) { up with tele := { up.tele with tenants := [((1, 0), 9)] } }) (fun t => t.host.readData = 0) = true ∧
    after (exec (.hostCtrLoRead 1) { up with tele := { up.tele with tenants := [((1, 0), 9)] }
                                             image := { image with tenants := [{ tenantA with counterRead := true }] } })
      (fun t => t.host.readData = 9) = true := by decide
/-- Selectors (Tables 3.12, 21.9, 20.7); an offset without a register changes nothing. -/
theorem test_registerWrite :
    after (exec (.registerWrite (.mgmt .phys) 0x0010 0x00050003) up) (fun t => t.mgmt.phys.knob = 5 && t.mgmt.phys.knobIndex = 3 && t.mgmt.mgmt = .reset) = true ∧
    after (exec (.registerWrite (.mgmt .mgmt) 0x0804 9) up) (fun t => t.mgmt.mgmt.railSel = 9) = true ∧
    after (exec (.registerWrite (.mgmt .mgmt) 0x0808 9) up) (fun t => t.mgmt = up.mgmt) = true ∧
    after (exec (.registerWrite (.func 1) 0x0100 7) { up with image := { image with tenants := [{ tenantA with counterRead := true }] } })
      (fun t => (funcOf t 1).ctrSel = 7) = true := by decide

/-- Tables 4.2 to 4.4: the offset of queue pair 0's SQ base and of its doorbell, HOST_FUNC_CTL; a 16-bit read, a page that does not exist, before READY. -/
theorem test_barRead : pageExists up 1 0 = true ∧ up.host.link.up = true ∧ pageExists up 1 2 = false ∧
    barRead up 1 0x10010 4 = 0x10000 ∧ barRead up 1 0x10020 4 = 0x0606 ∧ barRead up 1 0x1000C 4 = 2 ∧ barRead up 1 0x1000C 2 = 0 ∧
    barRead up 1 0x12010 4 = 0 ∧ barRead { up with boot := Boot.reset } 1 0x10010 4 = 0 ∧
    barRead (setFunc up 1 { funcOf up 1 with dropped := 9 }) 1 0x14 4 = 9 ∧ barRead up 1 0x60000 4 = 0 ∧
    barRead up 0 0x60000 4 / 2 ^ 28 = up.boot.state.code := by decide
/-- A vector's message data and NumVFs read back. -/
theorem test_capabilities :
    after (exec (.registerWrite (.msix 1) (16 * 65 + 8) 0x4321) up) (fun t => registerRead t (.msix 1) (16 * 65 + 8) = 0x4321 && funcOf t 0 = funcOf up 0) = true ∧
    after (exec (.registerWrite .sriov 0x10 16) up) (fun t => registerRead t .sriov 0x10 = 16) = true := by decide

/-! ### Resets below the module -/

theorem test_perstN : imageInForce up = true ∧
    after (exec .perstN up) (fun t => !t.host.link.up && queueOf t 1 0 = .reset && t.host.tenants = up.host.tenants && !t.boot.perstN) = true := by decide
/-- R79: at 32 GT/s ×8 no record; a lower rate or width counts event 0x08 of island 29. Rate 6 is no Non-FLIT rate, and no link is 16 wide (Table 4.1). -/
theorem test_hostLinkTrained :
    after (exec (.hostLinkTrained 8 6 true) up) (fun t => t.host.link.up && t.tele.events = []) = true ∧
    after (exec (.hostLinkTrained 16 6 true) up) (fun t => t.host.link = up.host.link) = true ∧
    after (exec (.hostLinkTrained 8 6 false) up) (fun t => t.host.link = up.host.link) = true ∧
    (fnState up (.island 29)).st = .off ∧
    after (exec (.hostLinkTrained 8 4 false) up) (fun t => tgetD t.tele.events (29, 0x08) 0 = 1) = true ∧
    after (exec (.hostLinkTrained 4 6 true) up) (fun t => tgetD t.tele.events (29, 0x08) 0 = 1) = true := by decide
theorem test_functionLevelReset :
    after (exec (.functionLevelReset 1) up) (fun t => (fnState t (.tenant 1)).st = .stopping && (queueOf t 1 0).fn = .clean && (queueOf t 1 0).sqBase = 0x10000 && queueOf t 0 0 = pair) = true ∧
    after (exec (.functionLevelReset 1) tenantOff) (fun t => (fnState t (.tenant 1)).st = .off && (queueOf t 1 0).fn = .clean) = true := by decide

theorem test_tenantReset : Starts 0xB0 (cmd0 0xB0 0 1 0 0 0 0 0) (on up (cmd0 0xB0 0 1 0 0 0 0 0)) 1 (on up (cmd0 0xB0 0 1 0 0 0 0 0)) ∧
    after (exec (.tenantReset (cmd0 0xB0 0 1 0 0 0 0 0)) (on up (cmd0 0xB0 0 1 0 0 0 0 0))) (fun t => (fnState t (.tenant 1)).st = .stopping) = true :=
  ⟨starts_of (by decide), by decide⟩
/-- Its own tenant, a tenant that the image does not define, and one that is OFF. -/
theorem test_tenantReset_refused :
    ended (exec (.tenantReset (cmd0 0xB0 0 0 0 0 0 0 0)) (on up (cmd0 0xB0 0 0 0 0 0 0 0))) = some (0x0B21, 0, 0) ∧
    ended (exec (.tenantReset (cmd0 0xB0 0 2 0 0 0 0 0)) (on up (cmd0 0xB0 0 2 0 0 0 0 0))) = some (0x0B32, 0, 0) ∧
    ended (exec (.tenantReset (cmd0 0xB0 0 1 0 0 0 0 0)) (on tenantOff (cmd0 0xB0 0 1 0 0 0 0 0))) = some (0, 0, 0) := by decide

/-! ### Commands that start -/

/-- NOP in a queue pair that is ON (R96). -/
theorem test_nop : Starts 0 (cmd 0 0 0 0 0 0 0 0) (on up (cmd 0 0 0 0 0 0 0 0)) 1 (on up (cmd 0 0 0 0 0 0 0 0)) ∧
    ended (exec (.nop (cmd 0 0 0 0 0 0 0 0)) (on up (cmd 0 0 0 0 0 0 0 0))) = some (0, 0, 0) := ⟨starts_of (by decide), by decide⟩

def nopOn (s : State) (c : Cmd) : Option (Nat × Nat × Nat) := ended (exec (.nop c) (on s c))
def job9 : Job := { closing := false, keys := [], handles := [], cancels := [], okCount := 0, waiters := [] }
def withJob (j : Job) (s : State) : State := { s with host := { s.host with jobs := [((1, 9), j)] } }
/-- NOP with JOB 9 (word 0 bits 47:32). -/
def nopJob : Cmd := cmd (9 * 2 ^ 32) 0 0 0 0 0 0 0

/-- R599, R107, R97, R527 in one: STOPPING pair, management opcode on function 1, unknown job, closing job, unregistered batch, foreign handle,
quarantined module. -/
theorem test_start_checks :
    nopOn (withPair { pair with fn := { st := .stopping, latch := false } } up) (cmd 0 0 0 0 0 0 0 0) = some (0x0011, 0, 0) ∧
    ended (exec (.inject (cmd 0xB2 0 0 0 0 0 0 0)) (on up (cmd 0xB2 0 0 0 0 0 0 0))) = some (0x0B21, 0, 0) ∧
    jobOf nopJob = 9 ∧ nopOn up nopJob = some (0x0B25, 0, 0) ∧
    nopOn (withJob { job9 with closing := true } up) nopJob = some (0x0B26, 0, 0) ∧ nopOn (withJob job9 up) nopJob = some (0, 0, 0) ∧
    isBatch (cmd (2 ^ 9) 77 0 0 0 0 0 0) = true ∧ nopOn up (cmd (2 ^ 9) 77 0 0 0 0 0 0) = some (0x0B27, 0, 0) ∧
    handleTenant (2 * 2 ^ 60) = 2 ∧ nopOn up (cmd 0 (2 * 2 ^ 60) 0 0 0 0 0 0) = some (0x0B22, 0, 0) ∧
    nopOn { up with rel := { up.rel with quarantined := true } } (cmd 0 0 0 0 0 0 0 0) = some (0x0A04, 0, 0) := by decide

/-- R90, R12: a dead slot is counted in HOST_CQ_DROPPED and freed; a forwarded command's completion is sent to its module. -/
theorem test_finish_forms :
    (let s := { on up nopJob with host := { (withJob job9 up).host with slots := [{ fetched 1 nopJob with dead := true }] } }
     after (exec (.nop nopJob) s) (fun t => (funcOf t 1).dropped = 1 && t.host.slots = [] && t.host.due = [])) = true ∧
    (let c := { cmd 0 0 0 0 0 0 0 0 with src := some (33, 1) }
     after (exec (.nop c) (on up c)) (fun t => t.host.slots = [] && t.host.due = [] && t.req.outbox.length = 1)) = true := by decide

def jobOpenC : Cmd := cmd 1 0 0 0 0 0 0 0
theorem test_jobOpen : Starts 1 jobOpenC (on up jobOpenC) 1 (on up jobOpenC) ∧ tenantRec up 1 = some tenantA ∧
    ended (exec (.jobOpen jobOpenC) (on up jobOpenC)) = some (0, 1, 0) := ⟨starts_of (by decide), by decide, by decide⟩
/-- R103 at the limit of two jobs. -/
theorem test_jobOpen_refused :
    ended (exec (.jobOpen jobOpenC) (on { up with host := { up.host with jobs := [((1, 9), job9), ((1, 1), job9)] } } jobOpenC)) = some (0x0B24, 0, 0) := by decide

def jobCloseC : Cmd := cmd (2 + 9 * 2 ^ 32) 0 0 0 0 0 0 0
theorem test_jobClose : Starts 2 jobCloseC (on (withJob job9 up) jobCloseC) 1 (on (withJob job9 up) jobCloseC) ∧
    ended (exec (.jobClose jobCloseC) (on (withJob { job9 with okCount := 3 } up) jobCloseC)) = some (0, 3, 0) ∧
    after (exec (.jobClose jobCloseC) (on (withJob { job9 with handles := [2 ^ 60 + 5] } up) jobCloseC))
      (fun t => t.host.due = [] && t.req.outbox.length = 1 && t.host.jobs.map (·.2.closing) = [true]) = true :=
  ⟨starts_of (by decide), by decide, by decide⟩

/-- A batch descriptor of two members at 0x1000. -/
def batchMem (n a b : Nat) : Memory := Memory.place [] [(0x1000, BitVec.ofNat 8 n), (0x1008, BitVec.ofNat 8 a), (0x100F, 0x10), (0x1010, BitVec.ofNat 8 b), (0x1017, 0x10)]
def batchC (addr : Nat) : Cmd := cmd 0x90 0 addr 0 0 0 0 0
def batchOn (m : Memory) (a : Nat) : Host.Outcome State Fault Refusal := exec (.batchRegister (batchC a)) (on { up with hostMem := m } (batchC a))
theorem test_batchRegister : Starts 0x90 (batchC 0x1000) (on up (batchC 0x1000)) 1 (on up (batchC 0x1000)) ∧
    ended (batchOn (batchMem 2 1 2) 0x1000) = some (0, 1, 0) ∧
    after (batchOn (batchMem 2 1 2) 0x1000) (fun t => t.host.batches = [((1, 1), [2 ^ 60 + 1, 2 ^ 60 + 2])]) = true :=
  ⟨starts_of (by decide), by decide, by decide⟩
theorem test_batchRegister_refused :
    ended (batchOn [] 0x1020) = some (0x0304, 0, 0) ∧ ended (batchOn [] 0x1000) = some (0x0B28, 0, 0) ∧
    ended (batchOn (batchMem 2 1 1) 0x1000) = some (0x0B2B, 0, 0) ∧
    ended (exec (.batchRegister (batchC 0x1000)) (on { up with host := { up.host with badLines := [0x40] } } (batchC 0x1000))) = some (0x0B2D, 0, 0) := by decide
def releaseC : Cmd := cmd (0x91 + 2 ^ 9) 1 0 0 0 0 0 0
def batched : State := { up with host := { up.host with batches := [((1, 1), [])] } }
theorem test_batchRelease : Starts 0x91 releaseC (on batched releaseC) 1 (on batched releaseC) ∧ isBatch releaseC = true ∧
    ended (exec (.batchRelease releaseC) (on batched releaseC)) = some (0, 0, 0) ∧
    after (exec (.batchRelease releaseC) (on batched releaseC)) (fun t => t.host.batches = []) = true := ⟨starts_of (by decide), by decide⟩
theorem test_batchRelease_refused : startsB 0x91 (cmd 0x91 0 0 0 0 0 0 0) up = true ∧
    ended (run .batchRelease (cmd 0x91 0 0 0 0 0 0 0) up) = some (0x0B27, 0, 0) := by decide

/-! ### Fences -/

/-- A state in which an earlier command of the queue, in slot 0, is in a phase, with one covered operation. -/
def fencing (c : Cmd) (ph : Phase) (k : OpKind) (e : Option Bool) : State :=
  { up with host := { up.host with slots := [{ fetched 0 (cmd 0 0 0 0 0 0 0 0) with phase := ph }, fetched 1 c], nextSlot := 2,
                                   ops := [{ id := 0, slot := 0, fn := 1, q := 0, src := none, kind := k, ended := e }] } }
def fence (op : Nat) : Cmd := cmd op 0 0 0 0 0 0 0

theorem test_queueFence : claim (fencing (fence 0x9D) .finished .tray none) (fence 0x9D) = some (1, fencing (fence 0x9D) .finished .tray none) ∧
    ended (exec (.queueFence (fence 0x9D)) (fencing (fence 0x9D) .finished .tray none)) = some (0, 0, 0) ∧
    ended (exec (.queueFence (fence 0x9D)) (fencing (fence 0x9D) (.waiting .engine) .tray none)) = none := by decide
/-- R40, R41: waits for the host write, then reads its destination; reports the failure of a stack write; does not wait for a tray operation. -/
theorem test_placeFence :
    ended (exec (.placeFence (fence 0x9E)) (fencing (fence 0x9E) .finished (.hostWrite 0) none)) = none ∧
    ended (exec (.placeFence (fence 0x9E)) (fencing (fence 0x9E) .finished (.remote 33 256) (some false))) = some (0x0010, 0, 0) ∧
    ended (exec (.placeFence (fence 0x9E)) (fencing (fence 0x9E) .finished (.remote 33 256) (some true))) = some (0, 0, 0) ∧
    after (exec (.placeFence (fence 0x9E)) (fencing (fence 0x9E) .finished (.hostWrite 0) (some true)))
      (fun t => t.host.due = [] && stageOf t 1 = 1 && ended (exec (.fenceComplete (fence 0x9E)) t) = some (0, 0, 0)) = true ∧
    ended (exec (.placeFence (fence 0x9E)) (fencing (fence 0x9E) .finished .tray none)) = some (0, 0, 0) := by decide
theorem test_trayFence :
    ended (exec (.trayFence (fence 0x9F)) (fencing (fence 0x9F) .finished .tray none)) = none ∧
    ended (exec (.trayFence (fence 0x9F)) (fencing (fence 0x9F) .finished .tray (some false))) = some (0x0010, 0, 0) ∧
    ended (exec (.trayFence (fence 0x9F)) (fencing (fence 0x9F) .finished (.hostWrite 0) none)) = some (0, 0, 0) := by decide
/-- A fence in hand. -/
def waitingFence (op : Nat) : State :=
  { fencing (fence op) .finished .tray (some false) with
    host := { (fencing (fence op) .finished .tray (some false)).host with slots := [{ fetched 1 (fence op) with phase := .waiting .earlier }] } }
theorem test_fenceComplete : slotOf (waitingFence 0x9F) (fence 0x9F) = some { fetched 1 (fence 0x9F) with phase := .waiting .earlier } ∧
    ended (exec (.fenceComplete (fence 0x9F)) (waitingFence 0x9F)) = some (0x0010, 0, 0) ∧
    ended (exec (.fenceComplete (fence 0x9E)) (waitingFence 0x9E)) = some (0, 0, 0) ∧
    ended (exec (.fenceComplete (fence 0x9D)) (waitingFence 0x9D)) = some (0, 0, 0) := by decide

/-! ### Forwarding -/

def queryC : Cmd := cmd 0x16 h0 0 0 0 0 0 0
/-- A QUERY that module 33 forwarded runs here and its completion goes back (R12). -/
theorem test_forwardedCommandArrival : ownedOf (serve (own0 4)) h0 = some (own0 4) ∧ canSend (serve (own0 4)) = true ∧
    after (exec (.forwardedCommandArrival { queryC with src := some (33, 1) } [h0] []) (serve (own0 4)))
      (fun t => t.host.slots = [] && t.req.outbox = [(33, .completion queryC 0 (3 * 2 ^ 32 + 4 * 2 ^ 28 + 32) (300 * 2 ^ 32 + 0xFFFFFFFF))]) = true := by decide +kernel
/-- A command that the owner runs, or whose tag it waits for. -/
def sentAway (w : Wait) (at' : Nat) : State :=
  { up with host := { up.host with slots := [{ fetched 1 queryC with phase := .waiting w, members := [h0], sentTo := some 33, sentAt := at' }] } }
/-- The command as it was sent: it carries the slot. -/
def sentC : Cmd := { queryC with tag := 1 }
theorem test_forwardedCompletionArrival : (slotById (sentAway .remote 0) 1).map (·.cmd) = some { sentC with tag := 0 } ∧ slotById up 1 = none ∧
    after (exec (.forwardedCompletionArrival sentC 0x0102 5 6 []) (sentAway .remote 0))
      (fun t => t.host.due.map (fun d => (d.status, d.result0, d.result1, d.forwarded)) = [(0x0102, 5, 6, true)]) = true ∧
    after (exec (.forwardedCompletionArrival sentC 0 0 0 []) up) (fun t => t.host = up.host) = true := by decide
theorem test_waitReleaseReport :
    after (exec (.waitReleaseReport sentC) (sentAway .tag 0)) (fun t => t.host.slots.map (·.phase) = [.waiting .remote]) = true := by decide
/-- A failed send, or an owner that is no member: the tail is asked, 100 µs after the time before and not sooner. A command passed on is dropped. -/
def askedAt (n now : Nat) (s : State) : State := { modSlot s 1 fun x => { x with askedAt := n } with mono := now }
theorem test_forwardRetryTimer : (slotWhere (sentAway .remote 0) queryC (fun y => decide (y.phase = .waiting .route) || y.sentTo.isSome)).isSome = true ∧
    after (exec (.forwardRetryTimer ⟨queryC, true⟩) (sentAway .remote 0))
      (fun t => t.req.outbox = [(33, .query h0 32 false 3)] && t.host.slots.map (·.phase) = [.waiting .route]) = true ∧
    after (exec (.forwardRetryTimer ⟨queryC, false⟩) { sentAway .remote 0 with fab := { up.fab with members := [(32, 2)] } })
      (fun t => t.host.slots.map (·.phase) = [.waiting .route]) = true ∧
    after (exec (.forwardRetryTimer ⟨queryC, true⟩) (askedAt 1 100001 (sentAway .remote 0))) (fun t => t.req.outbox.length = 1) = true ∧
    after (exec (.forwardRetryTimer ⟨queryC, true⟩) (askedAt 1 100000 (sentAway .remote 0))) (fun t => t.req.outbox = []) = true ∧
    after (exec (.forwardRetryTimer ⟨queryC, false⟩) (sentAway .remote 0)) (fun t => t = sentAway .remote 0) = true ∧
    (let c := { queryC with src := some (40, 1) }
     after (exec (.forwardRetryTimer ⟨c, false⟩) (modSlot (sentAway .remote 0) 1 fun x => { x with cmd := c })) (fun t => t.host.slots = [])) = true := by decide +kernel
/-- 1,000 ms, and one nanosecond less (R601); a command that the owner has accepted stays. -/
theorem test_forwardTimeout :
    ended (exec (.forwardTimeout ⟨queryC, false⟩) { sentAway .remote 0 with mono := 1000000000 }) = some (0x0706, 0, 0) ∧
    ended (exec (.forwardTimeout ⟨queryC, true⟩) { sentAway .remote 0 with mono := 1000000000 }) = none ∧
    ended (exec (.forwardTimeout ⟨queryC, false⟩) { sentAway .remote 0 with mono := 999999999 }) = none := by decide

/-! ### Request commands -/

/-- ADMIT of a prompt of p tokens, limit l, model m, for owner o, with REPLICAS r and the token list at an address. -/
def admitC (p l m o r addr : Nat) : Cmd := cmd 0x10 0 (m * 2 ^ 48) (p * 2 ^ 32 + l) addr 9 (o * 2 ^ 46 + r * 2 ^ 26) 0
/-- Two tokens of value 0 for model 2; the handle carries tenant 1, epoch 1, fabric ID 32, count 0. -/
theorem test_admitRequest : Starts 0x10 (admitC 2 5 2 0x3FFFF 0 0) (on served (admitC 2 5 2 0x3FFFF 0 0)) 1 (on served (admitC 2 5 2 0x3FFFF 0 0)) ∧
    after (run .admitRequest (admitC 2 5 2 0x3FFFF 0 0) served)
      (fun t => t.req.issued.map (fun i => (i.step.handle, i.step.kind, i.step.step)) = [(2 ^ 60 + 2 ^ 48 + 32 * 2 ^ 30, 0, 1)] &&
        tgetD t.req.admits 1 0 = 1 && t.host.due = []) = true := ⟨starts_of (by decide), by decide⟩
theorem test_admitRequest_refused :
    ended (run .admitRequest (admitC 0 5 2 0x3FFFF 0 0) served) = some (0x0110, 0, 0) ∧
    ended (run .admitRequest (admitC 1048576 1 2 0x3FFFF 0 0) served) = some (0x0110, 0, 0) ∧
    ended (run .admitRequest (admitC 2 5 2 77 0 0) { served with image := { image with role := .p }, fab := { served.fab with epoch := 0 } }) =
      some (0x0113, 0, 0) ∧
    ended (run .admitRequest (admitC 2 5 2 77 0 0) served) = some (0x010A, 0, 0) ∧
    ended (run .admitRequest (admitC 2 5 2 32 0 0) { served with fab := { served.fab with members := [(32, 0)] } }) = some (0x0113, 0, 0) ∧
    ended (run .admitRequest (admitC 2 5 2 32 3 0) served) = some (0x0114, 0, 0) ∧
    ended (run .admitRequest (admitC 2 5 2 32 0 2) served) = some (0x0304, 0, 0) ∧
    ended (run .admitRequest (admitC 2 5 3 32 0 0) served) = some (0x020F, 0, 0) ∧
    ended (run .admitRequest (admitC 2 5 2 32 0 0) { served with host := { served.host with badLines := [0] } }) = some (0x0B2D, 0, 0) ∧
    ended (run .admitRequest (admitC 2 5 2 32 0 0) { served with hostMem := [(6, 0x10)] }) = some (0x0110, 0, 0) := by decide

/-- PREFILL_CHUNK of a range, with LAST. -/
def chunkC (start n : Nat) (last : Bool) : Cmd := cmd 0x11 h0 (start * 2 ^ 32 + n) (if last then 1 else 0) 0 0 0 0
theorem test_prefillChunk : OneHere 0x11 (chunkC 0 300 true) (on (serve prefilling) (chunkC 0 300 true)) 1 (on (serve prefilling) (chunkC 0 300 true)) ∧
    chunkRange prefilling 0 300 = true ∧ chunkCovered prefilling 1 0 300 = true ∧ chunkCovered (own0 1) 1 0 300 = false ∧
    ended (run (.prefillChunk · []) (chunkC 0 300 true) (serve prefilling)) = some (0, 300, 0) ∧
    after (run (.prefillChunk · []) (chunkC 0 300 true) (serve (own0 1))) (fun t => t.host.due = [] && t.host.slots.map (·.phase) = [.waiting .fabric]) = true :=
  ⟨oneHere_of (by decide) (by decide) rfl, by decide⟩
theorem test_prefillChunk_refused :
    ended (run (.prefillChunk · []) (chunkC 0 300 true) (serve (own0 3))) = some (0x0103, 0, 0) ∧
    ended (run (.prefillChunk · []) (chunkC 0 300 true) (serve { own0 4 with record := { rec0 4 with firstMissing := 300 } })) = some (0x0103, 0, 0) ∧
    ended (run (.prefillChunk · []) (chunkC 1 299 true) (serve prefilling)) = some (0x0202, 0, 0) ∧
    ended (run (.prefillChunk · []) (chunkC 0 301 false) (serve prefilling)) = some (0x0202, 0, 0) ∧
    ended (run (.prefillChunk · []) (chunkC 0 256 true) (serve prefilling)) = some (0x0202, 0, 0) := by decide

def handoffC (m tp : Nat) : Cmd := cmd 0x12 h0 (m * 2 ^ 46 + tp * 2 ^ 42) 0 0 0 0 0
/-- BEGIN_HANDOFF (kind 3) is step 8; the OFFER goes to the peer. -/
theorem test_handoff : OneHere 0x12 (handoffC 33 5) (on served (handoffC 33 5)) 1 (on served (handoffC 33 5)) ∧ targetOk served 33 5 = true ∧
    startedFor (here (on served (handoffC 33 5)) 1 (handoffC 33 5)) h0 (some 1) = false ∧
    after (run .handoff (handoffC 33 5) served) (fun t => t.req.issued.map (fun i => (i.step.kind, i.step.step, i.step.peer)) = [(3, 8, 33)] &&
      t.req.outbox.map (·.1) = [33, 33] && ((ownedOf t h0).map fun o => (o.record.phase, o.record.prior)) = some (3, 4)) = true :=
  ⟨oneHere_of (by decide) (by decide) rfl, by decide⟩
theorem test_handoff_refused :
    ended (run .handoff (handoffC 33 5) (serve (own0 1))) = some (0x0103, 0, 0) ∧ targetOk served 32 5 = false ∧
    ended (run .handoff (handoffC 32 5) served) = some (0x010A, 0, 0) := by decide
def parkC : Cmd := cmd 0x13 h0 0 0 0 0 0 0
theorem test_park : OneHere 0x13 parkC (on served parkC) 1 (on served parkC) ∧
    after (run .park parkC served) (fun t => t.req.issued.map (fun i => (i.step.kind, i.step.newPhase, i.step.step)) = [(1, 5, 8)] &&
      ((ownedOf t h0).map (·.record.phase)) = some 5 && t.host.due = []) = true := ⟨oneHere_of (by decide) (by decide) rfl, by decide⟩
theorem test_park_refused : ended (run .park parkC (serve (own0 5))) = some (0x0103, 0, 0) ∧
    ended (run .park parkC { served with image := { image with role := .p }, fab := { served.fab with members := [(32, 0)] } }) = some (0x0113, 0, 0) := by decide
def resumeC (m : Nat) : Cmd := cmd 0x14 h0 (m * 2 ^ 46) 0 0 0 0 0
theorem test_resume : OneHere 0x14 (resumeC 0x3FFFF) (on (serve (own0 5)) (resumeC 0x3FFFF)) 1 (on (serve (own0 5)) (resumeC 0x3FFFF)) ∧
    after (run .resume (resumeC 0x3FFFF) (serve (own0 5))) (fun t => t.req.issued.map (fun i => (i.step.kind, i.step.newPhase)) = [(1, 4)]) = true :=
  ⟨oneHere_of (by decide) (by decide) rfl, by decide⟩
theorem test_resume_refused : ended (run .resume (resumeC 0x3FFFF) served) = some (0x0103, 0, 0) ∧
    ended (run .resume (resumeC 99) (serve (own0 5))) = some (0x010A, 0, 0) := by decide

theorem test_query : OneHere 0x16 queryC (on served queryC) 1 (on served queryC) ∧
    ended (run .query queryC served) = some (0, 3 * 2 ^ 32 + 4 * 2 ^ 28 + 32, 300 * 2 ^ 32 + 0xFFFFFFFF) := ⟨oneHere_of (by decide) (by decide) rfl, by decide⟩
def cancelC : Cmd := cmd 0x15 h0 0 0 0 0 0 0
theorem test_cancel : OneHere 0x15 cancelC (on served cancelC) 1 (on served cancelC) ∧
    after (run .cancel cancelC served) (fun t => t.req.issued.map (fun i => (i.step.kind, i.step.newPhase, i.step.step)) = [(7, 7, 8)] &&
      ((ownedOf t h0).map (·.record.phase)) = some 7 && t.host.due = []) = true := ⟨oneHere_of (by decide) (by decide) rfl, by decide⟩
/-- A SAMPLE of the request waits for its LOG_APPEND in slot 0: PARK, RESUME in place and CANCEL wait behind it (01 R22). -/
def behind (s : State) (c : Cmd) : State :=
  { on s c with host := { (on s c).host with slots := [{ fetched 0 { cmd 0x40 h0 0 0 0 0 0 0 with q := 1 } with phase := .waiting .ledger, members := [h0] }, fetched 1 c] } }
def heldBehind (o : Host.Outcome State Fault Refusal) : Bool :=
  after o fun t => t.req.issued = [] && t.host.due = [] && t.host.slots.map (·.phase) = [.waiting .ledger, .waiting .held]
theorem test_behindADecodeStep : decodeInHand (behind served parkC) h0 = true ∧ heldBehind (exec (.park parkC) (behind served parkC)) = true ∧
    heldBehind (exec (.cancel cancelC) (behind served cancelC)) = true ∧
    heldBehind (exec (.resume (resumeC 0x3FFFF)) (behind (serve (own0 5)) (resumeC 0x3FFFF))) = true := by decide
/-- QUERY and CANCEL of a registered batch of the one request. -/
def batchOfOne : State := { served with host := { served.host with batches := [((1, 0), [h0])] } }
def ofBatch (op : Nat) : Cmd := cmd (op + 2 ^ 9) 0 0 0 0 0 0 0
theorem test_batchInPlaceOfARequest : isBatch (ofBatch 0x16) = true ∧ hostChecks batchOfOne (ofBatch 0x16) = none ∧
    ended (run .query (ofBatch 0x16) batchOfOne) = some (0x0101, 0, 0) ∧ ended (run .cancel (ofBatch 0x15) batchOfOne) = some (0x0101, 0, 0) ∧
    ended (run .pagePin (ofBatch 0x22) batchOfOne) = some (0x0101, 0, 0) := by decide
def logReadC (op addr : Nat) : Cmd := cmd op h0 addr 0 0 0 0 0
theorem test_logRead : OneHere 0x17 (logReadC 0x17 4) (on served (logReadC 0x17 4)) 1 (on served (logReadC 0x17 4)) ∧
    after (run .logRead (logReadC 0x17 4) served) (fun t => t.req.outbox = [(33, .query h0 32 true 3)] && t.host.due = []) = true ∧
    ended (run .logRead (logReadC 0x17 2) served) = some (0x0304, 0, 0) := ⟨oneHere_of (by decide) (by decide) rfl, by decide⟩
theorem test_recordRead : OneHere 0x18 (logReadC 0x18 64) (on served (logReadC 0x18 64)) 1 (on served (logReadC 0x18 64)) ∧
    after (run .recordRead (logReadC 0x18 64) served) (fun t => t.req.outbox = [(33, .query h0 32 true 3)] && t.host.due = []) = true ∧
    ended (run .recordRead (logReadC 0x18 32) served) = some (0x0304, 0, 0) := ⟨oneHere_of (by decide) (by decide) rfl, by decide⟩

/-! ### The ledger -/

/-- `up` with a copy of the entry of `h0`. -/
def withEntry (copy : Nat) (e : LEntry) (s : State) : State := { s with req := { s.req with ledger := [((h0, copy), e)] } }
def entry0 (phase : Nat) : LEntry := { record := rec0 phase, log := List.replicate 300 1, frozen := none }
def step0 (kind epoch step phase digest membership : Nat) : LStep :=
  { handle := h0, epoch := epoch, step := step, kind := kind, newPhase := phase, target := 0, peer := 0x3FFFF, issuer := 33, digest := digest,
    membership := membership, firstMissing := 0xFFFFFFFF, logged := 300, adapterVersion := 0, payload := .none }
def arrive (x : LStep) : Host.Outcome State Fault Refusal := exec (.ledgerStepArrival 2 x) (withEntry 2 (entry0 4) up)
/-- The notice that a step's arrival sends. -/
def answerOf (o : Host.Outcome State Fault Refusal) : Option (Nat × Nat) :=
  match o with
  | .next t => match t.req.outbox with
    | [(m, .notice n)] => some (m, n.status)
    | _ => none
  | _ => none

/-- The second copy of `h0` is module 32: R137's answers in order, a step applied and sent on, one held for a newer epoch. -/
theorem test_ledgerStepArrival : (chainOf up h0).getD 1 0 = 32 ∧ isMember up 33 = true ∧
    answerOf (arrive (step0 1 2 8 5 9 3)) = some (33, 0x0104) ∧ answerOf (arrive (step0 1 3 7 5 78 3)) = some (33, 0x0105) ∧
    answerOf (arrive (step0 1 3 9 5 9 3)) = some (33, 0x0106) ∧ answerOf (arrive (step0 1 3 8 2 9 3)) = some (33, 0x0107) ∧
    answerOf (arrive (step0 1 3 8 5 9 2)) = some (33, 0x0108) ∧
    after (arrive (step0 1 3 8 5 9 3)) (fun t => (tget t.req.ledger (h0, 2)).map (fun e => (e.record.phase, e.record.step, e.record.stepTime)) = some (5, 8, 5000) &&
      t.req.outbox = [(33, .step 3 (step0 1 3 8 5 9 3))]) = true ∧
    after (arrive (step0 1 3 8 5 9 4)) (fun t => t.req.heldMsgs.length = 1 && t.req.outbox = []) = true := by decide
/-- A repeat goes on and changes nothing. -/
theorem test_ledgerStepArrival_repeat :
    after (arrive (step0 1 3 7 5 77 3)) (fun t => tget t.req.ledger (h0, 2) = some (entry0 4) && t.req.outbox.length = 1) = true ∧
    after (arrive (step0 1 3 6 5 99 3)) (fun t => tget t.req.ledger (h0, 2) = some (entry0 4) && t.req.outbox.length = 1) = true := by decide +kernel

/-- The answer that a tail sends. -/
def tailAnswer (o : Host.Outcome State Fault Refusal) : Option (Nat × Nat × Bool) :=
  match o with
  | .next t => match t.req.outbox with
    | [(m, .answer n)] => some (m, n.status, n.body.isSome)
    | _ => none
  | _ => none
/-- Module 33 is a member that keeps no ledger. -/
def withPeer (s : State) : State := { s with fab := { s.fab with members := s.fab.members ++ [(33, 0)] } }
theorem test_ledgerQuery : tailOf (withPeer (alone up)) h0 = 32 ∧
    tailAnswer (exec (.ledgerQuery h0 33 ⟨true, 3⟩) (withPeer (withEntry 3 (entry0 4) (alone up)))) = some (33, 0, true) ∧
    tailAnswer (exec (.ledgerQuery h0 33 ⟨false, 3⟩) (withPeer (withEntry 3 (entry0 4) (alone up)))) = some (33, 0, false) ∧
    tailAnswer (exec (.ledgerQuery h0 33 ⟨true, 3⟩) (withPeer (alone up))) = some (33, 0x0101, false) ∧
    tailAnswer (exec (.ledgerQuery h0 33 ⟨true, 2⟩) (withPeer (withEntry 3 (entry0 4) (alone up)))) = some (33, 0x0108, false) ∧
    after (exec (.ledgerQuery h0 33 ⟨true, 4⟩) up) (fun t => t.req.heldMsgs.length = 1 && t.req.outbox = []) = true ∧
    after (exec (.ledgerQuery h0 99 ⟨true, 3⟩) up) (fun t => t = up) = true := by decide +kernel
def issued0 : Issued := { step := step0 1 3 8 5 9 3, before := none, head := 33, sentAt := 0, why := .finish 1 11 12, after := none }
def outstanding : State := { sentAway .ledger 0 with req := { up.req with issued := [issued0] } }
theorem test_ledgerStepResendTimer :
    after (exec (.ledgerStepResendTimer h0) { outstanding with mono := 100000 }) (fun t => t.req.outbox.map (·.1) = [33]) = true ∧
    after (exec (.ledgerStepResendTimer h0) { outstanding with mono := 99999 }) (fun t => t.req.outbox = []) = true := by decide
def asking (a : Asker) : State := { up with req := { up.req with asks := [{ handle := h0, asker := a, sentAt := 0 }] } }
theorem test_ledgerQueryRetryTimer :
    after (exec (.ledgerQueryRetryTimer h0) { asking .refresh with mono := 100000 }) (fun t => t.req.outbox.length = 1) = true ∧
    after (exec (.ledgerQueryRetryTimer h0) { asking .refresh with mono := 99999 }) (fun t => t.req.outbox = []) = true := by decide
def notice0 (status phase : Nat) : Notice :=
  { handle := h0, epoch := 3, step := 8, status := status, phase := phase, owner := 33, repeated := false, firstMissing := 0xFFFFFFFF, logged := 300,
    ofStep := 8, ofKind := 1, head := 33, membership := 3, body := none }
theorem test_ledgerAnswer :
    after (exec (.ledgerAnswer (notice0 0 4)) (asking (.forward 1))) (fun t => t.req.known = [(1, h0, .owner 33 4)] && t.req.asks = []) = true ∧
    after (exec (.ledgerAnswer (notice0 0 8)) (asking (.forward 1))) (fun t => t.req.known = [(1, h0, .final 8)]) = true ∧
    after (exec (.ledgerAnswer (notice0 0x0101 0)) (asking (.forward 1))) (fun t => t.req.known = [(1, h0, .unknown)]) = true := by decide
theorem test_ledgerNotice :
    ended (exec (.ledgerNotice (notice0 0 5)) outstanding) = some (0, 11, 12) ∧
    after (exec (.ledgerNotice (notice0 0 5)) outstanding) (fun t => t.req.issued = []) = true := by decide
theorem test_ledgerErase : headOf (alone up) h0 = 32 ∧
    after (exec (.ledgerErase h0) { withEntry 1 (entry0 7) (alone up) with time := 1000000000 })
      (fun t => t.req.issued.map (fun i => (i.step.kind, i.step.step)) = [(8, 8)]) = true ∧
    after (exec (.ledgerErase h0) { withEntry 1 (entry0 7) (alone up) with time := 999999999 }) (fun t => t.req.issued = []) = true := by decide

theorem test_repairCopyArrival :
    after (exec (.repairCopyArrival 2 (rec0 4) [1]) up) (fun t => (tget t.req.ledger (h0, 2)).map (fun e => (e.record.step, e.log, e.frozen)) = some (7, [1], none)) = true ∧
    after (exec (.repairCopyArrival 2 (rec0 4) [1]) (withEntry 2 (entry0 4) up)) (fun t => tget t.req.ledger (h0, 2) = some (entry0 4)) = true := by decide +kernel
theorem test_endOfRepair :
    after (exec (.endOfRepair 3 33) { up with req := { up.req with repairing := [33] } }) (fun t => t.req.repairing = []) = true ∧
    after (exec (.endOfRepair 4 33) { up with req := { up.req with repairing := [33] } }) (fun t => t.req.repairing = [33] && t.req.earlyEnds = [(4, 33)]) = true ∧
    after (exec (.endOfRepair 2 33) { up with req := { up.req with repairing := [33] } }) (fun t => t.req.repairing = [33]) = true := by decide
/-- A head that the chain no longer names: its membership has moved to 33, 34 and 35. -/
def movedAway : State :=
  { withEntry 1 { entry0 4 with frozen := some 0 } up with fab := { up.fab with members := [(33, 2), (34, 2), (35, 2)] } }
theorem test_headFreezeEnd :
    after (exec (.headFreezeEnd h0) { movedAway with req := { movedAway.req with heldMsgs := [.step 1 (step0 1 3 8 5 9 3)] } })
      (fun t => t.req.ledger = [] && t.req.heldMsgs = [] && t.req.outbox.length = 1) = true ∧
    after (exec (.headFreezeEnd h0) (withEntry 1 (entry0 4) up)) (fun t => tget t.req.ledger (h0, 1) = some (entry0 4)) = true := by decide +kernel

/-! ### Handoff -/

def hand0 (st : SendSt) : Handoff :=
  { st := st, peer := 33, target := 5, slot := none, step := 7, epoch := 3, retries := 0, timer := some 0, orphanUs := 2000, refused := false, toSend := [],
    pinned := [], cause := 0 }
def handingSt (st : SendSt) : Owned :=
  { own0 3 with pages := [page0 0 10 256], handoff := some (hand0 st) }
def sendSt (t : State) : Option SendSt := ((ownedOf t h0).bind (·.handoff)).map (·.st)
/-- A Tongs header of handoff (epoch 3, step 7) from a sender. -/
def tongs (type sender step reason : Nat) : Tongs :=
  { handle := h0, epoch := 3, step := step, type := type, target := 5, reason := reason, sender := sender, pages := 2, held := 0 }
def placedOf (hd : Tongs) (bits : List Nat) : Instr := .placed hd.handle hd.sender (hd.body bits)
def refuseOf (hd : Tongs) : Instr := .handoffRefuse hd.handle hd.sender (hd.body [])
/-- Table 5.7: PLACED sends the page that the receiver lacks, and none that it holds. -/
theorem test_placed : layersOf (serve (handingSt .offered)) h0 2 * pageCount (handingSt .offered) = 2 ∧
    after (exec (placedOf (tongs 1 33 7 0) []) (serve (handingSt .offered))) (fun t => sendSt t = some .sending && t.req.outbox.map (·.1) = [33]) = true ∧
    after (exec (placedOf (tongs 1 33 7 0) [0]) (serve (handingSt .offered))) (fun t => sendSt t = some .sending && t.req.outbox = []) = true ∧
    after (exec (placedOf (tongs 1 33 4 0) []) (serve (handingSt .offered))) (fun t => sendSt t = some .offered) = true ∧
    after (exec (placedOf (tongs 1 34 7 0) []) (serve (handingSt .offered))) (fun t => sendSt t = some .offered) = true := by decide
theorem test_lastPageSent :
    after (exec (.lastPageSent h0) (serve (handingSt .sending))) (fun t => sendSt t = some .waiting) = true ∧
    after (exec (.lastPageSent h0) (serve (handingSt .offered))) (fun t => sendSt t = some .offered) = true := by decide
/-- ORPHAN_US is 2,000 µs in `up`. -/
theorem test_orphanTimerExpiry :
    after (exec (.orphanTimerExpiry h0) { serve (handingSt .waiting) with mono := 2000000 }) (fun t => sendSt t = some .querying && t.req.asks.length = 1) = true ∧
    after (exec (.orphanTimerExpiry h0) { serve (handingSt .waiting) with mono := 1999999 }) (fun t => sendSt t = some .waiting) = true := by decide
theorem test_handoffRefuse :
    after (exec (refuseOf (tongs 2 33 7 0x0B)) (serve (handingSt .offered)))
      (fun t => sendSt t = some .aborting && t.req.issued.map (fun i => (i.step.kind, i.step.step)) = [(5, 8)]) = true ∧
    after (exec (refuseOf (tongs 2 34 7 0x0B)) (serve (handingSt .offered))) (fun t => sendSt t = some .offered) = true := by decide

def offer0 : Offer :=
  { step := 8, epoch := 3, target := 5, sender := 33, record := rec0 3, log := List.replicate 300 1, pages := [{ present := true, full := true, shared := false, pin := false }, { present := false, full := false, shared := false, pin := false }], hashes := [0, 0] }
def recv0 (st : RecvSt) (present : Bool) : Recving :=
  { st := st, offer := offer0, pages := [((0, 0), { dir := 10, present := present, full := false, shared := false, pin := false, upto := 0 })], timer := 0,
    orphanUs := 2000, flushing := [], flushed := false, refs := [] }
def receiving (v : Recving) (s : State) : State := { s with req := { s.req with recving := [(h0, v)] } }
theorem test_offer : offerOk { up with tier := Tier.reset } offer0 = false ∧
    after (exec (.offer offer0) up) (fun t => t.req.outbox = [(33, .refuse (tongs 2 32 8 0x0B))]) = true ∧
    after (exec (.offer offer0) (receiving (recv0 .receiving true) up)) (fun t => t.req.outbox = [(33, .placed { tongs 1 32 8 0 with held := 1 } [0])]) = true ∧
    after (exec (.offer { offer0 with step := 11 }) (receiving (recv0 .receiving true) up)) (fun t => t.req.recving = [] && t.req.outbox.length = 1) = true := by
  decide
theorem test_handoffPagePlaced :
    after (exec (.handoffPagePlaced h0 { layer := 0, index := 0, upto := 256, blob := { cells := [(3, 9)], fill := none, bad := [] } }) (receiving (recv0 .receiving false) up))
      (fun t => (tget t.req.recving h0).map (fun v => v.pages.map (fun p => (p.2.present, p.2.full))) = some [(true, true)] &&
        (tget t.tier.data 10).map (·.cells) = some [(3, 9)]) = true := by decide
/-- CLAIM (kind 4) is step 9, after s = 8. -/
theorem test_allPagesPlaced : replicaMembers up h0 1 = [33] ∧ replicaMembers up h0 0 = [] ∧
    after (exec (.allPagesPlaced ⟨h0, []⟩) (receiving (recv0 .receiving true) up))
      (fun t => t.req.issued.map (fun i => (i.step.kind, i.step.step, i.step.newPhase)) = [(4, 9, 5)] && (tget t.req.recving h0).map (·.st) = some .claiming) = true ∧
    (let v := { recv0 .receiving true with offer := { offer0 with record := { rec0 3 with replicas := 1 } } }
     after (exec (.allPagesPlaced ⟨h0, []⟩) (receiving v up)) (fun t => t.req.outbox = [(33, .flush h0 32)] && t.req.issued = []) &&
     after (exec (.allPagesPlaced ⟨h0, []⟩) (receiving { v with flushed := true, flushing := [33] } up)) (fun t => t.req.issued = []) &&
     after (exec (.allPagesPlaced ⟨h0, [33]⟩) (receiving { v with flushed := true, flushing := [33] } up)) (fun t => t.req.issued.length = 1)) = true := by decide
theorem test_orphanTimerExpiry_receiver :
    after (exec (.orphanTimerExpiry h0) { receiving (recv0 .claiming true) up with mono := 2000000 }) (fun t => (tget t.req.recving h0).map (·.st) = some .rquery) = true ∧
    after (exec (.orphanTimerExpiry h0) { receiving (recv0 .claiming true) up with mono := 1999999 }) (fun t => (tget t.req.recving h0).map (·.st) = some .claiming) = true := by
  decide
theorem test_replicaArrival :
    after (exec (.replicaArrival h0 ⟨33, { layer := 0, index := 0, upto := 9, blob := { cells := [(3, 9)], fill := none, bad := [] } }⟩)
      { withEntry 1 (entry0 4) (serve (own0 4)) with req := { (withEntry 1 (entry0 4) up).req with replicas := [((h0, 0, 0), 10)] } })
      (fun t => (tget t.tier.data 10).map (·.cells) = some [(3, 9)]) = true := by decide
/-- The CLAIM of a recovery leads back to the phase before the loss. -/
theorem test_recoveryClaim :
    after (exec (.recoveryClaim h0 []) { withEntry 1 { entry0 6 with record := { rec0 6 with prior := 4 } } served with
      req := { (withEntry 1 { entry0 6 with record := { rec0 6 with prior := 4 } } up).req with
        recovering := [(h0, { started := true, claiming := false, limit := false, since := 0 })] } })
      (fun t => t.req.issued.map (fun i => (i.step.kind, i.step.step, i.step.newPhase)) = [(4, 8, 4)]) = true ∧
    after (exec (.recoveryClaim h0 []) { withEntry 1 (entry0 6) served with
      req := { (withEntry 1 (entry0 6) up).req with recovering := [(h0, { started := false, claiming := false, limit := false, since := 0 })] } })
      (fun t => t.req.issued = []) = true := by decide

/-! ### Pages and tiers -/

/-- The directory entry of page (0, 0) of `h0`: one slab in T1 on stack 3 (tier 1), or elsewhere. -/
def dir0 (loc tier : Nat) (st : DirState) (pins : List Pin) : DirEntry :=
  { run := { fabric := 32, loc := loc, first := 5, base := 0, slabs := 1, gen := 0 }, seq := 0, age := 3, pins := pins, refs := 0, tenant := 1, st := st,
    kind := 0, persist := false, tier := tier, layer := 0, page := 0, back := h0 }
/-- `h0` in phase 5 with page (0, 0) in directory entry 10. -/
def paged (e : DirEntry) : State :=
  let o : Owned := { own0 5 with pages := [page0 0 10 256] }
  let s := serve o
  { s with tier := { s.tier with dir := [(10, e)], used := [(e.run.loc, 5, 1)], t3 := [(0, 2097152)] } }
/-- Layers 0–0, pages a–b, tier t. -/
def pageC (op a b t : Nat) : Cmd := cmd op h0 (a * 2 ^ 32 + b * 2 ^ 16 + t * 2 ^ 14) 0 0 0 0 0
def inT1 : State := paged (dir0 3 1 .resident [])
def inT3 : State := paged (dir0 20 3 .resident [])

theorem test_pagePromote : OneHere 0x20 (pageC 0x20 0 0 1) (on inT3 (pageC 0x20 0 0 1)) 1 (on inT3 (pageC 0x20 0 0 1)) ∧
    ended (run .pagePromote (pageC 0x20 0 0 1) inT1) = some (0, 0, 1) ∧
    after (run .pagePromote (pageC 0x20 0 0 1) inT3) (fun t => t.host.due = [] &&
      (tget t.tier.dir 10).map (fun e => (e.st, e.pins, e.age)) = some (.promoting, [.promotion], 0) && (tget t.tier.moves 10).map (·.tier) = some 1) = true ∧
    after (run .pagePromote (pageC 0x20 0 0 1) { inT3 with tier := { inT3.tier with used := (20, 5, 1) :: (List.range 20).map fun i => (i, 0, stackSlabs up) } })
      (fun t => t.host.due.map (·.result1) = [2 ^ 32] && (tget t.tier.dir 10).map (fun e => (e.st, e.age)) = some (.resident, 0)) = true ∧
    ended (run .pagePromote (pageC 0x20 0 2 1) inT3) = some (0x0202, 0, 0) ∧ ended (run .pagePromote (pageC 0x20 0 0 2) inT3) = some (0x0202, 0, 0) :=
  ⟨oneHere_of (by decide) (by decide) rfl, by decide⟩
/-- A persistent page is skipped; without T3 there is no room. -/
theorem test_pageDemote : OneHere 0x21 (pageC 0x21 0 0 3) (on inT1 (pageC 0x21 0 0 3)) 1 (on inT1 (pageC 0x21 0 0 3)) ∧
    after (run .pageDemote (pageC 0x21 0 0 3) inT1) (fun t => t.host.due = [] && (tget t.tier.dir 10).map (·.st) = some .demoting &&
      (tget t.tier.moves 10).map (fun m => m.run.loc) = some 20) = true ∧
    ended (run .pageDemote (pageC 0x21 0 0 3) (paged { dir0 3 1 .resident [] with persist := true })) = some (0, 0, 1) ∧
    ended (run .pageDemote (pageC 0x21 0 0 3) { inT1 with tier := { inT1.tier with t3 := [] } }) = some (0x0201, 0, 0) ∧
    ended (run .pageDemote (pageC 0x21 0 0 1) inT1) = some (0x0202, 0, 0) := ⟨oneHere_of (by decide) (by decide) rfl, by decide⟩
def moved (st : DirState) (loc tier : Nat) : State :=
  let s := paged (dir0 3 1 st [.promotion])
  { s with tier := { s.tier with moves := [(10, { run := { (dir0 3 1 st []).run with loc := loc }, tier := tier, slot := none })] } }
theorem test_demotionPlaced :
    after (exec (.demotionPlaced 10) (moved .demoting 20 3)) (fun t => (tget t.tier.dir 10).map (fun e => (e.st, e.tier, e.run.loc)) = some (.resident, 3, 20) &&
      t.tier.moves = [] && t.tier.freed = [(3, 5, 1)]) = true ∧
    after (exec (.demotionPlaced 10) (moved .resident 20 3)) (fun t => t.tier.freed = []) = true := by decide
theorem test_promotionPlaced :
    after (exec (.promotionPlaced 10) (moved .promoting 40 0)) (fun t => (tget t.tier.dir 10).map (fun e => (e.st, e.tier, e.pins)) = some (.resident, 0, []) &&
      t.tier.drains.map (·.pins) = [[]] && t.tier.freed = []) = true := by decide
def draining (pins : List Pin) : State :=
  { inT1 with tier := { inT1.tier with drains := [{ dir := 10, run := (dir0 3 1 .resident []).run, tier := 1, pins := pins }] } }
theorem test_oldRunDrained :
    after (exec (.oldRunDrained 10) (draining [])) (fun t => t.tier.drains = [] && t.tier.freed = [(3, 5, 1)] && t.tier.used = []) = true ∧
    after (exec (.oldRunDrained 10) (draining [.command 9])) (fun t => t.tier.drains.length = 1 && t.tier.freed = []) = true := by decide
theorem test_pagePin : OneHere 0x22 (pageC 0x22 0 0 0) (on inT1 (pageC 0x22 0 0 0)) 1 (on inT1 (pageC 0x22 0 0 0)) ∧
    ended (run .pagePin (pageC 0x22 0 0 0) inT1) = some (0, 1, 0) ∧
    after (run .pagePin (pageC 0x22 0 0 0) inT1) (fun t => (tget t.tier.dir 10).map (·.persist) = some true) = true ∧
    ended (run .pagePin (pageC 0x22 0 2 0) inT1) = some (0x0202, 0, 0) ∧
    ended (run .pagePin (pageC 0x22 0 0 0) { inT1 with tier := { inT1.tier with dir := [(10, { dir0 3 1 .resident [] with
      run := { (dir0 3 1 .resident []).run with slabs := 2 ^ 40 } })] } }) = some (0x0203, 0, 0) :=
  ⟨oneHere_of (by decide) (by decide) rfl, by decide⟩
theorem test_pageUnpin : OneHere 0x23 (pageC 0x23 0 0 0) (on inT1 (pageC 0x23 0 0 0)) 1 (on inT1 (pageC 0x23 0 0 0)) ∧
    ended (run .pageUnpin (pageC 0x23 0 0 0) (paged { dir0 3 1 .resident [] with persist := true })) = some (0, 1, 0) ∧
    after (run .pageUnpin (pageC 0x23 0 0 0) (paged { dir0 3 1 .resident [] with persist := true })) (fun t => (tget t.tier.dir 10).map (·.persist) = some false) = true :=
  ⟨oneHere_of (by decide) (by decide) rfl, by decide⟩
/-- Drop from position 0 on; position 1 is no multiple of 256, position 512 is past the 300 tokens. -/
def dropC (pos : Nat) : Cmd := cmd 0x24 h0 (pos * 2 ^ 32) 0 0 0 0 0
theorem test_pageDrop : OneHere 0x24 (dropC 0) (on inT1 (dropC 0)) 1 (on inT1 (dropC 0)) ∧
    after (run .pageDrop (dropC 0) inT1) (fun t => t.req.issued.map (fun i => (i.step.kind, i.step.firstMissing)) = [(9, 0)] &&
      (ownedOf t h0).map (fun o => o.pages.map (·.2.present)) = some [false]) = true ∧
    ended (run .pageDrop (dropC 1) inT1) = some (0x0202, 0, 0) ∧ ended (run .pageDrop (dropC 512) inT1) = some (0x0202, 0, 0) :=
  ⟨oneHere_of (by decide) (by decide) rfl, by decide⟩

/-! ### Prefixes, T3, models, ages, pressure -/

def prefixBank : Tab Nat Bank := [(1, { Bank.fresh with use := 1 })]
def prefixed (o : Owned) : State := let s := serve o; { s with comp := { s.comp with banks := prefixBank } }
def plainC (op w2 : Nat) : Cmd := cmd op h0 w2 0 0 0 0 0
theorem test_prefixLookup : OneHere 0x25 (plainC 0x25 0) (on (prefixed (own0 1)) (plainC 0x25 0)) 1 (on (prefixed (own0 1)) (plainC 0x25 0)) ∧
    banksOf (prefixed (own0 1)) 1 1 = [1] ∧ banksOf (serve (own0 1)) 1 1 = [] ∧
    ended (run .prefixLookup (plainC 0x25 0) (prefixed (own0 1))) = some (0, 0, 0) ∧
    ended (run .prefixLookup (plainC 0x25 0) (serve (own0 4))) = some (0x0103, 0, 0) ∧
    ended (run .prefixLookup (plainC 0x25 0) (serve (own0 1))) = some (0x0205, 0, 0) ∧
    ended (run .prefixLookup (plainC 0x25 0) (prefixed { own0 1 with record := { rec0 1 with placed := 256 } })) = some (0x0207, 0, 0) :=
  ⟨oneHere_of (by decide) (by decide) rfl, by decide⟩
theorem test_prefixPublish : OneHere 0x26 (plainC 0x26 0) (on (prefixed (own0 4)) (plainC 0x26 0)) 1 (on (prefixed (own0 4)) (plainC 0x26 0)) ∧
    ended (run .prefixPublish (plainC 0x26 0) (prefixed (own0 4))) = some (0, 0, 0) ∧
    ended (run .prefixPublish (plainC 0x26 256) (prefixed (own0 4))) = some (0x0202, 0, 0) ∧
    ended (run .prefixPublish (plainC 0x26 0) (prefixed { own0 4 with record := { rec0 4 with firstMissing := 256 } })) = some (0x010D, 256, 0) ∧
    ended (run .prefixPublish (plainC 0x26 255) (prefixed { own0 4 with record := { rec0 4 with placed := 300 } })) = some (0x0202, 0, 0) :=
  ⟨oneHere_of (by decide) (by decide) rfl, by decide⟩
def set0 (refs : Nat) : PrefixSet := { refs := refs, tenant := 1, model := 2, adapter := 0, version := 0, block := 0, hash := 99, dirs := [] }
def releasing (refs : Nat) : State := let s := prefixed (own0 4); { s with tier := { s.tier with prefixes := [(4096, set0 refs)] } }
def prefixC : Cmd := cmd 0x27 0 0 0 0 0 0 0
theorem test_prefixRelease : Starts 0x27 prefixC (on (releasing 0) prefixC) 1 (on (releasing 0) prefixC) ∧
    ended (run .prefixRelease prefixC (releasing 0)) = some (0, 1, 0) ∧ ended (run .prefixRelease prefixC (releasing 1)) = some (0, 0, 0) ∧
    ended (run .prefixRelease prefixC served) = some (0x0205, 0, 0) := ⟨starts_of (by decide), by decide⟩
/-- T3: from function 0, 2 MiB aligned, within T3_BYTES. -/
def t3C (fn a n : Nat) : Cmd := { cmd 0x2B 0 a n 0 0 0 0 with fn := fn }
def t3up : State := { up with image := { image with t3Bytes := 2097152 } }
theorem test_t3Attach : Starts 0x2B (t3C 0 0 2097152) (on t3up (t3C 0 0 2097152)) 1 (on t3up (t3C 0 0 2097152)) ∧
    ended (run .t3Attach (t3C 0 0 2097152) t3up) = some (0, 2097152, 0) ∧ ended (run .t3Attach (t3C 1 0 2097152) t3up) = some (0x0B21, 0, 0) ∧
    ended (run .t3Attach (t3C 0 0 4194304) t3up) = some (0x020E, 0, 0) ∧ ended (run .t3Attach (t3C 0 64 2097152) t3up) = some (0x020E, 0, 0) ∧
    ended (run .t3Attach (t3C 0 0 0) t3up) = some (0x020E, 0, 0) := ⟨starts_of (by decide), by decide⟩
/-- Nothing in use: every occupancy is 0. -/
def tierC : Cmd := cmd 0x2C 0 0 0 0 0 0 0
theorem test_tierQuery : Starts 0x2C tierC (on up tierC) 1 (on up tierC) ∧ ended (run .tierQuery tierC up) = some (0, 0, 0) := ⟨starts_of (by decide), by decide⟩
def described (x : Tensor) : State := let s := up; { s with tier := { s.tier with tensors := [((1, 4), x)] } }
def modelC : Cmd := cmd 0x2D 0 4 0 0 0 0 0
theorem test_modelDefine : Starts 0x2D modelC (on (described (descTensor 2 0 0)) modelC) 1 (on (described (descTensor 2 0 0)) modelC) ∧
    ended (run .modelDefine modelC (described (descTensor 2 0 0))) = some (0, 2, 65536) ∧ ended (run .modelDefine modelC up) = some (0x0306, 0, 0) ∧
    ended (run .modelDefine modelC (described (descTensor 2 3 0))) = some (0x0302, 0, 0) ∧
    ended (run .modelDefine modelC (described (descTensor 2 0 4))) = some (0x0302, 0, 0) := ⟨starts_of (by decide), by decide⟩
/-- The same geometry again is accepted, another for the same model is not (0x0210). -/
theorem test_modelDefine_again :
    (let s := described (descTensor 2 0 0); ended (run .modelDefine modelC { s with tier := { s.tier with models := [model2] } })) = some (0, 2, 65536) ∧
    (let s := described (descTensor 2 1 0); ended (run .modelDefine modelC { s with tier := { s.tier with models := [model2] } })) = some (0x0210, 0, 0) := by decide
theorem test_ageEpoch :
    after (exec .ageEpoch { inT1 with time := 1000000 }) (fun t => t.tier.dir.map (·.2.age) = [4]) = true ∧
    after (exec .ageEpoch { paged (dir0 3 1 .resident [.command 9]) with time := 1000000 }) (fun t => t.tier.dir.map (·.2.age) = [3]) = true ∧
    after (exec .ageEpoch { inT1 with time := 1000001 }) (fun t => t.tier.dir.map (·.2.age) = [3]) = true := by decide
/-- 20 stacks nearly full: occupancy 1,000 per mille parks the idle request; empty stacks do not. -/
def full : State := let s := serve (own0 4); { s with mono := 100000000, tier := { s.tier with used := (List.range 20).map fun i => (i, 0, stackSlabs up) } }
theorem test_pressurePark : occupancy full = 1000 ∧ occupancy up = 0 ∧
    after (exec .pressurePark full) (fun t => t.tier.parking && t.req.issued.map (fun i => (i.step.kind, i.step.newPhase)) = [(1, 5)]) = true ∧
    after (exec .pressurePark { up with tier := { up.tier with parking := true } }) (fun t => !t.tier.parking) = true := by decide

/-! ### Loans -/

def loan (type id : Nat) : LoanMsg := { type := type, grants := 4, stack := 3, sender := 33, grantId := id, key := 7, addr := 0, deadline := 900 }
def heldOne (d : Option Nat) : State :=
  { up with tier := { up.tier with held := [{ lender := 33, id := 5, stack := 3, key := 7, addr := 0, idle := 0, deadline := d }] } }
def lentOne (d : Option Nat) : State :=
  { up with tier := { up.tier with lent := [{ id := 5, borrower := 33, stack := 3, slab := 0, key := 7, deadline := d, dirs := [] }] } }
theorem test_loanOfferArrival : after (exec (.loanOfferArrival (loan 0 0)) up) (fun t => t.tier.offered = [(33, 4)]) = true := by decide
theorem test_loanDeclineArrival :
    after (exec (.loanDeclineArrival (loan 3 0)) { up with tier := { up.tier with ask := some 33 } }) (fun t => t.tier.ask = none) = true ∧
    after (exec (.loanDeclineArrival (loan 3 0)) { up with tier := { up.tier with ask := some 34 } }) (fun t => t.tier.ask = some 34) = true := by decide
theorem test_loanGrantArrival : after (exec (.loanGrantArrival (loan 2 5)) { up with tier := { up.tier with ask := some 33 } })
    (fun t => t.tier.held.map (fun g => (g.lender, g.id)) = [(33, 5)] && t.tier.ask = none) = true := by decide
/-- LOAN_OFFER 1,000 per mille with just one grant's room, on stack 3: it is lent as grant 1. With LOAN_OFFER 0 the answer is DECLINE. -/
def nearFull (n : Nat) : State :=
  { up with image := { image with loanOffer := n }
            tier := { up.tier with used := (List.range 20).map fun i => (i, 0, if i = 3 then stackSlabs up - 16384 else stackSlabs up) } }
theorem test_loanAskArrival : offerable (nearFull 1000) = 1 ∧
    after (exec (.loanAskArrival (loan 1 0)) (nearFull 0)) (fun t => t.tier.lent = [] && t.req.outbox.map (·.1) = [33]) = true := by decide +kernel
theorem test_loanAskArrival_lends : ∃ g v, lend (nearFull 1000) 33 = some (g, v) :=
  Laws.lend_some (m := 620) (by decide +kernel) 33 (3, stackSlabs up - 16384) (by decide +kernel) (by decide) (by decide)
theorem test_recall : after (exec (.recall (loan 4 5)) (heldOne none)) (fun t => t.tier.held.map (·.deadline) = [some 900]) = true ∧
    after (exec (.recall (loan 4 6)) (heldOne none)) (fun t => t.tier.held.map (·.deadline) = [none]) = true := by decide
theorem test_recallEmpty : after (exec (.recallEmpty 33 5) (heldOne (some 900))) (fun t => t.tier.held = [] && t.req.outbox.map (·.1) = [33]) = true ∧
    after (exec (.recallEmpty 33 5) (heldOne none)) (fun t => t.tier.held.length = 1) = true := by decide
theorem test_returnGrant : after (exec (.returnGrant (loan 5 5)) (lentOne none)) (fun t => t.tier.lent = [] && t.req.outbox.map (·.1) = [33]) = true ∧
    after (exec (.returnGrant (loan 5 6)) (lentOne none)) (fun t => t.tier.lent.length = 1) = true := by decide
theorem test_recallDeadlineExpiry : after (exec (.recallDeadlineExpiry 5) (lentOne (some 5000))) (fun t => t.tier.lent = []) = true ∧
    after (exec (.recallDeadlineExpiry 5) (lentOne (some 5001))) (fun t => t.tier.lent.length = 1) = true := by decide
theorem test_revoked : after (exec (.revoked (loan 6 5)) (heldOne none)) (fun t => t.tier.held = []) = true ∧
    after (exec (.revoked (loan 6 6)) (heldOne none)) (fun t => t.tier.held.length = 1) = true := by decide

/-! ### Weight windows -/

def winUp (slots : Nat) : State := { up with image := { image with window := some { tier := 1, distance := 1, slots := slots, slotBytes := 65536 } } }
/-- A host stream: L layers of n bytes from layer f, at 4 KiB. -/
def openWindowC (l f n : Nat) : Cmd := cmd 0x28 0 (2 ^ 62) 0x1000 (n * 2 ^ 32 + l * 2 ^ 16 + f) 256 0 0
theorem test_windowOpen : Starts 0x28 (openWindowC 3 2 64) (on (winUp 4) (openWindowC 3 2 64)) 1 (on (winUp 4) (openWindowC 3 2 64)) ∧ prefetchNow (winUp 4) = 1 ∧
    ended (run .windowOpen (openWindowC 3 2 64) (winUp 4)) = some (0, 0, 0) ∧
    after (run .windowOpen (openWindowC 3 2 64) (winUp 4)) (fun t => (tget t.tier.streams 0).map (fun y => (y.cursor, y.reserved, y.slots.map (·.layer))) =
      some (2, [0, 1], [2, 0])) = true := ⟨starts_of (by decide), by decide⟩
/-- No window; one free slot for a distance of 1; a layer longer than a slot; LAYERS 0 and 257; FIRST_LAYER at LAYERS. -/
theorem test_windowOpen_refused :
    ended (run .windowOpen (openWindowC 3 2 64) up) = some (0x0208, 0, 0) ∧ ended (run .windowOpen (openWindowC 3 2 64) (winUp 1)) = some (0x0209, 0, 0) ∧
    ended (run .windowOpen (openWindowC 3 2 65537) (winUp 2)) = some (0x020C, 0, 0) ∧ ended (run .windowOpen (openWindowC 0 0 64) (winUp 2)) = some (0x020B, 0, 0) ∧
    ended (run .windowOpen (openWindowC 257 0 64) (winUp 2)) = some (0x020B, 0, 0) ∧ ended (run .windowOpen (openWindowC 3 3 64) (winUp 2)) = some (0x020B, 0, 0) := by
  decide
/-- Stream 0 of tenant 1 over three layers of 64 bytes at 0x1000, 256 apart, at cursor 2 with one slot in some condition. -/
def winSlot (layer : Nat) (filled : Bool) : WinSlot := { slot := 0, layer := layer, filled := filled, lost := false, blob := Blob.zeros }
def stream0 (w : WinSlot) : Stream :=
  { tenant := 1, source := 1, adapter := 0, version := 0, addr := 0x1000, stride := 256, layerBytes := 64, layers := 3, cursor := 2, distance := 1,
    reserved := [0, 1], slots := [w], sourceLost := false, cut := false, closing := false }
def streaming (x : Stream) : State := let s := winUp 4; { s with tier := { s.tier with streams := [(0, x)] } }
def streamC (op n : Nat) : Cmd := cmd op 0 n 0 0 0 0 0
/-- The cursor goes from layer 2 of three to layer 0. -/
theorem test_windowAdvance : Starts 0x29 (streamC 0x29 0) (on (streaming (stream0 (winSlot 2 true))) (streamC 0x29 0)) 1 (on (streaming (stream0 (winSlot 2 true))) (streamC 0x29 0)) ∧
    ended (run .windowAdvance (streamC 0x29 0) (streaming (stream0 (winSlot 2 true)))) = some (0, 0, 0) ∧
    after (run .windowAdvance (streamC 0x29 0) (streaming (stream0 (winSlot 2 true)))) (fun t => (tget t.tier.streams 0).map (·.cursor) = some 0) = true ∧
    ended (run .windowAdvance (streamC 0x29 0) (streaming { stream0 (winSlot 2 true) with cut := true })) = some (0x002B, 0, 0) ∧
    ended (run .windowAdvance (streamC 0x29 1) (streaming (stream0 (winSlot 2 true)))) = some (0x020A, 0, 0) ∧
    ended (run .windowAdvance (streamC 0x29 0) (streaming { stream0 (winSlot 2 true) with tenant := 2 })) = some (0x020A, 0, 0) :=
  ⟨starts_of (by decide), by decide⟩
/-- A GEMM in another slot that names stream 0 holds the close back. -/
def naming : State :=
  let s := streaming (stream0 (winSlot 2 true))
  { s with host := { s.host with slots := [{ fetched 0 (cmd 0x30 0 0 (2 ^ 62) 0 0 0 0) with phase := .waiting .engine }, fetched 1 (streamC 0x2A 0)] } }
theorem test_windowClose : Starts 0x2A (streamC 0x2A 0) (on (streaming (stream0 (winSlot 2 true))) (streamC 0x2A 0)) 1 (on (streaming (stream0 (winSlot 2 true))) (streamC 0x2A 0)) ∧
    ended (run .windowClose (streamC 0x2A 0) (streaming (stream0 (winSlot 2 true)))) = some (0, 0, 0) ∧
    after (run .windowClose (streamC 0x2A 0) (streaming (stream0 (winSlot 2 true)))) (fun t => t.tier.streams = []) = true ∧
    after (exec (.windowClose (streamC 0x2A 0)) naming) (fun t => (tget t.tier.streams 0).map (·.closing) = some true && t.host.due = []) = true ∧
    ended (run .windowClose (streamC 0x2A 7) (winUp 4)) = some (0x020A, 0, 0) := ⟨starts_of (by decide), by decide⟩
/-- Layers 2 and 0 are wanted at cursor 2; the slot of layer 1 is released and both are taken. -/
theorem test_windowSlotFill : tget up.tier.streams 0 = none ∧
    after (exec (.windowSlotFill 0) (streaming (stream0 (winSlot 1 true)))) (fun t => (tget t.tier.streams 0).map (fun y => y.slots.map (fun w => (w.layer, w.filled))) =
      some [(2, false), (0, false)]) = true := by decide
theorem test_windowSlotFilled : slotsFrozen (streaming (stream0 (winSlot 2 false))) = false ∧ mayMove (streaming (stream0 (winSlot 2 false))) 1 0 [] = true ∧
    (let s := streaming (stream0 (winSlot 2 false))
     after (exec (.windowSlotFilled 0 2) { s with hostMem := [(0x1203, 9)] }) (fun t => (tget t.tier.streams 0).map (fun y => y.slots.map (fun w => (w.filled, blobByte w.blob 3))) =
      some [(true, 9)])) = true ∧
    after (exec (.windowSlotFilled 0 2) (streaming { stream0 (winSlot 2 false) with sourceLost := true })) (fun t => (tget t.tier.streams 0).map (fun y => y.slots.map (·.filled)) =
      some [false]) = true ∧
    after (exec (.windowSlotFilled 0 2) (streaming { stream0 (winSlot 2 false) with source := 0, adapter := 5 })) (fun t =>
      (tget t.tier.streams 0).map (fun y => y.slots.map (·.lost)) = some [true]) = true := by decide

/-! ### Adapters -/

/-- A header (Table 9.1): adapter 5, version 1, hidden 64, ffn 160, one layer, format 1, scale 1, parts of n bytes, CRC 0, in host memory at 0. -/
def adHeader (ver n crc : Nat) : Memory :=
  Memory.place [] ((leBytes 8 (5 * 2 ^ 48 + ver * 2 ^ 32) ++ leBytes 8 (64 * 2 ^ 32 + 160) ++ leBytes 8 (2 ^ 44 + 2 ^ 42) ++ leBytes 8 (n * 2 ^ 32 + crc)).zipIdx.map fun b => (b.2, b.1))
/-- ADAPTER_LOAD with MAKE_CURRENT bit 0, NOWAIT bit 2, HEADER_ONLY bit 3. -/
def adLoadC (flags : Nat) : Cmd := cmd 0xA0 0 0 flags 0 0 0 0
def adUp (ver : Nat) : State := { up with hostMem := adHeader ver 512 0 }
theorem test_adapterLoad : Starts 0xA0 (adLoadC 9) (on (adUp 1) (adLoadC 9)) 1 (on (adUp 1) (adLoadC 9)) ∧
    ended (run .adapterLoad (adLoadC 9) (adUp 1)) = some (0, 0, 0) ∧
    after (run .adapterLoad (adLoadC 9) (adUp 1)) (fun t => t.comp.adapters.map (fun v => (v.adapter, v.version, v.st)) = [(5, 1, .current)]) = true ∧
    ended (run .adapterLoad (adLoadC 9) (adUp 0)) = some (0x0026, 0, 0) := ⟨starts_of (by decide), by decide⟩
theorem test_adapterLoad_runs :
    after (run .adapterLoad (adLoadC 0) (adUp 1)) (fun t => t.comp.adapters.map (·.st) = [.loading] && t.host.due = [] && 20 ≤ t.tier.used.length) = true := by
  decide +kernel
/-- A version of adapter 5. -/
def ad (ver : Nat) (st : AdSt) : AdVer :=
  { headerOf 1 ((adHeader ver 512 0).readWords 0 8) 1 0 1 with st := st, version := ver }
def adapters (l : List AdVer) : State := let s := adUp 1; { s with comp := { s.comp with adapters := l } }
/-- Version 1 is there; with four versions held a fifth waits with its event, or is refused with NOWAIT. -/
theorem test_adapterLoad_waits :
    ended (run .adapterLoad (adLoadC 9) (adapters [ad 1 .held])) = some (0x0025, 0, 0) ∧
    ended (run .adapterLoad (adLoadC 12) (adapters [ad 2 .held, ad 3 .held, ad 4 .held, ad 6 .held])) = some (0x0020, 0, 0) ∧
    after (run .adapterLoad (adLoadC 8) (adapters [ad 2 .held, ad 3 .held, ad 4 .held, ad 6 .held]))
      (fun t => (t.comp.adapters.filter (·.version = 1)).map (·.st) = [.waitRoom] && t.host.due = [] && tgetD t.tele.events (21, 0x34) 0 = 1) = true := by
  decide
theorem test_adapterRoomAvailable : adVer up 1 5 1 = none ∧
    after (exec (.adapterRoomAvailable 1 5 1) (adapters [ad 1 .held])) (fun t => t.comp.adapters = [ad 1 .held]) = true ∧
    after (exec (.adapterRoomAvailable 1 5 1) (adapters [ad 1 .waitRoom])) (fun t => t.comp.adapters.map (·.st) = [.loading]) = true := by decide +kernel
/-- A load in progress whose slices have no bytes. -/
def loadingOne : State :=
  let v := { ad 1 .loading with partBytes := 0 }
  let s := adapters [v]
  { s with host := { s.host with slots := [{ fetched 1 (adLoadC 1) with phase := .waiting .fabric }] } }
/-- With no slice bytes the CRC-32C is 0, as the header says: the version is CURRENT. A header that says 1 gives 0x0027. -/
theorem test_adapterLoadComplete : ended (exec (.adapterLoadComplete 1 5 1) loadingOne) = some (0, 0, 0) ∧
    after (exec (.adapterLoadComplete 1 5 1) loadingOne) (fun t => t.comp.adapters.map (·.st) = [.current]) = true ∧
    (let s := { loadingOne with comp := { loadingOne.comp with adapters := [{ ad 1 .loading with partBytes := 0, crc := 1 }] } }
     ended (exec (.adapterLoadComplete 1 5 1) s) = some (0x0027, 0, 0)) := by decide
def adC (op a v : Nat) : Cmd := cmd op 0 (a * 2 ^ 16 + v) 0 0 0 0 0
theorem test_adapterRetire : Starts 0xA1 (adC 0xA1 5 0) (on (adapters [ad 1 .held]) (adC 0xA1 5 0)) 1 (on (adapters [ad 1 .held]) (adC 0xA1 5 0)) ∧
    ended (run .adapterRetire (adC 0xA1 5 0) (adapters [ad 1 .held])) = some (0, 1, 0) ∧
    after (run .adapterRetire (adC 0xA1 5 0) (adapters [ad 1 .held])) (fun t => t.comp.adapters.map (·.st) = [.retiring]) = true ∧
    ended (run .adapterRetire (adC 0xA1 5 2) (adapters [ad 1 .held])) = some (0, 0, 0) ∧
    ended (run .adapterRetire (adC 0xA1 5 0) (adapters [ad 1 .retiring])) = some (0, 0, 0) := ⟨starts_of (by decide), by decide⟩
theorem test_adapterVersionFree :
    after (exec (.adapterVersionFree 1 5 1) (adapters [ad 1 .retiring])) (fun t => t.comp.adapters = []) = true ∧
    after (exec (.adapterVersionFree 1 5 1) (adapters [{ ad 1 .retiring with refs := 1 }])) (fun t => t.comp.adapters.length = 1) = true := by decide
/-- State CURRENT is 3 in RESULT0[63:56], the CURRENT version stands in [55:40]. -/
theorem test_adapterQuery : Starts 0xA2 (adC 0xA2 5 0) (on (adapters [ad 1 .current]) (adC 0xA2 5 0)) 1 (on (adapters [ad 1 .current]) (adC 0xA2 5 0)) ∧
    ended (run .adapterQuery (adC 0xA2 5 0) (adapters [{ ad 1 .current with refs := 2 }])) = some (0, 3 * 2 ^ 56 + 1 * 2 ^ 40 + 2, 0) ∧
    ended (run .adapterQuery (adC 0xA2 5 9) (adapters [ad 1 .current])) = some (0, 2 ^ 40, 0) := ⟨starts_of (by decide), by decide⟩

/-! ### Ladle operators -/

/-- GEMM or GEMV: A at 0x1000, W at 0x2000, C at 0x3000; N = 1, K = k, M = m; INT8 × INT8 to FP32; SPREAD 2 on Ladle 5. -/
def gemmC (op k m fa : Nat) : Cmd :=
  cmd op 0 (host 0x1000) (host 0x2000) (host 0x3000) (2 ^ 43 + k * 2 ^ 25 + m * 2 ^ 8) (fa * 2 ^ 60 + 1 * 2 ^ 56 + 6 * 2 ^ 52) (2 * 2 ^ 62 + 5 * 2 ^ 54)
/-- A = (2, 3, 0 …), W = (5, 7, 0 …): the product is 31, in FP32 0x41F8_0000. -/
def gemmUp : State := { up with hostMem := Memory.place [] (bytesAt 0x1000 [2, 3] ++ bytesAt 0x2000 [5, 7]) }
theorem test_gemm : Starts 0x30 (gemmC 0x30 32 1 1) (on gemmUp (gemmC 0x30 32 1 1)) 1 (on gemmUp (gemmC 0x30 32 1 1)) ∧
    (gemmArgs (gemmC 0x30 32 1 1)).shapeOk 65536 = true ∧ (gemmArgs (gemmC 0x30 32 1 1)).formats.isSome = true ∧
    after (run .gemm (gemmC 0x30 32 1 1) gemmUp) (fun t => t.hostMem.readNat 0x3000 4 = 0x41F80000 && t.host.due = [] &&
      (tget t.comp.running 1).map (fun r => (r.left, r.status)) = some (1, 0) && (ladleOf t 5).queue.map (·.slot) = [1] && (ladleOf t 4).queue = []) = true :=
  ⟨starts_of (by decide), by decide⟩
/-- M 0, a HANDLE (0x0303), FP8 × INT8 without a mode (0x0302), and an operand that is not 64-byte aligned (0x0304). -/
theorem test_gemm_refused :
    ended (run .gemm (gemmC 0x30 32 0 1) gemmUp) = some (0x0303, 0, 0) ∧
    ended (run .gemm (gemmC 0x30 33 1 1) gemmUp) = some (0x0303, 0, 0) ∧
    ended (run .gemm { gemmC 0x30 32 1 1 with w1 := 0x1000000000000000 } gemmUp) = some (0x0303, 0, 0) ∧
    ended (run .gemm (gemmC 0x30 32 1 2) gemmUp) = some (0x0302, 0, 0) ∧
    ended (run .gemm { gemmC 0x30 32 1 1 with w2 := BitVec.ofNat 64 (host 0x1020) } gemmUp) = some (0x0304, 0, 0) := by decide
/-- GEMV takes M up to 16, GEMM up to 65,536. -/
theorem test_gemv : Starts 0x31 (gemmC 0x31 32 1 1) (on gemmUp (gemmC 0x31 32 1 1)) 1 (on gemmUp (gemmC 0x31 32 1 1)) ∧
    after (run .gemv (gemmC 0x31 32 1 1) gemmUp) (fun t => t.hostMem.readNat 0x3000 4 = 0x41F80000) = true ∧
    ended (run .gemv (gemmC 0x31 32 17 1) gemmUp) = some (0x0303, 0, 0) ∧ ended (run .gemm (gemmC 0x30 32 65537 1) gemmUp) = some (0x0303, 0, 0) :=
  ⟨starts_of (by decide), by decide⟩
/-- A window layer that is not yet filled: the command waits; with its source lost it is refused, and the stream is cut. -/
theorem test_gemm_waits :
    (let c := cmd 0x30 0 (host 0x1000) (2 ^ 62 + 2 * 2 ^ 38) (host 0x3000) (2 ^ 43 + 32 * 2 ^ 25 + 2 ^ 8) (2 ^ 60 + 2 ^ 56 + 6 * 2 ^ 52) (2 * 2 ^ 62)
     let x : Stream := { tenant := 1, source := 1, adapter := 0, version := 0, addr := 0, stride := 64, layerBytes := 64, layers := 3, cursor := 2, distance := 1,
                         reserved := [0], slots := [{ slot := 0, layer := 2, filled := false, lost := false, blob := Blob.zeros }], sourceLost := false, cut := false, closing := false }
     after (run .gemm c { gemmUp with tier := { gemmUp.tier with streams := [(0, x)] } }) (fun t => t.host.slots.map (·.phase) = [.waiting .engine] &&
       (tget t.comp.running 1).map (fun r => (r.waits, r.left)) = some (true, 1) && (ladleOf t 0).queue.map (·.credits) = [0] && t.hostMem = gemmUp.hostMem) = true ∧
     ended (run .gemm c { gemmUp with tier := { gemmUp.tier with streams := [(0, { x with sourceLost := true })] } }) = some (0x002B, 0, 0) ∧
     after (run .gemm c { gemmUp with tier := { gemmUp.tier with streams := [(0, { x with sourceLost := true })] } }) (fun t =>
       (tget t.tier.streams 0).map (·.cut) = some true) = true) := by decide
/-- GATHER_ROWS: two rows of 64 bytes of a table of one row; index 0 gives the row, index 1 zeros and counts. -/
def gatherC : Cmd := cmd 0x32 0 (host 0x1000) (host 0x2000) (host 0x3000) (2 * 2 ^ 32 + 64) (1 * 2 ^ 32) 0
def gatherUp : State := { up with hostMem := Memory.place [] (bytesAt 0x1000 [9] ++ bytesAt 0x2004 [1] ++ bytesAt 0x3040 [77]) }
theorem test_gatherRows : Starts 0x32 gatherC (on gatherUp gatherC) 1 (on gatherUp gatherC) ∧
    firstBad [refCheck gatherUp 1 (refOf gatherC.w2) 64 true, refCheck gatherUp 1 (refOf gatherC.w3) 8 true, refCheck gatherUp 1 (refOf gatherC.w4) 128 false] = .ok ∧
    after (run .gatherRows gatherC gatherUp) (fun t => t.hostMem.read 0x3000 = 9 && t.hostMem.read 0x3040 = 0 &&
      (tget t.comp.running 1).map (fun r => (r.status, r.r0)) = some (0x0304, 1)) = true := ⟨starts_of (by decide), by decide⟩
/-- VECTOR: X at 0x1000, Y at 0x2000, Z at 0x3000, one row of 32 columns, INT8 in, FP32 out. -/
def vectorC (func : Nat) : Cmd :=
  cmd 0x33 0 (host 0x1000) (host 0x2000) (host 0x3000) (2 ^ 32 + 32) (func * 2 ^ 56 + 1 * 2 ^ 52 + 1 * 2 ^ 48 + 6 * 2 ^ 44) 0
/-- Function 0 of Table 7.9 adds: 2 + 5 = 7, in FP32 0x40E0_0000. -/
theorem test_vector : Starts 0x33 (vectorC 0) (on gemmUp (vectorC 0)) 1 (on gemmUp (vectorC 0)) ∧
    after (run .vector (vectorC 0) gemmUp) (fun t => t.hostMem.readNat 0x3000 4 = 0x40E00000 && (tget t.comp.running 1).map (fun r => (r.left, r.status)) = some (1, 0)) = true ∧
    ended (run .vector (vectorC 7) gemmUp) = some (0x0301, 0, 0) := ⟨starts_of (by decide), by decide⟩
def allocC (n : Nat) : Cmd := cmd 0x34 0 n 0 0 0 0 0
theorem test_tensorAlloc : Starts 0x34 (allocC 64) (on up (allocC 64)) 1 (on up (allocC 64)) ∧
    ended (run .tensorAlloc (allocC 64) up) = some (0, 1, 64) ∧
    after (run .tensorAlloc (allocC 64) up) (fun t => (tget t.tier.tensors (1, 1)).map (fun y => (y.bytes, y.dirs.length, y.blob.fill)) = some (64, 1, some 0) && t.free = 1) = true :=
  ⟨starts_of (by decide), by decide⟩
/-- 0, 63 and 83,886,144 bytes (R222). -/
theorem test_tensorAlloc_refused :
    ended (run .tensorAlloc (allocC 0) up) = some (0x0307, 0, 0) ∧ ended (run .tensorAlloc (allocC 65) up) = some (0x0307, 0, 0) ∧
    ended (run .tensorAlloc (allocC 83886144) up) = some (0x0307, 0, 0) := by decide
def freeC : Cmd := cmd 0x35 0 4 0 0 0 0 0
def tensorUp : State := let s := up; { s with tier := { s.tier with tensors := [((1, 4), { bytes := 64, blob := Blob.zeros, dirs := [], freeing := false })] } }
theorem test_tensorFree : Starts 0x35 freeC (on tensorUp freeC) 1 (on tensorUp freeC) ∧ tensorNamed (on tensorUp freeC) 1 4 = false ∧
    ended (run .tensorFree freeC tensorUp) = some (0, 0, 0) ∧ after (run .tensorFree freeC tensorUp) (fun t => t.tier.tensors = []) = true ∧
    ended (run .tensorFree freeC up) = some (0x0306, 0, 0) := ⟨starts_of (by decide), by decide⟩

/-! ### Ladles -/

def entry1 (lane : Nat) : QEntry := { slot := 1, lane := lane, comps := [], operands := 2, credits := 2, index := 0 }
/-- `up` as role S with Ladle 8 and its base die ON and a command in slot 1 with n entries left. -/
def ladled (x : Ladle) (n : Nat) : State :=
  { withFn (.ladle 8) isOn (withFn (.island 1) isOn up) with
    image := { image with role := .s }
    host := { up.host with slots := [{ fetched 1 (gemmC 0x30 32 1 1) with phase := .waiting .engine }] }
    comp := { up.comp with ladles := [(8, x)], running := [(1, ⟨n, 0x0309, 5, 6, false, 0, 0, 0, [], false, 5, []⟩)] } }
def running1 (lane : Nat) (since : Nat) : Ladle := { Ladle.fresh with st := .running, running := some (entry1 lane), since := since }
theorem test_ladleEntryStart : ladleServes (ladled Ladle.fresh 1) 8 = true ∧
    grantLane (ladled { Ladle.fresh with queue := [entry1 8] } 1) 8 { Ladle.fresh with queue := [entry1 8] } = some 8 ∧
    after (exec (.ladleEntryStart 8) (ladled { Ladle.fresh with queue := [entry1 8] } 1)) (fun t => (ladleOf t 8).st = .running && (ladleOf t 8).queue = []) = true ∧
    after (exec (.ladleEntryStart 8) (ladled { Ladle.fresh with queue := [entry1 8], budgetArea := some (entry1 8) } 1)) (fun t => (ladleOf t 8).st = .restoring) = true ∧
    after (exec (.ladleEntryStart 8) (ladled (running1 8 0) 1)) (fun t => (ladleOf t 8).st = .running) = true := by decide
theorem test_ladleEntryComplete :
    ended (exec (.ladleEntryComplete 8) (ladled (running1 8 0) 1)) = some (0x0309, 5, 6) ∧
    after (exec (.ladleEntryComplete 8) (ladled (running1 8 0) 1)) (fun t => (ladleOf t 8).st = .idle && (ladleOf t 8).ptr = 9 && t.comp.running = []) = true ∧
    after (exec (.ladleEntryComplete 8) (ladled (running1 8 0) 2)) (fun t => (tget t.comp.running 1).map (·.left) = some 1 && t.host.due = []) = true := by decide
/-- Urgency: 15,000 cycles of 1.5 GHz are 10,000 ns; a class-7 head waits (lane 15 of tenant 1). One nanosecond less does not pre-empt. -/
theorem test_ladlePreempt :
    (let x := { running1 8 0 with queue := [{ entry1 15 with slot := 2 }] }
     after (exec (.ladlePreempt 8) { ladled x 1 with mono := 10000 }) (fun t => (ladleOf t 8).st = .saving && (ladleOf t 8).urgencyArea = some (entry1 8) &&
       (ladleOf t 8).queue.map (·.lane) = [8, 15]) &&
     after (exec (.ladlePreempt 8) { ladled x 1 with mono := 9999 }) (fun t => (ladleOf t 8).st = .running)) = true ∧
    -- an empty budget after 75,000 cycles (50,000 ns)
    (let s := ladled (running1 8 0) 1
     let g := { s.gov with balance := [((1, 0, 0, 8), 0)] }
     after (exec (.ladlePreempt 8) { s with mono := 50000, gov := g }) (fun t => (ladleOf t 8).st = .saving && (ladleOf t 8).budgetArea = some (entry1 8)) &&
     after (exec (.ladlePreempt 8) { s with mono := 49999, gov := g }) (fun t => (ladleOf t 8).st = .running)) = true := by decide
theorem test_ladleSaveComplete :
    after (exec (.ladleSaveComplete 8) (ladled { Ladle.fresh with st := .saving } 1)) (fun t => (ladleOf t 8).st = .idle) = true ∧
    after (exec (.ladleSaveComplete 8) (ladled (running1 8 0) 1)) (fun t => (ladleOf t 8).st = .running) = true := by decide
theorem test_ladleRestoreComplete :
    after (exec (.ladleRestoreComplete 8) (ladled { running1 8 0 with st := .restoring, budgetArea := some (entry1 8) } 1))
      (fun t => (ladleOf t 8).st = .running && (ladleOf t 8).budgetArea = none && (ladleOf t 8).since = 7000) = true ∧
    -- a restore brings back the scratchpad lines that the save kept
    after (exec (.ladleRestoreComplete 8) (ladled { running1 8 0 with st := .restoring, budgetArea := some (entry1 8), budgetSave := { lines := [(3, 9)], accs := some 4 } } 1))
      (fun t => (ladleOf t 8).work.lines.length = 1 && (ladleOf t 8).work.accs = some 4) = true := by decide
/-- 7 slot-cycles of slot 0 over T = 3 positions: 3, 2, 2. A SAMPLE that uses one section wastes the other two (20 R568). -/
theorem test_drafts :
    (State.reset.tele.shareDraft 1 h0 3 0 7).draftHeld.map (·.2) = [3, 2, 2] ∧
    (let t := { State.reset.tele with draftKept := [((h0, 0), 3), ((h0, 4), 2), ((h0, 8), 2), ((7, 4), 9)] }
     (t.decideDrafts h0 1).draftWasted = [(0, 4)] ∧ (t.decideDrafts h0 1).draftKept = [((7, 4), 9)]) := by decide

/-! ### Attention and experts -/

/-- ATTEND_* with input at 0x1000, output at 0x4000, descriptor tensor a, FP32 in and out, layer l, DONE_COUNTER k, START and COUNT, AUX. -/
def attendC (op a l k start count aux : Nat) : Cmd :=
  cmd op h0 (host 0x1000) (host 0x4000) (a * 2 ^ 48 + l * 2 ^ 40 + 6 * 2 ^ 36 + 6 * 2 ^ 32) (k * 2 ^ 32) (start * 2 ^ 32 + count) aux
/-- The member header (R264): handle and T = 1. -/
def headed : Memory := Memory.place [] (bytesAt 0x1000 ((leBytes 8 h0).map (·.toNat) ++ [1]))
/-- A module in a role that owns `h0` in a phase with two pages, with the descriptor of model 2 as tensor 4. -/
def attending (role : Role) (o : Owned) : State :=
  let s := serve o
  { s with image := { image with role := role }, hostMem := headed, tier := { s.tier with tensors := [((1, 4), descTensor 2 0 0)] } }
def decoding : Owned := { own0 4 with pages := [page0 0 10 256, page0 1 11 43] }
theorem test_attendDecode :
    (let c := attendC 0x38 4 0 5 0 0 0
     StartsHere 0x38 c (on (attending .c decoding) c) 1 (on (attending .c decoding) c)) := startsHere_of (by decide) (by decide)
/-- Its checks pass, its header is read, no refusal, its pages stand, its entry is written. -/
theorem test_attendDecode_runs :
    (let c := attendC 0x38 4 0 5 0 0 0
     let u := on (attending .c decoding) c
     let d := aDescOf (descTensor 2 0 0).blob
     (aTensor u 1 (aArgs c) false).isSome = true ∧ headers u 1 (refOf c.w2) (sectionBytes d .fp32 false) false 1 0 = ([{ handle := h0, t := 1, off := 0, bad := false }], true) ∧
       d.shapeOk = true ∧ d.formatOk = true ∧ d.bytes = 64 ∧ decodeRefusal u 1 h0 299 d { handle := h0, t := 1, off := 0, bad := false } = none ∧
       attentionAhead u 1 0 = false ∧
       (ensurePages u h0 (d.defines 1) 0 (pagesOf 299 300)).toOption.map (fun p => ((ownedOf p h0).map fun o => (o.record.logged, o.record.firstMissing))) =
         some (some (300, 0xFFFFFFFF)) ∧
       (ownedOf (writeEntries u h0 d (descTensor 2 0 0).blob 0 (refView u 1 (refOf c.w2) (64 + sectionBytes d .fp32 false)) .fp32 1 64 299 0).1 h0).isSome = true) := by
  decide +kernel
/-- Role P, a DONE_COUNTER of 4,096, no descriptor; a member in PREFILL is refused with REFUSED_COUNT 1 and zeros. -/
theorem test_attendDecode_refused :
    ended (run .attendDecode (attendC 0x38 4 0 5 0 0 0) (attending .p decoding)) = some (0x0B20, 0, 0) ∧
    ended (run .attendDecode (attendC 0x38 4 0 4096 0 0 0) (attending .c decoding)) = some (0x0710, 0, 0) ∧
    ended (run .attendDecode (attendC 0x38 9 0 5 0 0 0) (attending .c decoding)) = some (0x0306, 0, 0) ∧
    ended (run .attendDecode (attendC 0x38 4 0 5 0 0 0) (attending .c { decoding with record := rec0 1 })) = some (0x0103, 0, 1) := by decide +kernel
/-- An earlier attention command of the same request and layer holds it back. -/
theorem test_attendDecode_waits :
    (let c := attendC 0x38 4 0 5 0 0 0
     let s := attending .c decoding
     let s1 := { s with host := { s.host with slots := [{ fetched 0 (attendC 0x38 4 0 6 0 0 0) with phase := .waiting .engine, members := [h0], arrived := 1 }, fetched 1 c] } }
     after (exec (.attendDecode c) s1) (fun t => (t.host.slots.map (·.phase)) = [.waiting .engine, .waiting .earlier])) = true := by decide +kernel
/-- The Ladles have room, and the named tensor and the pages below the KV length can be read. -/
theorem test_attendDecode_ready :
    (let c := attendC 0x38 4 0 5 0 0 0
     let u := on (attending .c decoding) c
     HasRoom u c ∧ Readable u (tensorDirs u 1 ((aArgs c).names false)) ∧ Readable u (layerDirs decoding 0 2) ∧ (layerDirs decoding 0 2) = [10, 11]) :=
  ⟨⟨rfl, fun l => by
    have h : ladleOf (on (attending .c decoding) (attendC 0x38 4 0 5 0 0 0)) l = Ladle.fresh := rfl
    rw [h]; decide⟩, (by decide : ∀ i ∈ _, _ = _), (by decide : ∀ i ∈ _, _ = _), by decide⟩
/-- HEAD_DIM 3 and KV_GROUP 3 are reserved codes: 0x0302 (Table 8.8). -/
theorem test_attend_codes :
    (let s := attending .c decoding
     ended (run .attendDecode (attendC 0x38 4 0 5 0 0 0) { s with tier := { s.tier with tensors := [((1, 4), descTensor 2 3 0)] } })) = some (0x0302, 0, 0) := by
  decide +kernel
theorem test_attendPrefill :
    (let c := attendC 0x39 4 0 5 0 2 0
     StartsHere 0x39 c (on (attending .s prefilling) c) 1 (on (attending .s prefilling) c)) := startsHere_of (by decide) (by decide)
theorem test_attendPrefill_runs :
    (let c := attendC 0x39 4 0 5 0 300 0
     let u := on (attending .s prefilling) c
     prefillRefusal u prefilling (aEnv u c (descTensor 2 0 0) 0) = none ∧
       (ensurePages u h0 ((aDescOf (descTensor 2 0 0).blob).defines 1) 0 (pagesOf 0 300)).toBool = true) ∧
    ended (run .attendPrefill (attendC 0x39 4 0 5 0 2 0) (attending .c prefilling)) = some (0x0B20, 0, 0) ∧
    ended (run .attendPrefill (attendC 0x39 4 0 5 0 2 0) (attending .s { prefilling with record := rec0 4 })) = some (0x0103, 0, 0) := by decide +kernel
/-- Two parts of one row of D = 64. -/
def combineC : Cmd := cmd 0x3A 0 (host 0x1000) (host 0x4000) (4 * 2 ^ 48 + 6 * 2 ^ 36 + 6 * 2 ^ 32) 0 (2 ^ 32 + 2 * 2 ^ 24) 0
theorem test_softmaxCombine : Starts 0x3A combineC (on (attending .c decoding) combineC) 1 (on (attending .c decoding) combineC) :=
  starts_of (by decide)
theorem test_softmaxCombine_runs :
    after (run .softmaxCombine combineC (attending .c decoding)) (fun t => t.host.due = [] && (tget t.comp.running 1).map (fun r => (r.r0, r.r1, r.left)) = some (1, 0, 1)) = true := by
  decide +kernel
def bwdC : Cmd := attendC 0x3B 4 0 5 0 1 (host 0x8000)
theorem test_attendBwd : StartsHere 0x3B bwdC (on (attending .c decoding) bwdC) 1 (on (attending .c decoding) bwdC) := startsHere_of (by decide) (by decide)
theorem test_attendBwd_runs :
    bwdRefusal (on (attending .c decoding) bwdC) decoding (aEnv (on (attending .c decoding) bwdC) bwdC (descTensor 2 0 0) 0) = none ∧
    after (run .attendBwd bwdC (attending .c decoding)) (fun t => t.host.due = [] && (tget t.comp.running 1).map (fun r => (r.r0, r.r1)) = some (1, 0)) = true ∧
    ended (run .attendBwd bwdC (attending .c { decoding with record := rec0 1 })) = some (0x0103, 0, 0) := by decide +kernel

/-- EXPERT_APPLY of one row in FP32 under adapter 5, version 1, whose header gives H = 64. -/
def expertC : Cmd := cmd 0xA3 h0 (host 0x1000) (host 0x4000) (6 * 2 ^ 52 + 6 * 2 ^ 48 + 0xFF * 2 ^ 40) (5 * 2 ^ 32) 0 0
def expert (st : AdSt) : State :=
  let s := attending .c { decoding with record := { rec0 4 with adapter := 5, adapterVersion := 1 } }
  let v : AdVer := { tenant := 1, adapter := 5, version := 1, model := 2, hidden := 64, ffn := 160, firstLayer := 0, layers := 1, fmt := 1, scale := 1,
                     group := 0, partBytes := 512, crc := 0, headerOnly := false, resident := false, makeCurrent := true, st := st, prior := .current,
                     refs := 1, dirs := [], fresh := [], content := Blob.zeros, addr := 0, slot := none, reload := false, short := false }
  { s with comp := { s.comp with adapters := [v] } }
theorem test_expertApply : StartsHere 0xA3 expertC (on (expert .current) expertC) 1 (on (expert .current) expertC) := startsHere_of (by decide) (by decide)
theorem test_expertApply_runs :
    xBlocks (on (expert .current) expertC) 1 (refOf expertC.w2) .fp32 [h0] false [h0] 0 = ([{ handle := h0, rows := 1, width := 64, off := 0, bad := false }], true) ∧
    expertRefusal (on (expert .current) expertC) 1 h0 (xArgs expertC) { handle := h0, rows := 1, width := 64, off := 0, bad := false } = none ∧
    after (run .expertApply expertC (expert .current)) (fun t => t.host.due = [] && (tget t.comp.running 1).map (fun r => (r.left, r.r0, r.counter)) =
      some (160, 2 ^ 32 + 1, 5)) = true := by decide +kernel
/-- A version that is still loading is absent: the member is refused. -/
theorem test_expertApply_refused : ended (run .expertApply expertC (expert .loading)) = some (0x0021, 0, 1) := by decide +kernel

/-! ### The Sieve -/

/-- Sampler state (Table 10.1): TEMPERATURE 0, TOP_P and REPETITION 1.0, draft state d (word 4). -/
def greedy (w4 : Nat) : List Word := [0x3F800000, 0x3F800000, 0, 0, BitVec.ofNat 64 w4, 0, 0, 0]
/-- A member block (Table 10.8) at 0x1000: EXPECT e, FP32 logits 0, 3, 1, 0 over VOCAB v. -/
def logitMem (e v : Nat) : Memory :=
  Memory.place [] (bytesAt 0x1000 ((leBytes 8 h0 ++ leBytes 8 (e * 2 ^ 32 + 6 * 2 ^ 26 + v)).map (·.toNat)) ++ bytesAt 0x1044 [0, 0, 0x40, 0x40, 0, 0, 0x80, 0x3F])
/-- SAMPLE with input at 0x1000, records at 0x4000, DONE_COUNTER k. -/
def sampleC (k : Nat) : Cmd := cmd 0x40 h0 (host 0x1000) (host 0x4000) 0 (k * 2 ^ 32) 0 0
def sampling (o : Owned) (m : Memory) : State := { serve o with hostMem := m }
def greedyOwn : Owned := { own0 4 with record := { rec0 4 with sampler := greedy 0, tokenLimit := 10 } }
theorem test_sample : StartsHere 0x40 (sampleC 5) (on (sampling greedyOwn (logitMem 300 4)) (sampleC 5)) 1 (on (sampling greedyOwn (logitMem 300 4)) (sampleC 5)) :=
  startsHere_of (by decide) (by decide)
/-- Its block is read, nothing refuses it, its gate is open. -/
theorem test_sample_hypotheses :
    (let u := on (sampling greedyOwn (logitMem 300 4)) (sampleC 5)
     ((readMembers u 1 (refOf (sampleC 5).w2) false 1 0).bind (·.head?)).isSome = true ∧ gateOpen u 1 4 0 0 = true ∧ sampleAhead u 1 = false ∧
       ((readMembers u 1 (refOf (sampleC 5).w2) false 1 0).map fun l => l.map fun m => sampleRefusal u 1 1 (refOf (sampleC 5).w2) h0 m) = some [none]) := by decide +kernel
/-- With TEMPERATURE 0 the greatest logit wins: token 1 is appended by a LOG_APPEND step (kind 2), and the completion waits for its commit. -/
theorem test_sample_runs :
    after (run .sample (sampleC 5) (sampling greedyOwn (logitMem 300 4))) (fun t => t.host.due = [] && (ownedOf t h0).map (fun o => o.log.drop 300) = some [1] &&
      t.req.issued.map (fun i => (i.step.kind, i.step.step)) = [(2, 8)] && (ownedOf t h0).map (·.record.logged) = some 301) = true := by decide +kernel
/-- EXPECT behind and ahead of the log, VOCAB 0, DONE_COUNTER 4,096. -/
theorem test_sample_refused :
    ended (run .sample (sampleC 5) (sampling greedyOwn (logitMem 299 4))) = some (0x0404, 0, 1) ∧
    ended (run .sample (sampleC 5) (sampling greedyOwn (logitMem 301 4))) = some (0x0405, 0, 1) ∧
    ended (run .sample (sampleC 5) (sampling greedyOwn (logitMem 300 0))) = some (0x0403, 0, 1) ∧
    ended (run .sample (sampleC 4096) (sampling greedyOwn (logitMem 300 4))) = some (0x0710, 0, 0) := by decide +kernel
/-- DRAFT_MAX 9 with DRAFT_LEN 2, FULL_REJECTS 3 and SUSPENDED set. -/
def drafting : Owned := { own0 4 with record := { rec0 4 with sampler := greedy (9 * 2 ^ 43 + 2 * 2 ^ 38 + 3 * 2 ^ 34 + 2 ^ 33) } }
def resetC : Cmd := cmd 0x41 h0 0 0 0 0 0 0
theorem test_draftReset : OneHere 0x41 resetC (on (serve drafting) resetC) 1 (on (serve drafting) resetC) ∧
    ended (run .draftReset resetC (serve drafting)) = some (0, 9, 0) ∧
    after (run .draftReset resetC (serve drafting)) (fun t => (ownedOf t h0).map (fun o => o.record.sampler) = some (greedy (9 * 2 ^ 43 + 9 * 2 ^ 38))) = true :=
  ⟨oneHere_of (by decide) (by decide) rfl, by decide⟩
/-- A list constraint (kind 1) of one token 0, ID 6, VOCAB 4: the CRC-32C of four zero bytes is 0x48674BC7. -/
def listImage (id crc : Nat) : Memory := Memory.place [] (bytesAt 0 ((leBytes 8 (id * 2 ^ 48 + 2 ^ 46 + 4) ++ leBytes 8 1 ++ leBytes 8 crc).map (·.toNat)))
def constraintC (op w2 : Nat) : Cmd := cmd op 0 w2 0 0 0 0 0
def conUp (m : Memory) : State := { up with hostMem := m }
theorem test_constraintLoad : Starts 0x42 (constraintC 0x42 0) (on (conUp (listImage 6 0x48674BC7)) (constraintC 0x42 0)) 1 (on (conUp (listImage 6 0x48674BC7)) (constraintC 0x42 0)) ∧
    ended (run .constraintLoad (constraintC 0x42 0) (conUp (listImage 6 0x48674BC7))) = some (0, 0, 0) ∧
    after (run .constraintLoad (constraintC 0x42 0) (conUp (listImage 6 0x48674BC7))) (fun t => t.comp.constraints.map (fun k => (k.id, k.slot, k.tokens)) = [(6, 0, [0])]) = true :=
  ⟨starts_of (by decide), by decide⟩
def con (id : Nat) : Constraint :=
  { tenant := 1, id := id, slot := id, kind := 1, vocab := 4, tokens := [0], states := [], masks := [], entries := [], dirs := [], retiring := none }
def cons (l : List Constraint) (m : Memory) : State := { conUp m with comp := { up.comp with constraints := l } }
/-- A misaligned address, ID 0, an ID in use, four constraints of four, a wrong CRC. -/
theorem test_constraintLoad_refused :
    ended (run .constraintLoad (constraintC 0x42 32) (conUp (listImage 6 0))) = some (0x0304, 0, 0) ∧
    ended (run .constraintLoad (constraintC 0x42 0) (conUp (listImage 0 0))) = some (0x0408, 0, 0) ∧
    ended (run .constraintLoad (constraintC 0x42 0) (cons [con 6] (listImage 6 0))) = some (0x0407, 0, 0) ∧
    ended (run .constraintLoad (constraintC 0x42 0) (cons [con 1, con 2, con 3, con 4] (listImage 6 0))) = some (0x040A, 0, 0) ∧
    ended (run .constraintLoad (constraintC 0x42 0) (conUp (listImage 6 0))) = some (0x0409, 0, 0) := by decide
/-- Retirement; of an ID that is not there; and while a SAMPLE that read it is in hand. -/
theorem test_constraintRetire : Starts 0x43 (constraintC 0x43 6) (on (cons [con 6] []) (constraintC 0x43 6)) 1 (on (cons [con 6] []) (constraintC 0x43 6)) ∧
    constraintRead (on (cons [con 6] []) (constraintC 0x43 6)) 1 6 = false ∧
    ended (run .constraintRetire (constraintC 0x43 6) (cons [con 6] [])) = some (0, 0, 0) ∧
    after (run .constraintRetire (constraintC 0x43 6) (cons [con 6] [])) (fun t => t.comp.constraints = []) = true ∧
    ended (run .constraintRetire (constraintC 0x43 7) (cons [con 6] [])) = some (0x0406, 0, 0) := ⟨starts_of (by decide), by decide⟩

/-! ### The associative search unit -/

/-- `up` with tenant 1's banks. -/
def camUp (l : Tab Nat Bank) : State := { up with comp := { up.comp with banks := l } }
def camE (priority key : Nat) : CamEntry := { key := key, mask := 0, priority := priority, masked := false, poison := false }
/-- Bank 1 of width 1 for general use: two entries hold key 9, one key 8. -/
def bank1 : Bank := { width := 1, use := 0, entries := [(2, camE 7 9), (3, camE 7 9), (5, camE 1 8)] }
def poisonBank : Bank := { bank1 with entries := [(2, camE 7 9), (6, { camE 0 9 with poison := true })] }
def camC (op w2 w4 : Nat) : Cmd := cmd op 0 w2 0 w4 0 0 0
def bank (o : Host.Outcome State Fault Refusal) : Option Bank := match o with | .next t => some (bankOf t 1) | _ => none
/-- USE 1 in [11:10], WIDTH code in [9:8], BANK in [4:0]. A new set-up takes effect; the same one changes nothing. -/
theorem test_camBankSetup : Starts 0x50 (camC 0x50 (2 ^ 8 + 1) 0) (on (camUp []) (camC 0x50 (2 ^ 8 + 1) 0)) 1 (on (camUp []) (camC 0x50 (2 ^ 8 + 1) 0)) ∧
    ended (run .camBankSetup (camC 0x50 (2 ^ 8 + 1) 0) (camUp [])) = some (0, 0, 0) ∧
    bank (run .camBankSetup (camC 0x50 (2 ^ 8 + 1) 0) (camUp [])) = some { width := 2, use := 0, entries := [] } ∧
    bank (run .camBankSetup (camC 0x50 1 0) (camUp [(1, { bank1 with entries := [] })])) = some { bank1 with entries := [] } :=
  ⟨starts_of (by decide), by decide⟩
/-- USE 3, a use with a width, a bank of another tenant, an absent bank, a bank with entries. -/
theorem test_camBankSetup_refused :
    ended (run .camBankSetup (camC 0x50 (3 * 2 ^ 10 + 1) 0) (camUp [])) = some (0x050A, 0, 0) ∧
    ended (run .camBankSetup (camC 0x50 (2 ^ 10 + 2 ^ 8 + 1) 0) (camUp [])) = some (0x050A, 0, 0) ∧
    ended (run .camBankSetup (camC 0x50 2 0) (camUp [])) = some (0x0501, 0, 0) ∧
    ended (run .camBankSetup (camC 0x50 1 0) (withFn (.bank 1) { st := .absent, latch := false } (camUp []))) = some (0x0508, 0, 0) ∧
    ended (run .camBankSetup (camC 0x50 (2 ^ 8 + 1) 0) (camUp [(1, bank1)])) = some (0x0504, 0, 0) := by decide
/-- PRIORITY [63:48], ENTRY [47:36], MASKED [5]: the last entry of a bank of width 1. -/
def writeC (i : Nat) (masked : Bool) : Cmd := cmd 0x51 0 (4 * 2 ^ 48 + i * 2 ^ 36 + (if masked then 32 else 0) + 1) 0 0x55 2 0xF 0
theorem test_camWrite : Starts 0x51 (writeC 4095 true) (on (camUp [(1, bank1)]) (writeC 4095 true)) 1 (on (camUp [(1, bank1)]) (writeC 4095 true)) ∧
    ended (run .camWrite (writeC 4095 true) (camUp [(1, bank1)])) = some (0, 0, 0) ∧
    (bank (run .camWrite (writeC 4095 true) (camUp [(1, bank1)]))).map (fun b => (tget b.entries 4095, tget b.entries 3)) =
      some (some { key := 2 ^ 65 + 0x55, mask := 0xF, priority := 4, masked := true, poison := false }, some (camE 7 9)) := ⟨starts_of (by decide), by decide⟩
/-- An entry past a bank of width 2, a bank of another use, and a masked key of 64 bytes read from host memory. -/
theorem test_camWrite_wide :
    ended (run .camWrite (writeC 2048 false) (camUp [(1, { bank1 with width := 2, entries := [] })])) = some (0x0505, 0, 0) ∧
    ended (run .camWrite (writeC 0 false) (camUp [(1, { bank1 with use := 1, entries := [] })])) = some (0x0502, 0, 0) ∧
    (let c := cmd 0x51 0 33 (host 0x40) 0 0 0 0
     let s := { camUp [(1, { bank1 with width := 2, entries := [] })] with hostMem := bytesAt 0x40 [9] ++ bytesAt 0x60 [5] }
     bank (run .camWrite c s) = some { width := 2, use := 0, entries := [(0, { key := 9, mask := 5, priority := 0, masked := true, poison := false })] }) := by
  decide
/-- COUNT [63:48], ENTRY [47:36]: two of the three entries go. -/
def invC (first count : Nat) : Cmd := camC 0x52 (count * 2 ^ 48 + first * 2 ^ 36 + 1) 0
theorem test_camInvalidate : Starts 0x52 (invC 3 3) (on (camUp [(1, bank1)]) (invC 3 3)) 1 (on (camUp [(1, bank1)]) (invC 3 3)) ∧
    ended (run .camInvalidate (invC 3 3) (camUp [(1, bank1)])) = some (0, 2, 0) ∧
    (bank (run .camInvalidate (invC 3 3) (camUp [(1, bank1)]))).map (·.entries) = some [(2, camE 7 9)] ∧
    ended (run .camInvalidate (invC 0 4096) (camUp [(1, bank1)])) = some (0, 3, 0) ∧
    ended (run .camInvalidate (invC 0 0) (camUp [(1, bank1)])) = some (0x0505, 0, 0) ∧
    ended (run .camInvalidate (invC 1 4096) (camUp [(1, bank1)])) = some (0x0505, 0, 0) := ⟨starts_of (by decide), by decide⟩
/-- BANK_MASK [63:32], WIDTH [9:8], WANT_CURSOR [0]. -/
def searchC (want : Nat) (key : Nat) : Cmd := camC 0x53 (2 * 2 ^ 32 + want) key
/-- One match; two, with and without a cursor; none. MATCH 63, MORE 62, POISON 61, BANK [52:48], PRIORITY [47:32], ENTRY [11:0]. -/
theorem test_camSearch : Starts 0x53 (searchC 1 9) (on (camUp [(1, bank1)]) (searchC 1 9)) 1 (on (camUp [(1, bank1)]) (searchC 1 9)) ∧
    ended (run .camSearch (searchC 1 8) (camUp [(1, bank1)])) = some (0, 2 ^ 63 + 2 ^ 48 + 2 ^ 32 + 5, 0) ∧
    ended (run .camSearch (searchC 1 9) (camUp [(1, bank1)])) = some (0, 2 ^ 63 + 2 ^ 62 + 2 ^ 48 + 7 * 2 ^ 32 + 2, 1) ∧
    ended (run .camSearch (searchC 0 9) (camUp [(1, bank1)])) = some (0, 2 ^ 63 + 2 ^ 62 + 2 ^ 48 + 7 * 2 ^ 32 + 2, 0) ∧
    ended (run .camSearch (searchC 1 3) (camUp [(1, bank1)])) = some (0, 0, 0) := ⟨starts_of (by decide), by decide⟩
/-- A poisoned entry, no bank, another width, and a tenant at its 64 cursors. -/
def cursor : Cursor := { tenant := 1, key := 9, banks := [1], width := 1, pos := (7, 1, 2) }
theorem test_camSearch_refused :
    ended (run .camSearch (searchC 1 9) (camUp [(1, poisonBank)])) = some (0x0509, 2 ^ 63 + 2 ^ 61 + 2 ^ 48 + 7 * 2 ^ 32 + 2, 0) ∧
    ended (run .camSearch (camC 0x53 0 9) (camUp [(1, bank1)])) = some (0x050A, 0, 0) ∧
    ended (run .camSearch (camC 0x53 (2 * 2 ^ 32 + 256) 9) (camUp [(1, bank1)])) = some (0x0503, 0, 0) ∧
    ended (run .camSearch (searchC 1 9) { camUp [(1, bank1)] with comp := { (camUp [(1, bank1)]).comp with cursors := (List.range 64).map fun k => (k + 1, cursor) } }) =
      some (0x0507, 2 ^ 63 + 2 ^ 62 + 2 ^ 48 + 7 * 2 ^ 32 + 2, 0) := by decide
def curUp : State := { camUp [(1, bank1)] with comp := { (camUp [(1, bank1)]).comp with cursors := [(4, cursor)] } }
def curBank (b : Bank) : State := { curUp with comp := { curUp.comp with banks := [(1, b)] } }
/-- After the match at entry 2 comes entry 3, the last: the cursor is freed. With a third match it stays. -/
theorem test_camNext : Starts 0x54 (camC 0x54 4 0) (on curUp (camC 0x54 4 0)) 1 (on curUp (camC 0x54 4 0)) ∧
    ended (run .camNext (camC 0x54 4 0) curUp) = some (0, 2 ^ 63 + 2 ^ 48 + 7 * 2 ^ 32 + 3, 0) ∧
    after (run .camNext (camC 0x54 4 0) curUp) (fun t => t.comp.cursors = []) = true ∧
    after (run .camNext (camC 0x54 4 0) (curBank { bank1 with entries := bank1.entries ++ [(9, camE 8 9)] }))
      (fun t => t.comp.cursors = [(4, { cursor with pos := (7, 1, 3) })]) = true ∧
    ended (run .camNext (camC 0x54 4 0) (curBank { bank1 with entries := [] })) = some (0, 0, 0) := ⟨starts_of (by decide), by decide⟩
theorem test_camNext_refused :
    ended (run .camNext (camC 0x54 5 0) curUp) = some (0x0506, 0, 0) ∧
    ended (run .camNext (camC 0x54 4 0) (withFn (.bank 1) { st := .absent, latch := false } curUp)) = some (0x0508, 0, 0) := by decide
theorem test_camCursorFree : Starts 0x55 (camC 0x55 4 0) (on curUp (camC 0x55 4 0)) 1 (on curUp (camC 0x55 4 0)) ∧
    ended (run .camCursorFree (camC 0x55 4 0) curUp) = some (0, 0, 0) ∧
    after (run .camCursorFree (camC 0x55 4 0) curUp) (fun t => t.comp.cursors = []) = true ∧
    ended (run .camCursorFree (camC 0x55 5 0) curUp) = some (0x0506, 0, 0) := ⟨starts_of (by decide), by decide⟩
def camReadC (i : Nat) : Cmd := cmd 0x56 0 (i * 2 ^ 36 + 1) (host 0) 0 0 0 0
/-- Table 11.2: VALID [0], PRIORITY [63:48], then the key; an entry outside the bank. -/
theorem test_camRead : Starts 0x56 (camReadC 2) (on (camUp [(1, bank1)]) (camReadC 2)) 1 (on (camUp [(1, bank1)]) (camReadC 2)) ∧
    ended (run .camRead (camReadC 2) (camUp [(1, bank1)])) = some (0, 0, 0) ∧
    after (run .camRead (camReadC 2) (camUp [(1, bank1)])) (fun t => t.hostMem = [(0, 1), (6, 7), (16, 9)]) = true ∧
    ended (run .camRead (camReadC 2048) (camUp [(1, { bank1 with width := 2 })])) = some (0x0505, 0, 0) := ⟨starts_of (by decide), by decide⟩
/-- An invalid entry: the free value of the step is taken. -/
theorem test_camRead_invalid : tget bank1.entries 4 = none ∧
    refCheck (beg (camUp [(1, bank1)]) (camReadC 4)) 1 (refOf (camReadC 4).w3) 48 false = .ok ∧
    shadowed (beg (camUp [(1, bank1)]) (camReadC 4)) 1 = false := by decide
/-- While bank 1 moves onto a spare, a write that passes its checks waits (R342). -/
theorem test_camMoving :
    (let s := camUp [(1, bank1)]
     after (run .camWrite (writeC 4095 true) { s with rel := { s.rel with health := [((4, 1), { Health.fresh with state := .retiring })] } })
       (fun t => t.host.slots.map (·.phase) = [.waiting .engine] && bankOf t 1 = bank1)) = true := by decide

/-! ### Vector search -/

/-- Index 3, version 2 of tenant 1: INT8 (code 1), 64 dimensions, dot product, degree 1; partition 0 of two vectors. A record takes 128 bytes. -/
def part0 (loaded : Nat) (crc : Nat) (recs : Memory) : Part :=
  { count := 2, entry := 0, crc := crc, loaded := loaded, records := { fill := none, bad := [], cells := recs }, tomb := [] }
def noPart : Part := { count := 0, entry := 0, crc := 0, loaded := 0, records := Blob.zeros, tomb := [] }
def ixv (st : IxSt) (p : Part) : IxVer :=
  { tenant := 1, index := 3, version := 2, dim := 64, elem := 1, metric := 0, degreeMax := 1, st := st, deleteSeq := 4,
    parts := p :: List.replicate 19 noPart, dirs := [] }
/-- Two records at `a`: vectors (1, 0, …) and (2, 0, …), payloads 0x11 and 0x22, each the neighbour of the other. -/
def twoRecords (a : Nat) : Memory :=
  bytesAt a [1] ++ bytesAt (a + 64) [0x11] ++ bytesAt (a + 95) [2] ++ bytesAt (a + 96) [1] ++ bytesAt (a + 128) [2] ++ bytesAt (a + 192) [0x22] ++ bytesAt (a + 223) [2]
def ixUp (l : List IxVer) (m : Memory) : State := { up with comp := { up.comp with indices := l }, hostMem := m }
def loadedIx (st : IxSt) : IxVer := ixv st (part0 2 0 (twoRecords 0))
def ixC (op w2 w3 w4 : Nat) : Cmd := cmd op 0 w2 w3 w4 0 0 0
def ixOf (o : Host.Outcome State Fault Refusal) : List IxVer := match o with | .next t => t.comp.indices | _ => []

/-- A descriptor (Table 12.1) at 0: INDEX, VERSION, DIM, ELEM, METRIC, DEGREE_MAX; partition 0 of two vectors at +64. -/
def ixDesc (version dim elem : Nat) : Memory :=
  Memory.place [] (bytesAt 0 ((leBytes 8 (3 * 2 ^ 48 + version * 2 ^ 32 + dim * 2 ^ 19 + elem * 2 ^ 15 + 1 * 2 ^ 6)).map (·.toNat)) ++ bytesAt 68 [2])
theorem test_indexCreate : Starts 0x58 (ixC 0x58 0 0 0) (on (ixUp [] (ixDesc 2 64 1)) (ixC 0x58 0 0 0)) 1 (on (ixUp [] (ixDesc 2 64 1)) (ixC 0x58 0 0 0)) ∧
    holdsIndices (on (ixUp [] (ixDesc 2 64 1)) (ixC 0x58 0 0 0)) = true ∧
    ended (run .indexCreate (ixC 0x58 0 0 0) (ixUp [] (ixDesc 2 64 1))) = some (0, 2, 0) ∧
    (ixOf (run .indexCreate (ixC 0x58 0 0 0) (ixUp [] (ixDesc 2 64 1)))).map (fun v => (v.index, v.version, v.dim, v.st, v.dirs.length, v.parts.length)) =
      [(3, 2, 64, .loading, 2, 20)] := ⟨starts_of (by decide), by decide⟩
/-- Role A, a misaligned address, DIM 65, ELEM 7, the version in use, and two versions of the index. -/
theorem test_indexCreate_refused :
    ended (run .indexCreate (ixC 0x58 0 0 0) { ixUp [] (ixDesc 2 64 1) with image := { image with role := .g } }) = some (0x0B20, 0, 0) ∧
    ended (run .indexCreate (ixC 0x58 32 0 0) (ixUp [] (ixDesc 2 64 1))) = some (0x0304, 0, 0) ∧
    ended (run .indexCreate (ixC 0x58 0 0 0) (ixUp [] (ixDesc 2 65 1))) = some (0x0527, 0, 0) ∧
    ended (run .indexCreate (ixC 0x58 0 0 0) (ixUp [] (ixDesc 2 64 7))) = some (0x0527, 0, 0) ∧
    ended (run .indexCreate (ixC 0x58 0 0 0) (ixUp [loadedIx .held] (ixDesc 2 64 1))) = some (0x0521, 0, 0) ∧
    ended (run .indexCreate (ixC 0x58 0 0 0) (ixUp [loadedIx .held, { loadedIx .current with version := 1 }] (ixDesc 5 64 1))) = some (0x0524, 0, 0) := by decide
/-- Word 3: INDEX [63:48], VERSION [47:32], PARTITION [31:27]; word 4: FIRST, COUNT. -/
def partC (k first cnt : Nat) : Cmd := ixC 0x59 0x1000 (3 * 2 ^ 48 + 2 * 2 ^ 32 + k * 2 ^ 27) (first * 2 ^ 32 + cnt)
def loadingIx : State := ixUp [ixv .loading (part0 0 0 [])] (twoRecords 0x1000)
theorem test_indexLoadPart : Starts 0x59 (partC 0 0 2) (on loadingIx (partC 0 0 2)) 1 (on loadingIx (partC 0 0 2)) ∧
    ended (run .indexLoadPart (partC 0 0 2) loadingIx) = some (0, 2, 0) ∧
    ((ixOf (run .indexLoadPart (partC 0 0 2) loadingIx)).flatMap (fun v => v.parts.take 1)) = [part0 2 0 (twoRecords 0)] := ⟨starts_of (by decide), by decide +kernel⟩
/-- A partition of 20, no vector, an unknown version, records past COUNT, records out of turn, and a vector that is its own neighbour. -/
theorem test_indexLoadPart_refused :
    ended (run .indexLoadPart (partC 20 0 2) loadingIx) = some (0x0527, 0, 0) ∧
    ended (run .indexLoadPart (partC 0 0 0) loadingIx) = some (0x0527, 0, 0) ∧
    ended (run .indexLoadPart (partC 0 0 2) (ixUp [] [])) = some (0x0520, 0, 0) ∧
    ended (run .indexLoadPart (partC 0 0 3) loadingIx) = some (0x0525, 0, 0) ∧
    ended (run .indexLoadPart (partC 0 1 1) loadingIx) = some (0x0525, 0, 0) ∧
    ended (run .indexLoadPart (partC 0 0 1) { loadingIx with hostMem := bytesAt 0x105F [2] }) = some (0x0522, 0, 0) := by decide +kernel
/-- The CRC-32C of nothing is 0, so a version whose only partition is empty is whole; with CURRENT (word 3 bit 0) the one before it retires. -/
def emptyIx (st : IxSt) : IxVer := ixv st noPart
def nameC (op w3 : Nat) : Cmd := ixC op (3 * 2 ^ 16 + 2) w3 0
theorem test_indexCommit : Starts 0x5A (nameC 0x5A 1) (on (ixUp [emptyIx .loading] []) (nameC 0x5A 1)) 1 (on (ixUp [emptyIx .loading] []) (nameC 0x5A 1)) ∧
    ended (run .indexCommit (nameC 0x5A 1) (ixUp [emptyIx .loading] [])) = some (0, 0, 0) ∧
    ixOf (run .indexCommit (nameC 0x5A 0) (ixUp [emptyIx .loading] [])) = [emptyIx .held] ∧
    ixOf (run .indexCommit (nameC 0x5A 1) (ixUp [{ emptyIx .current with version := 1 }, emptyIx .held] [])) =
      [{ emptyIx .retiring with version := 1 }, emptyIx .current] := ⟨starts_of (by decide), by decide⟩
/-- A partition not whole, a CRC that fails and removes the version, a version already CURRENT. -/
theorem test_indexCommit_refused :
    ended (run .indexCommit (nameC 0x5A 1) (ixUp [ixv .loading (part0 1 0 [])] [])) = some (0x0525, 0, 0) ∧
    ended (run .indexCommit (nameC 0x5A 1) (ixUp [ixv .loading { noPart with crc := 1 }] [])) = some (0x0526, 0, 0) ∧
    ixOf (run .indexCommit (nameC 0x5A 1) (ixUp [ixv .loading { noPart with crc := 1 }] [])) = [] ∧
    ended (run .indexCommit (nameC 0x5A 1) (ixUp [emptyIx .current] [])) = some (0x0525, 0, 0) ∧
    ended (run .indexCommit (nameC 0x5A 0) (ixUp [emptyIx .held] [])) = some (0x0525, 0, 0) := by decide
theorem test_indexRetire : Starts 0x5B (nameC 0x5B 0) (on (ixUp [emptyIx .current] []) (nameC 0x5B 0)) 1 (on (ixUp [emptyIx .current] []) (nameC 0x5B 0)) ∧
    ended (run .indexRetire (nameC 0x5B 0) (ixUp [emptyIx .current] [])) = some (0, 0, 0) ∧
    ixOf (run .indexRetire (nameC 0x5B 0) (ixUp [emptyIx .current] [])) = [emptyIx .retiring] ∧
    ended (run .indexRetire (nameC 0x5B 0) (ixUp [] [])) = some (0x0520, 0, 0) := ⟨starts_of (by decide), by decide⟩
/-- Only a RETIRING version goes. -/
theorem test_indexVersionFree :
    ixOf (exec (.indexVersionFree 1 3 2) (ixUp [emptyIx .retiring] [])) = [] ∧
    after (exec (.indexVersionFree 1 3 2) (ixUp [emptyIx .held] [])) (fun t => t = ixUp [emptyIx .held] []) = true := by decide
/-- Table 12.4: state 3, CURRENT version 2, DELETE_SEQ 4; two vectors, one tombstone. VERSION 0 names the CURRENT one. -/
def buried : IxVer := ixv .current { part0 2 0 (twoRecords 0) with tomb := [1] }
theorem test_indexQuery : Starts 0x5E (nameC 0x5E 0) (on (ixUp [buried] []) (nameC 0x5E 0)) 1 (on (ixUp [buried] []) (nameC 0x5E 0)) ∧
    ended (run .indexQuery (nameC 0x5E 0) (ixUp [buried] [])) = some (0, 3 * 2 ^ 56 + 2 * 2 ^ 40 + 4, 2 * 2 ^ 32 + 1) ∧
    ended (run .indexQuery (ixC 0x5E (3 * 2 ^ 16) 0 0) (ixUp [buried] [])) = some (0, 3 * 2 ^ 56 + 2 * 2 ^ 40 + 4, 2 * 2 ^ 32 + 1) ∧
    ended (run .indexQuery (ixC 0x5E (3 * 2 ^ 16 + 9) 0 0) (ixUp [buried] [])) = some (0, 2 * 2 ^ 40, 0) := ⟨starts_of (by decide), by decide⟩
/-- VECTOR_SEARCH of one query at 0x1000, result at 0x2000; TARGET, K 1, L 2, E 4. -/
def vsearchC (target queries : Nat) : Cmd :=
  cmd 0x5C 0 (host 0x1000) (host 0x2000) (3 * 2 ^ 48 + 2 * 2 ^ 32 + target * 2 ^ 14) (1 * 2 ^ 53 + 2 * 2 ^ 42 + 4 * 2 ^ 30 + queries * 2 ^ 16) 0 0
def islandOn (s : State) : State := (List.range 20).foldl (fun s k => withFn (.island k) isOn s) s
def searchUp (v : IxVer) : State := islandOn (ixUp [v] (bytesAt 0x1000 [1]))
/-- Vector 1 is nearer by the dot product: its payload 0x22, ID 1 and distance −2.0 stand in the block; NRESULTS [63:53] is 1, ATTEMPTS [50:44] 1, L [43:33] 2. -/
theorem test_vectorSearch : Starts 0x5C (vsearchC 0x3FFFF 1) (on (searchUp (loadedIx .held)) (vsearchC 0x3FFFF 1)) 1 (on (searchUp (loadedIx .held)) (vsearchC 0x3FFFF 1)) ∧
    ended (run .vectorSearch (vsearchC 0x3FFFF 1) (searchUp (loadedIx .held))) = some (0, 0, 2) ∧
    after (run .vectorSearch (vsearchC 0x3FFFF 1) (searchUp (loadedIx .held))) (fun t =>
      t.hostMem.readNat 0x2000 8 = 2 ^ 53 + 2 ^ 44 + 2 * 2 ^ 33 && t.hostMem.readNat 0x2008 8 = 4 * 2 ^ 32 + 2 && t.hostMem.readNat 0x2040 8 = 0x22 &&
      t.hostMem.readNat 0x2048 8 = 0xC0000000 * 2 ^ 32 + 1) = true := ⟨starts_of (by decide), by decide +kernel⟩
/-- TARGET outside the membership, no query, a version still loading; and to the other member, 33, it is sent with its input. -/
theorem test_vectorSearch_refused :
    ended (run .vectorSearch (vsearchC 40 1) (searchUp (loadedIx .held))) = some (0x052A, 0, 0) ∧
    ended (run .vectorSearch (vsearchC 32 0) (searchUp (loadedIx .held))) = some (0x0527, 0, 0) ∧
    ended (run .vectorSearch (vsearchC 32 1) (searchUp (loadedIx .loading))) = some (0x0520, 0, 0) ∧
    after (run .vectorSearch (cmd 0x5C 0 (host 0x1000) (host 0x2000) (3 * 2 ^ 48 + 33 * 2 ^ 14) (2 ^ 53 + 2 ^ 42 + 2 ^ 30 + 2 ^ 16) 0 0) (searchUp (loadedIx .held)))
      (fun t => t.host.due = [] && t.req.outbox.map (·.1) = [33]) = true := by decide +kernel
/-- VECTOR_DELETE of IDs 1 and 1: one newly set, one old, DELETE_SEQ 5. -/
def deleteC (target count : Nat) : Cmd := cmd 0x5D 0 (target * 2 ^ 46 + 3 * 2 ^ 16 + 2) (host 0x1000) count 0 0 0
def deleteUp (ids : List Nat) : State := ixUp [loadedIx .current] (bytesAt 0x1000 ids)
theorem test_vectorDelete : Starts 0x5D (deleteC 32 2) (on (deleteUp [1, 0, 0, 0, 1]) (deleteC 32 2)) 1 (on (deleteUp [1, 0, 0, 0, 1]) (deleteC 32 2)) ∧
    ended (run .vectorDelete (deleteC 32 2) (deleteUp [1, 0, 0, 0, 1])) = some (0, 1, 5 * 2 ^ 32 + 1) ∧
    (ixOf (run .vectorDelete (deleteC 32 2) (deleteUp [1, 0, 0, 0, 1]))).map (fun v => (v.deleteSeq, (v.parts.take 1).map (·.tomb))) = [(5, [[1]])] :=
  ⟨starts_of (by decide), by decide +kernel⟩
/-- An ID that the version does not hold, no ID, TARGET outside the membership; and TARGET 33. -/
theorem test_vectorDelete_refused :
    ended (run .vectorDelete (deleteC 32 1) (deleteUp [2])) = some (0x0529, 0, 0) ∧
    ended (run .vectorDelete (deleteC 32 0) (deleteUp [1])) = some (0x0527, 0, 0) ∧
    ended (run .vectorDelete (deleteC 40 1) (deleteUp [1])) = some (0x052A, 0, 0) ∧
    after (run .vectorDelete (deleteC 33 1) (deleteUp [1])) (fun t => t.host.due = [] && t.req.outbox.map (·.1) = [33]) = true := by decide +kernel

/-! ### The Press -/

/-- A table of two codes of one bit: byte value 1 (code 0) and END (code 1). -/
def twoCodes : List Nat := (List.range 269).map fun i => if i = 1 then 1 else if i = 268 then 1 else 0
def slotOf (g queued : Nat) : PressSlot := { lengths := twoCodes, gen := g, queued := queued }
def emptyPress : Press := { slotA := none, slotB := none, newestB := false, installs := [], closing := none }
def press3 : Press := { emptyPress with slotA := some (slotOf 3 0) }
def pressUp (x : Press) (m : Memory) : State := { up with comp := { up.comp with press := [((1, 2), x)] }, hostMem := m }
def pressAt (o : Host.Outcome State Fault Refusal) : Option Press := match o with | .next t => tget t.comp.press (1, 2) | _ => none
/-- Table 13.3: GEN [63:60], the CRC-32C of bytes 8 to 191 (worked out by hand from R388), then the lengths. -/
def twoImage (gen crc : Nat) : Memory :=
  Memory.place [] (bytesAt 0 ((leBytes 8 (gen * 2 ^ 60 + crc)).map (·.toNat)) ++ bytesAt 16 [0x10] ++ bytesAt 150 [1])

def openC : Cmd := cmd 0x60 0 0 0 0 0 0 0
theorem test_pressStreamOpen : Starts 0x60 openC (on up openC) 1 (on up openC) ∧ tget (on up openC).rel.mirrors 1 = none ∧
    ended (run .pressStreamOpen openC up) = some (0, 1, 0) ∧ ended (run .pressStreamOpen openC (pressUp emptyPress [])) = some (0, 1, 0) ∧
    after (run .pressStreamOpen openC up) (fun t => t.comp.press = [((1, 1), emptyPress)]) = true := ⟨starts_of (by decide), by decide⟩
/-- A tenant at its 1,024 streams. -/
theorem test_pressStreamOpen_full :
    ended (run .pressStreamOpen openC { up with comp := { up.comp with press := (List.range 1024).map fun k => ((1, k + 1), emptyPress) } }) = some (0x0602, 0, 0) := by
  decide +kernel
def closeC : Cmd := cmd 0x61 0 2 0 0 0 0 0
def waits (since : Nat) : Install := { slot := 0, lengths := twoCodes, gen := some 4, since := since, recorded := false, build := false }
/-- An idle stream goes; a stream that is closing is unknown. -/
theorem test_pressStreamClose : Starts 0x61 closeC (on (pressUp press3 []) closeC) 1 (on (pressUp press3 []) closeC) ∧
    pressBusy (beg (pressUp press3 []) closeC) 1 2 1 = false ∧
    ended (run .pressStreamClose closeC (pressUp press3 [])) = some (0, 0, 0) ∧ pressAt (run .pressStreamClose closeC (pressUp press3 [])) = none ∧
    ended (run .pressStreamClose closeC (pressUp { press3 with closing := some 9 } [])) = some (0x0601, 0, 0) := ⟨starts_of (by decide), by decide⟩
/-- An install of slot 0 waits: it ends with 0x0609, and the close waits for that command's completion no longer. -/
def installing : State := { on (pressUp { press3 with installs := [waits 0] } []) closeC with host :=
  { (on (pressUp { press3 with installs := [waits 0] } []) closeC).host with slots :=
    [{ fetched 0 (cmd 0x64 0 0 (2 * 2 ^ 48) 0 0 0 0) with phase := .waiting .engine }, fetched 1 closeC] } }
theorem test_pressStreamClose_install :
    after (exec (.pressStreamClose closeC) installing) (fun t => t.host.due.map (fun d => (d.slot, d.status)) = [(0, 0x0609), (1, 0)]) = true ∧
    (∃ i y, (tget installing.comp.press (1, 2)).map (·.installs) = some [i] ∧ i.slot ≠ 1 ∧ slotById installing i.slot = some y ∧ y.cmd.src = none ∧
      y.phase ≠ .finished ∧ y.dead = false ∧ installing.rel.mirrors = []) := ⟨by decide, waits 0, _, rfl, by decide, rfl, by decide⟩
def installC : Cmd := cmd 0x64 0 0 (2 * 2 ^ 48) 0 0 0 0
/-- The first install goes into slot A; the next into slot B (RESULT0 1). -/
theorem test_pressTableInstall : Starts 0x64 installC (on (pressUp press3 (twoImage 4 0x254c262a)) installC) 1 (on (pressUp press3 (twoImage 4 0x254c262a)) installC) ∧
    ended (run .pressTableInstall installC (pressUp emptyPress (twoImage 4 0x254c262a))) = some (0, 0, 0) ∧
    ended (run .pressTableInstall installC (pressUp press3 (twoImage 4 0x254c262a))) = some (0, 1, 0) ∧
    pressAt (run .pressTableInstall installC (pressUp press3 (twoImage 4 0x254c262a))) = some { press3 with slotB := some (slotOf 4 0), newestB := true } :=
  ⟨starts_of (by decide), by decide +kernel⟩
/-- A wrong CRC, a generation held, an unknown stream; and a destination with queued blocks makes it wait. -/
def bothSlots : Press := { press3 with slotB := some (slotOf 4 2) }
theorem test_pressTableInstall_refused :
    ended (run .pressTableInstall installC (pressUp press3 (twoImage 4 1))) = some (0x0603, 0, 0) ∧
    ended (run .pressTableInstall installC (pressUp press3 (twoImage 3 0x254c262a))) = some (0x0604, 0, 0) ∧
    ended (run .pressTableInstall installC up) = some (0x0601, 0, 0) ∧
    after (run .pressTableInstall installC (pressUp bothSlots (twoImage 5 0x254c262a))) (fun t => t.host.due = []) = true ∧
    (pressAt (run .pressTableInstall installC (pressUp bothSlots (twoImage 5 0x254c262a)))).map (fun x => x.installs.map (·.gen)) = some [some 5] := by decide +kernel
/-- An install commits when its slot's count is zero, and not before. -/
def commitUp (queued since : Nat) : State := { installing with comp := { installing.comp with press := [((1, 2), { press3 with slotB := some (slotOf 2 queued), installs := [waits since] })] } }
theorem test_pressInstallCommit :
    after (exec (.pressInstallCommit 1 2) (commitUp 0 0)) (fun t => t.host.due.map (fun d => (d.slot, d.status, d.result0)) = [(0, 0, 1)] &&
      tget t.comp.press (1, 2) = some { press3 with slotB := some (slotOf 4 0), newestB := true }) = true ∧
    after (exec (.pressInstallCommit 1 2) (commitUp 1 0)) (fun t => t = commitUp 1 0) = true := by decide +kernel
/-- After 10 ms of waiting, event 0x44 of island 23; before, nothing. -/
theorem test_pressInstallWait :
    after (exec (.pressInstallWait 1 2) { commitUp 1 0 with mono := 10000000 }) (fun t => t.host.due = [] && tgetD t.tele.events (23, 0x44) 0 = 1) = true ∧
    after (exec (.pressInstallWait 1 2) { commitUp 1 0 with mono := 9999999 }) (fun t => t = { commitUp 1 0 with mono := 9999999 }) = true := by decide +kernel
/-- Encode of two bytes 1, 1: bits 0, 0, 1 in one byte; header (Table 13.4): CODED 1, RAW 2, MODE 1, GEN 3 and the CRC-32C of the input. -/
def encodeC (len : Nat) : Cmd := cmd 0x62 0 (host 0x1000) (host 0x2000) (2 * 2 ^ 48 + len) 0 0 0
theorem test_pressEncode : Starts 0x62 (encodeC 2) (on (pressUp press3 (bytesAt 0x1000 [1, 1])) (encodeC 2)) 1 (on (pressUp press3 (bytesAt 0x1000 [1, 1])) (encodeC 2)) ∧
    stageOf (beg (pressUp press3 (bytesAt 0x1000 [1, 1])) (encodeC 2)) 1 = 0 ∧
    after (run .pressEncode (encodeC 2) (pressUp press3 (bytesAt 0x1000 [1, 1]))) (fun t => t.host.due = [] && stageOf t 1 = 3 &&
      t.hostMem.readNat 0x2000 8 = 2 ^ 51 + 2 * 2 ^ 38 + 2 ^ 36 + 3 * 2 ^ 32 && t.hostMem.readNat 0x2008 8 = 0x10a86ca6 * 2 ^ 32 && t.hostMem.read 0x2010 = 4 &&
      (tget t.comp.press (1, 2)).map (·.slotA) = some (some (slotOf 3 1))) = true ∧
    after (match run .pressEncode (encodeC 2) (pressUp press3 (bytesAt 0x1000 [1, 1])) with | .next t => exec (.pressEncode (encodeC 2)) t | o => o)
      (fun t => t.host.due.map (fun d => (d.status, d.result0, d.result1)) = [(0, 32 * 2 ^ 32, 3 * 2 ^ 32)] &&
        (tget t.comp.press (1, 2)).map (·.slotA) = some (some (slotOf 3 0))) = true := ⟨starts_of (by decide), by decide +kernel⟩
theorem test_pressEncode_refused :
    ended (run .pressEncode (encodeC 0) (pressUp press3 [])) = some (0x0607, 0, 0) ∧
    ended (run .pressEncode (encodeC 67108865) (pressUp press3 [])) = some (0x0607, 0, 0) ∧
    ended (run .pressEncode (encodeC 2) up) = some (0x0601, 0, 0) ∧
    ended (run .pressEncode (encodeC 2) (pressUp emptyPress [])) = some (0x0605, 0, 0) ∧
    ended (run .pressEncode (cmd 0x62 0 (host 0x1000) (host 0x2000) (2 * 2 ^ 48 + 2) (4096 * 2 ^ 32) 0 0) (pressUp press3 [])) = some (0x0710, 0, 0) := by decide
/-- The block above decodes to 1, 1; a second block slot that the input does not reach is poisoned. -/
def coded : Memory :=
  Memory.place [] (bytesAt 0x2000 ((leBytes 8 (2 ^ 51 + 2 * 2 ^ 38 + 2 ^ 36 + 3 * 2 ^ 32) ++ leBytes 8 (0x10a86ca6 * 2 ^ 32)).map (·.toNat)) ++ bytesAt 0x2010 [4])
def decodeC (len blocks : Nat) : Cmd := cmd 0x63 0 (host 0x2000) (host 0x8000) (2 * 2 ^ 48 + len) 0 blocks 0
theorem test_pressDecode : Starts 0x63 (decodeC 32 1) (on (pressUp press3 coded) (decodeC 32 1)) 1 (on (pressUp press3 coded) (decodeC 32 1)) ∧
    after (run .pressDecode (decodeC 32 1) (pressUp press3 coded)) (fun t => t.host.due = [] && stageOf t 1 = 3 && t.hostMem.readNat 0x8000 4 = 0x0101 &&
      (tget t.comp.samples 1).map (fun r => (r.1, r.2.1, r.2.2.1)) = some (0, 2 * 2 ^ 32, 0xFFFFFFFF)) = true ∧
    after (match run .pressDecode (decodeC 32 1) (pressUp press3 coded) with | .next t => exec (.pressDecode (decodeC 32 1)) t | o => o)
      (fun t => t.host.due.map (fun d => (d.status, d.result0, d.result1)) = [(0, 2 * 2 ^ 32, 0xFFFFFFFF)]) = true := ⟨starts_of (by decide), by decide +kernel⟩
theorem test_pressDecode_refused :
    ended (run .pressDecode (decodeC 15 1) (pressUp press3 coded)) = some (0x0607, 0, 0) ∧
    ended (run .pressDecode (decodeC 32 0) (pressUp press3 coded)) = some (0x0607, 0, 0) ∧
    ended (run .pressDecode (decodeC 32 16385) (pressUp press3 coded)) = some (0x0607, 0, 0) ∧
    (decodeBlocks press3 (refView (pressUp press3 coded) 1 (.host 0x2000) 32) 32 2 (some 0)).map (·.out) = [some [1, 1], none] := by decide +kernel
/-- The image of generation 3; a generation that no slot holds. -/
def readTableC (g : Nat) : Cmd := cmd 0x65 0 0 (2 * 2 ^ 48 + g) 0 0 0 0
theorem test_pressTableRead : Starts 0x65 (readTableC 3) (on (pressUp press3 []) (readTableC 3)) 1 (on (pressUp press3 []) (readTableC 3)) ∧
    ended (run .pressTableRead (readTableC 3) (pressUp press3 [])) = some (0, 0, 0) ∧
    after (run .pressTableRead (readTableC 3) (pressUp press3 [])) (fun t => t.hostMem = twoImage 3 0x254c262a) = true ∧
    ended (run .pressTableRead (readTableC 4) (pressUp press3 [])) = some (0x0608, 0, 0) ∧
    ended (run .pressTableRead (readTableC 3) up) = some (0x0601, 0, 0) := ⟨starts_of (by decide), by decide +kernel⟩
/-- With no crossbar budget left (17 R499) an encode waits. -/
theorem test_pressGate :
    (let s := pressUp press3 (bytesAt 0x1000 [1, 1])
     after (run .pressEncode (encodeC 2) { s with gov := { s.gov with balance := [((1, 2, 0, 0), 0)] } }) (fun t => t.host.slots.map (·.phase) = [.waiting .engine])) = true := by
  decide +kernel

/-! ### Endpoints, keys and counters -/

def xportUp (x : Xport) : State := { netUp with xport := x }
/-- EP_OPEN with KEYED_COUNTER k for number n. -/
def epOpenC (n k : Nat) : Cmd := cmd 0x70 0 (k * 2 ^ 16 + n) 0 0 0 0 0
/-- Endpoint 256 is open, so the lowest free number is 257; its key is index 0, generation 0. A number once open again comes with the next generation. -/
theorem test_epOpen : Starts 0x70 (epOpenC 0 8) (on netUp (epOpenC 0 8)) 1 (on netUp (epOpenC 0 8)) ∧ tenantRec (beg netUp (epOpenC 0 8)) 1 = some tenantA ∧
    ended (run .epOpen (epOpenC 0 8) netUp) = some (0, 65536 + 257, 0) ∧
    after (run .epOpen (epOpenC 0 8) netUp) (fun t => (epOf t 257).opened && (epOf t 257).keyedCounter = 8 && (epOf t 257).tOpen = 5000 &&
      (tget t.xport.regions 0).map (fun r => (r.kind, r.endpoint)) = some (1, 257)) = true ∧
    ended (run .epOpen (epOpenC 256 0) (xportUp { Xport.reset with eps := [(256, { ep256 with opened := false, gen := 255, quarantine := some 5000 })] })) =
      some (0, 256, 0) := ⟨starts_of (by decide), by decide⟩
/-- A number outside 256–259, counter 4,096, a number open, a number in quarantine, none free, and a request named. -/
theorem test_epOpen_refused :
    ended (run .epOpen (epOpenC 260 0) netUp) = some (0x0711, 0, 0) ∧ ended (run .epOpen (epOpenC 255 0) netUp) = some (0x0711, 0, 0) ∧
    ended (run .epOpen (epOpenC 257 4096) netUp) = some (0x0710, 0, 0) ∧ ended (run .epOpen (epOpenC 256 0) netUp) = some (0x0705, 0, 0) ∧
    ended (run .epOpen (epOpenC 256 0) (xportUp { Xport.reset with eps := [(256, { ep256 with opened := false, quarantine := some 5001 })] })) = some (0x0705, 0, 0) ∧
    ended (run .epOpen (epOpenC 0 0) (xportUp { Xport.reset with eps := [(256, ep256), (257, ep256), (258, ep256), (259, ep256)] })) = some (0x0704, 0, 0) ∧
    ended (run .epOpen (cmd 0x70 h0 0 0 0 0 0 0) netUp) = some (0x0711, 0, 0) := by decide
def epCloseC : Cmd := cmd 0x71 0 256 0 0 0 0 0
/-- With nothing in hand the endpoint closes: its key's entry goes, and the number is in quarantine for LIFETIME_US. -/
theorem test_epClose : Starts 0x71 epCloseC (on netUp epCloseC) 1 (on netUp epCloseC) ∧ epUsable (beg netUp epCloseC) 256 1 = true ∧
    ended (run .epClose epCloseC netUp) = some (0, 0, 0) ∧
    after (run .epClose epCloseC netUp) (fun t => !(epOf t 256).opened && (epOf t 256).quarantine = some 2005000 && tget t.xport.regions 7 = none) = true ∧
    ended (run .epClose (cmd 0x71 0 257 0 0 0 0 0) netUp) = some (0x0703, 0, 0) := ⟨starts_of (by decide), by decide⟩
/-- A posted receive is cancelled; a send record that has failed keeps the close waiting. -/
def received (p : PostedRecv) : State :=
  let s := xportUp { netUp.xport with eps := [(256, { ep256 with recvs := [p] })] }
  { s with host := { s.host with slots := [{ fetched 0 (cmd 0x73 0 (host 0x3000) (64 * 2 ^ 31 + 256) 0 0 0 0) with phase := .waiting .fabric }, fetched 1 epCloseC], nextSlot := 2 } }
def closingOn (r : SendRec) : State := on (xportUp { netUp.xport with sends := [r] }) epCloseC
theorem test_epClose_waits :
    after (exec (.epClose epCloseC) (received (posted 64))) (fun t => dueOf t = [(0, 0x070E, 0, 0), (1, 0, 0, 1)]) = true ∧
    after (exec (.epClose epCloseC) (closingOn { sendRec 64 with failed := some 0x0707, abortPkt := { TxPacket.fresh with queued := true } }))
      (fun t => (epOf t 256).opened && (epOf t 256).closer = some 1 && t.host.due = []) = true := by decide
/-- A quarantine ends at its time and not before, of an endpoint and of a region entry. -/
def quarantined (q : Nat) : State := xportUp { Xport.reset with eps := [(256, { ep256 with opened := false, quarantine := some q })], regionQuarantine := [(3, q)] }
theorem test_endpointQuarantineEnd :
    after (exec (.endpointQuarantineEnd false 256) (quarantined 5000)) (fun t => (epOf t 256).quarantine = none && t.xport.regionQuarantine = [(3, 5000)]) = true ∧
    after (exec (.endpointQuarantineEnd true 3) (quarantined 5000)) (fun t => t.xport.regionQuarantine = []) = true ∧
    after (exec (.endpointQuarantineEnd false 256) (quarantined 5001)) (fun t => t = quarantined 5001) = true ∧
    after (exec (.endpointQuarantineEnd true 3) (quarantined 5001)) (fun t => t = quarantined 5001) = true := by decide
/-- MKEY_CREATE of host memory at 0x1000, LENGTH_MINUS_1 63, rights write and read. -/
def mkeyC : Cmd := cmd 0x75 0 (host 0x1000) (63 * 2 ^ 24 + 3) 0 0 0 0
theorem test_mkeyCreate : Starts 0x75 mkeyC (on netUp mkeyC) 1 (on netUp mkeyC) ∧ refCheck (beg netUp mkeyC) 1 (refOf mkeyC.w2) 64 false = .ok ∧
    ended (run .mkeyCreate mkeyC (xportUp { Xport.reset with gens := [(0, 4)] })) = some (0, 4 * 2 ^ 24, 0) ∧
    after (run .mkeyCreate mkeyC netUp) (fun t => tget t.xport.regions 0 = some { region 0 2 0x1000 64 with reduce := false, atomic := false, endpoint := 0 }) = true ∧
    ended (run .mkeyCreate (cmd 0x75 h0 (host 0x1000) 0 0 0 0 0) netUp) = some (0x0711, 0, 0) := ⟨starts_of (by decide), by decide⟩
def mkeyUp (g : Nat) (work : List TrayWork) : State :=
  { xportUp { netUp.xport with regions := [(3, region 0 2 0x1000 64), (7, region 1 0 0 1)], gens := [(3, g)] } with tray := { Tray.reset with work := work } }
/-- A request at the home that uses region entry 3. -/
def atHome : TrayWork :=
  { pkt := { base := base33 1 0, hdr := { type := 0, op := 0, aop := 0, width := 0, dtype := 0, opId := 0, ackedBelow := 0, status := 0, poison := false, addr := 0, mkey := 3, len := 64 }, data := [] },
    region := 3, nextLine := 0, gathered := [], poison := false }
def mkeyDC (key : Nat) : Cmd := cmd 0x76 0 key 0 0 0 0 0
/-- The generation rises from 255 to 0 and the index is in quarantine; an access in hand makes it wait; a key of an endpoint or of another generation. -/
theorem test_mkeyDestroy : Starts 0x76 (mkeyDC (255 * 2 ^ 24 + 3)) (on (mkeyUp 255 []) (mkeyDC (255 * 2 ^ 24 + 3))) 1 (on (mkeyUp 255 []) (mkeyDC (255 * 2 ^ 24 + 3))) ∧
    ended (run .mkeyDestroy (mkeyDC (255 * 2 ^ 24 + 3)) (mkeyUp 255 [])) = some (0, 0, 0) ∧
    after (run .mkeyDestroy (mkeyDC (255 * 2 ^ 24 + 3)) (mkeyUp 255 [])) (fun t => tget t.xport.regions 3 = none && tget t.xport.gens 3 = some 0 &&
      tget t.xport.regionQuarantine 3 = some 2005000) = true ∧
    after (run .mkeyDestroy (mkeyDC 3) (mkeyUp 0 [atHome])) (fun t => tget t.xport.regions 3 = none && t.host.due = []) = true ∧
    ended (run .mkeyDestroy (mkeyDC 7) (mkeyUp 0 [])) = some (0x070A, 0, 0) ∧
    ended (run .mkeyDestroy (mkeyDC 3) (mkeyUp 1 [])) = some (0x070A, 0, 0) := ⟨starts_of (by decide), by decide⟩
def ctrC (k v : Nat) : Cmd := cmd 0x77 0 k v 0 0 0 0
/-- A SEND of another queue pair waits until counter 9 reaches 4. -/
def trigSend : Cmd := { cmd 0x72 0 (host 0x1000) (33 * 2 ^ 46 + 300 * 2 ^ 30 + 2 * 2 ^ 22 + 256) (64 * 2 ^ 31) 0 (9 * 2 ^ 48 + 4) 0 with q := 1 }
def counted (v : Nat) : State :=
  let s := xportUp { netUp.xport with counters := [((1, 9), v)] }
  { s with host := { s.host with slots := [{ fetched 0 trigSend with phase := .waiting .tag }, fetched 1 (ctrC 9 4)], nextSlot := 2 } }
theorem test_ctrSet : Starts 0x77 (ctrC 9 4) (on netUp (ctrC 9 4)) 1 (on netUp (ctrC 9 4)) ∧
    after (exec (.ctrSet (ctrC 9 4)) (counted 2)) (fun t => dueOf t = [(1, 0, 2, 0)] && tget t.xport.counters (1, 9) = some 4 &&
      (slotById t 0).map (·.phase) = some (.waiting .released)) = true ∧
    ended (run .ctrSet (ctrC 0 4) netUp) = some (0x0711, 0, 0) ∧ ended (run .ctrSet (ctrC 4096 4) netUp) = some (0x0710, 0, 0) ∧
    ended (run .ctrSet (ctrC 4095 4) netUp) = some (0, 0, 0) := ⟨starts_of (by decide), by decide⟩
/-- A released SEND takes a send record; with no key at hand its packets wait in it; with no record free it goes on waiting. -/
def triggered (keys : List (Nat × Nat)) : State :=
  let s := xportUp { netUp.xport with keys := keys, nextSend := 5 }
  { s with host := { s.host with slots := [{ fetched 0 trigSend with phase := .waiting .released }], nextSlot := 1 } }
theorem test_counterTrigger : sendRoom (triggered []) 1 = true ∧ sendRefusal (triggered []) trigSend = none ∧
    ended (exec (.counterTrigger 1 9) { triggered [] with fab := { (triggered []).fab with members := [] } }) = some (0x0706, 0, 0) ∧
    after (exec (.counterTrigger 1 9) (triggered [])) (fun t => decide (t.xport.sends.map (fun r => (r.slot, r.ep, r.dest, r.length, r.serial, r.packets.length)) =
      [(0, 256, 33, 64, 0, 0)]) && decide (t.host.due = [])) = true ∧
    after (exec (.counterTrigger 1 8) (triggered [])) (fun t => t.xport.sends = []) = true := by decide +kernel
def ctxC : Cmd := cmd0 0x78 0 2097152 0 0 0 0 0
def ctxUp (store : Nat) : State := { netUp with image := { image with fabric := { image.fabric with contextStore := store } } }
theorem test_xportCtxAttach : Starts 0x78 ctxC (on (ctxUp 1) ctxC) 1 (on (ctxUp 1) ctxC) ∧
    ended (run .xportCtxAttach ctxC (ctxUp 1)) = some (0, 0, 0) ∧ after (run .xportCtxAttach ctxC (ctxUp 1)) (fun t => t.xport.ctxArea = some 2097152) = true ∧
    ended (run .xportCtxAttach ctxC (ctxUp 0)) = some (0x0711, 0, 0) ∧ ended (run .xportCtxAttach (cmd0 0x78 0 1048576 0 0 0 0 0) (ctxUp 1)) = some (0x0304, 0, 0) ∧
    ended (run .xportCtxAttach { ctxC with fn := 1 } (ctxUp 1)) = some (0x0B21, 0, 0) := ⟨starts_of (by decide), by decide⟩
def dataFrame : Frame := frame (.xport (pkt 0 0 64 7 (List.replicate 64 1)))
def missed (resident : List Nat) (keys : List (Nat × Nat)) : State :=
  xportUp { netUp.xport with resident := resident, keys := keys, miss := [{ port := 0, sub := 0, frame := dataFrame }] }
/-- The context is resident, and the frame that waited stands in the receive buffer. -/
theorem test_contextFetchComplete :
    after (exec (.contextFetchComplete 256) (missed [] [(33, 0)])) (fun t => t.xport.resident = [256] && t.xport.miss = [] && t.fab.inbox.length = 1) = true ∧
    after (exec (.contextFetchComplete 257) (missed [] [(33, 0)])) (fun t => t = missed [] [(33, 0)]) = true := by decide
/-- The key is the newest, and the frame that waited is received; without a secret nothing happens. -/
theorem test_keyDerived :
    after (exec (.keyDerived 33 0) (missed [256] [(34, 0)])) (fun t => t.xport.keys = [(34, 0), (33, 0)] && t.xport.miss = [] && t.fab.inbox.length = 1) = true ∧
    after (exec (.keyDerived 34 0) (missed [256] [])) (fun t => t.xport.keys = [(34, 0)] && t.xport.miss.length = 1) = true ∧
    after (exec (.keyDerived 33 0) { missed [256] [] with sec := Sec.reset }) (fun t => t.xport.keys = []) = true := by decide

/-! ### Messages -/

def netMem (s : State) : State := { s with hostMem := bytesAt 0x1000 [1, 2, 3] }
def noRoute (s : State) : State := { s with fab := { s.fab with slotRoutes := [] } }
/-- SEND of 64 bytes to endpoint 300 of module 33, with one word changed. -/
def sendW (w2 w3 w4 w5 w6 w7 : Nat) : Cmd := cmd 0x72 0 w2 w3 w4 w5 w6 w7
def toPeer (dest ep : Nat) : Nat := dest * 2 ^ 46 + 300 * 2 ^ 30 + 2 * 2 ^ 22 + ep
theorem test_send : Starts 0x72 sendCmd (on netUp sendCmd) 1 (on netUp sendCmd) ∧
    after (run .send sendCmd netUp) (fun t => t.host.due = [] && t.xport.sends.map (fun r => (r.ep, r.gen, r.dstEp, r.dstGen, r.dest, r.length)) = [(256, 5, 300, 2, 33, 64)] &&
      (t.xport.sends.map (fun r => (r.tx 0).queued) = [true]) && (queuedX t).length = 1 && (epOf t 256).nextSerial = 1) = true ∧
    after (run .send sendCmd (withKeys [] netUp)) (fun t => t.xport.sends.map (fun r => r.packets.length) = [0] && queuedX t = []) = true ∧
    after (run .send sendCmd (noRoute netUp)) (fun t => dueOf t = [(1, 0x0706, 0, 0)] && t.xport.sends = []) = true := ⟨starts_of (by decide), by decide +kernel⟩
/-- In order: a length above 2^32, tag and trigger together, tag 4,096, an endpoint not open, no fabric ID, no member; a trigger not reached waits. -/
theorem test_send_refused :
    ended (run .send (sendW (host 0) (toPeer 33 256) (4294967297 * 2 ^ 31) 0 0 0) netUp) = some (0x0711, 0, 0) ∧
    ended (run .send (sendW (host 0) (toPeer 33 256) 0 (2 ^ 48) (2 ^ 48) 0) netUp) = some (0x0711, 0, 0) ∧
    ended (run .send (sendW (host 0) (toPeer 33 256) 0 (4096 * 2 ^ 48) 0 0) netUp) = some (0x0710, 0, 0) ∧
    ended (run .send (sendW (host 0) (toPeer 33 257) 0 0 0 0) netUp) = some (0x0703, 0, 0) ∧
    ended (run .send sendCmd { netUp with fab := { netUp.fab with locked := false } }) = some (0x0702, 0, 0) ∧
    ended (run .send (sendW (host 0) (toPeer 34 256) 0 0 0 0) netUp) = some (0x0706, 0, 0) ∧
    after (run .send (sendW (host 0) (toPeer 33 256) 0 0 (9 * 2 ^ 48 + 4) 0) netUp) (fun t => t.host.due = [] && t.xport.sends = [] &&
      (slotById t 1).map (·.phase) = some (.waiting .tag)) = true := by decide
theorem test_recv : Starts 0x73 (recvC 256 64 0) (on netUp (recvC 256 64 0)) 1 (on netUp (recvC 256 64 0)) ∧
    after (run .recv (recvC 256 64 0) netUp) (fun t => (epOf t 256).recvs = [{ posted 64 with slot := 1 }] && t.host.due = []) = true ∧
    after (run .recv (recvC 256 64 3) netUp) (fun t => (epOf t 256).recvs = [] && t.comp.waitTags = [(1, 3, 1)]) = true ∧
    after (run .recv (recvC 256 64 3) { netUp with xport := { netUp.xport with tags := [((1, 3), (1, 0))] } }) (fun t => (epOf t 256).recvs.length = 1 &&
      tagCounts t 1 3 = (1, 1)) = true := ⟨starts_of (by decide), by decide⟩
theorem test_recv_refused :
    ended (run .recv (recvC 256 4294967297 0) netUp) = some (0x0711, 0, 0) ∧ ended (run .recv (recvC 256 64 4096) netUp) = some (0x0710, 0, 0) ∧
    ended (run .recv (recvC 257 64 0) netUp) = some (0x0703, 0, 0) := by decide
/-- FLUSH toward module 33 from endpoint 256. -/
def flushC : Cmd := cmd 0x74 0 (33 * 2 ^ 46 + 256) 0 0 0 0 0
def covered (e : Option Bool) : State :=
  { netUp with host := { netUp.host with ops := [{ id := 1, slot := 0, fn := 1, q := 0, src := none, kind := .remote 33 256, ended := some false },
                                                  { id := 2, slot := 0, fn := 1, q := 0, src := none, kind := .remote 33 256, ended := e }], nextOp := 3 } }
theorem test_flush : Starts 0x74 flushC (on (covered none) flushC) 1 (on (covered none) flushC) ∧
    after (run .flush flushC (covered (some true))) (fun t => dueOf t = [(1, 0x0010, 2, 1)] && t.host.ops = []) = true ∧
    after (run .flush flushC (covered none)) (fun t => t.host.due = [] && t.host.ops.length = 2 && (slotById t 1).map (·.phase) = some (.waiting .fabric)) = true ∧
    ended (run .flush flushC netUp) = some (0, 0, 0) ∧ ended (run .flush (cmd 0x74 0 257 0 0 0 0 0) netUp) = some (0x0703, 0, 0) ∧
    ended (run .flush flushC { netUp with fab := { netUp.fab with id := none } }) = some (0x0702, 0, 0) := ⟨starts_of (by decide), by decide⟩
/-- A message of three bytes is placed, its receive completes with length and sender, its ID is remembered, and a FINAL ACK leaves. -/
theorem test_data : packetCheck (recvUp 64 netUp.xport) data3 = none ∧
    after (exec (.data data3) (recvUp 64 netUp.xport)) (fun t => t.hostMem = [(0x3000, 7), (0x3001, 8), (0x3002, 9)] &&
      dueOf t = [(0, 0, 3, 33 * 2 ^ 46 + 300 * 2 ^ 30 + 2 * 2 ^ 22 + 6)] && t.xport.remembered.map (fun m => (m.src, m.serial, m.aborted)) = [(33, 4, false)] &&
      (queuedX t).map (fun p => (p.hdr.type, p.hdr.final, p.hdr.dstEp, p.hdr.srcEp)) = [(1, true, 300, 256)] && tgetD t.xport.counters (1, 9) 0 = 1) = true ∧
    after (exec (.data (pkt 0 0 5000 7 (List.replicate 4096 1))) (recvUp 5000 netUp.xport)) (fun t => t.xport.recvs.map (fun r => (r.placed, r.length)) = [([0], 5000)] &&
      t.host.due = []) = true := by decide +kernel
/-- REFUSE 0x09 (too small) and 0x0A (wrong key), NOT_READY with 20 µs, a remembered message, a stale generation, a keyed message into region 3. -/
theorem test_data_answers :
    after (exec (.data data3) (recvUp 2 netUp.xport)) (fun t => (queuedX t).map (fun p => (p.hdr.type, p.hdr.reason)) = [(3, 0x09)] && t.hostMem = []) = true ∧
    after (exec (.data (pkt 0 0 3 8 [7, 8, 9])) (recvUp 64 netUp.xport)) (fun t => (queuedX t).map (fun p => (p.hdr.type, p.hdr.reason)) = [(3, 0x0A)]) = true ∧
    after (exec (.data data3) netUp) (fun t => (queuedX t).map (fun p => (p.hdr.type, p.hdr.hintUs)) = [(2, 20)]) = true ∧
    after (exec (.data data3) (recvUp 64 { netUp.xport with remembered := [{ src := 33, srcEp := 300, srcGen := 2, serial := 4, maxStamp := 0, aborted := false }] }))
      (fun t => (queuedX t).map (fun p => (p.hdr.type, p.hdr.final)) = [(1, true)] && t.hostMem = []) = true ∧
    after (exec (.data { data3 with hdr := { data3.hdr with dstGen := 4 } }) netUp) (fun t => t.fab.dropped.map (·.2) = [1] && queuedX t = []) = true ∧
    after (exec (.data (pkt 0 1 3 3 [7, 8, 9])) (recvUp 64 { netUp.xport with regions := [(3, region 0 2 0x5000 64)] }))
      (fun t => t.hostMem = [(0x5000, 7), (0x5001, 8), (0x5002, 9)] && tgetD t.xport.counters (1, 9) 0 = 1) = true := by decide +kernel
/-- 2 µs after the oldest placement (the monotonic clock stands at 7,000): an ACK with PACKET 1, the lowest absent, and bit 1 of its bits for packet 2. -/
theorem test_ackCoalesceTimer :
    after (exec (.ackCoalesceTimer 33 300 2 4) (coalesce (some 5000))) (fun t => t.xport.recvs = [{ rec02 none with newly := 0 }] &&
      (queuedX t).map (fun p => (p.hdr.type, p.hdr.final, p.hdr.packet, (p.data.take 2).map (·.toNat), p.data.length)) = [(1, false, 1, [2, 0], 128)]) = true ∧
    after (exec (.ackCoalesceTimer 33 300 2 4) (coalesce (some 5001))) (fun t => t = coalesce (some 5001)) = true ∧
    after (exec (.ackCoalesceTimer 33 300 2 4) (coalesce none)) (fun t => t = coalesce none) = true := by decide +kernel
/-- A FINAL ACK frees the record; the SEND completes with its number of packets, or has completed before. -/
theorem test_ack : packetCheck (sending (sentPkt id)) (answer 1 0 0 true []) = none ∧
    after (exec (.ack (answer 1 0 0 true [])) (sending (sentPkt id))) (fun t => t.xport.sends = [] && dueOf t = [(1, 0, 1, 0)]) = true ∧
    after (exec (.ack (answer 1 0 0 true [])) (sending { sentPkt id with completed := true })) (fun t => t.xport.sends = [] && t.host.due = []) = true := by decide
/-- Packets 0 and 2 placed: PACKET 1 with bit 1 set; packet 1 is the lowest left. -/
def threeSent : SendRec := { sendRec 12288 with packets := (List.range 3).map fun p => (p, { TxPacket.fresh with sent := true }) }
theorem test_ack_partial :
    after (exec (.ack { answer 1 0 0 false (2 :: List.replicate 127 0) with hdr := { (answer 1 0 0 false []).hdr with packet := 1 } }) (withKeys [] (sending threeSent)))
      (fun t => t.xport.sends.map (fun r => (r.low, r.packets.map fun x => (x.1, x.2.acked))) = [(1, [(1, false), (2, true)])]) = true := by decide +kernel
/-- NOT_READY with a hint of 20 µs at monotonic time 7,000. -/
theorem test_notReady :
    after (exec (.notReady (answer 2 0 20 false [])) (sending (sentPkt id))) (fun t =>
      t.xport.sends.map (fun r => ((r.tx 0).holdUntil, (r.tx 0).refusedAt, (r.tx 0).sent)) = [(some 27000, some 7000, false)]) = true ∧
    after (exec (.notReady (answer 2 0 20 false [])) (sending (sentPkt fun x => { x with refusedAt := some 5 }))) (fun t =>
      t.xport.sends.map (fun r => (r.tx 0).refusedAt) = [some 5]) = true := by decide
def held (until' refused : Nat) : SendRec := { sendRec 64 with packets := [(0, { TxPacket.fresh with holdUntil := some until', refusedAt := some refused })] }
theorem test_notReadyRetry :
    after (exec (.notReadyRetry 0 0) (sending (held 7000 5))) (fun t => t.xport.sends.map (fun r => ((r.tx 0).queued, (r.tx 0).holdUntil, (r.tx 0).refusedAt)) =
      [(true, none, some 5)] && (queuedX t).length = 1) = true ∧
    after (exec (.notReadyRetry 0 0) (sending (held 7001 5))) (fun t => t = sending (held 7001 5)) = true := by decide +kernel
/-- 1,000 ms after the first refusal. -/
theorem test_notReadyTimeout :
    after (exec (.notReadyTimeout 0 0) { withKeys [] (sending (held 9 7000)) with mono := 1000007000 }) (fun t => dueOf t = [(1, 0x0708, 0, 0)] &&
      t.xport.sends.map (fun r => (r.failed, r.packets.length)) = [(some 0x0708, 0)]) = true ∧
    after (exec (.notReadyTimeout 0 0) { withKeys [] (sending (held 9 7000)) with mono := 1000006999 }) (fun t => t.host.due = []) = true := by decide

/-! ### Frames that arrive, and the end of messages -/

def rx (f : Frame) (s : State) : Host.Outcome State Fault Refusal := exec (.frameReceive 0 0 f) s
def xf (p : XPacket) : Frame := frame (.xport p)
def based (g : BaseHdr → BaseHdr) : Frame := xf { data3 with base := g data3.base }
/-- A good packet stands in the receive buffer; on a link that is not ON, or not there, nothing happens; an IEEE 1588 frame is buffered. -/
theorem test_frameReceive : linkExists netUp 0 0 = true ∧ linkOn netUp 0 0 = true ∧
    after (rx (xf data3) netUp) (fun t => t.fab.inbox = [{ port := 0, sub := 0, cls := 0, bytes := 166, item := .xport data3 }] && t.fab.dropped = []) = true ∧
    after (exec (.frameReceive 1 0 (xf data3)) netUp) (fun t => t = netUp) = true ∧ after (exec (.frameReceive 16 0 (xf data3)) netUp) (fun t => t = netUp) = true ∧
    after (rx (frame .ptp) netUp) (fun t => t.fab.inbox.map (·.item) = [.ptp]) = true := by decide
/-- What is dropped, and under which count: checksum, EtherType, version, destination, sender without time, STAMP 1,001 ns ahead, STAMP of 2 ms ago,
key epoch, tag (with event 0x64), member. -/
def count1 (f : Frame) (s : State) : List (Nat × Nat) := match rx f s with | .next t => t.fab.dropped | _ => []
theorem test_frameReceive_drops :
    count1 { xf data3 with checkOk := false } netUp = [(0, 1)] ∧ count1 { xf data3 with etype := 1 } netUp = [(1, 1)] ∧
    count1 (based fun b => { b with version := 2 }) netUp = [(2, 1)] ∧ count1 (based fun b => { b with dest := 33 }) netUp = [(3, 1)] ∧
    count1 (based fun b => { b with locked := false }) netUp = [(4, 1)] ∧ count1 (based fun b => { b with stamp := 6001 }) netUp = [(5, 1)] ∧
    count1 (based fun b => { b with stamp := 6000 }) netUp = [] ∧ count1 (xf data3) { netUp with time := 2004901 } = [(5, 1)] ∧
    count1 (xf data3) { netUp with time := 2004900 } = [] ∧ count1 (based fun b => { b with keyEpoch := 1 }) netUp = [(6, 1)] ∧
    after (rx { xf data3 with authentic := false } netUp) (fun t => t.fab.dropped = [(6, 1)] && tgetD t.tele.events (25, 0x64) 0 = 1) = true ∧
    (count1 (based fun b => { b with src := 34 }) (withKeys [(34, 0)] netUp)).length = 1 := by decide
/-- Without its key, or its endpoint's context, a frame waits in the miss buffer. -/
theorem test_frameReceive_waits :
    after (rx (xf data3) (withKeys [] netUp)) (fun t => t.xport.miss.length = 1 && t.fab.inbox = []) = true ∧
    after (rx (xf data3) { netUp with xport := { netUp.xport with resident := [] } }) (fun t => t.xport.miss.length = 1 && t.fab.inbox = []) = true := by decide
/-- REFUSE with REASON 0x09: 0x0709. Where the SEND has completed, event 0x66 reports it. -/
theorem test_refuse : packetCheck (withKeys [] (sending (sentPkt id))) (answer 3 9 0 false []) = none ∧
    after (exec (.refuse (answer 3 9 0 false [])) (withKeys [] (sending (sentPkt id)))) (fun t => dueOf t = [(1, 0x0709, 0, 0)] &&
      t.xport.sends.map (fun r => (r.failed, r.completed)) = [(some 0x0709, true)]) = true ∧
    after (exec (.refuse (answer 3 9 0 false [])) (withKeys [] (sending { sentPkt id with completed := true }))) (fun t => t.host.due = [] &&
      tgetD t.tele.events (25, 0x66) 0 = 1) = true := by decide
/-- ABORT: the matched receive of slot 0 ends with 0x070D, and the ID is remembered as aborted. -/
theorem test_abort :
    after (exec (.abort (pkt 4 0 20000 7 [])) (coalesce none)) (fun t => dueOf t = [(0, 0x070D, 0, 0)] && t.xport.recvs = [] &&
      t.xport.remembered.map (·.aborted) = [true] && (queuedX t).map (fun p => (p.hdr.type, p.hdr.final)) = [(1, true)]) = true ∧
    after (exec (.abort (pkt 4 0 20000 7 [])) netUp) (fun t => t.host.due = [] && t.xport.remembered.map (·.aborted) = [true]) = true := by decide
/-- An overdue packet goes out again: interval 16 µs from 3,000 is over at 19,000. -/
def lateAt (m : Nat) (r : SendRec) : State := { sending r with mono := m }
theorem test_retransmitTimer :
    after (exec (.retransmitTimer 0 0) (lateAt 19000 (sentPkt id))) (fun t => t.xport.sends.map (fun r => ((r.tx 0).queued, (r.tx 0).attempt, (r.tx 0).interval, (r.tx 0).stamp)) =
      [(true, 1, 32000, 4000)] && (queuedX t).length = 1) = true ∧
    after (exec (.retransmitTimer 0 0) (lateAt 18999 (sentPkt id))) (fun t => t = lateAt 18999 (sentPkt id)) = true ∧
    after (exec (.retransmitTimer 0 0) (lateAt 259000 (sentPkt fun x => { x with interval := 256000 }))) (fun t => t.xport.sends.map (fun r => (r.tx 0).interval) = [256000]) = true := by
  decide +kernel
def failedRec : SendRec := { sendRec 64 with failed := some 0x0707, completed := true, abortPkt := { TxPacket.fresh with sent := true, stamp := 4000, lastTx := 3000 } }
theorem test_retransmitTimer_abort :
    after (exec (.retransmitTimer 0 0) (lateAt 19000 failedRec)) (fun t => t.xport.sends.map (fun r => (r.abortPkt.queued, r.abortPkt.attempt, r.failed)) = [(true, 1, some 0x0707)] &&
      (queuedX t).map (·.hdr.type) = [4]) = true := by decide
/-- A packet stamped 4,000 has expired after 4,000 + 2,000,000 + 1,000. -/
def oldAt (n : Nat) (r : SendRec) : State := { withKeys [] (sending r) with time := n }
theorem test_deliveryTimeout :
    after (exec (.deliveryTimeout 0 0) (oldAt 2005001 (sentPkt id))) (fun t => dueOf t = [(1, 0x0707, 0, 0)] && t.xport.sends.map (·.failed) = [some 0x0707]) = true ∧
    after (exec (.deliveryTimeout 0 0) (oldAt 2005000 (sentPkt id))) (fun t => t = oldAt 2005000 (sentPkt id)) = true ∧
    after (exec (.deliveryTimeout 0 0) (oldAt 2005001 failedRec)) (fun t => t.xport.sends = [] && t.host.due = []) = true := by decide
def remembering (stamp : Nat) : State :=
  { netUp with xport := { netUp.xport with remembered := [{ src := 33, srcEp := 300, srcGen := 2, serial := 4, maxStamp := stamp, aborted := false }] }, time := 2005000 }
theorem test_completionTableExpiry :
    after (exec (.completionTableExpiry 33 300 2 4) (remembering 4999)) (fun t => t.xport.remembered = []) = true ∧
    after (exec (.completionTableExpiry 33 300 2 4) (remembering 5000)) (fun t => t.xport.remembered.length = 1) = true := by decide
/-- Fragments of a ROUTE_UPDATE (1) and a MEMBERSHIP (2) message held since 0. -/
def halves : State :=
  { netUp with fab := { netUp.fab with fragments := [{ subtype := 1, count := 2, held := [0], since := 0 }, { subtype := 2, count := 2, held := [0], since := 0 }] } }
theorem test_fragmentDiscard :
    after (exec (.fragmentDiscard 2) { halves with mono := 100000000 }) (fun t => t.fab.fragments.map (·.subtype) = [1]) = true ∧
    after (exec (.fragmentDiscard 2) { halves with mono := 99999999 }) (fun t => t.fab.fragments.map (·.subtype) = [1, 2]) = true := by decide
/-- A message refused at monotonic time r goes out again 1 ms later. -/
def retrying (r : Nat) : State := { netUp with req := { Req.reset with retry := [(33, .released sendCmd, r)] }, mono := 1000000 }
theorem test_systemEndpointRetry : canSend (retrying 0) = true ∧
    after (exec .systemEndpointRetry (retrying 0)) (fun t => t.req.retry = [] && t.req.outbox.map (·.1) = [33]) = true ∧
    after (exec .systemEndpointRetry (retrying 1)) (fun t => t = retrying 1) = true := by decide

/-! ### Bytes on the wire -/

/-- Bytes laid out by hand from Table 14.3: version 1, KIND 0, CLASS 5, LOCKED, ENTROPY 0xABCD; modules 33 and 32, 100 bytes; STAMP; key epoch 0x24 and SEQ. -/
def wireHdr : BaseHdr :=
  { version := 1, kind := 0, cls := 5, locked := true, entropy := 0xABCD, membership := 0x01020304, dest := 33, src := 32, length := 100, stamp := 0x0123456789ABCDEF,
    keyEpoch := 0x24, seq := 0xA1B2C3D4E5F6 }
theorem test_baseBytes :
    (baseBytes wireHdr).map (·.toNat) = [0x10, 0xB0, 0xAB, 0xCD, 1, 2, 3, 4, 0, 8, 0x40, 2, 0, 0, 0, 100, 0x01, 0x23, 0x45, 0x67, 0x89, 0xAB, 0xCD, 0xEF,
      0x24, 0, 0xA1, 0xB2, 0xC3, 0xD4, 0xE5, 0xF6] ∧ wireHdr.ok = true ∧ baseOf (baseBytes wireHdr) = wireHdr := by decide +kernel
/-- The worked example of 19: the info of modules 0x2C3 and 0xA15 in key epoch 292. -/
theorem test_pairInfo : (pairInfo 0xA15 0x2C3 292).map (·.toNat) = [0x01, 0x00, 0x02, 0xC3, 0x00, 0x0A, 0x15, 0x00, 0x01, 0x24] := by decide +kernel
/-- R437: SRC, zero, SEQ; R547: the low half of the serial number, SEQ. -/
theorem test_nonces :
    (pairNonce wireHdr).map (·.toNat) = [0, 0, 32, 0, 0, 0, 0xA1, 0xB2, 0xC3, 0xD4, 0xE5, 0xF6] ∧
    (discoveryNonce 0x1122334455667788 7).map (·.toNat) = [0x55, 0x66, 0x77, 0x88, 0, 0, 0, 0, 0, 0, 0, 7] := by decide +kernel
/-- The worked example of 14: link (2, 0) of module 0xA15. -/
theorem test_macAddress : macAddress 0xA15 2 0 = 0x0200 * 2 ^ 32 + 0x00200A15 := by decide +kernel
/-- A data packet, a tray packet and an announcement read back. -/
theorem test_headers :
    transOf (transBytes data3.hdr) = data3.hdr ∧ data3.hdr.ok = true ∧ (transBytes data3.hdr).length = 32 ∧
    trayOf (trayBytes { type := 1, op := 2, aop := 7, width := 1, dtype := 3, opId := 9, ackedBelow := 8, status := 0x0804, poison := true, addr := 2 ^ 45, mkey := 5, len := 4096 }) =
      { type := 1, op := 2, aop := 7, width := 1, dtype := 3, opId := 9, ackedBelow := 8, status := 0x0804, poison := true, addr := 2 ^ 45, mkey := 5, len := 4096 } := by decide +kernel

/-! ### Tray commands -/

/-- A tray command of job 3: key 5, AOP, WIDTH, DTYPE, LENGTH in word 2, address in word 3, reference in word 4. -/
def trayC (op aop width dtype len addr ref : Nat) : Cmd :=
  cmd (3 * 2 ^ 32 + op) 0 (5 * 2 ^ 32 + aop * 2 ^ 28 + width * 2 ^ 26 + dtype * 2 ^ 24 + len) addr ref 0 0 0
/-- `netUp` with job 3 of tenant 1 open, and 1, 2, 3 at 0x1000. -/
def jobUp : State := { netUp with host := { netUp.host with jobs := [((1, 3), { closing := false, keys := [], waiters := [], handles := [], cancels := [], okCount := 0 })] }, hostMem := bytesAt 0x1000 [1, 2, 3] }
def opsTo (o : Host.Outcome State Fault Refusal) (home : Nat) : List TrayOp := match o with | .next t => (peerOf t home).ops | _ => []
def trayQueue (t : State) : List TPacket := (tgetD t.shape.queues (0, 0, 0, 1) []).filterMap fun q => match q.frame.payload with | .tray p => some p | _ => none
def loadC : Cmd := trayC 0x80 0 0 0 64 (trayAt 1 0x100) (host 0x3000)
theorem test_trayLoad : Starts 0x80 loadC (on jobUp loadC) 1 (on jobUp loadC) ∧
    (opsTo (run .trayLoad loadC jobUp) 33).map (fun o => (o.opId, o.req.hdr.op, o.req.hdr.addr, o.req.hdr.mkey, o.req.hdr.len)) =
      [(0, 0, trayAt 1 0x100, 5, 64)] ∧ (opsTo (run .trayLoad loadC jobUp) 33).map (fun o => (o.job, o.queued, o.credit)) = [(3, true, true)] ∧
    after (run .trayLoad loadC jobUp) (fun t => (peerOf t 33).credits = 15 && (peerOf t 33).nextOp = 1 && (trayQueue t).length = 1 && t.host.due = [] && t.host.ops = [] &&
      tgetD t.tray.masks (1, 3) 0 = 2) = true ∧
    (opsTo (run .trayLoad loadC (withKeys [] jobUp)) 33).map (·.queued) = [false] ∧
    after (run .trayLoad (trayC 0x80 0 0 0 64 (trayAt 0 0x100) (host 0x3000)) jobUp) (fun t => t.fab.inbox.map (fun x => (x.port, x.cls)) = [(16, 0)] && t.host.due = []) = true :=
  ⟨starts_of (by decide), by decide +kernel⟩
/-- In order: LENGTH 0 and 4,097, tag 4,096, no job, a frozen job, a slot that is no member, no time. -/
theorem test_trayLoad_refused :
    ended (run .trayLoad (trayC 0x80 0 0 0 0 (trayAt 1 0) (host 0)) jobUp) = some (0x0801, 0, 0) ∧
    ended (run .trayLoad (trayC 0x80 0 0 0 4097 (trayAt 1 0) (host 0)) jobUp) = some (0x0801, 0, 0) ∧
    ended (run .trayLoad { loadC with w5 := BitVec.ofNat 64 (4096 * 2 ^ 48) } jobUp) = some (0x0710, 0, 0) ∧
    ended (run .trayLoad { loadC with w0 := 0x80 } jobUp) = some (0x0808, 0, 0) ∧
    ended (run .trayLoad loadC { jobUp with tray := { jobUp.tray with frozen := [(1, 3)] } }) = some (0x0806, 0, 0) ∧
    ended (run .trayLoad (trayC 0x80 0 0 0 64 (trayAt 2 0) (host 0)) jobUp) = some (0x0803, 0, 0) ∧
    ended (run .trayLoad loadC { jobUp with fab := { jobUp.fab with locked := false } }) = some (0x0702, 0, 0) := by decide
/-- A STORE to another member waits for its frame; one to the module itself has left at once, and RESULT1 is its OP_ID. -/
def storeC (slot : Nat) : Cmd := trayC 0x81 0 0 0 3 (trayAt slot 0x100) (host 0x1000)
theorem test_trayStore : Starts 0x81 (storeC 1) (on jobUp (storeC 1)) 1 (on jobUp (storeC 1)) ∧
    after (run .trayStore (storeC 1) jobUp) (fun t => (trayQueue t).length = 1 && t.host.due = [] && t.host.ops.map (fun o => (o.slot, o.kind, o.ended)) = [(1, .tray, none)]) = true ∧
    after (run .trayStore (storeC 0) { jobUp with tray := { jobUp.tray with peers := [(32, { TrayPeer.fresh with nextOp := 7 })] } }) (fun t => dueOf t = [(1, 0, 0, 7)] &&
      t.fab.inbox.map (fun x => match x.item with | .tray p => p.data.map (·.toNat) | _ => []) = [[1, 2, 3]]) = true := ⟨starts_of (by decide), by decide⟩
/-- A crossbar budget of nothing (RESOURCE 2) holds the request back. -/
theorem test_trayStore_held : (opsTo (run .trayStore (storeC 1) { jobUp with gov := { jobUp.gov with balance := [((1, 2, 0, 0), 0)] } }) 33).map (fun o => (o.queued, o.credit)) =
    [(false, false)] := by decide
/-- ATOMIC ADD (AOP 2) of 8 bytes (WIDTH 1) takes its operand from words 4 and 5; CAS (AOP 1) of 16 bytes carries two operands. -/
def atomicC (aop width len addr : Nat) : Cmd := trayC 0x82 aop width 0 len (trayAt 1 addr) 9
theorem test_trayAtomic : Starts 0x82 (atomicC 2 1 8 0x100) (on jobUp (atomicC 2 1 8 0x100)) 1 (on jobUp (atomicC 2 1 8 0x100)) ∧
    (opsTo (run .trayAtomic (atomicC 2 1 8 0x100) jobUp) 33).map (fun o => (o.req.hdr.op, o.req.hdr.aop, o.req.hdr.width, o.req.data.map (·.toNat))) = [(2, 2, 1, [9, 0, 0, 0, 0, 0, 0, 0])] ∧
    (opsTo (run .trayAtomic (atomicC 1 2 32 0x100) jobUp) 33).map (·.req.data.length) = [32] ∧
    ended (run .trayAtomic (atomicC 2 1 8 0x104) jobUp) = some (0x0802, 0, 0) ∧ ended (run .trayAtomic (atomicC 2 2 16 0x100) jobUp) = some (0x0801, 0, 0) ∧
    ended (run .trayAtomic (atomicC 2 1 4 0x100) jobUp) = some (0x0801, 0, 0) := ⟨starts_of (by decide), by decide⟩
/-- REDUCE of INT32 elements (DTYPE 0): AND (3) is allowed, but not of FP32 (2). -/
def reduceC (aop dtype len addr : Nat) : Cmd := trayC 0x83 aop 0 dtype len (trayAt 1 addr) (host 0x1000)
theorem test_trayReduce : Starts 0x83 (reduceC 3 0 64 0x100) (on jobUp (reduceC 3 0 64 0x100)) 1 (on jobUp (reduceC 3 0 64 0x100)) ∧
    (opsTo (run .trayReduce (reduceC 3 0 64 0x100) jobUp) 33).map (fun o => (o.req.hdr.op, o.req.hdr.aop, o.req.hdr.dtype)) = [(3, 3, 0)] ∧
    ended (run .trayReduce (reduceC 3 2 64 0x100) jobUp) = some (0x0801, 0, 0) ∧ ended (run .trayReduce (reduceC 3 0 62 0x100) jobUp) = some (0x0802, 0, 0) ∧
    ended (run .trayReduce (reduceC 3 0 64 0x102) jobUp) = some (0x0802, 0, 0) := ⟨starts_of (by decide), by decide⟩
/-- A group of slot 1 alone; OFFSET 0x40. -/
def groupUp (ms : List (Nat × Nat)) : State := { withKeys [] jobUp with tray := { jobUp.tray with groups := [(2, { tenant := 1, job := 3, members := ms })] } }
def mcastC (len off : Nat) : Cmd := cmd (3 * 2 ^ 32 + 0x84) 0 (2 * 2 ^ 56 + len) off (host 0x1000) 0 0 0
theorem test_trayMcastStore : Starts 0x84 (mcastC 3 0x40) (on (groupUp [(5, trayAt 1 0x100)]) (mcastC 3 0x40)) 1 (on (groupUp [(5, trayAt 1 0x100)]) (mcastC 3 0x40)) ∧
    (opsTo (run .trayMcastStore (mcastC 3 0x40) (groupUp [(5, trayAt 1 0x100)])) 33).map (fun o => (o.req.hdr.op, o.req.hdr.mkey, o.req.hdr.addr)) = [(4, 5, trayAt 1 0x140)] ∧
    ended (run .trayMcastStore (mcastC 3 0) jobUp) = some (0x0807, 0, 0) ∧ ended (run .trayMcastStore (mcastC 0 0) (groupUp [])) = some (0x0801, 0, 0) ∧
    ended (run .trayMcastStore (mcastC 3 0) (groupUp [(5, trayAt 2 0)])) = some (0x0803, 0, 0) := ⟨starts_of (by decide), by decide⟩
/-- 64 KiB is one slab: the lowest free one of stack 0. -/
def trayAllocC (n : Nat) : Cmd := cmd (3 * 2 ^ 32 + 0x85) 0 n 3 0 0 0 0
theorem test_trayAlloc : Starts 0x85 (trayAllocC 65536) (on jobUp (trayAllocC 65536)) 1 (on jobUp (trayAllocC 65536)) ∧
    after (run .trayAlloc (trayAllocC 65536) jobUp) (fun t => t.host.due.map (fun d => (d.status, d.result0)) = [(0, 0)] &&
      (tget t.xport.regions 0).map (fun r => (r.space, r.length, r.job, r.read, r.write, r.atomic)) = some (3, 65536, 3, true, true, false)) = true ∧
    freeRun (beg jobUp (trayAllocC 65536)) 0 1 = some 0 ∧
    ended (run .trayAlloc (trayAllocC 65535) jobUp) = some (0x0801, 0, 0) ∧ ended (run .trayAlloc (trayAllocC 1073807360) jobUp) = some (0x0801, 0, 0) ∧
    ended (run .trayAlloc { trayAllocC 65536 with w0 := 0x85 } jobUp) = some (0x0808, 0, 0) := ⟨starts_of (by decide), by decide +kernel⟩
/-- Two member entries of 16 bytes at 0x4000: key and address. -/
def membersAt (a1 a2 : Nat) : State :=
  { jobUp with hostMem := Memory.place [] (bytesAt 0x4000 ((leBytes 8 (5 * 2 ^ 32) ++ leBytes 8 a1 ++ leBytes 8 (6 * 2 ^ 32) ++ leBytes 8 a2).map (·.toNat))) }
def groupC (n a : Nat) : Cmd := cmd (3 * 2 ^ 32 + 0x86) 0 (2 * 2 ^ 56 + n) a 0 0 0 0
theorem test_trayGroupSet : Starts 0x86 (groupC 2 0x4000) (on (membersAt (trayAt 1 0) (trayAt 0 64)) (groupC 2 0x4000)) 1 (on (membersAt (trayAt 1 0) (trayAt 0 64)) (groupC 2 0x4000)) ∧
    ended (run .trayGroupSet (groupC 2 0x4000) (membersAt (trayAt 1 0) (trayAt 0 64))) = some (0, 2, 0) ∧
    after (run .trayGroupSet (groupC 2 0x4000) (membersAt (trayAt 1 0) (trayAt 0 64))) (fun t =>
      t.tray.groups = [(2, { tenant := 1, job := 3, members := [(5, trayAt 1 0), (6, trayAt 0 64)] })] && tgetD t.tray.masks (1, 3) 0 = 3) = true ∧
    after (run .trayGroupSet (groupC 0 0) (groupUp [])) (fun t => t.tray.groups = []) = true := ⟨starts_of (by decide), by decide⟩
theorem test_trayGroupSet_refused :
    ended (run .trayGroupSet (groupC 33 0x4000) jobUp) = some (0x0801, 0, 0) ∧ ended (run .trayGroupSet (groupC 2 0x4020) jobUp) = some (0x0304, 0, 0) ∧ ended (run .trayGroupSet (groupC 0 0x20) jobUp) = some (0x0304, 0, 0) ∧
    ended (run .trayGroupSet (groupC 2 0x4000) (membersAt (trayAt 1 0) (trayAt 1 64))) = some (0x0801, 0, 0) ∧
    ended (run .trayGroupSet (groupC 2 0x4000) (membersAt (trayAt 1 0) (trayAt 2 64))) = some (0x0803, 0, 0) := by decide

/-! ### The tray home and the initiator -/

/-- A request of module 33 to region entry 3, a SPACE 3 region of 4 KiB at byte 0x1000 of stack 0. -/
def trayHdr (op aop width dtype n addr len : Nat) : TrayHdr :=
  { type := 0, op := op, aop := aop, width := width, dtype := dtype, opId := n, ackedBelow := 0, status := 0, poison := false, addr := addr, mkey := 3, len := len }
def trayPkt (h : TrayHdr) (data : List Nat) : TPacket := { base := base33 1 data.length, hdr := h, data := data.map (BitVec.ofNat 8) }
def homeUp : State :=
  { netUp with xport := { netUp.xport with regions := [(3, region 0 3 0x1000 4096), (4, region 0 2 0x1000 64), (5, { region 0 3 0x1000 4096 with write := false })] } }
def homeSrc (x : TraySource) : State := { homeUp with tray := { homeUp.tray with sources := [(33, x)] } }
/-- Status of the replies that wait for module 33. -/
def replies (t : State) : List (Nat × Nat) :=
  (t.shape.queues.flatMap (·.2)).filterMap fun q => match q.frame.payload with | .tray p => some (p.hdr.opId, p.hdr.status) | _ => none
def reqSt (h : TrayHdr) (data : List Nat) (s : State) : List (Nat × Nat) := match exec (.trayRequest (trayPkt h data)) s with | .next t => replies t | _ => []
/-- A new ID joins the queue of its first line, line 64; the request of a REPLY's type is left to the initiator. -/
theorem test_trayRequest :
    after (exec (.trayRequest (trayPkt (trayHdr 1 0 0 0 0 0x1000 3) [7, 8, 9])) homeUp) (fun t => t.tray.work.map (fun w => (w.region, w.nextLine)) = [(3, 64)] &&
      idState (sourceOf t 33) 0 = .waiting && (sourceOf t 33).queued = 1 && replies t = []) = true ∧
    after (exec (.trayRequest (trayPkt { trayHdr 1 0 0 0 0 0x1000 3 with type := 1 } [])) homeUp) (fun t => t = homeUp) = true := by decide
/-- 0x0801 (data of another length), 0x0802, 0x070A (no region, SPACE 2), 0x070B, 0x070C at both ends, 0x0806, and another slot is dropped. -/
theorem test_trayRequest_refused :
    reqSt (trayHdr 1 0 0 0 0 0x1000 3) [7] homeUp = [(0, 0x0801)] ∧ reqSt (trayHdr 2 0 0 0 0 0x1002 4) [1, 2, 3, 4] homeUp = [(0, 0x0802)] ∧
    reqSt { trayHdr 0 0 0 0 0 0x1000 3 with mkey := 6 } [] homeUp = [(0, 0x070A)] ∧ reqSt { trayHdr 0 0 0 0 0 0x1000 3 with mkey := 4 } [] homeUp = [(0, 0x070A)] ∧
    reqSt { trayHdr 1 0 0 0 0 0x1000 1 with mkey := 5 } [7] homeUp = [(0, 0x070B)] ∧ reqSt (trayHdr 0 0 0 0 0 0xFFF 3) [] homeUp = [(0, 0x070C)] ∧
    reqSt (trayHdr 0 0 0 0 0 0x1FFE 3) [] homeUp = [(0, 0x070C)] ∧ reqSt (trayHdr 0 0 0 0 0 0x1FFD 3) [] homeUp = [] ∧
    reqSt (trayHdr 0 0 0 0 0 0x1000 3) [] { homeUp with tray := { homeUp.tray with frozen := [(1, 0)] } } = [(0, 0x0806)] ∧
    after (exec (.trayRequest (trayPkt (trayHdr 0 0 0 0 0 (trayAt 1 0x1000) 3) [])) homeUp) (fun t => t.fab.dropped = [(15, 1)]) = true := by decide
/-- The states of an ID (R474) with H = 300: waiting, held, released, older than 256, and a source with 16 requests queued. -/
def src300 (r : OpState) (q : Nat) : State := homeSrc { highest := 300, ids := [(299, r)], queued := q }
def heldReply : TPacket :=
  { trayPkt { trayHdr 0 0 0 0 299 0x1000 3 with type := 1, status := 0x070B } [] with base := { base33 1 0 with src := 32, dest := 33 } }
theorem test_trayRequest_ids :
    reqSt (trayHdr 0 0 0 0 299 0x1000 3) [] (src300 .waiting 1) = [] ∧
    reqSt (trayHdr 0 0 0 0 299 0x1000 3) [] (src300 (.held heldReply 0) 1) = [(299, 0x070B)] ∧
    reqSt (trayHdr 0 0 0 0 299 0x1000 3) [] (src300 .released 1) = [(299, 0x0804)] ∧
    reqSt (trayHdr 0 0 0 0 44 0x1000 3) [] (src300 .waiting 1) = [(44, 0x0804)] ∧
    after (exec (.trayRequest (trayPkt (trayHdr 0 0 0 0 45 0x1000 3) [])) (src300 .waiting 1)) (fun t => t.tray.work.length = 1) = true ∧
    after (exec (.trayRequest (trayPkt (trayHdr 0 0 0 0 301 0x1000 3) [])) (src300 .waiting 16)) (fun t => t.fab.dropped = [(14, 1)] && t.tray.work = []) = true := by decide
/-- One request at line 64, whose first bytes are 5, 0, 0, 0, 255. -/
def lineUp (h : TrayHdr) (data : List Nat) (l : Nat) : State :=
  { homeSrc { highest := 0, ids := [(0, .waiting)], queued := 1 } with tray :=
    { (homeSrc { highest := 0, ids := [(0, .waiting)], queued := 1 }).tray with mem := bytesAt 0x1000 [5, 0, 0, 0, 255], work := [{ pkt := trayPkt h data, region := 3, nextLine := l, gathered := [], poison := false }] } }
def lineOp (h : TrayHdr) (data : List Nat) (l : Nat) : Host.Outcome State Fault Refusal := exec (.trayLineOperation l) (lineUp h data l)
def firstBytes (t : State) : List Nat := ((lineNow t 64).1.take 5).map (·.toNat)
def reply0 (t : State) : Option (List Nat) := match idState (sourceOf t 33) 0 with | .held r _ => some (r.data.map (·.toNat)) | _ => none
/-- A LOAD of five bytes; a STORE of two at 0x1001; an ATOMIC ADD of 4 bytes, FETCH-style; a REDUCE SUM of INT32. -/
theorem test_trayLineOperation :
    after (lineOp (trayHdr 0 0 0 0 0 0x1000 5) [] 64) (fun t => reply0 t = some [5, 0, 0, 0, 255] && t.tray.work = [] && (sourceOf t 33).queued = 0) = true ∧
    after (lineOp (trayHdr 1 0 0 0 0 0x1001 2) [7, 8] 64) (fun t => firstBytes t = [5, 7, 8, 0, 255] && reply0 t = some []) = true ∧
    after (lineOp (trayHdr 2 2 0 0 0 0x1000 4) [254, 255, 255, 255] 64) (fun t => firstBytes t = [3, 0, 0, 0, 255] && reply0 t = some [5, 0, 0, 0]) = true ∧
    after (lineOp (trayHdr 3 1 0 0 0 0x1000 4) [254, 255, 255, 255] 64) (fun t => firstBytes t = [254, 255, 255, 255, 255] && reply0 t = some []) = true := by decide +kernel
/-- A STORE over two lines joins the queue of the next line with its first part done. -/
theorem test_trayLineOperation_next :
    after (lineOp (trayHdr 1 0 0 0 0 0x103F 2) [7, 8] 64) (fun t => t.tray.work.map (·.nextLine) = [65] && reply0 t = none &&
      ((lineNow t 64).1.getD 63 0) = 7 && ((lineNow t 65).1.getD 0 0) = 0) = true := by decide +kernel
/-- Slots 1 and 2 have a request each, at lines 64 and 70: the pointer at 2 grants slot 2 alone; a stack budget of nothing holds both. -/
def linesUp (ptr : Nat) : State :=
  let w : TrayWork := { pkt := trayPkt (trayHdr 0 0 0 0 0 0x1000 5) [], region := 3, nextLine := 64, gathered := [], poison := false }
  { homeUp with tray := { homeUp.tray with linePtr := ptr, work := [w, { w with nextLine := 70, pkt := { w.pkt with base := { w.pkt.base with src := 34 } } }] } }
def broke (s : State) : State := { s with gov := { s.gov with balance := [((1, 1, 0, 0), 0)] } }
theorem test_lineArbiter :
    lineGrant (linesUp 2) = some 2 ∧ lineGrant (linesUp 3) = some 1 ∧ lineGrant (broke (linesUp 2)) = none ∧
    after (exec (.trayLineOperation 64) (linesUp 2)) (fun t => t = linesUp 2) = true ∧
    after (exec (.trayLineOperation 64) (linesUp 3)) (fun t => t.tray.linePtr = 2 && t.tray.work.length = 1) = true := by decide +kernel
/-- A held line goes back after 1 µs. -/
def heldUp (used : Nat) (w : List TrayWork) : State :=
  { homeUp with tray := { homeUp.tray with work := w, buffer := [{ line := 64, payer := none, bytes := (List.range 64).map fun i => BitVec.ofNat 8 (i + 1), poison := true, usedAt := used }] } }
theorem test_combiningWriteback :
    after (exec (.combiningWriteback 64) (heldUp 6000 [])) (fun t => t.tray.buffer = [] && t.tray.mem.read 0x1000 = 1 && t.tray.mem.read 0x103F = 64 && t.tray.bad = [64]) = true ∧
    after (exec (.combiningWriteback 64) (heldUp 6001 [])) (fun t => t = heldUp 6001 []) = true := by decide +kernel
/-- 16 ms after the reply. -/
def repliedAt (m : Nat) : State := { src300 (.held (trayPkt (trayHdr 0 0 0 0 299 0x1000 3) []) 7) 0 with mono := m }
theorem test_replyExpiry :
    after (exec (.replyExpiry 33 299) (repliedAt 16000007)) (fun t => idState (sourceOf t 33) 299 = .expired) = true ∧
    after (exec (.replyExpiry 33 299) (repliedAt 16000006)) (fun t => t = repliedAt 16000006) = true := by decide
/-- An operation 9 of slot 1 toward module 33. -/
def trayOp (op cmdOp : Nat) : TrayOp :=
  { opId := 9, slot := 1, tenant := 1, job := 3, cmdOp := cmdOp, req := trayPkt { trayHdr op 0 0 0 9 (trayAt 1 0x1000) 3 with mkey := 5 } [], ref := BitVec.ofNat 64 (host 0x3000),
    credit := true, queued := false, sent := true, attempt := 0, firstTx := 3000, lastTx := 3000, ran := 0, stopped := 0, covOp := some 1, doneCounter := 0 }
def opUp (o : TrayOp) : State :=
  let s := inSlot (cmd (3 * 2 ^ 32 + o.cmdOp) 0 0 0 0 0 0 0) { netUp with tray := { netUp.tray with peers := [(33, { nextOp := 10, credits := 3, ops := [o], lost := [] })] } }
  { s with host := { s.host with ops := [{ id := 1, slot := 1, fn := 1, q := 0, kind := .tray, src := none, ended := none }], nextOp := 2 } }
def replyP (st : Nat) (data : List Nat) : TPacket := trayPkt { trayHdr 0 0 0 0 9 0 3 with type := 1, status := st } data
theorem test_trayReply :
    after (exec (.trayReply (replyP 0 [7, 8, 9])) (opUp (trayOp 0 0x80))) (fun t => t.hostMem = [(0x3000, 7), (0x3001, 8), (0x3002, 9)] && dueOf t = [(1, 0, 3, 9)] &&
      (peerOf t 33).ops = [] && (peerOf t 33).credits = 4) = true ∧
    after (exec (.trayReply (replyP 0x070C [])) (opUp (trayOp 0 0x80))) (fun t => t.hostMem = [] && dueOf t = [(1, 0x070C, 0, 9)]) = true ∧
    after (exec (.trayReply (replyP 0 [5, 0, 0, 0])) (opUp (trayOp 2 0x82))) (fun t => dueOf t = [(1, 0, 5, 0)] && t.host.ops.map (·.ended) = [some true]) = true ∧
    after (exec (.trayReply (replyP 0x0806 [])) (opUp (trayOp 1 0x81))) (fun t => t.tray.frozen = [(1, 3)] && t.host.ops.map (·.ended) = [some false]) = true := by decide
/-- 10 µs after the first transmission, 20 µs after the second, and no third. -/
def opAt (m : Nat) (o : TrayOp) : State := { opUp o with mono := m }
theorem test_trayRetransmitTimer :
    after (exec (.trayRetransmitTimer 33 9) (opAt 13000 (trayOp 0 0x80))) (fun t => (peerOf t 33).ops.map (fun o => (o.queued, o.attempt)) = [(true, 1)] && (peerOf t 33).credits = 3) = true ∧
    after (exec (.trayRetransmitTimer 33 9) (opAt 12999 (trayOp 0 0x80))) (fun t => t = opAt 12999 (trayOp 0 0x80)) = true ∧
    after (exec (.trayRetransmitTimer 33 9) (opAt 22999 { trayOp 0 0x80 with attempt := 1 })) (fun t => t = opAt 22999 { trayOp 0 0x80 with attempt := 1 }) = true ∧
    after (exec (.trayRetransmitTimer 33 9) (opAt 99999 { trayOp 0 0x80 with attempt := 2 })) (fun t => t = opAt 99999 { trayOp 0 0x80 with attempt := 2 }) = true ∧
    after (exec (.trayRetransmitTimer 33 9) { opAt 13000 (trayOp 1 0x81) with gov := { netUp.gov with balance := [((1, 2, 0, 0), 0)] } }) (fun t =>
      (peerOf t 33).ops.map (fun o => (o.queued, o.attempt)) = [(false, 0)]) = true := by decide
/-- 50 µs of running clock: the LOAD writes its destination poisoned and ends with 0x0805, its job freezes, and the credit is kept until a late reply. -/
theorem test_trayTargetLost :
    after (exec (.trayTargetLost 33 9) (opUp { trayOp 0 0x80 with ran := 50000 })) (fun t => dueOf t = [(1, 0x0805, 0, 0)] && t.tray.frozen = [(1, 3)] &&
      (peerOf t 33).ops = [] && (peerOf t 33).lost = [9] && (peerOf t 33).credits = 3 && t.host.badLines = [0x3000 / 64]) = true ∧
    after (exec (.trayTargetLost 33 9) (opUp { trayOp 0 0x80 with ran := 49999 })) (fun t => t = opUp { trayOp 0 0x80 with ran := 49999 }) = true ∧
    after (exec (.trayTargetLost 33 9) (opUp { trayOp 1 0x81 with stopped := 1000000000 })) (fun t => t.host.ops.map (·.ended) = [some false]) = true ∧
    after (exec (.trayTargetLost 33 9) (opUp { trayOp 1 0x81 with sent := false, stopped := 1000000000 })) (fun t =>
      (peerOf t 33).lost = [] && (peerOf t 33).credits = 4 && dueOf t = [(1, 0x0805, 0, 0)]) = true := by decide

/-! ### Discovery, membership, time -/

/-- Never sent, so due; sent now, so not due; a link that is not ON. -/
theorem test_announcementSend :
    after (exec (.announcementSend 0 0) netUp) (fun t => (tget t.fab.announced (0, 0)).map (fun x => (x.1, x.2.installation, x.2.fabricId, x.2.role, x.2.linksOn)) =
      some (7000, 7, 32, 2, 1) && (control0 t).length = 1) = true ∧
    after (match exec (.announcementSend 0 0) netUp with | .next t => exec (.announcementSend 0 0) t | o => o) (fun t => (control0 t).length = 1) = true ∧
    after (exec (.announcementSend 1 0) netUp) (fun t => t = netUp) = true := by decide
/-- A neighbour; a conflict (event 0x61) and its end; another installation is counted. -/
theorem test_announcement :
    after (exec (.announcement 0 0 (ann 9 33)) netUp) (fun t => t.fab.neighbours = [((0, 0), ann 9 33)] && t.fab.conflict = []) = true ∧
    after (exec (.announcement 0 0 (ann 9 32)) netUp) (fun t => t.fab.conflict = [(0, 0)]) = true ∧ countOf (exec (.announcement 0 0 (ann 9 32)) netUp) 36 0x61 = 1 ∧
    after (exec (.announcement 0 0 (ann 0 32)) netUp) (fun t => t.fab.conflict = []) = true ∧
    after (exec (.announcement 0 0 (ann 9 33)) (withFab fun f => { f with conflict := [(0, 0)] })) (fun t => t.fab.conflict = []) = true ∧
    drop1 (exec (.announcement 0 0 { ann 9 33 with installation := 8 }) netUp) 10 = 1 := by decide
/-- Only without an ID or in conflict, and only the module's serial number (0 at reset). -/
theorem test_assign :
    after (exec (.assign 0 40 5) (withFab fun f => { f with id := none })) (fun t => t.fab.id = some 40 && t.fab.pfx = 5) = true ∧
    after (exec (.assign 0 40 5) (withFab fun f => { f with conflict := [(0, 0)] })) (fun t => t.fab.id = some 40 && t.fab.conflict = []) = true ∧
    after (exec (.assign 0 40 5) netUp) (fun t => t.fab.id = some 32) = true ∧ drop1 (exec (.assign 0 40 5) netUp) 11 = 1 ∧
    drop1 (exec (.assign 1 40 5) (withFab fun f => { f with id := none })) 11 = 1 ∧ drop1 (exec (.assign 0 0x3FFFF 5) (withFab fun f => { f with id := none })) 11 = 1 := by
  decide
/-- Two slot entries from 31 on: the second lies beyond the table; a tray entry of 17 paths is cut. -/
theorem test_routeUpdate :
    after (exec (.routeUpdate true 31 [[hop], [hop]]) netUp) (fun t => t.fab.slotRoutes = [(1, [hop]), (31, [hop])] && t.fab.trayRoutes = [(1, [hop])]) = true ∧
    after (exec (.routeUpdate false 8191 [List.replicate 17 hop]) netUp) (fun t => (tgetD t.fab.trayRoutes 8191 []).length = 16 && t.fab.slotRoutes = [(1, [hop])]) = true ∧
    drop1 (exec (.routeUpdate true 0 []) { netUp with rel := { netUp.rel with quarantined := true } }) 16 = 1 := by decide
/-- Epoch 3 is in force: 3 is not adopted, 4 is; one without module 32 quarantines it and fails what is in hand with 0x0A04. -/
theorem test_membership :
    after (exec (.membership 3 [(32, 2)]) netUp) (fun t => t.fab.members = [(32, 2), (33, 2)]) = true ∧
    after (exec (.membership 4 [(32, 2), (34, 1)]) netUp) (fun t => t.fab.epoch = 4 && t.fab.members = [(32, 2), (34, 1)] && !t.rel.quarantined) = true ∧
    after (exec (.membership 4 [(33, 2)]) (sending (sendRec 64))) (fun t => t.rel.quarantined && t.xport.sends = [] && dueOf t = [(1, 0x0A04, 0, 0)]) = true ∧
    countOf (exec (.membership 4 [(33, 2)]) netUp) 25 0x67 = 1 := by decide
/-- 1 ms after the first KIND 3 packet, and each 1 ms after. -/
def beating (since t : Nat) : State :=
  let s := withFab fun f => { f with fmAt := some (0, 0) }
  { s with rel := { s.rel with kind3At := some since }, time := t }
theorem test_heartbeat :
    after (exec .heartbeat (beating 0 1000000)) (fun t => t.rel.heartbeats = 1 && t.rel.lastBeat = 1000000 &&
      (control0 t).map (fun p => match p with | .control _ _ _ (.heartbeat l) => l | _ => []) = [[0, 3, 1000000, 2 ^ 32, 0, 0, 0]]) = true ∧
    after (exec .heartbeat (beating 0 999999)) (fun t => t = beating 0 999999) = true ∧ after (exec .heartbeat netUp) (fun t => t = netUp) = true := by decide
/-- Locked through die 1 (port 5): 100 ns keeps the lock, 101 loses it (event 0x63), beyond 1 µs time steps, unless die 0 distributes it. Not locked: the
sixteenth sync in a row acquires it with a step. -/
def sync (off : Int) : Instr := .ptpMessage { sync := true, port := 5, offset := off, masterTime := 9000, elected := false }
def die (d good : Nat) (on : Bool) : Nat × DieSync := (d, { good := good, locked := on, last := 0 })
def synced (ds : List (Nat × DieSync)) : State := withFab fun f => { f with dieSync := ds, locked := ds.any (·.2.locked) }
theorem test_ptpMessage :
    after (exec (sync 100) (synced [die 1 0 true])) (fun t => (dieSyncOf t 1).locked && t.time = 5000) = true ∧
    after (exec (sync (-101)) (synced [die 1 0 true])) (fun t => !t.fab.locked && t.time = 5000) = true ∧
    countOf (exec (sync 101) (synced [die 1 0 true])) 37 0x63 = 1 ∧ after (exec (sync 1000) (synced [die 1 0 true])) (fun t => t.time = 5000) = true ∧
    after (exec (sync (-1001)) (synced [die 1 0 true])) (fun t => !t.fab.locked && t.time = 9000) = true := by decide
theorem test_ptpMessage_dies :
    after (exec (sync (-1001)) (synced [die 0 0 true, die 1 0 true])) (fun t => t.fab.locked && lockedDies t = [0] && t.time = 5000) = true ∧
    after (exec (sync 10) (synced [die 1 15 false])) (fun t => t.fab.locked && t.time = 9000) = true ∧
    after (exec (sync 10) (synced [die 0 0 true, die 1 15 false])) (fun t => lockedDies t = [0, 1] && t.time = 5000) = true ∧
    after (exec (sync 10) (synced [die 1 14 false])) (fun t => !t.fab.locked && (dieSyncOf t 1).good = 15) = true ∧
    after (exec (sync 11) (synced [die 1 15 false])) (fun t => !t.fab.locked && (dieSyncOf t 1).good = 0) = true := by decide
theorem test_lockLossTimeout :
    after (exec .lockLossTimeout { synced [die 1 0 true] with mono := 62500000 }) (fun t => !t.fab.locked) = true ∧
    countOf (exec .lockLossTimeout { synced [die 1 0 true] with mono := 62500000 }) 37 0x63 = 1 ∧
    after (exec .lockLossTimeout { synced [die 1 0 true] with mono := 62499999 }) (fun t => t.fab.locked) = true := by decide
/-- Without a master, an edge at 0.6 s aligns to the whole second 1 s; a pulse of 99 ns is none; with lock the edge is only noted. -/
def free1 : State := { (withFab fun f => { f with locked := false }) with time := 600000000 }
theorem test_ppsInPulse :
    after (exec (.ppsInPulse 100) free1) (fun t => t.fab.grandmaster && t.time = 1000000000 && t.fab.ppsAt = some 7000) = true ∧
    after (exec (.ppsInPulse 99) free1) (fun t => t = free1) = true ∧ after (exec (.ppsInPulse 500000001) free1) (fun t => t = free1) = true ∧
    after (exec (.ppsInPulse 100) netUp) (fun t => !t.fab.grandmaster && t.time = 5000 && t.fab.ppsAt = some 7000) = true := by decide +kernel
theorem test_domainSecretActivation :
    after (exec .domainSecretActivation netUp) (fun t => (control0 t).length = 1) = true ∧
    after (exec .domainSecretActivation { netUp with sec := Sec.reset }) (fun t => control0 t = []) = true := by decide

/-! ### Links -/

def starting (since m : Nat) (fails : Tab (Nat × Nat) Nat) : State :=
  let s := withFn (.link 0 0) { st := .starting, latch := false } (withFab fun f => { f with trainSince := [((0, 0), since)], laneFails := fails })
  { s with mono := m }
theorem test_pfcFrame :
    after (exec (.pfcFrame 0 0 [(1, true), (2, true), (8, true)]) netUp) (fun t => [1, 2].all ((tgetD t.fab.paused (0, 0) []).contains ·) && !(tgetD t.fab.paused (0, 0) []).contains 8) = true ∧
    after (exec (.pfcFrame 0 0 [(1, false)]) (withFab fun f => { f with paused := [((0, 0), [1, 2])] })) (fun t => t.fab.paused = [((0, 0), [2])]) = true ∧
    after (exec (.pfcFrame 1 0 [(1, true)]) netUp) (fun t => t = netUp) = true := by decide
/-- R409: prefix 1, link 0.0 of module 32. -/
def encapUp : State := { (withFab fun f => { f with pfx := 1 }) with image := { image with fabric := { image.fabric with encap := 1 } } }
def myAddr : Nat := 2 ^ 64 + 0x0200 * 2 ^ 32 + 32
theorem test_neighbourSolicitation :
    after (exec (.neighbourSolicitation 0 0 myAddr) encapUp) (fun t => control0 t = [.advertisement myAddr]) = true ∧
    after (exec (.neighbourSolicitation 0 0 (myAddr + 1)) encapUp) (fun t => control0 t = []) = true ∧
    after (exec (.neighbourSolicitation 0 0 myAddr) netUp) (fun t => control0 t = []) = true := by decide
theorem test_linkTrained :
    after (exec (.linkTrained 0 0) (starting 0 7000 [((0, 2), 1), ((0, 5), 1)])) (fun t => (fnState t (.link 0 0)).st = .on && t.fab.laneFails = [((0, 5), 1)] && (0, 0) ∈ t.fab.everOn) = true ∧
    after (exec (.linkTrained 0 0) netUp) (fun t => t = netUp) = true := by decide
/-- An attempt of 500 ms that fails on lane 2: counted; at the second failure in a row lane 2 goes to spare lane 16 and is retired in fuses. -/
theorem test_linkTrainingRetry :
    after (exec (.linkTrainingRetry 0 0 [2]) (starting 0 500000000 [])) (fun t => t.fab.laneFails = [((0, 2), 1)] && t.fab.spareLane = [] && (fnState t (.link 0 0)).st = .starting) = true ∧
    after (exec (.linkTrainingRetry 0 0 [2]) (starting 0 500000000 [((0, 2), 1)])) (fun t => tget t.fab.spareLane (0, 16) = some 2 && t.fuses.moves = [{ part := 2, index := 2, spare := 16 }] &&
      t.fab.laneFails = [] && (healthOf t 2 2).state = .retired && fnState t (.link 0 0) = { st := .stopping, latch := true }) = true ∧
    after (exec (.linkTrainingRetry 0 0 [2]) (starting 0 499999999 [])) (fun t => t = starting 0 499999999 []) = true := by decide
/-- With both spare lanes of the die in use the link becomes ABSENT. -/
theorem test_linkTrainingRetry_noSpare :
    after (exec (.linkTrainingRetry 0 0 [2]) (let s := starting 0 500000000 [((0, 2), 1)]; { s with fab := { s.fab with spareLane := [((0, 16), 5), ((0, 17), 6)] } }))
      (fun t => (fnState t (.link 0 0)).st = .absent && (healthOf t 2 2).state = .exhausted && t.fuses.moves = []) = true := by decide
theorem test_linkFailure :
    after (exec (.linkFailure 0 0) netUp) (fun t => fnState t (.link 0 0) = { st := .stopping, latch := true }) = true ∧
    after (exec (.linkFailure 1 0) netUp) (fun t => t = netUp) = true := by decide
/-- PORT_CONTROL: port [63:60], link [59:58], DISABLE bit 1, ENABLE bit 0. -/
def portC (p k ev : Nat) : Cmd := cmd0 0xB1 0 (p * 2 ^ 60 + k * 2 ^ 58 + ev) 0 0 0 0 0
theorem test_portControl : Starts 0xB1 (portC 0 0 2) (on netUp (portC 0 0 2)) 1 (on netUp (portC 0 0 2)) ∧
    ended (run .portControl (portC 0 0 2) netUp) = some (0, 3, 0) ∧ ended (run .portControl (portC 1 0 1) netUp) = some (0, 1, 0) ∧
    ended (run .portControl (portC 0 0 0) netUp) = some (0, 2, 0) ∧ ended (run .portControl (portC 0 1 1) netUp) = some (0x0701, 0, 0) ∧
    ended (run .portControl (portC 1 0 1) (withFn (.link 1 0) { st := .absent, latch := false } netUp)) = some (0x0701, 0, 0) := ⟨starts_of (by decide), by decide⟩
/-- Two entries of 1,000 ns from 100 on: at 5,000 the offset is 900, at 5,100 it is 1,000. -/
def gated (t : Nat) : State := { netUp with image := { image with gates := [{ port := 0, base := 100, entries := [(1000, 255), (1000, 1)] }] }, time := t }
theorem test_gateEntryChange :
    after (exec (.gateEntryChange 0) (gated 5000)) (fun t => t.shape.gateEntry = [(0, 0)]) = true ∧
    after (exec (.gateEntryChange 0) (gated 5100)) (fun t => t.shape.gateEntry = [(0, 1)]) = true ∧
    after (exec (.gateEntryChange 0) (gated 99)) (fun t => t.shape.gateEntry = []) = true := by decide
/-- The DATA packet of `sendRec 3` waits in tenant 1's queue of class 0. -/
def waiting3 : State :=
  let s := sending { sendRec 3 with packets := [(0, { TxPacket.fresh with queued := true, stamp := 5000 })] }
  let x : Queued := { tenant := some 1, bytes := 105, exempt := false, frame := frame (.xport { pkt 0 0 3 0 [] with hdr := { (pkt 0 0 3 0 []).hdr with srcEp := 256, srcGen := 5, serial := 11 } }) }
  { s with shape := { s.shape with queues := [((0, 0, 0, 1), [x])] }, hostMem := bytesAt 0x1000 [1, 2, 3] }
/-- It leaves with its bytes and STAMP, its SEND completes, and the link is busy for 105 bytes at 800 Gb/s. -/
theorem test_frameTransmitSelect : queueEligible waiting3 0 0 0 1 = true ∧
    after (exec (.frameTransmitSelect 0 0) waiting3) (fun t => dueOf t = [(1, 0, 1, 0)] && tgetD t.shape.busyUntil (0, 0) 0 = 700105 &&
      t.fab.sent.map (fun x => match x.2.2.payload with | .xport p => (p.base.stamp, p.base.src, p.hdr.dstEp, p.data.map (·.toNat)) | _ => (0, 0, 0, [])) =
        [(5000, 32, 300, [1, 2, 3])]) = true ∧
    after (exec (.frameTransmitSelect 0 0) { waiting3 with shape := { waiting3.shape with busyUntil := [((0, 0), 700100)] } }) (fun t => t.fab.sent = []) = true := by decide +kernel
/-- Link control leaves without time; data does not, nor while its class is paused. -/
theorem test_frameTransmitSelect_waits :
    after (exec (.frameTransmitSelect 0 0) { waiting3 with fab := { waiting3.fab with paused := [((0, 0), [0])] } }) (fun t => t.fab.sent = [] && t.host.due = []) = true ∧
    after (exec (.frameTransmitSelect 0 0) { waiting3 with fab := { waiting3.fab with locked := false } }) (fun t => t.fab.sent = []) = true ∧
    (let x : Queued := { tenant := none, bytes := 64, exempt := false, frame := frame (.pfc [(1, true)]) }
     after (exec (.frameTransmitSelect 0 0) { netUp with fab := { netUp.fab with locked := false }, shape := { netUp.shape with queues := [((0, 0, 8, 0), [x])] } })
      (fun t => t.fab.sent = [(0, 0, frame (.pfc [(1, true)]))] && tgetD t.shape.busyUntil (0, 0) 0 = 700064)) = true := by decide +kernel

/-! ### Detections, spares, shadows, dumps -/

def det (detector island kind : Nat) (place : MemPlace) : Detected :=
  { detector := detector, island := island, index := 0, kind := kind, part := none, control := false, place := place, row := 0, first := false, reader := none }
def withRel (g : Rel → Rel) (s : State) : State := { s with rel := g s.rel }
def lineTensorUp : State := { up with tier := { up.tier with tensors := [((1, 4), descTensor 2 3 0)] } }
/-- A credit watch is recorded under 0x16 and does nothing more; an uncorrectable line (0x01, KIND 1) poisons line 0 of its tensor; a KIND that the detector
does not make is none. -/
theorem test_detection :
    countOf (exec (.detection (det 6 24 1 .nothing)) up) 24 0x16 = 1 ∧
    after (exec (.detection (det 1 0 1 (.tensor 1 4 0))) lineTensorUp) (fun t => (tget t.tier.tensors (1, 4)).map (·.blob.bad) = some [0] && tgetD t.tele.events (0, 0x11) 0 = 1) = true ∧
    after (exec (.detection (det 6 24 0 .nothing)) up) (fun t => t = up) = true ∧ after (exec (.detection (det 1 24 1 .nothing)) up) (fun t => t = up) = true := by decide +kernel
/-- Control logic resets its island; island 30 resets the module. -/
theorem test_detection_resets :
    after (exec (.detection (det 3 24 1 .nothing)) (withFn (.island 24) isOn up)) (fun t => fnState t (.island 24) = { st := .stopping, latch := true } &&
      tgetD t.tele.events (24, 0x2A) 0 = 1) = true ∧
    after (exec (.detection (det 3 30 1 .nothing)) (on up (cmd 0x60 0 0 0 0 0 0 0))) (fun t => t.boot.state = .reset && t.host.slots = []) = true := by decide +kernel
theorem test_creditWatchTimeout :
    countOf (exec (.creditWatchTimeout 24) up) 24 0x16 = 1 ∧ after (exec (.creditWatchTimeout 40) up) (fun t => t = up) = true := by decide
/-- INJECT: DETECTOR [63:56], INDEX [55:40], KIND [39:32], COUNT [31:16], SCORE 0. Detector 6 on island 24, twice. -/
def injectC (d ix kind n : Nat) : Cmd := cmd0 0xB2 0 (d * 2 ^ 56 + ix * 2 ^ 40 + kind * 2 ^ 32 + n * 2 ^ 16) 0 0 0 0 0
def injUp : State := { up with image := { image with injectDetectors := true } }
theorem test_inject : Starts 0xB2 (injectC 6 24 1 2) (on injUp (injectC 6 24 1 2)) 1 (on injUp (injectC 6 24 1 2)) ∧
    after (run .inject (injectC 6 24 1 2) injUp) (fun t => t.host.due = [] && t.rel.injections =
      [{ detector := 6, index := 24, kind := 1, left := 2, total := 2, score := false, slot := 1 }]) = true ∧
    ended (run .inject (injectC 6 24 1 0) injUp) = some (0, 0, 0) ∧ ended (run .inject (injectC 6 24 1 2) up) = some (0x0A01, 0, 0) ∧
    ended (run .inject (injectC 6 24 0 2) injUp) = some (0x0A02, 0, 0) ∧ ended (run .inject (injectC 6 40 1 2) injUp) = some (0x0A02, 0, 0) := ⟨starts_of (by decide), by decide⟩
/-- The injected detections are counted apart, and the last completes the INJECT with its COUNT. -/
def injecting (left : Nat) : State :=
  withRel (fun r => { r with injections := [{ detector := 6, index := 24, kind := 1, left := left, total := 2, score := false, slot := 1 }] })
    (inSlot (injectC 6 24 1 2) up)
theorem test_inject_counts :
    after (exec (.detection (det 6 24 1 .nothing)) (injecting 2)) (fun t => t.rel.injections.map (·.left) = [1] && t.host.due = [] && t.tele.events = [] &&
      tgetD t.tele.injected (24, 0x16) 0 = 1) = true ∧
    after (exec (.detection (det 6 24 1 .nothing)) (injecting 1)) (fun t => t.rel.injections = [] && dueOf t = [(1, 0, 2, 0)]) = true := by decide
/-- The row wraps at 4,096; a bank that differs is recorded under 0x17. -/
theorem test_camRowCheck :
    after (exec (.camRowCheck []) { up with comp := { up.comp with checkRow := 4095 } }) (fun t => t.comp.checkRow = 0) = true ∧
    countOf (exec (.camRowCheck [(3, false)]) up) 24 0x17 = 1 ∧
    after (exec (.camRowCheck []) State.reset) (fun t => t = State.reset) = true := by decide
theorem test_memoryScrub :
    after (exec (.memoryScrub 3) (withFn (.island 3) isOn up)) (fun t => t.rel.scrubbed = [(3, 7000)]) = true ∧
    after (exec (.memoryScrub 3) up) (fun t => t = up) = true ∧ after (exec (.memoryScrub 20) up) (fun t => t = up) = true := by decide
/-- Part kind 4: at the boundary the windows move on, and a SUSPECT bank whose score has fallen is OK (event 0x28 of island 24). -/
def aging (st : HealthState) (t : Nat) : State :=
  { (withRel (fun r => { r with health := [((4, 3), { Health.fresh with windows := List.replicate 15 0 ++ [9], state := st })] }) up) with time := t }
theorem test_healthSubwindow :
    after (exec (.healthSubwindow 4) (aging .suspect (subWindow up 4))) (fun t => healthOf t 4 3 = { Health.fresh with windows := List.replicate 16 0 } &&
      tgetD t.rel.subwindow 4 0 = 1 && tgetD t.tele.events (24, 0x28) 0 = 1) = true ∧
    after (exec (.healthSubwindow 4) (aging .suspect (subWindow up 4 - 1))) (fun t => healthOf t 4 3 = { Health.fresh with windows := List.replicate 15 0 ++ [9], state := .suspect }) = true ∧
    after (exec (.healthSubwindow 8) (aging .suspect (subWindow up 4))) (fun t => (healthOf t 4 3).state = .suspect) = true := by decide
/-- Die 3 of stack 0 (part kind 0) is RETIRING onto spare die 16. -/
def retiring (part i sp : Nat) (moving : Bool) : State :=
  withRel (fun r => { r with health := [((part, i), { windows := [], state := .retiring, spare := some sp, moving := moving })], spares := [(part, sp)] })
    (withFn (.island (partPlace part i).1) isOn up)
theorem test_spareMoveBegin :
    after (exec (.spareMoveBegin 4 3) (retiring 4 3 32 false)) (fun t => (healthOf t 4 3).moving) = true ∧
    after (exec (.spareMoveBegin 4 3) up) (fun t => t = up) = true := by decide
/-- A move that succeeds retires bank 3 onto bank 32 in fuses; one that fails retires bank 32 and takes bank 33. -/
theorem test_spareMoveComplete :
    after (exec (.spareMoveComplete 4 3 true) (retiring 4 3 32 true)) (fun t => (healthOf t 4 3).state = .retired && t.fuses.moves = [{ part := 4, index := 3, spare := 32 }] &&
      tgetD t.tele.events (24, 0x29) 0 = 1) = true ∧
    after (exec (.spareMoveComplete 4 3 false) (retiring 4 3 32 true)) (fun t => (healthOf t 4 32).state = .retired && (healthOf t 4 3).spare = some 33 &&
      (healthOf t 4 3).state = .retiring) = true ∧
    after (exec (.spareMoveComplete 4 3 true) (retiring 4 3 32 false)) (fun t => (healthOf t 4 3).state = .retiring && t.fuses.moves = []) = true := by decide
def inReset24 : State := withRel (fun r => { r with inReset := [(24, 0)] }) (withFn (.island 24) { st := .stopping, latch := true } up)
theorem test_islandResetComplete :
    after (exec (.islandResetComplete 24) inReset24) (fun t => fnState t (.island 24) = isOn && t.rel.inReset = []) = true ∧
    after (exec (.islandResetComplete 24) up) (fun t => t = up) = true := by decide
/-- SHADOW_CONTROL: TARGET [63:46], STOP bit 1, START bit 0. Module 33 is a member of the same role (C, code 2). -/
def shadowC (m ev : Nat) : Cmd := cmd0 0xB3 0 (m * 2 ^ 46 + ev) 0 0 0 0 0
theorem test_shadowControl : Starts 0xB3 (shadowC 33 1) (on up (shadowC 33 1)) 1 (on up (shadowC 33 1)) ∧
    ended (run .shadowControl (shadowC 33 1) up) = some (0, 0, 0) ∧ after (run .shadowControl (shadowC 33 1) up) (fun t => t.rel.primaryTo = some 33) = true ∧
    after (run .shadowControl (shadowC 33 2) (withRel (fun r => { r with primaryTo := some 33 }) up)) (fun t => t.rel.primaryTo = none) = true ∧
    ended (run .shadowControl (shadowC 34 1) up) = some (0x0A05, 0, 0) ∧
    ended (run .shadowControl (shadowC 33 1) (withRel (fun r => { r with primaryTo := some 33 }) up)) = some (0x0A05, 0, 0) ∧
    ended (run .shadowControl (shadowC 33 1) { up with image := { image with role := .p } }) = some (0x0A05, 0, 0) := ⟨starts_of (by decide), by decide⟩
/-- The hypotheses of the mirrored PRESS_STREAM_OPEN; its digest is a SHA-384, so the comparison is not evaluated. In quarantine nothing happens. -/
def mirrored : Cmd := { cmd 0x60 0 0 0 0 0 0 0 with src := some (33, 1) }
theorem test_mirroredCommand : isReady up = true ∧ up.rel.quarantined = false ∧ up.host.slots = [] ∧ up.rel.mirrors = [] ∧ tget up.comp.press (1, 7) = none ∧
    after (exec (.mirroredCommand 0 mirrored [] 7 0) (withRel (fun r => { r with quarantined := true }) up)) (fun t => t.comp.press = []) = true := by decide
/-- A DUMP record: to host memory at 0x100000, 1 MiB. At 1 ms the set is written; with the link down, or a ring too small, it is skipped. -/
def dumping (bytes t : Nat) : State := { up with image := { image with dump := some { periodUs := 1000, dest := 0, base := 0x100000, bytes := bytes } }, time := t }
theorem test_dumpBoundary :
    after (exec .dumpBoundary (dumping 64 1000000)) (fun t => t.tele.dumpSkipped = 1 && t.tele.dumpTail = 0 && t.hostMem = []) = true ∧
    after (exec .dumpBoundary (dumping 1048576 1000001)) (fun t => t.tele.dumpTail = 0 && t.tele.dumpSkipped = 0) = true ∧
    after (exec .dumpBoundary up) (fun t => t = up) = true := by decide +kernel
theorem test_dumpBoundary_writes :
    after (exec .dumpBoundary (dumping 1048576 1000000)) (fun t => 0 < t.tele.dumpTail && t.tele.dumpTail < 16384 && t.tele.dumpSkipped = 0) = true := by decide +kernel

/-! ### Security requests -/

def responsesOf (o : Host.Outcome State Fault Refusal) : List (Nat × Nat × Nat × Nat) :=
  match o with
  | .next t => t.sec.responses.map fun r => (r.code, r.status, r.tag, r.body.length)
  | _ => []
def withSec (g : Sec → Sec) : State := { up with sec := g up.sec }
def zeros (n : Nat) : List Byte := List.replicate n 0
def hashed : BitVec 256 := 5
/-- A nonce 5 given out at time 7,000, now. -/
def nonced (g : Sec → Sec) : State := withSec fun c => g { c with nonce := some (hashed, 7000) }
/-- Without keys 0x0901; with them 2,448 bytes that begin with the serial number. -/
theorem test_getIdentity : mgmtReachable up .mgmt = true ∧ up.sec.keys = true ∧
    responsesOf (exec (.getIdentity .mgmt 6) up) = [(1, 0, 6, 2448)] ∧ responsesOf (exec (.getIdentity .mgmt 6) (withSec fun c => { c with keys := false })) = [(1, 0x0901, 6, 0)] ∧
    responsesOf (exec (.getIdentity .phys 6) { up with host := { up.host with link := { up.host.link with up := false } } }) = [] := by decide +kernel
def queued (n : Nat) : List AttestReq := (List.range n).map fun k => { path := .mgmt, tag := k, nonce := hashed, report := [1] }
/-- The first is being signed, up to four wait behind it, and a sixth gets 0x0909. -/
theorem test_attest :
    responsesOf (exec (.attest .mgmt 6 hashed) up) = [] ∧
    after (exec (.attest .mgmt 6 hashed) up) (fun t => t.sec.attest.map (fun x => (x.tag, (x.report.take 2).map (·.toNat))) = [(6, [5, 0])]) = true ∧
    after (exec (.attest .mgmt 6 hashed) (withSec fun c => { c with attest := queued 4 })) (fun t => t.sec.attest.length = 5 && t.sec.attest.getLast? = some ⟨.mgmt, 6, hashed, []⟩) = true ∧
    responsesOf (exec (.attest .mgmt 6 hashed) (withSec fun c => { c with attest := queued 5 })) = [(2, 0x0909, 6, 0)] ∧
    responsesOf (exec (.attest .mgmt 6 hashed) (withSec fun c => { c with lifecycle := 0 })) = [(2, 0x0904, 6, 0)] ∧
    responsesOf (exec (.attest .mgmt 6 hashed) (withSec fun c => { c with keys := false })) = [(2, 0x0901, 6, 0)] := by decide +kernel
/-- The report of one byte with signatures of 384 and 35,664 bytes. -/
theorem test_attestSignatureComplete :
    responsesOf (exec .attestSignatureComplete (withSec fun c => { c with attest := queued 1 })) = [(2, 0, 0, 36049)] ∧
    after (exec .attestSignatureComplete up) (fun t => t = up) = true := by decide +kernel
/-- The module as it stands HELD and UNPROVISIONED, with a nonce. -/
def blankUp (at' : Nat) : State :=
  let s := withSec fun c => { c with lifecycle := 0, nonce := some (hashed, 0) }
  { s with boot := { s.boot with state := .held }, mono := at' }
/-- Lengths, lifecycle, a nonce of 60 s and 1 ns; with all in order the signatures decide, and the first bank is fresh. -/
theorem test_provision :
    responsesOf (exec (.provision .mgmt 6 hashed (zeros 439) (zeros 384) (zeros 16224)) (blankUp 0)) = [(3, 0x0903, 6, 0)] ∧
    responsesOf (exec (.provision .mgmt 6 hashed (zeros 440) (zeros 384) (zeros 16224)) up) = [(3, 0x0904, 6, 0)] ∧
    responsesOf (exec (.provision .mgmt 6 hashed (zeros 440) (zeros 384) (zeros 16224)) (blankUp 60000000001)) = [(3, 0x0907, 6, 0)] ∧
    nonceGood (blankUp 60000000000) hashed = true ∧ freshBank (blankUp 0).fuses = some 0 ∧ mgmtReachable (blankUp 0) .mgmt = true := by decide +kernel
def lived (n : Nat) : State := { nonced id with fuses := { up.fuses with lifecycle := n } }
/-- Lengths, an unlisted transition, a stale nonce; the hypotheses of both transitions but for the signatures. -/
theorem test_advance :
    responsesOf (exec (.advance .mgmt 6 hashed 2 (zeros 383) (zeros 16224)) (lived 1)) = [(4, 0x0903, 6, 0)] ∧
    responsesOf (exec (.advance .mgmt 6 hashed 256 (zeros 384) (zeros 16224)) (lived 1)) = [(4, 0x0903, 6, 0)] ∧
    responsesOf (exec (.advance .mgmt 6 hashed 2 (zeros 384) (zeros 16224)) (lived 2)) = [(4, 0x0904, 6, 0)] ∧
    responsesOf (exec (.advance .mgmt 6 6 3 (zeros 384) (zeros 16224)) (lived 2)) = [(4, 0x0907, 6, 0)] ∧
    responsesOf (exec (.advance .mgmt 6 hashed 3 (zeros 384) (zeros 16224)) (lived 2)) = [(4, 0x0906, 6, 0)] ∧
    advanceListed (lived 1) 2 = true ∧ advanceListed (lived 1) 3 = true ∧ advanceListed (lived 2) 3 = true := by decide +kernel
def setDomainI (box : Nat) : Instr := .setDomain .mgmt 6 0 1 (zeros 1568) (zeros 384) (zeros box) (zeros 384) (zeros 16224)
/-- Lengths, lifecycle, no owner section; a secret for an epoch that has begun is refused while one is held. -/
theorem test_setDomain :
    responsesOf (exec (setDomainI 47) up) = [(5, 0x0903, 6, 0)] ∧ responsesOf (exec (setDomainI 48) (withSec fun c => { c with lifecycle := 0 })) = [(5, 0x0904, 6, 0)] ∧
    responsesOf (exec (setDomainI 48) up) = [(5, 0x0906, 6, 0)] ∧ imageInForce up = true ∧ domainRefused up 0 = true ∧ domainRefused up 1 = false ∧
    domainRefused (withSec fun c => { c with domain := [] }) 0 = false := by decide +kernel
theorem test_sessionOpen :
    responsesOf (exec (.sessionOpen .phys 6 hashed (zeros 384) (zeros 16224)) (nonced id)) = [(6, 0x0903, 6, 0)] ∧
    responsesOf (exec (.sessionOpen .mgmt 6 hashed (zeros 384) (zeros 16223)) (nonced id)) = [(6, 0x0903, 6, 0)] ∧
    responsesOf (exec (.sessionOpen .mgmt 6 6 (zeros 384) (zeros 16224)) (nonced id)) = [(6, 0x0907, 6, 0)] ∧
    responsesOf (exec (.sessionOpen .mgmt 6 hashed (zeros 384) (zeros 16224)) (nonced id)) = [(6, 0x0906, 6, 0)] := by decide +kernel
def inSession : State := withSec fun c => { c with session := some 0 }
theorem test_sessionClose :
    responsesOf (exec (.sessionClose .mgmt 6) inSession) = [(7, 0, 6, 0)] ∧ after (exec (.sessionClose .mgmt 6) inSession) (fun t => t.sec.session = none) = true ∧
    responsesOf (exec (.sessionClose .phys 6) inSession) = [(7, 0x0903, 6, 0)] ∧ after (exec (.sessionClose .phys 6) inSession) (fun t => t.sec.session = some 0) = true := by decide
theorem test_sessionTimeout :
    after (exec .sessionTimeout { inSession with mono := 60000000000 }) (fun t => t.sec.session = none) = true ∧
    after (exec .sessionTimeout { inSession with mono := 59999999999 }) (fun t => t.sec.session = some 0) = true := by decide
def entry40 : DirEntry :=
  { run := { fabric := 32, loc := 2, first := 9, base := 0, slabs := 1, gen := 0 }, seq := 0, age := 0, pins := [], refs := 0, tenant := 1, st := .resident, kind := 0, persist := false,
    tier := 1, layer := 0, page := 0, back := 0 }
/-- Tenant 1's page in slab 9 of stack 2 begins with 7: it is read under key 1. -/
def pageAt9 : State :=
  { inSession with tier := { up.tier with
      dir := [(40, entry40)], data := [(40, { cells := [(0, 7)], fill := none, bad := [] })] } }
theorem test_memRead :
    after (exec (.memRead .mgmt 6 2 1 (9 * 65536) 64) pageAt9) (fun t => t.sec.responses.map (fun r => (r.status, r.body.length, r.body.head?)) = [(0, 64, some 7)] && t.sec.session = some 7000) = true := by decide +kernel
def statuses (o : Host.Outcome State Fault Refusal) : List Nat := (responsesOf o).map (·.2.1)
theorem test_memRead_refused :
    statuses (exec (.memRead .mgmt 6 2 1 0 64) up) = [0x090A] ∧ statuses (exec (.memRead .phys 6 2 1 0 64) inSession) = [0x090A] ∧
    statuses (exec (.memRead .mgmt 6 20 1 0 64) inSession) = [0x0903] := by decide +kernel
theorem test_memRead_operands :
    statuses (exec (.memRead .mgmt 6 2 16 0 64) inSession) = [0x0903] ∧ statuses (exec (.memRead .mgmt 6 2 1 32 64) inSession) = [0x0903] ∧
    statuses (exec (.memRead .mgmt 6 2 1 0 63) inSession) = [0x0903] ∧ statuses (exec (.memRead .mgmt 6 2 1 0 4097) inSession) = [0x0903] := by decide +kernel

/-! ### Ill-formed commands, one for each check, beside a well-formed one -/

theorem test_wellFormed_numbers :
    wellFormed (.sensorTrip 4) = true ∧ wellFormed (.sensorTrip 5) = false ∧ wellFormed (.tenantEnable 16) = true ∧ wellFormed (.tenantEnable 17) = false ∧
    wellFormed (.queueEnable 1 63) = true ∧ wellFormed (.queueEnable 1 64) = false ∧ wellFormed (.adapterVersionFree 15 0 0) = true ∧
    wellFormed (.adapterVersionFree 16 0 0) = false := by decide
theorem test_wellFormed_parts :
    wellFormed (.memoryScrub 19) = true ∧ wellFormed (.memoryScrub 20) = false ∧ wellFormed (.islandResetComplete 39) = true ∧
    wellFormed (.islandResetComplete 40) = false ∧ wellFormed (.ladleEntryStart 159) = true ∧ wellFormed (.ladleEntryStart 160) = false ∧
    wellFormed (.healthSubwindow 7) = true ∧ wellFormed (.healthSubwindow 8) = false := by decide
theorem test_wellFormed_links :
    wellFormed (.linkTrained 15 3) = true ∧ wellFormed (.linkTrained 16 0) = false ∧ wellFormed (.linkTrained 0 4) = false ∧
    wellFormed (.linkTrainingRetry 0 0 [17]) = true ∧ wellFormed (.linkTrainingRetry 0 0 [18]) = false ∧ wellFormed (.pfcFrame 0 0 [(8, true)]) = false ∧
    wellFormed (.neighbourSolicitation 0 0 (2 ^ 128)) = false ∧ wellFormed (.gateEntryChange 16) = false := by decide
theorem test_wellFormed_fields :
    wellFormed (.hostLinkTrained 16 6 true) = true ∧ wellFormed (.hostLinkTrained 64 6 true) = false ∧ wellFormed (.hostLinkTrained 16 16 true) = false ∧
    wellFormed (.windowSlotFill 65536) = false ∧ wellFormed (.interruptCoalesceTimer 1 65) = true ∧ wellFormed (.interruptCoalesceTimer 1 66) = false ∧
    wellFormed (.avsRailRead [{ rail := 10, mv := 0, deciAmp := 0 }]) = false := by decide
theorem test_wellFormed_registers :
    wellFormed (.queueConfigWrite 1 0 4092 0) = true ∧ wellFormed (.queueConfigWrite 1 0 4096 0) = false ∧ wellFormed (.kettleConfigWrite 1 2 0) = false ∧
    wellFormed (.registerWrite (.func 17) 0 0) = false ∧ wellFormed (.registerWrite (.queue 0 64) 0 0) = false ∧ wellFormed (.knobWrite .mgmt (2 ^ 64)) = false ∧
    wellFormed (.irqMaskWrite 1 (.msix 66) 0) = false ∧ wellFormed (.sqTailDoorbell 1 0 3 [(2 ^ 64, 0)] []) = false := by decide
theorem test_wellFormed_start :
    wellFormed (.moduleStart { nvm := none, nvmOk := true, sectionsOk := true, seedOk := true, entropyOk := true, addr := 4, retrained := [], failedStacks := [] }) = false ∧
    wellFormed (.moduleStart { nvm := none, nvmOk := true, sectionsOk := true, seedOk := true, entropyOk := true, addr := 3, retrained := [], failedStacks := [20] }) = false ∧
    wellFormed (.moduleStart { nvm := none, nvmOk := true, sectionsOk := true, seedOk := true, entropyOk := true, addr := 3, retrained := [], failedStacks := [19] }) = true := by decide
theorem test_wellFormed_functions :
    wellFormed (.functionEnable (.bank 33)) = true ∧ wellFormed (.functionEnable (.bank 34)) = false ∧ wellFormed (.functionEnable (.island 40)) = false ∧
    wellFormed (.functionEnable (.link 0 4)) = false ∧ wellFormed (.functionEnable (.tenant 16)) = false ∧ wellFormed (.functionEnable (.ladle 160)) = false ∧
    wellFormed (.camRowCheck [(34, true)]) = false := by decide
/-- The OPCODE of a host command is its row's; the others of its fields are in their ranges. -/
theorem test_wellFormed_command :
    wellFormed (.nop (cmd 0 0 0 0 0 0 0 0)) = true ∧ wellFormed (.nop (cmd 1 0 0 0 0 0 0 0)) = false ∧
    wellFormed (.nop { cmd 0 0 0 0 0 0 0 0 with fn := 17 }) = false ∧ wellFormed (.nop { cmd 0 0 0 0 0 0 0 0 with q := 64 }) = false ∧
    wellFormed (.nop { cmd 0 0 0 0 0 0 0 0 with src := some (2 ^ 18, 0) }) = false ∧
    wellFormed (.forwardedCompletionArrival (cmd 0 0 0 0 0 0 0 0) 65536 0 0 []) = false := by decide
theorem test_wellFormed_requests :
    wellFormed (.ledgerStepArrival 1 (step0 1 3 8 2 0 0)) = true ∧ wellFormed (.ledgerStepArrival 4 (step0 1 3 8 2 0 0)) = false ∧
    wellFormed (.ledgerStepArrival 1 (step0 16 3 8 2 0 0)) = false ∧ wellFormed (.ledgerNotice (notice0 65536 4)) = false ∧
    wellFormed (.repairCopyArrival 1 { rec0 4 with sampler := [] } []) = false ∧ wellFormed (.repairCopyArrival 1 (rec0 4) [2 ^ 32]) = false ∧
    wellFormed (.offer offer0) = true ∧ wellFormed (.offer { offer0 with target := 6 }) = false := by decide +kernel
theorem test_wellFormed_objects :
    wellFormed (.replicaArrival h0 ⟨33, { layer := 65536, index := 0, upto := 0, blob := { cells := [], fill := none, bad := [] } }⟩) = false ∧
    wellFormed (.replicaArrival h0 ⟨33, { layer := 0, index := 0, upto := 0, blob := { cells := [(2 ^ 64, 1)], fill := none, bad := [] } }⟩) = false ∧
    wellFormed (.loanAskArrival (loan 1 5)) = true ∧ wellFormed (.loanAskArrival (loan 2 5)) = false ∧
    wellFormed (.loanAskArrival { loan 1 5 with stack := 20 }) = false ∧ wellFormed (placedOf (tongs 2 33 7 0) []) = true ∧ wellFormed (placedOf (tongs 2 (2 ^ 18) 7 0) []) = false := by decide
theorem test_wellFormed_packets :
    wellFormed (.data data3) = true ∧ wellFormed (.ack data3) = false ∧ wellFormed (.data { data3 with base := { data3.base with cls := 8 } }) = false ∧
    wellFormed (.data { data3 with hdr := { data3.hdr with mode := 4 } }) = false ∧
    wellFormed (.frameReceive 0 0 { frame (.xport data3) with etype := 65536 }) = false ∧
    wellFormed (.frameReceive 0 0 (frame (.control (base33 2 0) 1 1 (.heartbeat [])))) = false ∧
    wellFormed (.frameReceive 0 0 (frame (.control (base33 2 0) 0 1 (.heartbeat [])))) = true := by decide
theorem test_wellFormed_tray :
    wellFormed (.trayRequest (trayPkt (trayHdr 0 0 0 0 9 0 3) [])) = true ∧ wellFormed (.trayReply (trayPkt (trayHdr 0 0 0 0 9 0 3) [])) = false ∧
    wellFormed (.trayRequest (trayPkt (trayHdr 8 0 0 0 9 0 3) [])) = false ∧ wellFormed (.trayLineOperation (2 ^ 41)) = false := by decide
theorem test_wellFormed_fabric :
    wellFormed (.announcement 0 0 (ann 9 33)) = true ∧ wellFormed (.announcement 0 0 (ann 9 (2 ^ 18))) = false ∧
    wellFormed (.routeUpdate false 8192 []) = false ∧ wellFormed (.routeUpdate false 0 [[{ hop with port := 16 }]]) = false ∧
    wellFormed (.membership 3 [(2 ^ 18, 2)]) = false ∧ wellFormed (.fragmentDiscard 256) = false := by decide
theorem test_wellFormed_management :
    wellFormed (.detection (det 0 0 4 .nothing)) = true ∧ wellFormed (.detection (det 0 0 5 .nothing)) = false ∧
    wellFormed (.detection (det 256 0 0 .nothing)) = false ∧ wellFormed (.getIdentity .mgmt (2 ^ 64)) = false ∧
    wellFormed (.memRead .mgmt 6 20 0 0 64) = false ∧ wellFormed (.memRead .mgmt 6 0 16 0 64) = false := by decide
theorem test_wellFormed_signatures :
    wellFormed (.sessionOpen .mgmt 6 0 (List.replicate 384 0) (List.replicate 16224 0)) = true ∧
    wellFormed (.sessionOpen .mgmt 6 0 (List.replicate 65537 0) []) = false := by decide +kernel

/-! ### Words and the queue -/

/-- No word spells a command, so placing one leaves the state. -/
theorem test_decode (nbits w : Nat) (s : State) : decodeTableWord nbits w = none ∧ s.withFetchWord nbits w = s := ⟨rfl, rfl⟩
/-- The command in front is taken; those behind it wait. -/
theorem test_step : after (step { State.reset with pending := [.heartbeat, .commandFetch] }) (fun t => t.pending = [.commandFetch]) = true := by decide

end Sys2Proof.Tests
end

section
/-!
PROOFS. O54 (15_message_transport.md R449; 06_kv_pages_and_tiers.md R179): an ABORT that ends a matched receive releases the pins of its RECV's slot.
-/
namespace Sys2Proof.Proofs
open Sys2Proof.Machine

/-! ### What a completion does to the tiers -/

theorem sysSend_tier (s : State) (dest : Nat) (m : SysMsg) : (sysSend s dest m).tier = s.tier := by
  unfold sysSend
  split
  · rfl
  · split <;> rfl

theorem compareDigest_tier (s : State) (cid mine theirs : Nat) : (compareDigest s cid mine theirs).tier = s.tier := by
  unfold compareDigest
  split
  · dsimp only
    split
    · rw [eventA_tier]
    · rfl
  · rw [eventA_tier]

theorem mirrorEnd_tier (s : State) (id cid status r0 r1 : Nat) : (mirrorEnd s id cid status r0 r1).tier = s.tier := by
  unfold mirrorEnd
  split
  · rfl
  · dsimp only
    split
    · rw [sysSend_tier]
    · rw [compareDigest_tier]

/-- Whatever becomes of its completion, a command in a slot that finishes releases its pins and does nothing else to the tiers (06 R179, R181). -/
theorem finishWith_tier {s : State} {id : Nat} {x : Slot} (h : slotById s id = some x) (status r0 r1 : Nat) (fwd : Bool) :
    (finishWith s id status r0 r1 fwd).tier = (releasePins s id).tier := by
  unfold finishWith
  simp only [h]
  by_cases hf : x.phase = .finished
  · simp only [hf, if_true]
  · simp only [hf, if_false]
    split
    · exact mirrorEnd_tier ..
    · split
      · rw [sysSend_tier]; exact mirrorEnd_tier ..
      · split
        · exact mirrorEnd_tier ..
        · exact mirrorEnd_tier ..

/-! ### What the answer of the transport engine does to them: nothing -/

theorem flowControl_tier (s : State) (p k c : Nat) : (flowControl s p k c).tier = s.tier := by
  unfold flowControl
  dsimp only
  split
  · rfl
  · split <;> rfl

theorem bufferItem_tier (s : State) (x : InFrame) : (bufferItem s x).tier = s.tier := by
  unfold bufferItem
  dsimp only
  split
  · rfl
  · split
    · rfl
    · rw [flowControl_tier]

theorem enqueuePacket_tier {s t : State} {dest entropy cls : Nat} {tenant : Option Nat} {exempt : Bool} {bytes : Nat} {p : Payload}
    (h : enqueuePacket s dest entropy cls tenant exempt bytes p = some t) : t.tier = s.tier := by
  unfold enqueuePacket at h
  split at h
  · cases h
  · cases h; rfl

theorem sendAnswer_tier (s : State) (p : XPacket) (type packet reason hint : Nat) (final : Bool) (data : List Byte) :
    (sendAnswer s p type packet reason hint final data).tier = s.tier := by
  unfold sendAnswer
  dsimp only
  split
  · exact bufferItem_tier ..
  · cases h : enqueuePacket s p.base.src _ p.base.cls _ true _ _ with
    | none => rfl
    | some t => exact enqueuePacket_tier h

theorem useContext_keeps (s : State) (n : Nat) : ∃ l, useContext s n = setXport s { s.xport with resident := l } := by
  unfold useContext
  split
  · exact ⟨_, rfl⟩
  · split
    · exact ⟨_, rfl⟩
    · split
      · exact ⟨_, rfl⟩
      · exact ⟨s.xport.resident, rfl⟩

/-! ### ABORT -/

/-- A packet that passes its unit's checks is taken, and of the rest of the state only the resident contexts may change before its row acts. -/
theorem withPacket_passes {s : State} {p : XPacket} {type : Nat} (ht : p.hdr.type = type) (hq : (takeItem s (.xport p)).rel.quarantined = false)
    (hc : packetCheck (takeItem s (.xport p)) p = none) :
    ∃ l, ∀ k, withPacket s p type k = k (setXport (takeItem s (.xport p)) { (takeItem s (.xport p)).xport with resident := l }) := by
  by_cases h : p.hdr.dstEp < 256
  · exact ⟨(takeItem s (.xport p)).xport.resident, fun k => by simp [withPacket, ht, hq, hc, h, setXport]⟩
  · obtain ⟨l, hl⟩ := useContext_keeps (takeItem s (.xport p)) p.hdr.dstEp
    exact ⟨l, fun k => by simp [withPacket, ht, hq, hc, h, hl]⟩

/-- Abandoning a record releases the pins of the slot in which its matched receive stands. -/
theorem abandon_tier {s : State} {r : RecvRec} {x : PostedRecv} {y : Slot} (hx : r.recv = some x) (hy : slotById s x.slot = some y) :
    (abandon s r).tier = (releasePins s x.slot).tier := by
  simp only [abandon, hx, fail, finish]
  refine (finishWith_tier (x := y) ?_ ..).trans rfl
  exact hy

/-- So does an ABORT that finds such a record (R449; 06 R179). -/
theorem abort_tier {s w : State} {p : XPacket} {r : RecvRec} {x : PostedRecv} {y : Slot} (h : exec (.abort p) s = .next w)
    (ht : p.hdr.type = 4) (hq : (takeItem s (.xport p)).rel.quarantined = false) (hc : packetCheck (takeItem s (.xport p)) p = none)
    (hr : recvOf (takeItem s (.xport p)) p = some r) (hx : r.recv = some x) (hy : slotById (takeItem s (.xport p)) x.slot = some y) :
    w.tier = (releasePins (takeItem s (.xport p)) x.slot).tier := by
  change execAbort p s = _ at h
  obtain ⟨l, hl⟩ := withPacket_passes ht hq hc
  have hr' : recvOf (setXport (takeItem s (.xport p)) { (takeItem s (.xport p)).xport with resident := l }) p = some r := hr
  simp only [execAbort, quiet, hl, hr', Host.Outcome.next.injEq] at h
  rw [← h, keepHost_tier, finalAck, sendAnswer_tier]
  exact abandon_tier hx hy

/-! ### The counterexample -/

/-- The RECV of tenant 1 in slot 0: endpoint 256, 20,000 bytes of host memory at 0x3000. -/
def recvSlot : Slot :=
  { id := 0, order := 1, arrived := 0, members := [], phase := .waiting .fabric, sentAt := 0, sentTo := none, askedAt := 0, aux := 0, injected := false, dead := false
    cmd := { fn := 1, q := 0, src := none, w0 := 0x73, w1 := 0, w2 := BitVec.ofNat 64 (2 * 2 ^ 62 + 0x3000), w3 := BitVec.ofNat 64 (20000 * 2 ^ 31 + 256), w4 := 0, w5 := 0,
             w6 := 0, w7 := 0 } }

def postedRecv : PostedRecv := { slot := 0, ref := recvSlot.cmd.w2, capacity := 20000, done := 0 }

/-- Message 4 from endpoint 300 of module 33, which the RECV matched; no packet is placed yet. -/
def begunMessage : RecvRec :=
  { src := 33, srcEp := 300, srcGen := 2, serial := 4, dstEp := 256, mode := 0, mkey := 7, off64 := 0, tag := 0, length := 20000, placed := [], placedBytes := 0,
    recv := some postedRecv, newly := 0, oldest := none, maxStamp := 4000, cls := 0 }

/-- The ABORT of that message. -/
def abortOfIt : XPacket :=
  { base := { version := 1, kind := 0, cls := 0, locked := true, entropy := 0, membership := 3, dest := 32, src := 33, length := 0, stamp := 4900, keyEpoch := 0, seq := 1 }
    hdr := { type := 4, mode := 0, final := false, dstEp := 256, dstGen := 5, srcEp := 300, srcGen := 2, reason := 0, serial := 4, packet := 0, msgLength := 20000, tag := 0,
             hintUs := 0, mkey := 7, off64 := 0 }
    data := [] }

/-- A page of tenant 1 in T1 that the command in slot 0 pins. -/
def pinnedPage : DirEntry :=
  { run := { fabric := 32, loc := 2, first := 9, base := 0, slabs := 1, gen := 0 }, seq := 0, age := 0, pins := [.command 0], refs := 1, tenant := 1, st := .resident, kind := 0,
    persist := false, tier := 1, layer := 0, page := 0, back := 0 }

/-- Module 32 receives the message on its endpoint 256, and the slot of the matched RECV holds a pin. -/
def pinnedReceive : State :=
  { State.reset with
    host := { HostIf.reset with tenants := [(1, { st := .on, latch := false })], slots := [recvSlot], nextSlot := 1, nextStart := 2 }
    tier := { Tier.reset with dir := [(40, pinnedPage)] }
    fab := { Fab.reset with id := some 32, epoch := 3, members := [(32, 2), (33, 2)] }
    xport := { Xport.reset with
      eps := [(256, { Endpoint.fresh with opened := true, gen := 5, tOpen := 100, tenant := 1, mkey := 7 })], resident := [256], recvs := [begunMessage] } }

/-- Its ABORT releases the pin, which is a write to the directory. -/
theorem releasePins_pinnedReceive : (releasePins pinnedReceive 0).tier.dir = [(40, { pinnedPage with pins := [], seq := 1 })] := by decide

/-- Refutes O54: the clause of ABORT says that the tiers stay as they are also where the matched receive is cancelled, but its completion with 0x070D
releases the pins that its slot holds (06 R179), and no hypothesis excludes a pin. In `pinnedReceive` a directory entry loses one. -/
theorem not_framesArriveAndMessagesEnd : ¬ Obligations.FramesArriveAndMessagesEnd := by
  unfold Obligations.FramesArriveAndMessagesEnd
  intro h
  obtain ⟨-, -, -, -, -, -, -, -, -, -, abortClause, -⟩ := h
  have cancels := (abortClause abortOfIt pinnedReceive rfl rfl (by decide) (fun m hm => absurd hm (List.not_mem_nil))).2
  obtain ⟨w, -, ⟨hw, -, kept, -⟩, -⟩ :=
    cancels begunMessage postedRecv rfl (by decide) rfl rfl ⟨recvSlot, rfl, rfl, by decide, rfl⟩
  have released : w.tier = (releasePins pinnedReceive 0).tier := abort_tier (y := recvSlot) hw rfl rfl (by decide) rfl rfl rfl
  have same : (releasePins pinnedReceive 0).tier.dir = pinnedReceive.tier.dir := congrArg Tier.dir (released.symm.trans kept)
  exact absurd same (by rw [releasePins_pinnedReceive]; decide)

end Sys2Proof.Proofs
end

section
/-!
PROOFS. What the moves that request commands share show and leave alone: a change of one slot, messages of the system endpoints and steps issued for an
owned request (04_host_queues.md R92; 05_request_state_and_ownership.md R125, R129; 15_message_transport.md R457).
-/
namespace Sys2Proof.Proofs
open Sys2Proof.Machine

/-! ### A change of one slot -/

section
variable (s : State) (id n : Nat) (p : Phase)

@[simp] theorem setPhase_req : (setPhase s id p).req = s.req := rfl
@[simp] theorem setPhase_due : (setPhase s id p).host.due = s.host.due := rfl
@[simp] theorem setStage_req : (setStage s id n).req = s.req := rfl
@[simp] theorem setStage_due : (setStage s id n).host.due = s.host.due := rfl

end

/-! ### Messages -/

/-- Sending touches the outbox and the messages that wait for time, and nothing else. -/
theorem sysSend_eq (s : State) (d : Nat) (m : SysMsg) :
    ∃ out again, sysSend s d m = { s with req := { s.req with outbox := out, retry := again } } := by
  unfold sysSend
  split
  · exact ⟨_, _, rfl⟩
  · split <;> exact ⟨_, _, rfl⟩

section
variable (s : State) (d : Nat) (m : SysMsg)

@[simp] theorem sysSend_host : (sysSend s d m).host = s.host := by obtain ⟨out, again, h⟩ := sysSend_eq s d m; rw [h]
@[simp] theorem sysSend_hostMem : (sysSend s d m).hostMem = s.hostMem := by obtain ⟨out, again, h⟩ := sysSend_eq s d m; rw [h]
@[simp] theorem sysSend_issued : (sysSend s d m).req.issued = s.req.issued := by obtain ⟨out, again, h⟩ := sysSend_eq s d m; rw [h]
@[simp] theorem sysSend_owned : (sysSend s d m).req.owned = s.req.owned := by obtain ⟨out, again, h⟩ := sysSend_eq s d m; rw [h]

@[simp] theorem ownedOf_sysSend (h : Nat) : ownedOf (sysSend s d m) h = ownedOf s h := by rw [ownedOf, sysSend_owned]; rfl
@[simp] theorem selfId_sysSend : selfId (sysSend s d m) = selfId s := by obtain ⟨out, again, h⟩ := sysSend_eq s d m; rw [h]; rfl
@[simp] theorem canSend_sysSend : canSend (sysSend s d m) = canSend s := by obtain ⟨out, again, h⟩ := sysSend_eq s d m; rw [h]; rfl

end

/-- With a fabric ID, time and no quarantine a message leaves (15 R457). -/
theorem sysSend_canSend {s : State} (h : canSend s = true) (d : Nat) (m : SysMsg) :
    sysSend s d m = { s with req := { s.req with outbox := s.req.outbox ++ [(d, m)] } } := by
  simp [sysSend, h]

theorem sysSend_outbox {s : State} (h : canSend s = true) (d : Nat) (m : SysMsg) : (sysSend s d m).req.outbox = s.req.outbox ++ [(d, m)] := by
  rw [sysSend_canSend h]

/-! ### Steps of an owned request -/

/-- The outstanding step that the owner keeps of a step it issues (05 R129). -/
def issuedOf (s : State) (o : Owned) (x : LStep) (why : Why) : Issued :=
  { step := { x with digest := digestOf x }, before := some o.record, head := headOf s x.handle, sentAt := s.mono, why := why, after := none }

section
variable (s : State) (o : Owned) (x : LStep) (why : Why) (f : ReqRec → ReqRec)

@[simp] theorem ownStep_host : (ownStep s o x why f).host = s.host := by
  simp [ownStep, issueFrom, setOwned]

@[simp] theorem ownStep_issued : (ownStep s o x why f).req.issued = s.req.issued ++ [issuedOf s o x why] := by
  simp only [ownStep, issueFrom, sysSend_issued]
  rfl

/-- The working copy takes the step's number and effect at once (05 R125). -/
@[simp] theorem ownedOf_ownStep : ownedOf (ownStep s o x why f) o.record.handle = some { o with record := f { o.record with step := x.step } } := by
  simp [ownedOf, ownStep, issueFrom, setOwned]

@[simp] theorem canSend_ownStep : canSend (ownStep s o x why f) = canSend s := by
  rw [ownStep, issueFrom, canSend_sysSend]
  rfl

@[simp] theorem selfId_ownStep : selfId (ownStep s o x why f) = selfId s := by
  rw [ownStep, issueFrom, selfId_sysSend]
  rfl

end

/-- The step goes to the head of the chain (05 R129). -/
theorem ownStep_outbox {s : State} (h : canSend s = true) (o : Owned) (x : LStep) (why : Why) (f : ReqRec → ReqRec) :
    (ownStep s o x why f).req.outbox = s.req.outbox ++ [(headOf s x.handle, .step 1 (issuedOf s o x why).step)] := by
  rw [ownStep, issueFrom, sysSend_canSend]
  · rfl
  · exact h

/-- What the owner shows once it has issued a step for a command that then waits: the step outstanding, the working copy with its effect, and no
completion. -/
theorem ownStep_waits (s u : State) (id n : Nat) (w : Wait) {o : Owned} {h : Nat} (hh : o.record.handle = h) (x : LStep) (why : Why)
    (f : ReqRec → ReqRec) :
    let t := s.keepHost (await (ownStep (setStage u id n) o x why f) id w)
    t.req.issued = u.req.issued ++ [issuedOf (setStage u id n) o x why] ∧
      (ownedOf t h).map (·.record) = some (f { o.record with step := x.step }) ∧ t.host.due = u.host.due := by
  refine ⟨by simp [await], ?_, by simp [await]⟩
  rw [← hh]
  exact congrArg (Option.map (·.record)) (ownedOf_ownStep (setStage u id n) o x why f)

/-! ### A command that runs on the owner -/

/-- A command of one request that is owned here and has not ended runs on its working copy. -/
theorem withOwned_owned {s : State} {id : Nat} {c : Cmd} {o : Owned} (hb : isBatch c = false) (ho : ownedOf s (handleOf c) = some o)
    (hf : finalPhase o.record.phase = false) (k : Owned → State) : withOwned s id c k = k o := by
  simp [withOwned, hb, ho, hf]

/-- A batch names no request. -/
theorem withOwned_batch {s : State} {id : Nat} {c : Cmd} (hb : isBatch c = true) (k : Owned → State) :
    withOwned s id c k = fail (forget s id) id Status.requestUnknown := by
  simp [withOwned, hb]

end Sys2Proof.Proofs
end

section
/-!
PROOFS. O34 (05_request_state_and_ownership.md R130, R155, R156): CANCEL, QUERY, LOG_READ and RECORD_READ on the owner.
-/
namespace Sys2Proof.Proofs
open Sys2Proof.Machine Sys2Proof.Laws

/-- RESULT0 of QUERY: epoch, phase and owner (05 Table 5.11). -/
def queryResult0 (r : ReqRec) : Nat := r.epoch % 2 ^ 32 * 2 ^ 32 + r.phase % 16 * 2 ^ 28 + r.owner % 2 ^ 18

/-- RESULT1 of QUERY: log length and FIRST_MISSING (05 Table 5.11). -/
def queryResult1 (r : ReqRec) : Nat := r.logged * 2 ^ 32 + r.firstMissing

/-- QUERY answers from the working copy. -/
theorem runQuery_here {c : Cmd} {id : Nat} {s s1 : State} {o : Owned} (h : OneHere 0x16 c s id s1)
    (ho : ownedOf (here s1 id c) (handleOf c) = some o) (hf : finalPhase o.record.phase = false) :
    runQuery c s = finish (here s1 id c) id Status.ok (queryResult0 o.record) (queryResult1 o.record) := by
  rw [runQuery, runCmd_here h.1, withOwned_owned h.2 ho hf]
  rfl

/-- CANCEL that starts here goes on to the working copy. -/
theorem runCancel_here {c : Cmd} {id : Nat} {s s1 : State} (h : StartsHere 0x15 c s id s1) (h0 : stageOf (here s1 id c) id = 0) :
    runCancel c s = withOwned (here s1 id c) id c fun o =>
      if decodeInHand (here s1 id c) o.record.handle then await (here s1 id c) id .held
      else await (finishStep (setStage (here s1 id c) id 1) o 7 (.finish id 0 0)) id .ledger := by
  rw [runCancel, runCmd_here h]
  simp [h0]

/-- CANCEL issues FINISH with CANCELLED, or waits behind a decode step (01 R22). -/
theorem cancel_here {c : Cmd} {id : Nat} {s s1 : State} {o : Owned} (h : OneHere 0x15 c s id s1)
    (ho : ownedOf (here s1 id c) (handleOf c) = some o) (hh : o.record.handle = handleOf c) (h0 : stageOf (here s1 id c) id = 0)
    (hf : finalPhase o.record.phase = false) :
    exec (.cancel c) s = .next (s.keepHost (if decodeInHand (here s1 id c) (handleOf c) then await (here s1 id c) id .held
      else await (finishStep (setStage (here s1 id c) id 1) o 7 (.finish id 0 0)) id .ledger)) := by
  change quiet s (runCancel c s) = _
  rw [runCancel_here h.1 h0, withOwned_owned h.2 ho hf, hh]
  rfl

/-- A read of the ledger that starts on a request owned here checks its address and asks the tail (R156). -/
theorem readLedger_fresh {s : State} {id align : Nat} {c : Cmd} (hb : isBatch c = false) (h0 : stageOf s id = 0) :
    readLedger s id c align = if c.w2.toNat % align = 0 then setPhase (askTail (setStage s id 1) (handleOf c) (.read id)) id (.waiting .ledger)
      else finish s id Status.operandRange 0 0 := by
  by_cases ha : c.w2.toNat % align = 0 <;> simp [readLedger, hb, h0, ha, await, fail]

/-- LOG_READ takes an address that is 4-byte aligned. -/
theorem logRead_here {c : Cmd} {id : Nat} {s s1 : State} (h : OneHere 0x17 c s id s1) (h0 : stageOf (here s1 id c) id = 0) :
    exec (.logRead c) s = .next (s.keepHost (if c.w2.toNat % 4 = 0
      then setPhase (askTail (setStage (here s1 id c) id 1) (handleOf c) (.read id)) id (.waiting .ledger)
      else finish (here s1 id c) id Status.operandRange 0 0)) := by
  change quiet s (runLogRead c s) = _
  rw [runLogRead, runCmd_here h.1, readLedger_fresh h.2 h0]
  rfl

/-- RECORD_READ takes an address that is 64-byte aligned. -/
theorem recordRead_here {c : Cmd} {id : Nat} {s s1 : State} (h : OneHere 0x18 c s id s1) (h0 : stageOf (here s1 id c) id = 0) :
    exec (.recordRead c) s = .next (s.keepHost (if c.w2.toNat % 64 = 0
      then setPhase (askTail (setStage (here s1 id c) id 1) (handleOf c) (.read id)) id (.waiting .ledger)
      else finish (here s1 id c) id Status.operandRange 0 0)) := by
  change quiet s (runRecordRead c s) = _
  rw [runRecordRead, runCmd_here h.1, readLedger_fresh h.2 h0]
  rfl

/-- Settles O34: each command is run to its own equation on the owner; what CANCEL issues is what `ownStep` issues. -/
theorem cancelQueryAndReads : Obligations.CancelQueryAndReads := by
  unfold Obligations.CancelQueryAndReads
  refine ⟨?query, ?cancel, ?batch, ?log, ?record⟩
  case query =>
    intro c id s s1 o h ho hf
    change quiet s (runQuery c s) = _
    rw [runQuery_here h ho hf]
    rfl
  case cancel =>
    intro c id s s1 o h u ho hh h0 hf
    have run := cancel_here h ho hh h0 hf
    refine ⟨fun busy => ?_, fun idle => ?_⟩
    · rw [run, if_pos busy]; rfl
    · rw [run, if_neg (by simp [u, idle])]
      obtain ⟨issued, copy, due⟩ := ownStep_waits s u id 1 .ledger hh { stepOf (setStage u id 1) o.record 7 with newPhase := 7 } (.finish id 0 0)
        (fun r => { r with phase := 7 })
      exact ⟨_, _, rfl, issued, hh, rfl, rfl, rfl, rfl, rfl, copy, due⟩
  case batch =>
    intro c id s s1 hb refused
    refine ⟨fun h => ?_, fun h h0 => ?_⟩
    · change quiet s (runQuery c s) = _
      rw [runQuery, runCmd_here h, withOwned_batch hb]; rfl
    · change quiet s (runCancel c s) = _
      rw [runCancel_here h h0, withOwned_batch hb]; rfl
  case log =>
    intro c id s s1 h u h0
    exact ⟨fun bad => by rw [logRead_here h h0, if_neg bad], fun good => by rw [logRead_here h h0, if_pos good]⟩
  case record =>
    intro c id s s1 h u h0
    exact ⟨fun bad => by rw [recordRead_here h h0, if_neg bad], fun good => by rw [recordRead_here h h0, if_pos good]⟩

end Sys2Proof.Proofs
end

section
/-!
PROOFS. O33 (01_serving_roles.md R22; 05_request_state_and_ownership.md R125, R140, R141, R155, R160): HANDOFF, PARK and RESUME on the owner.
-/
namespace Sys2Proof.Proofs
open Sys2Proof.Machine Sys2Proof.Laws

/-! ### Pins are kept in the tiers alone -/

theorem pinEntry_eq (s : State) (p : Pin) (i : Nat) : ∃ x, pinEntry s p i = setTier s x := by
  unfold pinEntry
  split
  · split
    · exact ⟨_, rfl⟩
    · exact ⟨_, rfl⟩
  · exact ⟨s.tier, rfl⟩

theorem pinAll_eq (h : Nat) (l : List Nat) (s : State) : ∃ x, pinAll s h l = setTier s x := by
  induction l generalizing s with
  | nil => exact ⟨s.tier, rfl⟩
  | cons i l ih =>
    obtain ⟨x, hx⟩ := pinEntry_eq s (.handoff h) i
    obtain ⟨y, hy⟩ := ih (setTier s x)
    refine ⟨y, ?_⟩
    change pinAll (pinEntry s (.handoff h) i) h l = _
    rw [hx, hy]
    rfl

/-! ### A handoff begins -/

/-- A fit target is a live member (R160). -/
theorem isMember_of_targetOk {s : State} {m target : Nat} (h : targetOk s m target = true) : isMember s m = true := by
  simp only [targetOk, roleOf, Bool.and_eq_true] at h
  obtain ⟨-, h⟩ := h
  cases hf : (membersNow s).find? fun x => x.1 = m with
  | none => simp [hf] at h
  | some x => exact List.any_eq_true.2 ⟨x, List.mem_of_find?_eq_some hf, by simpa using List.find?_some hf⟩

/-- The handoff as it stands once BEGIN_HANDOFF is issued (R140). -/
def begunHandoff (o : Owned) (x : Handoff) (peer : Nat) : Handoff :=
  { x with st := .offered, peer := peer, step := o.record.step + 1, epoch := o.record.epoch, retries := 0
           pinned := (o.pages.filter fun p => p.2.present).map fun p => p.2.dir }

/-- The BEGIN_HANDOFF of a handoff, before its digest. -/
def beginStep (s : State) (o : Owned) (x : Handoff) (peer : Nat) : LStep := { stepOf s o.record 3 with target := x.target, peer := peer }

/-- The working copy after BEGIN_HANDOFF (R125, Table 5.4). -/
def begunOwned (o : Owned) (x : Handoff) (peer : Nat) : Owned :=
  { o with handoff := some (begunHandoff o x peer)
           record := { o.record with step := o.record.step + 1, prior := o.record.phase, phase := 3, target := x.target, peer := peer } }

/-- The state in which BEGIN_HANDOFF has been issued, its pages pinned, and the OFFER not yet sent. -/
def begunState (s : State) (h : Nat) (o : Owned) (x : Handoff) (peer : Nat) : State :=
  let o1 := { o with handoff := some (begunHandoff o x peer) }
  let s1 := pinAll (setOwned s h o1) h (begunHandoff o x peer).pinned
  ownStep s1 o1 (beginStep s1 o x peer) .handoff fun r => { r with prior := r.phase, phase := 3, target := x.target, peer := peer }

theorem ownedOf_begunState {s : State} {h : Nat} {o : Owned} {x : Handoff} {peer : Nat} (hh : o.record.handle = h) :
    ownedOf (begunState s h o x peer) h = some (begunOwned o x peer) := by
  subst hh
  have issued := fun s1 => ownedOf_ownStep s1 { o with handoff := some (begunHandoff o x peer) } (beginStep s1 o x peer) .handoff
    fun r => { r with prior := r.phase, phase := 3, target := x.target, peer := peer }
  exact issued _

/-- Once every started command of the request has completed, BEGIN_HANDOFF is issued and the OFFER goes to the receiver (R140, R141). -/
theorem beginHandoff_drained {s : State} {h : Nat} {o : Owned} {x : Handoff} {peer : Nat} (ho : ownedOf s h = some o) (hx : o.handoff = some x)
    (hh : o.record.handle = h) (hst : x.st = .draining) (hd : startedFor s h x.slot = false) (hf : finalPhase o.record.phase = false)
    (hp : handoffPhase s x.slot o.record.phase = true) (hm : handoffPeer s h x = some peer) :
    beginHandoff s h = sysSend (begunState s h o x peer) peer
      (.offer (offerOf (begunState s h o x peer) (begunOwned o x peer) (begunHandoff o x peer))) := by
  simp only [beginHandoff, ho, hx, hst, hd, hf, hp, hm, decide_true, Bool.not_true, Bool.or_self, Bool.false_eq_true, if_false]
  split
  next o2 h2 =>
    have shown : o2 = begunOwned o x peer := Option.some.inj (h2.symm.trans (ownedOf_begunState hh))
    subst shown
    rfl
  next h2 => exact absurd ((ownedOf_begunState hh).symm.trans h2) (Option.some_ne_none _)

/-- What the sender shows then: the step outstanding and sent; whether it may send and under what fabric ID are as before. -/
theorem begunState_shows {s : State} {h : Nat} {o : Owned} {x : Handoff} {peer : Nat} (hh : o.record.handle = h) (hs : canSend s = true) :
    let v := begunState s h o x peer
    let i := issuedOf s o (beginStep s o x peer) .handoff
    v.req.issued = s.req.issued ++ [i] ∧ v.req.outbox = s.req.outbox ++ [(headOf s h, .step 1 i.step)] ∧ canSend v = true ∧ selfId v = selfId s := by
  subst hh
  obtain ⟨y, hy⟩ := pinAll_eq o.record.handle (begunHandoff o x peer).pinned
    (setOwned s o.record.handle { o with handoff := some (begunHandoff o x peer) })
  have sends : canSend (setTier (setOwned s o.record.handle { o with handoff := some (begunHandoff o x peer) }) y) = true := hs
  simp only [begunState, hy]
  refine ⟨?_, ?_, ?_, ?_⟩
  · rw [ownStep_issued]; rfl
  · rw [ownStep_outbox sends]; rfl
  · rw [canSend_ownStep]; exact sends
  · rw [selfId_ownStep]; rfl

/-- The handoff that a command starts, while started commands of the request still run (R140). -/
def drainingHandoff (id peer target : Nat) : Handoff :=
  { st := .draining, peer := peer, target := target, slot := some id, step := 0, epoch := 0, retries := 0, timer := none, orphanUs := 0,
    refused := false, toSend := [], pinned := [], cause := 0 }

theorem startHandoff_fresh {s : State} {h : Nat} {o : Owned} (ho : ownedOf s h = some o) (hn : o.handoff = none) (peer target id : Nat) :
    startHandoff s h peer target (some id) 0 =
      beginHandoff (setOwned s h { o with handoff := some (drainingHandoff id peer target) }) h := by
  simp [startHandoff, ho, hn, drainingHandoff]

/-- Table 5.11 lets HANDOFF begin in PREFILLED, DECODING and PARKED. -/
theorem handoffPhase_of_handoff {s : State} {id : Nat} {c : Cmd} (hc : (slotById s id).map (·.cmd) = some c) (h : opcodeOf c = 0x12) {ph : Nat}
    (hp : ph ∈ [2, 4, 5]) : handoffPhase s (some id) ph = true := by
  obtain ⟨y, hy, rfl⟩ := Option.map_eq_some_iff.1 hc
  simp only [handoffPhase, Option.bind_some, hy, Option.map_some, h]
  simpa [or_assoc] using hp

/-- The receiver of a HANDOFF is the module that it names, while that is a live member (R160). -/
theorem handoffPeer_of_handoff {s : State} {id : Nat} {c : Cmd} (hc : (slotById s id).map (·.cmd) = some c) (h : opcodeOf c = 0x12)
    {peer : Nat} (hm : isMember s peer = true) (target hd : Nat) : handoffPeer s hd (drainingHandoff id peer target) = some peer := by
  obtain ⟨y, hy, rfl⟩ := Option.map_eq_some_iff.1 hc
  simp [handoffPeer, drainingHandoff, hy, h, hm]

/-- A HANDOFF to a fit target, once no other started command of the request runs here, issues BEGIN_HANDOFF and sends the OFFER (R140, R141). -/
theorem startHandoff_offers {s : State} {h id m tp : Nat} {o : Owned} {c : Cmd} (ho : ownedOf s h = some o) (hn : o.handoff = none)
    (hh : o.record.handle = h) (hf : finalPhase o.record.phase = false) (hp : o.record.phase ∈ [2, 4, 5]) (good : targetOk s m tp = true)
    (hd : startedFor s h (some id) = false) (hc : (slotById s id).map (·.cmd) = some c) (hop : opcodeOf c = 0x12) (hs : canSend s = true) :
    let x := drainingHandoff id m tp
    let t := startHandoff s h m tp (some id) 0
    let i := issuedOf s o (beginStep s o x m) .handoff
    ∃ f : Offer, t.req.issued = s.req.issued ++ [i] ∧ t.req.outbox = s.req.outbox ++ [(headOf s h, .step 1 i.step), (m, .offer f)] ∧
      ownedOf t h = some (begunOwned o x m) ∧ f.step = o.record.step + 1 ∧ f.target = tp ∧ f.sender = selfId s ∧ f.log = o.log := by
  intro x t i
  let o1 := { o with handoff := some x }
  let s1 := setOwned s h o1
  have begins : t = sysSend (begunState s1 h o1 x m) m (.offer (offerOf (begunState s1 h o1 x m) (begunOwned o1 x m) (begunHandoff o1 x m))) :=
    (startHandoff_fresh ho hn m tp id).trans (beginHandoff_drained (tget_tset_self ..) rfl hh rfl hd hf (handoffPhase_of_handoff hc hop hp)
      (handoffPeer_of_handoff hc hop (isMember_of_targetOk good) tp h))
  obtain ⟨issued, sent, may, self⟩ := begunState_shows (s := s1) (o := o1) (x := x) (peer := m) hh hs
  refine ⟨offerOf (begunState s1 h o1 x m) (begunOwned o1 x m) (begunHandoff o1 x m), ?_, ?_, ?_, rfl, rfl, self, rfl⟩
  · rw [begins, sysSend_issued, issued]; rfl
  · rw [begins, sysSend_outbox may, sent, List.append_assoc]; rfl
  · rw [begins, ownedOf_sysSend, ownedOf_begunState (o := o1) hh]; rfl

/-! ### The commands -/

/-- HANDOFF of a request in no handoff: its phase, then its target, then the handoff starts. -/
theorem handoff_here {c : Cmd} {id : Nat} {s s1 : State} {o : Owned} (h : OneHere 0x12 c s id s1) (ho : ownedOf (here s1 id c) (handleOf c) = some o)
    (hn : o.handoff = none) (hh : o.record.handle = handleOf c) (hf : finalPhase o.record.phase = false) :
    let u := here s1 id c
    exec (.handoff c) s = .next (s.keepHost (
      if o.record.phase ∉ [2, 4, 5] then finish u id Status.phaseInvalid 0 0
      else if targetOk u (fld c.w2 63 46) (fld c.w2 45 42) = false then finish u id Status.handoffTargetInvalid 0 0
      else await (startHandoff u (handleOf c) (fld c.w2 63 46) (fld c.w2 45 42) (some id) 0) id .ledger)) := by
  change quiet s (runHandoff c s) = _
  rw [runHandoff, runCmd_here h.1, withOwned_owned h.2 ho hf]
  simp [quiet, fail, handoffFor, hn, hh, and_assoc]

/-- What decides a PARK or a RESUME on the owner: a decode step in hand, the phase in which it is accepted, and `rest`, what it does then. -/
def behindDecode (s : State) (id : Nat) (o : Owned) (phase : Nat) (rest : State) : State :=
  if decodeInHand s o.record.handle then setPhase s id (.waiting .held)
  else if o.record.phase ≠ phase then finish s id Status.phaseInvalid 0 0
  else rest

theorem park_here {c : Cmd} {id : Nat} {s s1 : State} {o : Owned} (h : OneHere 0x13 c s id s1) (ho : ownedOf (here s1 id c) (handleOf c) = some o)
    (hn : o.handoff = none) (h0 : stageOf (here s1 id c) id = 0) (hf : finalPhase o.record.phase = false) :
    let u := here s1 id c
    exec (.park c) s = .next (s.keepHost (behindDecode u id o 4 (
      if u.image.role.cachePool then await (phaseStep (setStage u id 1) o 5 (.finish id o.record.epoch (selfId u))) id .ledger
      else if poolNow u = [] then finish u id Status.noCachePool 0 0
      else handoffFor u id o (headOf u o.record.handle) 5))) := by
  change quiet s (runPark c s) = _
  rw [runPark, runCmd_here h.1]
  simp [quiet, fail, await, h0, withOwned_owned h.2 ho hf, hn, behindDecode]

theorem resume_here {c : Cmd} {id : Nat} {s s1 : State} {o : Owned} (h : OneHere 0x14 c s id s1) (ho : ownedOf (here s1 id c) (handleOf c) = some o)
    (hn : o.handoff = none) (h0 : stageOf (here s1 id c) id = 0) (hf : finalPhase o.record.phase = false) :
    let u := here s1 id c
    exec (.resume c) s = .next (s.keepHost (behindDecode u id o 5 (
      if fld c.w2 63 46 = 0x3FFFF then await (phaseStep (setStage u id 1) o 4 (.finish id o.record.epoch (selfId u))) id .ledger
      else if targetOk u (fld c.w2 63 46) 4 = false then finish u id Status.handoffTargetInvalid 0 0
      else handoffFor u id o (fld c.w2 63 46) 4))) := by
  change quiet s (runResume c s) = _
  rw [runResume, runCmd_here h.1]
  simp [quiet, fail, await, h0, withOwned_owned h.2 ho hf, hn, behindDecode]

section
variable {s : State} {id : Nat} {o : Owned} {phase : Nat} {rest : State}

theorem behindDecode_busy (h : decodeInHand s o.record.handle = true) : behindDecode s id o phase rest = setPhase s id (.waiting .held) := if_pos h

theorem behindDecode_refused (hi : decodeInHand s o.record.handle = false) (hp : o.record.phase ≠ phase) :
    behindDecode s id o phase rest = finish s id Status.phaseInvalid 0 0 := by simp [behindDecode, hi, hp]

theorem behindDecode_accepted (hi : decodeInHand s o.record.handle = false) (hp : o.record.phase = phase) :
    behindDecode s id o phase rest = rest := by simp [behindDecode, hi, hp]

end

/-- Settles O33: each command is run to its own equation on the owner; what PARK and RESUME issue is what `ownStep` issues, and what HANDOFF issues is
shown by `startHandoff_offers`. -/
theorem handoffParkAndResume : Obligations.HandoffParkAndResume := by
  unfold Obligations.HandoffParkAndResume
  intro IssuesPhase
  have issues : ∀ (s u : State) (o : Owned) (id ph : Nat),
      IssuesPhase u (s.keepHost (await (phaseStep (setStage u id 1) o ph (.finish id o.record.epoch (selfId u))) id .ledger)) o id ph := by
    intro s u o id ph
    obtain ⟨issued, copy, due⟩ := ownStep_waits s u id 1 .ledger (o := o) rfl { stepOf (setStage u id 1) o.record 1 with newPhase := ph }
      (.finish id o.record.epoch (selfId u)) (fun r => { r with phase := ph })
    exact ⟨_, issued, rfl, rfl, rfl, rfl, rfl, rfl, rfl, copy, due⟩
  refine ⟨?handoff, ?park, ?resume⟩
  case handoff =>
    intro c id s s1 o h u m tp ho hn hh hf
    have run := handoff_here h ho hn hh hf
    refine ⟨fun bad => ?_, fun hp bad => ?_, fun hp good hd hc hs => ?_⟩
    · rw [run, if_pos bad]
    · rw [run, if_neg (not_not_intro hp), if_pos bad]
    · obtain ⟨⟨⟨hop, -, -⟩, -⟩, -⟩ := h
      obtain ⟨f, issued, sent, copy, step, target, sender, log⟩ := startHandoff_offers ho hn hh hf hp good hd hc hop hs
      refine ⟨s.keepHost (await (startHandoff u (handleOf c) m tp (some id) 0) id .ledger), _, f, ?_, issued, rfl, rfl, rfl, rfl, rfl, sent, step,
        target, sender, log, ?_⟩
      · rw [run, if_neg (not_not_intro hp), if_neg (by simp [u, m, tp, good])]
      · exact congrArg (Option.map fun o' => (o'.record.phase, o'.record.prior, o'.record.peer)) copy
  case park =>
    intro c id s s1 o h u waits ho hn hh h0 hf
    have run := park_here h ho hn h0 hf
    rw [← hh]
    refine ⟨fun busy => ?_, fun hp idle => ?_, fun hp pool idle => ?_, fun hp pool none idle => ?_⟩
    · rw [run, behindDecode_busy busy]
    · rw [run, behindDecode_refused idle hp]
    · rw [run, behindDecode_accepted idle hp, if_pos pool]
      exact ⟨_, rfl, issues s u o id 5⟩
    · rw [run, behindDecode_accepted idle hp, if_neg (by simp [u, pool]), if_pos none]
  case resume =>
    intro c id s s1 o h u waits m ho hn hh h0 hf
    have run := resume_here h ho hn h0 hf
    rw [← hh]
    refine ⟨fun busy => ?_, fun hp idle => ?_, fun hp home idle => ?_, fun hp away bad idle => ?_⟩
    · rw [run, behindDecode_busy busy]
    · rw [run, behindDecode_refused idle hp]
    · rw [run, behindDecode_accepted idle hp, if_pos home]
      exact ⟨_, rfl, issues s u o id 4⟩
    · rw [run, behindDecode_accepted idle hp, if_neg away, if_pos bad]

end Sys2Proof.Proofs
end

section
/-!
PROOFS. O30 (01_serving_roles.md R11, R12, R14, R601; 05_request_state_and_ownership.md R155; 08_attention.md R263): forwarded commands, at the owner
and at the accepting module.
-/
namespace Sys2Proof.Proofs
open Sys2Proof.Machine Sys2Proof.Laws

/-! ### What a completion changes -/

theorem compareDigest_hostMem (s : State) (cid mine theirs : Nat) : (compareDigest s cid mine theirs).hostMem = s.hostMem := by
  unfold compareDigest
  split
  · dsimp only
    split
    · rw [eventA_hostMem]
    · rfl
  · rw [eventA_hostMem]

theorem mirrorEnd_hostMem (s : State) (id cid status r0 r1 : Nat) : (mirrorEnd s id cid status r0 r1).hostMem = s.hostMem := by
  unfold mirrorEnd
  split
  · rfl
  · dsimp only
    split
    · rw [sysSend_hostMem]
    · rw [compareDigest_hostMem]

/-- A completion that becomes due, is dropped or is sent writes nothing to host memory: that happens when it is posted. -/
theorem finishWith_hostMem (s : State) (id status r0 r1 : Nat) (fwd : Bool) : (finishWith s id status r0 r1 fwd).hostMem = s.hostMem := by
  unfold finishWith
  split
  · rfl
  next x _ =>
    by_cases hf : x.phase = .finished
    · simp only [hf, if_true]; rfl
    · simp only [hf, if_false]
      split
      · exact mirrorEnd_hostMem ..
      · split
        · rw [sysSend_hostMem]; exact mirrorEnd_hostMem ..
        · split
          · exact mirrorEnd_hostMem ..
          · exact mirrorEnd_hostMem ..

/-- A command that finishes forgets what it had learnt of request owners: to forget it before changes nothing. -/
theorem finishWith_forget {s : State} {id : Nat} {x : Slot} (h : slotById s id = some x) (status r0 r1 : Nat) (fwd : Bool) :
    finishWith (forget s id) id status r0 r1 fwd = finishWith s id status r0 r1 fwd := by
  have h' : slotById (forget s id) id = some x := h
  simp only [finishWith, h, h']
  simp only [forget, releasePins, List.filter_filter, Bool.and_self]
  rfl

/-- On a module with no mirrored command, the completion of a command that another module forwarded goes there, and the slot is free (01 R12). -/
theorem finishWith_forwarded {s : State} {id m k : Nat} {x : Slot} (h : slotById s id = some x) (hp : x.phase ≠ .finished)
    (hsrc : x.cmd.src = some (m, k)) (hm : s.rel.mirrors = []) (hs : canSend s = true) (status r0 r1 : Nat) (fwd : Bool) :
    let t := finishWith s id status r0 r1 fwd
    t.host.slots = (dropSlot s id).host.slots ∧ t.req.outbox = s.req.outbox ++ [(m, .completion { x.cmd with src := none } status r0 r1)] := by
  have unmirrored : ∀ v : State, v.rel = s.rel → mirrorEnd v id (cidOf x.cmd) status r0 r1 = v := by
    intro v hv
    simp [mirrorEnd, hv, hm]
  have own : shadowed s id = false := by simp [shadowed, hm]
  simp only [finishWith, h, hp, if_false, own, Bool.false_eq_true, hsrc]
  rw [unmirrored _ (by rfl), sysSend_canSend (by exact hs)]
  exact ⟨rfl, rfl⟩

/-! ### The last slot of a module -/

/-- The slots are `l` and then `x`, whose ID is `id` and no other's. -/
def LastSlot (s : State) (l : List Slot) (id : Nat) (x : Slot) : Prop := s.host.slots = l ++ [x] ∧ x.id = id ∧ ∀ y ∈ l, y.id ≠ id

namespace LastSlot
variable {s : State} {l : List Slot} {id : Nat} {x : Slot}

theorem slotById_eq (h : LastSlot s l id x) : slotById s id = some x := by
  obtain ⟨hl, hx, hid⟩ := h
  have others : l.find? (fun y => decide (y.id = id)) = none := List.find?_eq_none.2 fun y hy => by simpa using hid y hy
  simp [slotById, hl, List.find?_append, others, hx]

theorem slotMembers_eq (h : LastSlot s l id x) : slotMembers s id = x.members := by simp [slotMembers, h.slotById_eq]

theorem modSlot (h : LastSlot s l id x) {f : Slot → Slot} {y : Slot} (hf : f x = y) (hy : y.id = x.id) : LastSlot (modSlot s id f) l id y := by
  obtain ⟨hl, hx, hid⟩ := h
  have kept : l.map (fun y => if y.id = id then f y else y) = l :=
    (List.map_congr_left fun y hy => if_neg (hid y hy)).trans (List.map_id l)
  exact ⟨by simp [Machine.modSlot, hl, kept, hx, hf], hy.trans hx, hid⟩

theorem dropSlot_slots (h : LastSlot s l id x) : (dropSlot s id).host.slots = l := by
  obtain ⟨hl, hx, hid⟩ := h
  have kept : l.filter (fun y => decide (y.id ≠ id)) = l := List.filter_eq_self.2 fun y hy => by simpa using hid y hy
  simp only [dropSlot, setSlots_host, hl, List.filter_append, kept]
  simp [hx]

theorem noteOrder (h : LastSlot s l id x) : LastSlot (noteOrder s id) l id { x with order := s.host.nextStart } :=
  LastSlot.modSlot (s := { s with host := { s.host with nextStart := s.host.nextStart + 1 } }) h rfl rfl

theorem noteArrival (h : LastSlot s l id x) :
    LastSlot (noteArrival s id) l id { x with order := s.host.nextStart, arrived := s.host.nextStart, sentTo := none } :=
  h.noteOrder.modSlot rfl rfl

/-- A forwarded command keeps the members that it brought. -/
theorem noteMembers {c : Cmd} (h : LastSlot s l id x) (hs : c.src.isSome = true) :
    LastSlot (noteMembers s id c) l id { x with order := s.host.nextStart } :=
  h.noteOrder.modSlot (by simp only [hs, if_true]) rfl

end LastSlot

/-! ### A forwarded command arrives (01 R11, R14) -/

/-- A command that another module sent, as it stands in the slot that it takes. -/
def acceptedSlot (id : Nat) (c : Cmd) (members : List Nat) : Slot :=
  { id := id, cmd := c, order := 0, arrived := 0, members := members, phase := .fetched, sentAt := 0, sentTo := none, askedAt := 0, aux := 0,
    injected := false, dead := false }

/-- The state in which a module has accepted such a command. -/
def accepted (s : State) (c : Cmd) (members : List Nat) : State := (accept s c members).2

section
variable (s : State) (c : Cmd) (members : List Nat) (h : Nat)

@[simp] theorem accepted_rel : (accepted s c members).rel = s.rel := rfl
@[simp] theorem accepted_hostMem : (accepted s c members).hostMem = s.hostMem := rfl
@[simp] theorem accepted_outbox : (accepted s c members).req.outbox = s.req.outbox := rfl
@[simp] theorem canSend_accepted : canSend (accepted s c members) = canSend s := rfl
@[simp] theorem ownedOf_accepted : ownedOf (accepted s c members) h = ownedOf s h := rfl

end

theorem lastSlot_accepted {s : State} (h : ∀ x ∈ s.host.slots, x.id < s.host.nextSlot) (c : Cmd) (members : List Nat) :
    LastSlot (accepted s c members) s.host.slots s.host.nextSlot (acceptedSlot s.host.nextSlot c members) := by
  have taken : LastSlot (takeSlot s c).2 s.host.slots s.host.nextSlot (acceptedSlot s.host.nextSlot c []) := ⟨rfl, rfl, fun y hy => (h y hy).ne⟩
  exact taken.modSlot rfl rfl

theorem sysTaken_of_notMem {s : State} {m : SysMsg} (h : (selfId s, m) ∉ s.req.outbox) : sysTaken s m = s := by
  simp [sysTaken, List.erase_of_not_mem h]

/-- A command that stands in no slot, and that the module has not sent to itself, is accepted and runs. -/
theorem arrive_fresh {s : State} {c : Cmd} {members : List Nat} {input : List (Byte × Bool)} (hsrc : c.src.isSome = true)
    (ho : opcodeOf c ≠ 0x5C ∧ opcodeOf c ≠ 0x5D) (hc : (selfId s, .command c members) ∉ s.req.outbox)
    (hf : (selfId s, .search c input) ∉ s.req.outbox) (hx : ∀ x ∈ s.host.slots, x.cmd ≠ c) :
    arrive s c members input = runHost c (accepted s c members) := by
  have passed : dropPassed s c = s := by
    have none : s.host.slots.filter (fun x => decide (x.cmd = c) && x.sentTo.isSome && x.inHand) = [] :=
      List.filter_eq_nil_iff.2 fun x hs => by simp [hx x hs]
    simp [dropPassed, none]
  have outside : inSlot s c = false := by
    simp only [inSlot, List.any_eq_false]
    exact fun x hs => by simp [hx x hs]
  have here : c.src.isNone = false := by simpa using hsrc
  simp only [arrive, sysTaken_of_notMem hc, sysTaken_of_notMem hf, passed, here, ho.1, ho.2, outside, decide_false, Bool.or_self,
    Bool.false_eq_true, if_false]
  rfl

/-- Once accepted, with no other command of its sender's queue in a slot, it starts: a forwarded command was checked where it was accepted first. -/
theorem starts_accepted {s : State} {c : Cmd} {members : List Nat} (hsrc : c.src.isSome = true) (hq : s.rel.quarantined = false)
    (hi : islandShut s c = false) (hx : ∀ x ∈ s.host.slots, sameQueue x.cmd c = false ∧ x.id < s.host.nextSlot) :
    Starts (opcodeOf c) c (accepted s c members) s.host.nextSlot (accepted s c members) := by
  have slots : (accepted s c members).host.slots = s.host.slots ++ [acceptedSlot s.host.nextSlot c members] :=
    (lastSlot_accepted (fun x hs => (hx x hs).2) c members).1
  have own : sameQueue c c = true := by simp [sameQueue]
  have shut : islandShut (accepted s c members) c = false := hi
  refine ⟨rfl, ?_, ?_⟩
  · have first : (accepted s c members).host.slots.find? (fun x => sameQueue x.cmd c && decide (x.phase = .fetched)) =
        some (acceptedSlot s.host.nextSlot c members) := by
      have others : s.host.slots.find? (fun x => sameQueue x.cmd c && decide (x.phase = .fetched)) = none :=
        List.find?_eq_none.2 fun x hs => by simp [(hx x hs).1]
      simp [slots, List.find?_append, others, acceptedSlot, own]
    have alone : earlier (accepted s c members) s.host.nextSlot c = [] := by
      have others : s.host.slots.filter (fun x => decide (x.id < s.host.nextSlot) && sameQueue x.cmd c && !x.dead) = [] :=
        List.filter_eq_nil_iff.2 fun x hs => by simp [(hx x hs).1]
      simp [earlier, slots, others, acceptedSlot]
    have free : heldBack (accepted s c members) s.host.nextSlot c = false := by simp [heldBack, alone]
    simp only [claim, shut, first]
    simp [acceptedSlot, free]
  · simp [hostChecks, entryChecks, memberChecks, hq, hsrc]

/-! ### It runs at the owner -/

/-- A command of one request that is owned here, that has not ended and is in no handoff or recovery, runs here unless an earlier one is held. -/
theorem routeOf_owned {s : State} {id h : Nat} {c : Cmd} {o : Owned} (hm : slotMembers s id = [h]) (ho : ownedOf s h = some o)
    (hf : finalPhase o.record.phase = false) (h6 : o.record.phase ≠ 6) (hn : o.handoff = none) (ha : heldAhead s id [h] = false) :
    routeOf s id c = .here := by
  have found : locate s id h = some (.owner (selfId s) o.record.phase) := by simp [locate, ho, hf]
  have free : heldHere s h = false := by simp [heldHere, ho, hn]
  have living : livingMembers s id [h] = [(h, selfId s)] := by simp [livingMembers, found, h6]
  simp [routeOf, hm, free, ha, found, living, ho]

/-- A table whose values at some keys are changed. -/
theorem tget_map_if {κ α : Type} [DecidableEq κ] (p : κ → Bool) (g : α → α) (k : κ) (t : Tab κ α) :
    tget (t.map fun e => if p e.1 then (e.1, g e.2) else e) k = (tget t k).map fun v => if p k then g v else v := by
  induction t with
  | nil => rfl
  | cons e t ih =>
    obtain ⟨a, v⟩ := e
    by_cases hk : a = k
    · subst hk
      by_cases hp : p a <;> simp [tget, hp]
    · by_cases hp : p a <;> simp [tget, hp, hk, ih]

/-- A command that starts leaves every record as it is. -/
theorem noteStart_record (s : State) (id h : Nat) : (ownedOf (noteStart s id) h).map (·.record) = (ownedOf s h).map (·.record) := by
  have noted := tget_map_if (slotMembers s id).contains (fun o : Owned => { o with lastStart := s.mono }) h s.req.owned
  rw [ownedOf, noteStart, noted, Option.map_map]
  congr 1
  funext o
  simp only [Function.comp_apply]
  split <;> rfl

section
variable (s : State) (id h : Nat) (c : Cmd)

@[simp] theorem noteMembers_rel : (noteMembers s id c).rel = s.rel := rfl
@[simp] theorem noteMembers_hostMem : (noteMembers s id c).hostMem = s.hostMem := rfl
@[simp] theorem noteMembers_outbox : (noteMembers s id c).req.outbox = s.req.outbox := rfl
@[simp] theorem canSend_noteMembers : canSend (noteMembers s id c) = canSend s := rfl
@[simp] theorem ownedOf_noteMembers : ownedOf (noteMembers s id c) h = ownedOf s h := rfl
@[simp] theorem noteArrival_rel : (noteArrival s id).rel = s.rel := rfl
@[simp] theorem noteArrival_hostMem : (noteArrival s id).hostMem = s.hostMem := rfl
@[simp] theorem noteArrival_outbox : (noteArrival s id).req.outbox = s.req.outbox := rfl
@[simp] theorem canSend_noteArrival : canSend (noteArrival s id) = canSend s := rfl
@[simp] theorem ownedOf_noteArrival : ownedOf (noteArrival s id) h = ownedOf s h := rfl
@[simp] theorem keepGone_rel : (keepGone s id).rel = s.rel := rfl
@[simp] theorem keepGone_hostMem : (keepGone s id).hostMem = s.hostMem := rfl
@[simp] theorem keepGone_outbox : (keepGone s id).req.outbox = s.req.outbox := rfl
@[simp] theorem canSend_keepGone : canSend (keepGone s id) = canSend s := rfl
@[simp] theorem ownedOf_keepGone : ownedOf (keepGone s id) h = ownedOf s h := rfl
@[simp] theorem noteStart_rel : (noteStart s id).rel = s.rel := rfl
@[simp] theorem noteStart_hostMem : (noteStart s id).hostMem = s.hostMem := rfl
@[simp] theorem noteStart_outbox : (noteStart s id).req.outbox = s.req.outbox := rfl
@[simp] theorem canSend_noteStart : canSend (noteStart s id) = canSend s := rfl

end

/-- On a module with no shadow a command begins with its members noted, and no more. -/
theorem begun_unmirrored {s : State} (hp : s.rel.primaryTo = none) (id : Nat) (c : Cmd) : begun s id c = noteMembers s id c := by
  simp [begun, mirrorStart, hp]

/-- Going on at the owner, a command leaves every record as it is. -/
theorem here_record {s : State} (hp : s.rel.primaryTo = none) (id h : Nat) (c : Cmd) :
    (ownedOf (here s id c) h).map (·.record) = (ownedOf s h).map (·.record) := by
  simp [here, begun_unmirrored hp, noteStart_record]

section
variable {s : State} (hp : s.rel.primaryTo = none) (id : Nat) (c : Cmd)
include hp

theorem here_rel : (here s id c).rel = s.rel := by simp [here, begun_unmirrored hp]
theorem here_hostMem : (here s id c).hostMem = s.hostMem := by simp [here, begun_unmirrored hp]
theorem here_outbox : (here s id c).req.outbox = s.req.outbox := by simp [here, begun_unmirrored hp]
theorem canSend_here : canSend (here s id c) = canSend s := by simp [here, begun_unmirrored hp]

end

/-- The slot of a forwarded command that goes on at the owner. -/
theorem lastSlot_here {s : State} {l : List Slot} {id : Nat} {x : Slot} {c : Cmd} (hp : s.rel.primaryTo = none) (h : LastSlot s l id x)
    (hs : c.src.isSome = true) : ∃ n, LastSlot (here s id c) l id { x with order := n, arrived := n, sentTo := none } := by
  have kept : LastSlot (keepGone (noteMembers s id c) id) l id { x with order := s.host.nextStart } := h.noteMembers hs
  exact ⟨_, by rw [here, begun_unmirrored hp]; exact kept.noteArrival⟩

/-- A forwarded QUERY is answered to the module that forwarded it, and keeps no slot (01 R12; 05 R155). -/
theorem forwardedQuery_answered {c : Cmd} {m k : Nat} {o : Owned} {s : State} (hsrc : c.src = some (m, k)) (hop : opcodeOf c = 0x16)
    (hb : isBatch c = false) (ho : ownedOf s (handleOf c) = some o) (hf : finalPhase o.record.phase = false) (h6 : o.record.phase ≠ 6)
    (hn : o.handoff = none) (hq : s.rel.quarantined = false) (hm : s.rel.mirrors = []) (hp : s.rel.primaryTo = none) (hi : islandShut s c = false)
    (hx : ∀ x ∈ s.host.slots, sameQueue x.cmd c = false ∧ x.id < s.host.nextSlot ∧ x.phase ≠ .waiting .held ∧ x.phase ≠ .waiting .route)
    (hs : canSend s = true) :
    let t := runQuery c (accepted s c [handleOf c])
    t.host.slots = s.host.slots ∧ t.hostMem = s.hostMem ∧
      t.req.outbox = s.req.outbox ++ [(m, .completion { c with src := none } 0 (queryResult0 o.record) (queryResult1 o.record))] := by
  have foreign : c.src.isSome = true := by simp [hsrc]
  let a := accepted s c [handleOf c]
  let id := s.host.nextSlot
  have unshadowed : a.rel.primaryTo = none := hp
  have others : ∀ x ∈ s.host.slots, sameQueue x.cmd c = false ∧ x.id < id := fun x h => by
    obtain ⟨queue, before, -, -⟩ := hx x h
    exact ⟨queue, before⟩
  have last : LastSlot a s.host.slots id (acceptedSlot id c [handleOf c]) := lastSlot_accepted (fun x h => (others x h).2) c [handleOf c]
  have begins : LastSlot (begun a id c) s.host.slots id { acceptedSlot id c [handleOf c] with order := s.host.nextStart } :=
    begun_unmirrored unshadowed id c ▸ last.noteMembers foreign
  have ahead : heldAhead (begun a id c) id [handleOf c] = false := by
    simp only [heldAhead, begins.1, List.any_append, List.any_cons, List.any_nil, Bool.or_eq_false_iff, List.any_eq_false]
    refine ⟨fun x h => ?_, by simp [acceptedSlot]⟩
    obtain ⟨-, -, held, route⟩ := hx x h
    simp [held, route]
  have owned : ownedOf (begun a id c) (handleOf c) = some o := by
    rw [begun_unmirrored unshadowed, ownedOf_noteMembers, ownedOf_accepted, ho]
  have runs : OneHere 0x16 c a id a :=
    ⟨⟨hop ▸ starts_accepted foreign hq hi others, routeOf_owned begins.slotMembers_eq owned hf h6 hn ahead⟩, hb⟩
  obtain ⟨o', ho', hr⟩ : ∃ o', ownedOf (here a id c) (handleOf c) = some o' ∧ o'.record = o.record := by
    rw [← Option.map_eq_some_iff, here_record unshadowed, ownedOf_accepted, ho, Option.map_some]
  obtain ⟨n, stands⟩ := lastSlot_here unshadowed last foreign
  obtain ⟨slots, sent⟩ := finishWith_forwarded stands.slotById_eq (by simp [acceptedSlot]) hsrc (by rw [here_rel unshadowed, accepted_rel, hm])
    (by rw [canSend_here unshadowed, canSend_accepted, hs]) Status.ok (queryResult0 o.record) (queryResult1 o.record) false
  rw [here_outbox unshadowed, accepted_outbox] at sent
  rw [runQuery_here runs ho' (hr ▸ hf), hr]
  refine ⟨slots.trans stands.dropSlot_slots, ?_, sent⟩
  rw [finish, finishWith_hostMem, here_hostMem unshadowed, accepted_hostMem]

/-! ### At the accepting module -/

/-- The slot that a forwarded command's tag names, while the command in it is the one that went. -/
theorem forwardedSlot_eq {s : State} {c : Cmd} {x : Slot} (hx : slotById s c.tag = some x) (hi : x.inHand = true) (ht : x.sentTo.isSome = true)
    (hs : x.cmd.src = none) (hc : x.cmd = { c with tag := 0 }) : forwardedSlot s c = some x := by
  have own : x.cmd.src.isNone = true := by simp [hs]
  have same : decide (x.cmd = { c with tag := 0 }) = true := decide_eq_true hc
  simp only [forwardedSlot, hx, hi, ht, own, same, Bool.and_self, if_true]

theorem forwardedSlot_none {s : State} {c : Cmd} (h : slotById s c.tag = none) : forwardedSlot s c = none := by
  simp only [forwardedSlot, h]

theorem id_of_slotById {s : State} {id : Nat} {x : Slot} (h : slotById s id = some x) : x.id = id := by
  simpa using List.find?_some h

/-- A completion finishes the command that it names, as one that ran on another module (01 R12, R601). -/
theorem completion_finishes {c : Cmd} {st r0 r1 : Nat} {x : Slot} {s : State} (hx : slotById s c.tag = some x) (hi : x.inHand = true)
    (ht : x.sentTo.isSome = true) (hs : x.cmd.src = none) (hc : x.cmd = { c with tag := 0 }) (hw : s.hostMem.wf = true) :
    exec (.forwardedCompletionArrival c st r0 r1 []) s =
      .next (s.keepHost (finishWith (sysTaken (sysTaken s (.completion c st r0 r1)) (.found c st r0 r1 [])) x.id st r0 r1 true)) := by
  let s0 := sysTaken (sysTaken s (.completion c st r0 r1)) (.found c st r0 r1 [])
  have slot : forwardedSlot (sysTaken (sysTaken s (.completion c st r0 r1)) (.found c st r0 r1 [])) c = some x := forwardedSlot_eq hx hi ht hs hc
  have named : slotById s0 x.id = some x := by rw [id_of_slotById hx]; exact hx
  have ran : exec (.forwardedCompletionArrival c st r0 r1 []) s = ordinary s (finishWith (forget s0 x.id) x.id st r0 r1 true) := by
    change execForwardedCompletionArrival c st r0 r1 [] s = _
    simp only [execForwardedCompletionArrival, slot]
    rfl
  have canon : (finishWith s0 x.id st r0 r1 true).hostMem.canon = s.hostMem := by
    rw [finishWith_hostMem]
    exact Memory.canon_of_wf hw
  rw [ran, finishWith_forget named, ordinary, State.keepHost, ← canon]
  rfl

/-- The completion of a command that the module holds no longer is discarded (01 R601). -/
theorem completion_discarded {c : Cmd} {st r0 r1 : Nat} {data : List (Byte × Bool)} {s : State} (hx : slotById s c.tag = none) (hq : c.q ≠ 64) :
    exec (.forwardedCompletionArrival c st r0 r1 data) s = .next (sysTaken (sysTaken s (.completion c st r0 r1)) (.found c st r0 r1 data)) := by
  have slot : forwardedSlot (sysTaken (sysTaken s (.completion c st r0 r1)) (.found c st r0 r1 data)) c = none := forwardedSlot_none hx
  have host : isJobCancel c = false := by simp [isJobCancel, hq]
  change execForwardedCompletionArrival c st r0 r1 data s = _
  simp only [execForwardedCompletionArrival, slot, host, Bool.false_eq_true, if_false]
  rfl

/-- The release of a forwarded command that waits on its tag lets later commands of the queue start (08 R263). -/
theorem release_reported {c : Cmd} {x : Slot} {s : State} (hx : slotById s c.tag = some x) (hp : x.phase = .waiting .tag)
    (ht : x.sentTo.isSome = true) (hs : x.cmd.src = none) (hc : x.cmd = { c with tag := 0 }) :
    exec (.waitReleaseReport c) s = .next (setPhase (noteOrder (sysTaken s (.released c)) x.id) x.id (.waiting .remote)) := by
  have slot : forwardedSlot (sysTaken s (.released c)) c = some x := forwardedSlot_eq hx (by simp [Slot.inHand, hp]) ht hs hc
  change execWaitReleaseReport c s = _
  simp only [execWaitReleaseReport, slot, hp, if_true]
  rfl

/-! ### Retries and the timeout (01 R601) -/

/-- A command that its owner is to run: asked for again, left alone, or, where it was another module's, dropped. -/
theorem retryTimer_remote {c : Cmd} {x : Slot} {m : Nat} {s : State} (failed : Bool)
    (hx : slotWhere s c (fun y => decide (y.phase = .waiting .route) || y.sentTo.isSome) = some x) (hp : x.phase = .waiting .remote)
    (ht : x.sentTo = some m) (hm : m ≠ selfId s) :
    exec (.forwardRetryTimer ⟨c, failed⟩) s =
      if failed = true ∨ isMember s m = false then
        if x.askedAt = 0 ∨ x.askedAt + 100000 ≤ s.mono then .next (s.keepHost (askAgain s x)) else .next s
      else if c.src.isSome = true then .next (s.keepHost (dropSlot s x.id)) else .next s := by
  have fails : forwardFailed s x failed = (failed || !isMember s m) := by simp [forwardFailed, ht, hm]
  change execForwardRetryTimer ⟨c, failed⟩ s = _
  simp [execForwardRetryTimer, hx, hp, fails, quiet]

/-- A command of one request that asks again: the tail gets the query, and the slot waits for its answer. -/
theorem askAgain_shows {x : Slot} {h : Nat} {s : State} (hx : x.members = [h]) (ha : s.req.asks = []) (hs : canSend s = true) :
    let t := askAgain s x
    t.req.asks = [{ handle := h, asker := .forward x.id, sentAt := s.mono }] ∧
      t.req.outbox = s.req.outbox ++ [(tailOf s h, .query h (selfId s) false (s.fab.epoch % 2 ^ 32))] ∧
      t.host.slots = s.host.slots.map (fun y => if y.id = x.id then { y with phase := .waiting .route, askedAt := s.mono } else y) := by
  have asked : askFor (forget s x.id) x.id x.members = askTail (forget s x.id) h (.forward x.id) := by
    simp [askFor, hx, forget, ha]
  have told : (forget s x.id).req.asks = [] := by simp [forget, ha]
  simp only [askAgain, asked, askTail, told, List.nil_append]
  rw [sysSend_canSend (by exact hs)]
  refine ⟨rfl, rfl, ?_⟩
  simp only [setPhase, modSlot, setSlots_host, List.map_map]
  refine List.map_congr_left fun y _ => ?_
  by_cases hy : y.id = x.id <;> simp [hy]

/-- Was a command first forwarded 1,000 ms ago or more, and is it not held here? -/
def overdue (s : State) (y : Slot) : Bool := y.sentTo.isSome && decide (y.phase ≠ .waiting .held) && decide (y.sentAt + 1000000000 ≤ s.mono)

/-- FORWARD_TIMEOUT looks for an overdue command of the accepting module. -/
theorem overdue_eq {c : Cmd} (own : c.src = none) (s : State) :
    (fun y : Slot => c.src.isNone && y.sentTo.isSome && !(y.phase = .waiting .held) && decide (y.sentAt + 1000000000 ≤ s.mono)) = overdue s := by
  funext y
  simp [overdue, own]

theorem forwardTimeout_overdue {c : Cmd} {s : State} {x : Slot} {took : Bool} (own : c.src = none) (hx : slotWhere s c (overdue s) = some x) :
    exec (.forwardTimeout ⟨c, took⟩) s =
      if took = true then .next s else .next (s.keepHost (finish (forget s x.id) x.id Status.peerUnreachable 0 0)) := by
  change execForwardTimeout ⟨c, took⟩ s = _
  simp only [execForwardTimeout, overdue_eq own, hx]
  rfl

theorem forwardTimeout_none {c : Cmd} {s : State} {took : Bool} (own : c.src = none) (hx : slotWhere s c (overdue s) = none) :
    exec (.forwardTimeout ⟨c, took⟩) s = .next s := by
  change execForwardTimeout ⟨c, took⟩ s = _
  simp only [execForwardTimeout, overdue_eq own, hx]

/-- Settles O30: a forwarded QUERY is accepted, starts and runs as any QUERY on the owner, and its completion goes back; of the accepting module's rows
each clause is a lemma above. -/
theorem forwardedCommandsRunAtTheOwner : Obligations.ForwardedCommandsRunAtTheOwner := by
  unfold Obligations.ForwardedCommandsRunAtTheOwner
  refine ⟨?query, ?completion, ?discarded, ?release, ?retry, ?timeout⟩
  case query =>
    intro c m k h o s hsrc hop hb hh ho hf h6 hn hq hm hp hi hx hs hw hout
    subst hh
    have fresh : ∀ x ∈ s.host.slots, x.cmd ≠ c := fun x hs e => by
      obtain ⟨queue, -⟩ := hx x hs
      simp [e, sameQueue] at queue
    have runs : arrive s c [handleOf c] [] = runQuery c (accepted s c [handleOf c]) := by
      rw [arrive_fresh (by simp [hsrc]) (by simp [hop]) (fun i => (hout _ [handleOf c] i).1 rfl) (fun i => (hout _ [] i).2 [] rfl) fresh]
      simp [runHost, hop]
    obtain ⟨slots, mem, sent⟩ := forwardedQuery_answered hsrc hop hb ho hf h6 hn hq hm hp hi hx hs
    refine ⟨s.keep (runQuery c (accepted s c [handleOf c])), ?_, slots, ?_, sent⟩
    · exact congrArg (ordinary s) runs
    · rw [keep_hostMem, mem, Memory.canon_of_wf hw]
  case completion => exact fun c st r0 r1 x s hx hi ht hs hc hw => completion_finishes hx hi ht hs hc hw
  case discarded => exact fun c st r0 r1 data s hx hq => completion_discarded hx hq
  case release => exact fun c x s hx hp ht hs hc => release_reported hx hp ht hs hc
  case retry =>
    intro c x m h failed s hx hp ht hm hmem ha hs
    have run := retryTimer_remote failed hx hp ht hm
    refine ⟨fun fails due => ?_, fun fails asked early => ?_, fun sent live own => ?_, fun sent live passed => ?_⟩
    · rw [run, if_pos fails, if_pos due]
      exact ⟨_, rfl, askAgain_shows hmem ha hs⟩
    · rw [run, if_pos fails, if_neg (by omega)]
    · rw [run, if_neg (by simp [sent, live]), if_neg (by simp [own])]
    · rw [run, if_neg (by simp [sent, live]), if_pos passed]
  case timeout =>
    intro c s own late
    refine ⟨fun x hx => ?_, fun hx => forwardTimeout_none own hx, ?_⟩
    · rw [forwardTimeout_overdue own hx]; rfl
    · cases hx : slotWhere s c (overdue s) with
      | none => exact forwardTimeout_none own hx
      | some x => rw [forwardTimeout_overdue own hx, if_pos rfl]

end Sys2Proof.Proofs
end

section
/-!
PROOFS. O57 (16_tray_memory_fabric.md R476–R479; 19_security.md R545): the activation of a secret lets a waiting tray request go.
-/
namespace Sys2Proof.Proofs
open Sys2Proof.Machine

/-- The TRAY_STORE of tenant 1 in slot 0, which waits for its request to leave: 64 bytes of host memory at 0x1000 to address 0 of the module's own slot. -/
def storeSlot : Slot :=
  { id := 0, order := 1, arrived := 0, members := [], phase := .waiting .fabric, sentAt := 0, sentTo := none, askedAt := 0, aux := 0, injected := false
    dead := false
    cmd := { fn := 1, q := 0, src := none, w0 := 0x81, w1 := 0, w2 := BitVec.ofNat 64 (3 * 2 ^ 32 + 64), w3 := 0,
             w4 := BitVec.ofNat 64 (2 * 2 ^ 62 + 0x1000), w5 := 0, w6 := 0, w7 := 0 } }

/-- Its operation: operation 0 toward the module itself, not yet sent, as when a budget holds it (17 R499). -/
def storeOp : TrayOp :=
  { opId := 0, slot := 0, tenant := 1, job := 0, cmdOp := 0x81, ref := storeSlot.cmd.w4, credit := false, queued := false, sent := false, attempt := 0
    firstTx := 0, lastTx := 0, ran := 0, stopped := 0, covOp := none, doneCounter := 0
    req :=
      { base := baseHdr 1 0 32 0 64
        hdr := { type := 0, op := 1, aop := 0, width := 0, dtype := 0, opId := 0, ackedBelow := 0, status := 0, poison := false, addr := 0, mkey := 3
                 len := 64 }
        data := [] } }

/-- Module 32 in READY with a secret in force, and the STORE waiting. -/
def storeWaits : State :=
  { State.reset with
    boot := { Boot.reset with state := .ready }
    host := { HostIf.reset with link := { up := true, width := 16, rate := 6, flit := true }, tenants := [(1, { st := .on, latch := false })]
                                slots := [storeSlot], nextSlot := 1, nextStart := 2 }
    sec := { Sec.reset with domain := [{ activate := 0, secret := 5 }] }
    fab := { Fab.reset with id := some 32, epoch := 3, members := [(32, 2)] }
    tray := { Tray.reset with peers := [(32, { TrayPeer.fresh with nextOp := 1, ops := [storeOp] })] } }

/-- The activation lets the request go: it enters the module's own home queues, and the STORE completes with OK (R478, R479). -/
theorem activation_completes_store :
    (pumpTray (announceAll storeWaits (linksOn storeWaits))).host.due.map (fun d => (d.slot, d.status)) = [(0, Status.ok)] := by decide

/-- Refutes O57: its clause on the activation of a secret says that the host interface stays as it is, but an activation also lets the tray requests go
that waited for a key or time (16 R476), and no hypothesis excludes one of them. In `storeWaits` a STORE to the module's own slot completes. -/
theorem not_theFabricIsDiscoveredAndTimed : ¬ Obligations.TheFabricIsDiscoveredAndTimed := by
  unfold Obligations.TheFabricIsDiscoveredAndTimed
  intro h
  obtain ⟨-, -, -, -, -, -, -, -, -, -, activation⟩ := h
  obtain ⟨w, hw, -, kept, -⟩ := (activation storeWaits).2 (by decide) rfl rfl
  have runs : exec .domainSecretActivation storeWaits = .next (storeWaits.keepHost (pumpTray (announceAll storeWaits (linksOn storeWaits)))) := rfl
  have shown : w = storeWaits.keepHost (pumpTray (announceAll storeWaits (linksOn storeWaits))) := by
    rw [runs, Host.Outcome.next.injEq] at hw
    exact hw.symm
  have same : (pumpTray (announceAll storeWaits (linksOn storeWaits))).host = storeWaits.host := by
    rw [← kept, shown]; rfl
  have completes := activation_completes_store
  rw [same] at completes
  exact absurd completes (by decide)

end Sys2Proof.Proofs
end

section
/-!
PROOFS. O29 (02_module_organisation.md R38, R40–R42, Table 2.7): fences complete once what they cover has ended.
-/
namespace Sys2Proof.Proofs
open Sys2Proof.Machine Sys2Proof.Laws

/-- Has every earlier command of the fence's queue finished (R38)? -/
def EarlierFinished (s : State) (id : Nat) (c : Cmd) : Prop :=
  ∀ x ∈ s.host.slots, x.id < id → sameQueue x.cmd c = true → x.dead = false → x.phase = .finished

/-- Does a PLACE_FENCE or TRAY_FENCE in slot `id` cover an operation (Table 2.7)? -/
def coversOp (tray : Bool) (c : Cmd) (id : Nat) (o : CovOp) : Bool :=
  decide (o.slot < id) && decide (o.fn = c.fn) && decide (o.q = c.q) && decide (o.src = c.src) &&
    (if tray then decide (o.kind = .tray) else !decide (o.kind = .tray))

/-- Each FLUSH that waited behind the fence is looked at again (R42). -/
def flushesTried (s : State) : State := flushAll s s.host.slots

/-- A fence completes, and covers its operations no longer (R41). -/
def fenceDone (tray : Bool) (s : State) (id : Nat) (c : Cmd) : State :=
  flushesTried (finish { s with host := { s.host with ops := s.host.ops.filter fun o => !coversOp tray c id o } } id
    (if s.host.ops.any (fun o => coversOp tray c id o && decide (o.ended = some false)) then 0x0010 else 0) 0 0)

/-! ### What a fence covers -/

theorem coveredOps_queueFence {c : Cmd} (h : opcodeOf c = 0x9D) (s : State) (id : Nat) : coveredOps s id c = [] := by
  refine List.filter_eq_nil_iff.mpr fun o _ => ?_
  cases hk : o.kind <;> simp [fenceCovers, h]

theorem coveredOps_placeFence {c : Cmd} (h : opcodeOf c = 0x9E) (s : State) (id : Nat) :
    coveredOps s id c = s.host.ops.filter (coversOp false c id) := by
  refine List.filter_congr fun o _ => ?_
  cases hk : o.kind <;> simp [coversOp, fenceCovers, h, hk]

theorem coveredOps_trayFence {c : Cmd} (h : opcodeOf c = 0x9F) (s : State) (id : Nat) :
    coveredOps s id c = s.host.ops.filter (coversOp true c id) := by
  refine List.filter_congr fun o _ => ?_
  cases hk : o.kind <;> simp [coversOp, fenceCovers, h, hk]

/-- Taking the members of a filtered list out leaves those that the filter passes over. -/
theorem filter_notMem_filter {α : Type} [DecidableEq α] (p : α → Bool) (l : List α) :
    l.filter (fun o => !(l.filter p).contains o) = l.filter fun o => !p o := by
  refine List.filter_congr fun o ho => ?_
  simp [ho]

/-! ### When a fence is due -/

theorem earlier_all_finished {s : State} {id : Nat} {c : Cmd} :
    ((earlier s id c).all fun x => decide (x.phase = .finished)) = true ↔ EarlierFinished s id c := by
  simp only [earlier, EarlierFinished, List.all_filter, List.all_eq_true, Bool.or_eq_true, Bool.not_eq_true', Bool.and_eq_false_iff, decide_eq_true_eq,
    decide_eq_false_iff_not, Bool.not_eq_false']
  grind

theorem fenceDue_queueFence {s : State} {id : Nat} {c : Cmd} (h : opcodeOf c = 0x9D) : fenceDue s id c = true ↔ EarlierFinished s id c := by
  rw [← earlier_all_finished, fenceDue, if_pos h]

/-- With every earlier command finished, the other fences wait for the operations that they cover. -/
theorem fenceDue_of_earlierFinished {s : State} {id : Nat} {c : Cmd} (h : opcodeOf c ≠ 0x9D) (hb : EarlierFinished s id c) :
    fenceDue s id c = (coveredOps s id c).all fun o => o.ended.isSome := by
  have before : ((earlier s id c).all fun x => decide (x.phase = .finished) || (!isFence x.cmd && !writesAhead (opcodeOf c) x)) = true := by
    refine List.all_eq_true.mpr fun x hx => ?_
    have done := List.all_eq_true.mp (earlier_all_finished.mpr hb) x hx
    simp [done]
  rw [fenceDue, if_neg h, before, Bool.true_and]

/-! ### What a fence does -/

theorem fenceTry_waits {s : State} {id : Nat} {c : Cmd} (h : fenceDue s id c = false) (read : Bool) :
    fenceTry s id c read = setPhase s id (.waiting .earlier) := by
  simp [fenceTry, h, await]

/-- A QUEUE_FENCE that is due completes. -/
theorem fenceTry_queueFence {s : State} {id : Nat} {c : Cmd} (h : opcodeOf c = 0x9D) (hb : EarlierFinished s id c) (read : Bool) :
    fenceTry s id c read = flushesTried (finish s id 0 0 0) := by
  have due : fenceDue s id c = true := (fenceDue_queueFence h).mpr hb
  simp [fenceTry, due, coveredOps_queueFence h, flushesTried, fail]

section
variable {s : State} {id : Nat} {c : Cmd} {tray : Bool} (hc : coveredOps s id c = s.host.ops.filter (coversOp tray c id))
include hc

/-- A fence is due once each operation that it covers has ended. -/
theorem fenceDue_covered (h : opcodeOf c ≠ 0x9D) (hb : EarlierFinished s id c) :
    fenceDue s id c = true ↔ ∀ o ∈ s.host.ops, coversOp tray c id o = true → o.ended ≠ none := by
  rw [fenceDue_of_earlierFinished h hb, hc, List.all_eq_true]
  simp only [List.mem_filter, and_imp, Option.isSome_iff_ne_none]

/-- One that covers a write to host memory first reads its destination (R40). -/
theorem fenceTry_reads (hd : fenceDue s id c = true) (hr : (s.host.ops.any fun o => coversOp tray c id o && isHostWrite o) = true) :
    fenceTry s id c false = setPhase (setStage s id 1) id (.waiting .earlier) := by
  simp only [fenceTry, hd, hc, List.any_filter, hr, Bool.not_false, Bool.and_self, if_true]
  rfl

/-- One that has nothing to read, or whose read has returned, completes. -/
theorem fenceTry_completes (hd : fenceDue s id c = true) {read : Bool}
    (hr : (s.host.ops.any fun o => coversOp tray c id o && isHostWrite o) = false ∨ read = true) :
    fenceTry s id c read = fenceDone tray s id c := by
  have unread : ((s.host.ops.any fun o => coversOp tray c id o && isHostWrite o) && !read) = false := by
    rcases hr with h | h <;> simp [h]
  simp only [fenceTry, hd, hc, List.any_filter, unread, filter_notMem_filter, if_true]
  rfl

end

/-- A TRAY_FENCE covers no write to host memory. -/
theorem trayFence_reads_nothing (s : State) (id : Nat) (c : Cmd) : (s.host.ops.any fun o => coversOp true c id o && isHostWrite o) = false := by
  refine List.any_eq_false.mpr fun o _ => ?_
  cases hk : o.kind <;> simp [coversOp, isHostWrite, hk]

/-! ### The commands -/

/-- A fence that starts is looked at once. -/
theorem runFence_starts {op : Nat} {c : Cmd} {s s1 : State} {id : Nat} (h : Starts op c s id s1) :
    runFence op c s = fenceTry (begun s1 id c) id c false := runCmd_starts h _

/-- FENCE_COMPLETE looks at a fence in hand again. -/
theorem fenceComplete_tries {c : Cmd} {x : Slot} {s : State} (hx : slotOf s c = some x) (h : opcodeOf c = 0x9D ∨ opcodeOf c = 0x9E ∨ opcodeOf c = 0x9F) :
    exec (.fenceComplete c) s = .next (s.keepHost (fenceTry s x.id c (stageOf s x.id = 1))) := by
  have fence : (isFence c && !decide (opcodeOf c = 0x74)) = true := by
    rcases h with h | h | h <;> simp [isFence, h]
  change execFenceComplete c s = _
  simp only [execFenceComplete, hx, fence, if_true]
  rfl

/-- Settles O29: a fence that starts, or is in hand, is looked at (`fenceTry`), and each clause is what `fenceTry` does with the operations it covers. -/
theorem fencesWaitForWhatTheyCover : Obligations.FencesWaitForWhatTheyCover := by
  unfold Obligations.FencesWaitForWhatTheyCover
  refine ⟨?queue, ?place, ?tray, ?complete⟩
  case queue =>
    intro c id s s1 h
    have run : exec (.queueFence c) s = .next (s.keepHost (fenceTry (begun s1 id c) id c false)) := by rw [← runFence_starts h]; rfl
    refine ⟨fun hb => ?_, fun hb => ?_⟩
    · rw [run, fenceTry_queueFence h.1 hb]; rfl
    · rw [run, fenceTry_waits (Bool.eq_false_iff.mpr (mt (fenceDue_queueFence h.1).mp hb))]
  case place =>
    intro c id s s1 h hb
    have run : exec (.placeFence c) s = .next (s.keepHost (fenceTry (begun s1 id c) id c false)) := by rw [← runFence_starts h]; rfl
    have covered := coveredOps_placeFence h.1 (begun s1 id c) id
    have due := fenceDue_covered covered (by simp [h.1]) hb
    refine ⟨fun ended => ⟨fun unread => ?_, fun reads => ?_⟩, fun ⟨o, ho, hco, unended⟩ => ?_⟩
    · rw [run, fenceTry_completes covered (due.mpr ended) (.inl unread)]; rfl
    · rw [run, fenceTry_reads covered (due.mpr ended) reads]
    · rw [run, fenceTry_waits (Bool.eq_false_iff.mpr fun hd => due.mp hd o ho hco unended)]
  case tray =>
    intro c id s s1 h hb
    have run : exec (.trayFence c) s = .next (s.keepHost (fenceTry (begun s1 id c) id c false)) := by rw [← runFence_starts h]; rfl
    have covered := coveredOps_trayFence h.1 (begun s1 id c) id
    have due := fenceDue_covered covered (by simp [h.1]) hb
    refine ⟨fun ended => ?_, fun ⟨o, ho, hco, unended⟩ => ?_⟩
    · rw [run, fenceTry_completes covered (due.mpr ended) (.inl (trayFence_reads_nothing ..))]; rfl
    · rw [run, fenceTry_waits (Bool.eq_false_iff.mpr fun hd => due.mp hd o ho hco unended)]
  case complete =>
    intro c x s hx hb
    refine ⟨fun hop => ?_, fun hop ended reads => ?_, fun hop ended => ?_⟩
    · rw [fenceComplete_tries hx (.inl hop), fenceTry_queueFence hop hb]; rfl
    · have covered := coveredOps_placeFence hop s x.id
      rw [fenceComplete_tries hx (.inr (.inl hop)), fenceTry_completes covered ((fenceDue_covered covered (by simp [hop]) hb).mpr ended)
        (reads.imp_right decide_eq_true)]
      rfl
    · have covered := coveredOps_trayFence hop s x.id
      rw [fenceComplete_tries hx (.inr (.inr hop)), fenceTry_completes covered ((fenceDue_covered covered (by simp [hop]) hb).mpr ended)
        (.inl (trayFence_reads_nothing ..))]
      rfl

end Sys2Proof.Proofs
end

section
/-!
PROOFS. What a move of a function shows, and what leaves every function where it is (02_module_organisation.md R48, R51; 20 R563).
-/
namespace Sys2Proof.Proofs
open Sys2Proof.Machine

/-! ### Event records: the counters they raise -/

@[simp] theorem toRings_tele (s : State) (w : Word) (t : Option Nat) : (toRings s w t).tele = s.tele := by
  obtain ⟨k, g, h⟩ := toRings_eq s w t; rw [h]

/-- An occurrence that is not injected raises its counter by one (20 R563). -/
theorem eventT_counted (s : State) (i c : Nat) (t : Option Nat) (d : Nat) :
    tgetD (eventT s i c false t d).tele.events (i, c) 0 = wrapAdd 48 (tgetD s.tele.events (i, c) 0) 1 := by
  simp [eventT, countEvent, tupd]

/-- An occurrence on another island leaves a counter as it is. -/
theorem eventA_events_ne {i j : Nat} (h : j ≠ i) (s : State) (c a k : Nat) : tgetD (eventA s i c a).tele.events (j, k) 0 = tgetD s.tele.events (j, k) 0 := by
  have other : (i, c) ≠ (j, k) := fun e => h (congrArg Prod.fst e).symm
  simp [eventA, countEvent, tupd, tgetD_tset_ne other]

/-! ### A function that is moved -/

/-- Setting the status of one function leaves that of every other. -/
theorem fnState_setFnState_ne {f g : FnId} (h : g ≠ f) (s : State) (x : FnState) : fnState (setFnState s f x) g = fnState s g := by
  cases f with
  | tenant t =>
    cases g with
    | tenant u => exact tgetD_tset_ne (fun e => h (congrArg FnId.tenant e.symm)) _ _ _
    | _ => rfl
  | queue fn q =>
    cases g with
    | queue m r =>
      have other : (fn, q) ≠ (m, r) := fun e => h (by simpa using e.symm)
      exact congrArg QueuePair.fn (tgetD_tset_ne other _ _ _)
    | _ => rfl
  | kettle fn =>
    cases g with
    | kettle m => exact congrArg Kettle.fn (tgetD_tset_ne (fun e => h (congrArg FnId.kettle e.symm)) _ _ _)
    | _ => rfl
  | _ =>
    cases g with
    | tenant _ => rfl
    | queue _ _ => rfl
    | kettle _ => rfl
    | _ => exact tgetD_tset_ne (Ne.symm h) _ _ _

/-- The island and the code of a function's record do not depend on its status. -/
theorem statusSource_setFnState (s : State) (f : FnId) (x : FnState) :
    (statusSource (setFnState s f x) f).1 = (statusSource s f).1 ∧ (statusSource (setFnState s f x) f).2.1 = (statusSource s f).2.1 := by
  cases f <;> exact ⟨rfl, rfl⟩

/-- From `s` to `t` function `f` has come to status `y`, every other function stands as it did, and a change has raised the counter of its record (R51). -/
structure Moved (f : FnId) (s t : State) (y : FnState) : Prop where
  status : fnState t f = y
  others : ∀ g, g ≠ f → fnState t g = fnState s g
  counted : y.st ≠ (fnState s f).st → tgetD t.tele.events ((statusSource s f).1, (statusSource s f).2.1) 0 =
    wrapAdd 48 (tgetD s.tele.events ((statusSource s f).1, (statusSource s f).2.1) 0) 1

theorem moved_moveFn (f : FnId) (s : State) (y : FnState) : Moved f s (moveFn s f y) y := by
  refine ⟨fnState_moveFn s f y, fun g hg => ?_, fun hy => ?_⟩
  · unfold moveFn
    dsimp only
    split
    · exact fnState_setFnState_ne hg s y
    · rw [fnState_eventT]; exact fnState_setFnState_ne hg s y
  · obtain ⟨island, code⟩ := statusSource_setFnState s f y
    have changes : ¬ (fnState s f).st = y.st := fun e => hy e.symm
    have unchanged : (setFnState s f y).tele = s.tele := by obtain ⟨tn, qs, ks, fs, h⟩ := setFnState_eq s f y; rw [h]
    rw [← island, ← code, ← unchanged]
    simp only [moveFn, changes, if_false]
    exact eventT_counted ..

theorem tenantSignal_eq (s : State) (f : FnId) : ∃ fu sg, tenantSignal s f = { s with host := { s.host with funcs := fu, signals := sg } } := by
  unfold tenantSignal
  split
  · split
    · exact signal_eq ..
    · exact ⟨s.host.funcs, s.host.signals, rfl⟩
  · exact ⟨s.host.funcs, s.host.signals, rfl⟩

/-- The interrupt of a tenant's change adds nothing to the move (04 R110). -/
theorem moved_change (f : FnId) (s : State) (y : FnState) : Moved f s (change s f y) y := by
  unfold change
  split
  · exact moved_moveFn f s y
  · obtain ⟨status, others, counted⟩ := moved_moveFn f s y
    obtain ⟨fu, sg, h⟩ := tenantSignal_eq (moveFn s f y) f
    rw [h]
    have same : ∀ g, fnState { moveFn s f y with host := { (moveFn s f y).host with funcs := fu, signals := sg } } g = fnState (moveFn s f y) g :=
      fun g => by cases g <;> rfl
    exact ⟨(same f).trans status, fun g hg => (same g).trans (others g hg), counted⟩

/-! ### What leaves every status as it is -/

/-- What is seen of the functions: the status of each, and the event counters but those of island 21, the sequencer. -/
def statuses (s : State) : (Tab Nat FnState × Tab FnId FnState) × (Nat → Nat → FnState) × (Nat → FnState) × (Nat → Nat → Nat) :=
  ((s.host.tenants, s.rel.fns), (fun fn q => (queueOf s fn q).fn), (fun fn => (kettleOf s fn).fn),
    fun i c => if i = 21 then 0 else tgetD s.tele.events (i, c) 0)

section
variable {s t : State} (h : statuses t = statuses s)
include h

theorem tenants_of_statuses : t.host.tenants = s.host.tenants := congrArg (·.1.1) h

theorem fnState_of_statuses (f : FnId) : fnState t f = fnState s f := by
  cases f with
  | tenant k => exact congrArg (tgetD · k .clean) (tenants_of_statuses h)
  | queue fn q => exact congrFun (congrFun (congrArg (·.2.1) h) fn) q
  | kettle fn => exact congrFun (congrArg (·.2.2.1) h) fn
  | _ => exact congrArg (fun v => tgetD v.1.2 _ FnState.clean) h

theorem events_of_statuses {i : Nat} (hi : i ≠ 21) (c : Nat) : tgetD t.tele.events (i, c) 0 = tgetD s.tele.events (i, c) 0 := by
  have seen := congrFun (congrFun (congrArg (·.2.2.2) h) i) c
  simpa [statuses, hi] using seen

/-- What is seen after a move is the move. -/
theorem Moved.of_statuses {f : FnId} {r : State} {y : FnState} (m : Moved f r s y) (hf : (statusSource r f).1 ≠ 21) : Moved f r t y :=
  ⟨(fnState_of_statuses h f).trans m.status, fun g hg => (fnState_of_statuses h g).trans (m.others g hg),
    fun hy => (events_of_statuses h hf _).trans (m.counted hy)⟩

end

@[simp] theorem sysSend_statuses (s : State) (d : Nat) (m : SysMsg) : statuses (sysSend s d m) = statuses s := by
  obtain ⟨out, again, h⟩ := sysSend_eq s d m
  rw [h]; rfl

/-- A record of the sequencer moves no function. -/
theorem eventA_statuses (s : State) (c a : Nat) : statuses (eventA s 21 c a) = statuses s := by
  have kettles : (fun fn => (kettleOf (eventA s 21 c a) fn).fn) = fun fn => (kettleOf s fn).fn := funext fun fn => fnState_eventA s 21 c a (.kettle fn)
  have events : (fun i k => if i = 21 then 0 else tgetD (eventA s 21 c a).tele.events (i, k) 0) =
      fun i k => if i = 21 then 0 else tgetD s.tele.events (i, k) 0 := by
    funext i k
    split
    · rfl
    next hi => exact eventA_events_ne hi s c a k
  simp only [statuses, kettles, events, queueOf, eventA_host_tenants, eventA_host_queues, eventA_rel]

theorem mirrorEnd_statuses (s : State) (id cid status r0 r1 : Nat) : statuses (mirrorEnd s id cid status r0 r1) = statuses s := by
  unfold mirrorEnd
  split
  · rfl
  · dsimp only
    split
    · exact sysSend_statuses ..
    · unfold compareDigest
      dsimp only
      split
      · split
        · exact eventA_statuses ..
        · rfl
      · exact eventA_statuses ..

/-- The end of a command moves no function. -/
@[simp] theorem finishWith_statuses (s : State) (id status r0 r1 : Nat) (fwd : Bool) : statuses (finishWith s id status r0 r1 fwd) = statuses s := by
  unfold finishWith
  split
  · rfl
  next x _ =>
    dsimp only
    by_cases hf : x.phase = .finished
    · simp only [hf, if_true]; rfl
    · simp only [hf, if_false]
      split
      · exact mirrorEnd_statuses ..
      · split
        · exact (sysSend_statuses ..).trans (mirrorEnd_statuses ..)
        · split
          · exact mirrorEnd_statuses ..
          · exact mirrorEnd_statuses ..

theorem failAll_statuses (status : Nat) : ∀ (l : List Slot) (s : State), statuses (failAll s status l) = statuses s
  | [], _ => rfl
  | x :: r, s => (failAll_statuses status r (fail s x.id status)).trans (finishWith_statuses ..)

theorem setQueue_statuses {s : State} {fn q : Nat} {p : QueuePair} (h : p.fn = (queueOf s fn q).fn) : statuses (setQueue s fn q p) = statuses s := by
  have queues : (fun m r => (queueOf (setQueue s fn q p) m r).fn) = fun m r => (queueOf s m r).fn := by
    funext m r
    by_cases e : (fn, q) = (m, r)
    · obtain ⟨rfl, rfl⟩ := Prod.mk.inj e
      simpa [queueOf] using h
    · simp [queueOf, tgetD_tset_ne e]
  exact congrArg (fun v => ((s.host.tenants, s.rel.fns), v, (statuses s).2.2)) queues

theorem setKettle_statuses {s : State} {fn : Nat} {k : Kettle} (h : k.fn = (kettleOf s fn).fn) : statuses (setKettle s fn k) = statuses s :=
  congrArg (fun v => ((s.host.tenants, s.rel.fns), (statuses s).2.1, v, (statuses s).2.2.2)) (funext (setKettle_keeps_fn h))

@[simp] theorem discardRing_statuses (s : State) (fn : Nat) : statuses (discardRing s fn) = statuses s :=
  setKettle_statuses (s := s) (fn := fn) (k := { kettleOf s fn with
    lost := satAdd 32 (kettleOf s fn).lost (((s.host.staging.filter fun x => x.1 = fn).map (·.2.valid)).sum + (kettleOf s fn).opened.length)
    opened := [] }) rfl

end Sys2Proof.Proofs
end

section
/-!
PROOFS. What the end of a tenant's work leaves alone: the statuses of the tenants (03_configuration_image_and_startup.md Table 3.15).
-/
namespace Sys2Proof.Proofs
open Sys2Proof.Machine

/-- What no step of a fold changes, the fold does not change. -/
theorem foldl_keeps {α β σ : Type} {view : σ → β} {f : σ → α → σ} (h : ∀ s a, view (f s a) = view s) :
    ∀ (l : List α) (s : σ), view (l.foldl f s) = view s
  | [], _ => rfl
  | a :: r, s => (foldl_keeps h r (f s a)).trans (h s a)

/-! ### Work that leaves the host interface as it is -/

section
variable (s : State)

@[simp] theorem issue_host (x : LStep) (why : Why) : (issue s x why).host = s.host := sysSend_host ..

@[simp] theorem unpinEntry_host (p : Pin) (i : Nat) : (unpinEntry s p i).host = s.host := by
  unfold unpinEntry
  split
  · split <;> rfl
  · rfl

@[simp] theorem unpinAll_host (h : Nat) (l : List Nat) : (unpinAll s h l).host = s.host :=
  foldl_keeps (view := State.host) (fun s i => unpinEntry_host s (.handoff h) i) l s

@[simp] theorem releaseRun_host (i : Nat) (r : Run) : (releaseRun s i r).host = s.host := by
  unfold releaseRun
  split <;> rfl

@[simp] theorem freeEntry_host (i : Nat) : (freeEntry s i).host = s.host := by
  unfold freeEntry
  split
  · rfl
  · dsimp only
    split <;> exact releaseRun_host ..

@[simp] theorem freeEntries_host : ∀ (l : List Nat) (s : State), (freeEntries s l).host = s.host
  | [], _ => rfl
  | i :: r, s => (freeEntries_host r (freeEntry s i)).trans (freeEntry_host s i)

@[simp] theorem dropSet_host (ix : Nat) : (dropSet s ix).host = s.host := by
  unfold dropSet
  split
  · rfl
  · unfold unindexSet
    dsimp only
    split <;> exact freeEntries_host ..

@[simp] theorem dropSets_host : ∀ (l : List Nat) (s : State), (dropSets s l).host = s.host
  | [], _ => rfl
  | ix :: r, s => (dropSets_host r (dropSet s ix)).trans (dropSet_host s ix)

@[simp] theorem releaseSet_host (ix : Nat) : (releaseSet s ix).host = s.host := by
  unfold releaseSet
  split
  · rfl
  next p _ =>
    dsimp only
    rw [apply_ite State.host, dropSet_host, ite_self]
    refine foldl_keeps (view := State.host) (fun st i => ?_) p.dirs _
    split <;> rfl

@[simp] theorem releaseSets_host (l : List Nat) : (releaseSets s l).host = s.host := foldl_keeps (view := State.host) releaseSet_host l s

@[simp] theorem freeOwned_host (h : Nat) : (freeOwned s h).host = s.host := by
  unfold freeOwned releaseAdapter
  split
  · rfl
  · dsimp only
    split <;> simp

@[simp] theorem discardRecving_host (h : Nat) : (discardRecving s h).host = s.host := by
  unfold discardRecving
  split
  · rfl
  · simp

@[simp] theorem dropRecovery_host (h : Nat) : (dropRecovery s h).host = s.host := by simp [dropRecovery]

@[simp] theorem endRecving_host (h : Nat) : (endRecving s h).host = s.host := by
  unfold endRecving
  split
  · rfl
  · dsimp only
    split <;> simp

@[simp] theorem endAllRecving_host : ∀ (l : List Nat) (s : State), (endAllRecving s l).host = s.host
  | [], _ => rfl
  | h :: r, s => (endAllRecving_host r (endRecving s h)).trans (endRecving_host s h)

@[simp] theorem charge_host (t r c g n : Nat) : (charge s t r c g n).host = s.host := by
  unfold charge
  split <;> rfl

@[simp] theorem chargeFree_host (t r c g : Nat) : (chargeFree s t r c g).host = s.host := by
  unfold chargeFree
  split
  · rfl
  · exact charge_host ..

@[simp] theorem chargeStacks_host (t cls : Nat) (ks : List Nat) : (chargeStacks s t cls ks).host = s.host :=
  foldl_keeps (view := State.host) (fun s k => chargeFree_host s t 1 cls k) ks s

@[simp] theorem chargeTraffic_host (t cls : Nat) (ks : List Nat) : (chargeTraffic s t cls ks).host = s.host :=
  (chargeStacks_host ..).trans (chargeFree_host ..)

@[simp] theorem chargeMove_host (t cls : Nat) (ks : List Nat) (n : Nat) : (chargeMove s t cls ks n).host = s.host :=
  (foldl_keeps (view := State.host) (fun s k => charge_host s t 1 cls k n) ks _).trans (charge_host ..)

@[simp] theorem chargeSource_host (t cls : Nat) (ref : Word) (n : Nat) : (chargeSource s t cls ref n).host = s.host := by
  unfold chargeSource
  split
  · rfl
  · dsimp only
    split <;> simp

theorem enqueuePacket_host {dest entropy cls : Nat} {tenant : Option Nat} {exempt : Bool} {bytes : Nat} {p : Payload} {t : State}
    (h : enqueuePacket s dest entropy cls tenant exempt bytes p = some t) : t.host = s.host := by
  unfold enqueuePacket at h
  split at h
  · cases h
  · cases h; rfl

theorem flowControl_host (p k c : Nat) : (flowControl s p k c).host = s.host := by
  unfold flowControl
  dsimp only
  split
  · rfl
  · split <;> rfl

@[simp] theorem bufferItem_host (x : InFrame) : (bufferItem s x).host = s.host := by
  unfold bufferItem
  dsimp only
  split
  · rfl
  · split
    · rfl
    · exact flowControl_host ..

@[simp] theorem stampBase_host (b : BaseHdr) (n : Nat) : (stampBase s b n).2.host = s.host := rfl

@[simp] theorem sendReply_host (p : TPacket) (t : Option Nat) : (sendReply s p t).host = s.host := by
  unfold sendReply
  split
  · exact bufferItem_host ..
  · cases h : enqueuePacket s p.base.dest p.base.entropy p.base.cls t true (frameBytes s (32 + p.data.length)) (.tray p) with
    | none => rfl
    | some u => exact enqueuePacket_host s h

@[simp] theorem answerWork_host (w : TrayWork) (status : Nat) (poison : Bool) (data : List Byte) (t : Option Nat) :
    (answerWork s w status poison data t).host = s.host := by
  unfold answerWork
  dsimp only
  split <;> exact sendReply_host ..

@[simp] theorem refuseWork_host : ∀ (l : List TrayWork) (s : State), (refuseWork s l).host = s.host
  | [], _ => rfl
  | _ :: r, _ => (refuseWork_host r _).trans (answerWork_host ..)

@[simp] theorem writeBack_host (h : HeldLine) : (writeBack s h).host = s.host := by
  unfold writeBack chargeLine
  cases h.payer with
  | none => rfl
  | some p => exact chargeMove_host ..

@[simp] theorem writeBackAll_host : ∀ (l : List HeldLine) (s : State), (writeBackAll s l).host = s.host
  | [], _ => rfl
  | h :: r, s => (writeBackAll_host r (writeBack s h)).trans (writeBack_host s h)

@[simp] theorem dropRegions_host : ∀ (l : List (Nat × Region)) (s : State), (dropRegions s l).host = s.host
  | [], _ => rfl
  | e :: r, s => by
    rw [dropRegions, dropRegions_host r]
    split
    · simp [freeSpace3, destroyRegion, setXport]
    · rfl

@[simp] theorem freeConstraint_host (k : Constraint) : (freeConstraint s k).host = s.host := by
  refine (freeEntries_host k.dirs _).trans (foldl_keeps (view := State.host) (fun _ _ => ?_) k.entries s)
  rfl

@[simp] theorem freeConstraints_host : ∀ (l : List Constraint) (s : State), (freeConstraints s l).host = s.host
  | [], _ => rfl
  | k :: r, s => (freeConstraints_host r (freeConstraint s k)).trans (freeConstraint_host s k)

@[simp] theorem resetAdapters_host (t : Nat) : (resetAdapters s t).host = s.host := freeEntries_host ..

@[simp] theorem resetIndices_host (t : Nat) : (resetIndices s t).host = s.host :=
  foldl_keeps (view := State.host) (f := freeIxVer) (fun s v => freeEntries_host v.dirs s) _ s

@[simp] theorem freeDrains_host : ∀ (l : List Drain) (s : State), (freeDrains s l).host = s.host
  | [], _ => rfl
  | _ :: r, _ => (freeDrains_host r _).trans rfl

/-- Freeing what a tenant holds leaves the statuses of the tenants as they are. -/
@[simp] theorem freeTenant_tenants (t : Nat) : (freeTenant s t).host.tenants = s.host.tenants := by
  simp [freeTenant, resetBanks, resetPress]

end

/-! ### Work whose commands end -/

section
variable (s : State)

@[simp] theorem finishWith_tenants (id status r0 r1 : Nat) (fwd : Bool) : (finishWith s id status r0 r1 fwd).host.tenants = s.host.tenants :=
  tenants_of_statuses (finishWith_statuses ..)

@[simp] theorem finish_tenants (id status r0 r1 : Nat) : (finish s id status r0 r1).host.tenants = s.host.tenants := finishWith_tenants ..

@[simp] theorem fail_tenants (id status : Nat) : (fail s id status).host.tenants = s.host.tenants := finishWith_tenants ..

@[simp] theorem failAll_tenants (status : Nat) (l : List Slot) : (failAll s status l).host.tenants = s.host.tenants :=
  tenants_of_statuses (failAll_statuses ..)

@[simp] theorem failSlots_tenants (code : Nat) : ∀ (l : List Nat) (s : State), (failSlots s code l).host.tenants = s.host.tenants
  | [], _ => rfl
  | id :: r, s => (failSlots_tenants code r (fail s id code)).trans (fail_tenants ..)

@[simp] theorem change_queue_tenants (fn q : Nat) (x : FnState) : (change s (.queue fn q) x).host.tenants = s.host.tenants := by
  have moved : (moveFn s (.queue fn q) x).host.tenants = s.host.tenants := by
    unfold moveFn
    dsimp only
    split
    · rfl
    · exact eventT_host_tenants ..
  unfold change
  split <;> exact moved

@[simp] theorem disableFn_queue_tenants (fn q : Nat) : (disableFn s (.queue fn q)).host.tenants = s.host.tenants := by
  unfold disableFn
  dsimp only
  split <;> simp

@[simp] theorem disableQueues_tenants (fn : Nat) : ∀ (l : List (Nat × Nat)) (s : State), (disableQueues s fn l).host.tenants = s.host.tenants
  | [], _ => rfl
  | k :: r, s => by
    rw [disableQueues, disableQueues_tenants fn r]
    split <;> simp

@[simp] theorem abandonSlots_tenants (fn q : Nat) : (abandonSlots s fn q).host.tenants = s.host.tenants := rfl

@[simp] theorem shutQueues_tenants (fn : Nat) : ∀ (l : List (Nat × Nat)) (s : State), (shutQueues s fn l).host.tenants = s.host.tenants
  | [], _ => rfl
  | k :: r, s => by
    rw [shutQueues, shutQueues_tenants fn r]
    split <;> simp

@[simp] theorem resetsDone_tenants (t : Nat) : ∀ (l : List Slot) (s : State), (resetsDone s t l).host.tenants = s.host.tenants
  | [], _ => rfl
  | x :: r, s => by
    rw [resetsDone, resetsDone_tenants t r]
    split <;> simp

/-! #### Requests -/

@[simp] theorem endHeld_tenants (h status r0 : Nat) (all : Bool) : (endHeld s h status r0 all).host.tenants = s.host.tenants := by
  refine foldl_keeps (view := fun u : State => u.host.tenants) (fun st id => ?_) _ s
  split
  · split <;> simp
  · rfl

@[simp] theorem failOwned_tenants (h : Nat) : (failOwned s h).host.tenants = s.host.tenants := by
  unfold failOwned
  split
  · rfl
  next o _ => cases o.handoff <;> simp

@[simp] theorem failAllOwned_tenants : ∀ (l : List Nat) (s : State), (failAllOwned s l).host.tenants = s.host.tenants
  | [], _ => rfl
  | h :: r, s => (failAllOwned_tenants r (failOwned s h)).trans (failOwned_tenants s h)

@[simp] theorem failRecovering_tenants (h : Nat) : (failRecovering s h).host.tenants = s.host.tenants := by
  unfold failRecovering
  split
  · rfl
  · dsimp only
    split <;> simp

@[simp] theorem failAllRecovering_tenants : ∀ (l : List Nat) (s : State), (failAllRecovering s l).host.tenants = s.host.tenants
  | [], _ => rfl
  | h :: r, s => (failAllRecovering_tenants r (failRecovering s h)).trans (failRecovering_tenants s h)

/-! #### Ladles -/

@[simp] theorem issueEntry_host (l : Nat) (e : QEntry) : (issueEntry s l e).host = s.host := by
  unfold issueEntry
  dsimp only
  split <;> rfl

@[simp] theorem admitWhisk_host (l : Nat) : ∀ (w : List (Nat × QEntry)) (s : State), (admitWhisk s l w).host = s.host
  | [], _ => rfl
  | w :: r, s => by
    rw [admitWhisk, admitWhisk_host l r]
    split
    · exact issueEntry_host ..
    · rfl

@[simp] theorem refillAll_host : (refillAll s).host = s.host :=
  foldl_keeps (view := State.host) (fun s l => admitWhisk_host l s.comp.whisk s) _ s

@[simp] theorem meterAdd_tenants (t comp cls n : Nat) : (meterAdd s t comp cls n).host.tenants = s.host.tenants := by
  unfold meterAdd
  dsimp only
  split
  · rfl
  · split
    · rfl
    · split <;> simp

theorem meterShares_go_tenants (t cls n k : Nat) : ∀ (l : List Nat) (s : State) (i : Nat),
    (meterShares.go t cls n k s i l).host.tenants = s.host.tenants
  | [], _, _ => rfl
  | _ :: r, _, i => (meterShares_go_tenants t cls n k r _ (i + 1)).trans (meterAdd_tenants ..)

@[simp] theorem meterShares_tenants (t cls n : Nat) (l : List Nat) : (meterShares s t cls n l).host.tenants = s.host.tenants := by
  unfold meterShares
  split
  · simp
  · exact meterShares_go_tenants ..

@[simp] theorem chargeEntry_tenants (l : Nat) (x : Ladle) (e : QEntry) : (chargeEntry s l x e).host.tenants = s.host.tenants := by
  unfold chargeEntry
  dsimp only
  split <;> simp

@[simp] theorem chargeDropped_tenants (mine : QEntry → Bool) (e : Nat × Ladle) : (chargeDropped mine s e).host.tenants = s.host.tenants := by
  unfold chargeDropped
  split
  · split <;> simp
  · rfl

@[simp] theorem dropAll_tenants (mine : QEntry → Bool) : (dropAll s mine).host.tenants = s.host.tenants := by
  have charged : (s.comp.ladles.foldl (chargeDropped mine) s).host.tenants = s.host.tenants :=
    foldl_keeps (view := fun u : State => u.host.tenants) (fun u e => chargeDropped_tenants u mine e) s.comp.ladles s
  simpa [dropAll] using charged

@[simp] theorem abortLadles_tenants (t : Nat) : (abortLadles s t).host.tenants = s.host.tenants := by
  refine (foldl_keeps (view := fun u : State => u.host.tenants) (fun u id => fail_tenants u id Status.commandAborted) _ _).trans ?_
  exact dropAll_tenants ..

/-! #### Messages -/

@[simp] theorem raiseCounter_tenants (t c : Nat) : (raiseCounter s t c).host.tenants = s.host.tenants := by
  unfold raiseCounter
  split <;> rfl

@[simp] theorem flushTry_tenants (id : Nat) : (flushTry s id).host.tenants = s.host.tenants := by
  unfold flushTry
  split
  · rfl
  · dsimp only
    split
    · rfl
    · simp

@[simp] theorem flushAll_tenants : ∀ (l : List Slot) (s : State), (flushAll s l).host.tenants = s.host.tenants
  | [], _ => rfl
  | x :: r, s => by
    rw [flushAll, flushAll_tenants r]
    split <;> simp

@[simp] theorem endOp_tenants (op : Nat) (ok : Bool) : (endOp s op ok).host.tenants = s.host.tenants := flushAll_tenants ..

@[simp] theorem closeTry_tenants (n : Nat) : (closeTry s n).host.tenants = s.host.tenants := by
  unfold closeTry
  dsimp only
  split
  · rfl
  · split
    · rfl
    · simp [setXport, setEp]

@[simp] theorem freeSend_tenants (r : SendRec) : (freeSend s r).host.tenants = s.host.tenants := closeTry_tenants ..

@[simp] theorem failSend_tenants (r : SendRec) (code : Nat) : (failSend s r code).host.tenants = s.host.tenants := by
  unfold failSend
  split
  · split <;> simp
  · dsimp only
    simp [apply_ite State.host, apply_ite HostIf.tenants, setEp, setXport, modSend]

@[simp] theorem sendDone_tenants (r : SendRec) : (sendDone s r).host.tenants = s.host.tenants := by simp [sendDone, modSend, setXport]

@[simp] theorem launch_tenants (ep gen serial p : Nat) (abort : Bool) (entropy : Nat) :
    (launch s ep gen serial p abort entropy).2.host.tenants = s.host.tenants := by
  unfold launch
  split
  · rfl
  · dsimp only
    split
    · split <;> rfl
    · split
      · rfl
      · split
        · exact failSend_tenants ..
        · dsimp only
          split
          · exact sendDone_tenants ..
          · rfl

@[simp] theorem emit_tenants (r : SendRec) (p : Nat) (abort : Bool) : (emit s r p abort).host.tenants = s.host.tenants := by
  unfold emit
  extract_lets t e out mark n
  have charged : (chargeSource (modSend s r.id mark) r.tenant r.cls r.ref n).host.tenants = s.host.tenants := by rw [chargeSource_host]; rfl
  split
  · rfl
  · split
    · have left := (launch_tenants (chargeSource (modSend s r.id mark) r.tenant r.cls r.ref n) r.ep r.gen r.serial p abort e).trans charged
      split
      next pkt s1 h => rw [h] at left; exact (congrArg HostIf.tenants (bufferItem_host ..)).trans left
      next s1 h => rw [h] at left; exact left
    · split
      · rfl
      · split
        · exact failSend_tenants ..
        next s1 h =>
          have queued : s1.host = s.host := enqueuePacket_host s h
          rw [chargeSource_host]
          exact congrArg HostIf.tenants queued

@[simp] theorem emitAll_tenants (id : Nat) : ∀ (l : List Nat) (s : State), (emitAll s id l).host.tenants = s.host.tenants
  | [], _ => rfl
  | p :: l, s => by
    unfold emitAll
    split
    · split
      · rfl
      · rw [emitAll_tenants id l, emit_tenants]
    · rfl

@[simp] theorem abortDue_tenants (id : Nat) : (abortDue s id).host.tenants = s.host.tenants := by
  unfold abortDue
  split
  · rfl
  · split <;> simp

@[simp] theorem pump_tenants (id : Nat) : (pump s id).host.tenants = s.host.tenants := by
  unfold pump
  split
  · rfl
  · rw [abortDue_tenants]
    split <;> simp

@[simp] theorem failEach_tenants (code : Nat) : ∀ (l : List SendRec) (s : State), (failEach s code l).host.tenants = s.host.tenants
  | [], _ => rfl
  | r :: l, s => by
    rw [failEach, failEach_tenants code l]
    split <;> simp [failAndAbort]

@[simp] theorem abandonAll_tenants : ∀ (l : List RecvRec) (s : State), (abandonAll s l).host.tenants = s.host.tenants
  | [], _ => rfl
  | r :: l, s => by
    rw [abandonAll, abandonAll_tenants l, abandon]
    split <;> simp [setXport]

@[simp] theorem closeEndpoint_tenants (n : Nat) (closer : Option Nat) : (closeEndpoint s n closer).host.tenants = s.host.tenants := by
  simp [closeEndpoint, destroyRegion, setXport, setEp, leaveTags]

@[simp] theorem closeEndpoints_tenants : ∀ (l : List Nat) (s : State), (closeEndpoints s l).host.tenants = s.host.tenants
  | [], _ => rfl
  | n :: r, s => by
    rw [closeEndpoints, closeEndpoints_tenants r]
    split <;> simp

/-! #### The tray -/

@[simp] theorem abortTrayOp_tenants (home : Nat) (o : TrayOp) : (abortTrayOp s home o).host.tenants = s.host.tenants := by
  have finished : (trayFinish (dropTrayOp s home o) o Status.commandAborted 0 0).host.tenants = s.host.tenants := by
    unfold trayFinish
    split
    · rfl
    · split
      · rfl
      · simp [dropTrayOp, setPeer, setTray]
  unfold abortTrayOp endCovered
  split <;> simp [finished]

@[simp] theorem abortTrayOps_tenants (home : Nat) : ∀ (l : List TrayOp) (s : State), (abortTrayOps s home l).host.tenants = s.host.tenants
  | [], _ => rfl
  | o :: r, s => (abortTrayOps_tenants home r (abortTrayOp s home o)).trans (abortTrayOp_tenants ..)

@[simp] theorem abortTray_tenants (t : Nat) : ∀ (l : List Nat) (s : State), (abortTray s t l).host.tenants = s.host.tenants
  | [], _ => rfl
  | _ :: r, _ => (abortTray_tenants t r _).trans (abortTrayOps_tenants ..)

/-- The end of a tenant's work leaves the statuses of the tenants as they are. -/
@[simp] theorem endTenantWork_tenants (t : Nat) : (endTenantWork s t).host.tenants = s.host.tenants := by
  unfold endTenantWork abortSlots
  cases tenantRec s t <;> simp [leaveTags, setTray]

/-- A tenant that starts again has its budgets refilled (17 R499). -/
theorem startedAgain_tenants {t : Nat} {u : State}
    (h : u = if (fnState s (.tenant t)).st = .starting then enterStarting s (.tenant t) else s) : u.host.tenants = s.host.tenants := by
  rw [h]
  split <;> rfl

/-- A tenant leaves STOPPING as Table 2.11 states: nothing that is done as it leaves moves it. -/
theorem tenantShut_status (t : Nat) : fnState (tenantShut s t) (.tenant t) = (fnState s (.tenant t)).shutDone := by
  have kept {u v : State} (h : u.host.tenants = v.host.tenants) : fnState u (.tenant t) = fnState v (.tenant t) := congrArg (tgetD · t FnState.clean) h
  unfold tenantShut
  extract_lets s1 s2 s3 s4
  have ended : s1.host.tenants = s.host.tenants := (freeTenant_tenants ..).trans (endTenantWork_tenants ..)
  have shut : s2.host.tenants = s.host.tenants := by
    cases h : tenantRec s1 t with
    | none =>
      simp only [s2, h]
      exact ended
    | some r =>
      simp only [s2, h]
      rw [shutQueues_tenants, ended]
  have entered : s4.host.tenants = s3.host.tenants := startedAgain_tenants s3 (u := s4) (t := t) rfl
  rw [kept ((resetsDone_tenants t s4.host.slots s4).trans entered), fnState_change, kept shut]

end
end Sys2Proof.Proofs
end

section
/-!
PROOFS. O13 (02_module_organisation.md R48, R49, R51, Table 2.11; 04_host_queues.md R88): the moves of a function.
-/
namespace Sys2Proof.Proofs
open Sys2Proof.Machine

/-! ### Enable, disable and the end of initialisation -/

theorem enable_eq (x : FnState) : x.enable = match x.st with
    | .off => { st := .starting, latch := false }
    | .stopping => { st := .stopping, latch := true }
    | _ => x := by
  obtain ⟨st, latch⟩ := x
  cases st <;> rfl

theorem disable_eq (x : FnState) : x.disable = match x.st with
    | .starting => { st := .stopping, latch := x.latch }
    | .on => { st := .stopping, latch := x.latch }
    | .stopping => { st := .stopping, latch := false }
    | _ => x := by
  obtain ⟨st, latch⟩ := x
  cases st <;> rfl

theorem initDone_eq (x : FnState) : x.initDone = match x.st with
    | .starting => { st := .on, latch := x.latch }
    | _ => x := by
  obtain ⟨st, latch⟩ := x
  cases st <;> rfl

/-- A function that needs no more than a running module to be enabled: an island, a link, a Ladle or a CAM bank (02 R48). -/
def isUnit : FnId → Bool
  | .island _ => true
  | .link _ _ => true
  | .ladle _ => true
  | .bank _ => true
  | _ => false

/-- On entering STARTING such a function counts nothing. -/
theorem enterStarting_unit {f : FnId} (hu : isUnit f = true) (s : State) :
    ∃ te, enterStarting s f = { s with tele := te } ∧ te.events = s.tele.events := by
  cases f with
  | island i => exact ⟨_, rfl, rfl⟩
  | link p k => exact ⟨s.tele, rfl, rfl⟩
  | ladle l => exact ⟨s.tele, rfl, rfl⟩
  | bank b => exact ⟨s.tele, rfl, rfl⟩
  | tenant t => cases hu
  | queue fn q => cases hu
  | kettle fn => cases hu

theorem enableFn_unit {f : FnId} (hu : isUnit f = true) {s : State} (hr : running s = true) :
    enableFn s f = change (if (fnState s f).st = .off then enterStarting s f else s) f (fnState s f).enable := by
  cases f with
  | tenant t => cases hu
  | queue fn q => cases hu
  | kettle fn => cases hu
  | _ => simp only [enableFn, hr, if_true]

theorem moved_enableFn {f : FnId} (hu : isUnit f = true) {s : State} (hr : running s = true) : Moved f s (enableFn s f) (fnState s f).enable := by
  rw [enableFn_unit hu hr]
  split
  · obtain ⟨te, he, hev⟩ := enterStarting_unit hu s
    obtain ⟨status, others, counted⟩ := moved_change f { s with tele := te } (fnState s f).enable
    have same : ∀ g, fnState { s with tele := te } g = fnState s g := fun g => by cases g <;> rfl
    have source : statusSource { s with tele := te } f = statusSource s f := by cases f <;> rfl
    rw [he]
    exact ⟨status, fun g hg => (others g hg).trans (same g), by simpa only [same, source, hev] using counted⟩
  · exact moved_change f s _

/-- A disable ends the fetched commands of a queue pair and discards a ring's words (04 R90, R118), and moves no other function. -/
theorem moved_disableFn (f : FnId) (s : State) : Moved f s (disableFn s f) (fnState s f).disable := by
  have m := moved_change f s (fnState s f).disable
  unfold disableFn
  dsimp only
  split
  · cases f with
    | queue fn q =>
      refine m.of_statuses ?_ (by simp [statusSource])
      exact (failAll_statuses ..).trans (setQueue_statuses rfl)
    | kettle fn => exact m.of_statuses (discardRing_statuses ..) (by simp [statusSource])
    | _ => exact m
  · exact m

/-- The record of a degraded link, which a ring of function 0 gets again (04 R79), is no record of a status. -/
theorem moved_initFn (f : FnId) (s : State) : Moved f s (initFn s f) (fnState s f).initDone := by
  have m := moved_change f s (fnState s f).initDone
  unfold initFn
  dsimp only
  split
  next h =>
    obtain ⟨status, others, counted⟩ := m
    obtain rfl : f = .kettle 0 := by simp only [Bool.and_eq_true, decide_eq_true_eq] at h; exact h.1.1
    refine ⟨(fnState_eventA ..).trans status, fun g hg => (fnState_eventA ..).trans (others g hg), fun hy => ?_⟩
    exact (eventA_events_ne (by simp [statusSource]) ..).trans (counted hy)
  next => exact m

/-! ### The end of shut-down -/

theorem shutDone_eq {x : FnState} (h : x.st = .stopping) : x.shutDone = if x.latch then { st := .starting, latch := false } else .clean := by
  obtain ⟨st, latch⟩ := x
  cases h; rfl

/-- Do the checks of R88, made again, refuse a queue pair or a ring? -/
def refusedAgain (s : State) : FnId → Bool
  | .queue fn q => (queueRefusal s fn q).isSome
  | .kettle fn => (kettleRefusal s fn).isSome
  | _ => false

/-- Where a STOPPING function goes from there (02 Table 2.11, 04 R88). -/
def afterShutdown (s : State) (f : FnId) : FnState :=
  if (fnState s f).latch && !refusedAgain s f then { st := .starting, latch := false } else { st := .off, latch := false }

/-- The registers that R88 checks are no part of a queue pair's clean reset state. -/
theorem queueRefusal_clean (s : State) (fn q : Nat) :
    queueRefusal (dropCovered (setQueue s fn q (queueOf s fn q).cleanState) fn q) fn q = queueRefusal s fn q := by
  have clean : queueOf (dropCovered (setQueue s fn q (queueOf s fn q).cleanState) fn q) fn q = (queueOf s fn q).cleanState := tgetD_tset_self ..
  unfold queueRefusal
  rw [clean]
  rfl

theorem kettleRefusal_clean (s : State) (fn n : Nat) :
    kettleRefusal (setKettle s fn { (kettleOf s fn).cleanState with lost := n }) fn = kettleRefusal s fn := by
  have clean : kettleOf (setKettle s fn { (kettleOf s fn).cleanState with lost := n }) fn = { (kettleOf s fn).cleanState with lost := n } := tgetD_tset_self ..
  unfold kettleRefusal
  rw [clean]
  rfl

theorem refuseQueue_status (s : State) (fn q c : Nat) (f : FnId) : fnState (refuseQueue s fn q c) f = fnState s f := by
  rw [refuseQueue, fnState_signal]
  refine fnState_of_statuses ?_ f
  exact setQueue_statuses rfl

theorem refuseKettle_status (s : State) (fn c : Nat) (f : FnId) : fnState (refuseKettle s fn c) f = fnState s f := by
  rw [refuseKettle, fnState_signal]
  refine fnState_of_statuses ?_ f
  exact setKettle_statuses rfl

theorem queueShut_status {s : State} {fn q : Nat} (h : (fnState s (.queue fn q)).st = .stopping) :
    fnState (queueShut s fn q) (.queue fn q) = afterShutdown s (.queue fn q) := by
  unfold queueShut afterShutdown refusedAgain
  dsimp only
  rw [queueRefusal_clean, shutDone_eq h]
  cases (fnState s (.queue fn q)).latch with
  | false => exact fnState_change ..
  | true =>
    simp only [if_true, Bool.true_and]
    split
    next c hc => rw [hc]; exact (refuseQueue_status ..).trans (fnState_change ..)
    next hc => rw [hc]; exact fnState_change ..

theorem kettleShut_status {s : State} {fn : Nat} (h : (fnState s (.kettle fn)).st = .stopping) :
    fnState (kettleShut s fn) (.kettle fn) = afterShutdown s (.kettle fn) := by
  unfold kettleShut afterShutdown refusedAgain
  dsimp only
  rw [kettleRefusal_clean, shutDone_eq h]
  cases (fnState s (.kettle fn)).latch with
  | false => exact fnState_change ..
  | true =>
    simp only [if_true, Bool.true_and]
    split
    next c hc => rw [hc]; exact (refuseKettle_status ..).trans (fnState_change ..)
    next hc => rw [hc]; exact fnState_change ..

@[simp] theorem announceOn_rel (s : State) (l : Nat × Nat) : (announceOn s l).rel = s.rel := by
  unfold announceOn
  split <;> rfl

@[simp] theorem announceAll_rel : ∀ (l : List (Nat × Nat)) (s : State), (announceAll s l).rel = s.rel
  | [], _ => rfl
  | x :: r, s => (announceAll_rel r (announceOn s x)).trans (announceOn_rel s x)

/-- A link that is not ON has nothing queued, and takes the status it is moved to. -/
theorem linkTo_status {s : State} {p k : Nat} (h : linkOn s p k = false) (x : FnState) : fnState (linkTo s p k x) (.link p k) = x := by
  refine Eq.trans ?_ (fnState_moveFn s (.link p k) x)
  refine congrArg (fun r : Rel => tgetD r.fns (.link p k) FnState.clean) ?_
  unfold linkTo
  simp only [h, announceChanges, announceAll_rel, Bool.false_and, Bool.false_eq_true, if_false]
  split
  · split <;> rfl
  · split <;> rfl

/-- A STOPPING function whose work has ended leaves that status as Table 2.11 states. -/
theorem shutFn_status {s : State} {f : FnId} (h : (fnState s f).st = .stopping) (hw : workEnded s f = true) :
    fnState (shutFn s f) f = afterShutdown s f := by
  have leaves : (fnState s f).shutDone = if (fnState s f).latch then { st := .starting, latch := false } else { st := .off, latch := false } := shutDone_eq h
  have going : (!decide ((fnState s f).st = .stopping) || !workEnded s f) = false := by simp [h, hw]
  unfold shutFn
  rw [going]
  simp only [Bool.false_eq_true, if_false]
  cases f with
  | queue fn q => exact queueShut_status h
  | kettle fn => exact kettleShut_status h
  | tenant t => rw [tenantShut_status, leaves]; simp [afterShutdown, refusedAgain]
  | link p k =>
    have down : linkOn s p k = false := by simp [linkOn, h]
    rw [linkTo_status down, leaves]; simp [afterShutdown, refusedAgain]
  | _ => rw [fnState_change, leaves]; simp [afterShutdown, refusedAgain]

/-- One that is not STOPPING, or whose work goes on, is left alone. -/
theorem shutFn_stays {s : State} {f : FnId} (h : (fnState s f).st ≠ .stopping ∨ workEnded s f = false) : shutFn s f = s := by
  have stays : (!decide ((fnState s f).st = .stopping) || !workEnded s f) = true := by
    rcases h with h | h <;> simp [h]
  exact if_pos stays

/-! ### The rows -/

theorem fnState_keepHost (s t : State) (f : FnId) : fnState (s.keepHost t) f = fnState t f := by cases f <;> rfl

theorem fnState_keep (s t : State) (f : FnId) : fnState (s.keep t) f = fnState t f := by cases f <;> rfl

/-- A row puts back what it may not change, no function's status among it. -/
theorem Moved.keepHost {f : FnId} {s t : State} {y : FnState} (m : Moved f s t y) : Moved f s (s.keepHost t) y :=
  ⟨(fnState_keepHost ..).trans m.status, fun g hg => (fnState_keepHost ..).trans (m.others g hg), m.counted⟩

/-- Settles O13: enable, disable and the end of initialisation are moves (`Moved`) by the operations of Table 2.11, and the end of shut-down goes by the
kind of the function. -/
theorem functionsFollowTheStatusTable : Obligations.FunctionsFollowTheStatusTable := by
  unfold Obligations.FunctionsFollowTheStatusTable
  refine ⟨?enable, ?disable, ?initialised, ?shut⟩
  case enable =>
    intro f s hu hr
    have unit : isUnit f = true := by
      cases f with
      | tenant t => exact hu.elim
      | queue fn q => exact hu.elim
      | kettle fn => exact hu.elim
      | _ => rfl
    have m := (moved_enableFn unit hr).keepHost
    rw [enable_eq] at m
    exact ⟨_, rfl, m.status, m.others, m.counted⟩
  case disable =>
    intro f s
    have m := (moved_disableFn f s).keepHost
    rw [disable_eq] at m
    exact ⟨_, rfl, m.status, m.others, m.counted⟩
  case initialised =>
    intro f s
    have m := (moved_initFn f s).keepHost
    rw [initDone_eq] at m
    exact ⟨_, rfl, m.status, m.others, m.counted⟩
  case shut =>
    intro f s
    refine ⟨s.keep (shutFn s f), rfl, fun h => ?_, fun h hw => ?_⟩
    · rw [fnState_keep, shutFn_stays h]
    · rw [fnState_keep, shutFn_status h hw]
      cases f <;> rfl

end Sys2Proof.Proofs
end

section
/-!
PROOFS. O22 (03_configuration_image_and_startup.md R71, R73, R74): writes of the knobs.
-/
namespace Sys2Proof.Proofs
open Sys2Proof.Machine

/-! ### The registers of the two paths (03 R71) -/

@[simp] theorem pathRegs_setPath (s : State) (p : Path) (r : PathRegs) : pathRegs (setPath s p r) p = r := by
  cases p <;> rfl

theorem pathRegs_setPath_ne {p p' : Path} (h : p' ≠ p) (s : State) (r : PathRegs) : pathRegs (setPath s p r) p' = pathRegs s p' := by
  cases p <;> cases p'
  · exact absurd rfl h
  · rfl
  · rfl
  · exact absurd rfl h

/-- A path's registers are none of what a command may not change. -/
theorem quiet_setPath (s : State) (p : Path) (r : PathRegs) : quiet s (setPath s p r) = .next (setPath s p r) := by
  cases p <;> rfl

/-! ### Where an accepted value goes (03 R74) -/

/-- Does the knob take effect at a boundary that follows the write (03 Table 3.12)? -/
def takesEffectLater (k : Nat) : Bool := k ≤ 5 || k = 9

/-- An accepted value waits for its boundary or is in force at once. -/
def acceptKnob (s : State) (k i x : Nat) : State :=
  if takesEffectLater k then { s with mgmt := { s.mgmt with knobsDue := tset s.mgmt.knobsDue (k, i) x } }
  else { s with mgmt := { s.mgmt with knobs := tset s.mgmt.knobs (k, i) x } }

section
variable (s t : State) (p : Path) (k i x : Nat)

@[simp] theorem acceptKnob_gov : (acceptKnob s k i x).gov = s.gov := by
  unfold acceptKnob
  split <;> rfl

@[simp] theorem acceptKnob_host : (acceptKnob s k i x).host = s.host := by
  unfold acceptKnob
  split <;> rfl

@[simp] theorem pathRegs_acceptKnob : pathRegs (acceptKnob s k i x) p = pathRegs s p := by
  unfold acceptKnob
  split <;> cases p <;> rfl

/-- A row puts back what it may not change, no path's registers among it. -/
@[simp] theorem pathRegs_keepHost : pathRegs (s.keepHost t) p = pathRegs t p := by cases p <;> rfl

@[simp] theorem setPath_gov (r : PathRegs) : (setPath s p r).gov = s.gov := by cases p <;> rfl
@[simp] theorem setPath_host (r : PathRegs) : (setPath s p r).host = s.host := by cases p <;> rfl
theorem setPath_knobs (r : PathRegs) : (setPath s p r).mgmt.knobs = s.mgmt.knobs := by cases p <;> rfl
theorem setPath_knobsDue (r : PathRegs) : (setPath s p r).mgmt.knobsDue = s.mgmt.knobsDue := by cases p <;> rfl

end

/-- The value of a knob that takes effect later waits, in the place of one that waited before it; what is in force stays. -/
theorem acceptKnob_later {k : Nat} (h : k ∈ [1, 2, 3, 4, 5, 9]) (s : State) (i x : Nat) :
    tget (acceptKnob s k i x).mgmt.knobsDue (k, i) = some x ∧ (acceptKnob s k i x).mgmt.knobs = s.mgmt.knobs := by
  have later : ∀ k ∈ [1, 2, 3, 4, 5, 9], takesEffectLater k = true := by decide
  rw [acceptKnob, if_pos (later k h)]
  exact ⟨tget_tset_self .., rfl⟩

/-- The value of any other knob is in force at once, and nothing that waits changes. -/
theorem acceptKnob_now {k : Nat} (h : k ∈ [6, 7, 8]) (s : State) (i x : Nat) :
    tget (acceptKnob s k i x).mgmt.knobs (k, i) = some x ∧ (acceptKnob s k i x).mgmt.knobsDue = s.mgmt.knobsDue := by
  have now : ∀ k ∈ [6, 7, 8], ¬ takesEffectLater k = true := by decide
  rw [acceptKnob, if_neg (now k h)]
  exact ⟨tget_tset_self .., rfl⟩

/-- Where the image gives a knob its structural value, the last value that took effect is in force. -/
theorem knobValue_of_tget {s : State} {k i w x : Nat} (hi : tget (knobInstances s.image k) i = some w) (hx : tget s.mgmt.knobs (k, i) = some x) :
    knobValue s k i = some x := by
  simp [knobValue, hi, tgetD, hx]

/-! ### The checks of a write, in the order of R73 -/

theorem exec_knobWrite (p : Path) (v : Nat) (s : State) : exec (.knobWrite p v) s = execKnobWrite p v s := rfl

theorem knobWrite_unreachable {p : Path} {s : State} (h : mgmtReachable s p = false) (v : Nat) : exec (.knobWrite p v) s = .next s := by
  rw [exec_knobWrite, execKnobWrite, h]
  rfl

/-- The code of the first check of R73 that a value fails for the knob and index that a path has selected. -/
def knobFault (s : State) (r : PathRegs) (x : Nat) : Option Nat :=
  match s.image.knobs.find? (·.knob = r.knob) with
  | none => some Status.knobNotListed
  | some k =>
    if !thas (knobInstances s.image r.knob) r.knobIndex then some Status.knobNoTarget
    else if x < k.min || k.max < x then some Status.knobOutOfBounds
    else none

/-- A reachable write records the code of the check that fails, or 0 and the value. -/
theorem knobWrite_reachable {p : Path} {s : State} (h : mgmtReachable s p = true) (v : Nat) :
    exec (.knobWrite p v) s = match knobFault s (pathRegs s p) (v % 2 ^ 32) with
      | some c => .next (setPath s p { pathRegs s p with knobResult := c })
      | none => quiet s (acceptKnob (setPath s p { pathRegs s p with knobResult := 0 }) (pathRegs s p).knob (pathRegs s p).knobIndex (v % 2 ^ 32)) := by
  rw [exec_knobWrite, execKnobWrite, knobFault, if_pos h]
  dsimp only
  cases s.image.knobs.find? (·.knob = (pathRegs s p).knob) with
  | none => exact quiet_setPath ..
  | some k =>
    dsimp only
    by_cases absent : (!thas (knobInstances s.image (pathRegs s p).knob) (pathRegs s p).knobIndex) = true
    · rw [if_pos absent, if_pos absent]
      exact quiet_setPath ..
    · rw [if_neg absent, if_neg absent]
      by_cases out : (v % 2 ^ 32 < k.min || k.max < v % 2 ^ 32) = true
      · rw [if_pos out, if_pos out]
        exact quiet_setPath ..
      · rw [if_neg out, if_neg out]
        rfl

theorem knobWrite_refused {p : Path} {v c : Nat} {s : State} (h : mgmtReachable s p = true)
    (hc : knobFault s (pathRegs s p) (v % 2 ^ 32) = some c) :
    exec (.knobWrite p v) s = .next (setPath s p { pathRegs s p with knobResult := c }) := by
  rw [knobWrite_reachable h, hc]

theorem knobWrite_accepted {p : Path} {v : Nat} {s : State} (h : mgmtReachable s p = true)
    (hn : knobFault s (pathRegs s p) (v % 2 ^ 32) = none) :
    exec (.knobWrite p v) s = .next (s.keepHost
      (acceptKnob (setPath s p { pathRegs s p with knobResult := 0 }) (pathRegs s p).knob (pathRegs s p).knobIndex (v % 2 ^ 32))) := by
  rw [knobWrite_reachable h, hn, quiet]

section
variable {s : State} {r : PathRegs} {k : KnobRec} {w : Nat}

theorem knobFault_unlisted (h : s.image.knobs.find? (·.knob = r.knob) = none) (x : Nat) : knobFault s r x = some 0x0B10 := by
  rw [knobFault, h, Status.knobNotListed]

theorem knobFault_absent (h : s.image.knobs.find? (·.knob = r.knob) = some k) (hi : tget (knobInstances s.image r.knob) r.knobIndex = none) (x : Nat) :
    knobFault s r x = some 0x0B12 := by
  simp [knobFault, h, thas, hi, Status.knobNoTarget]

theorem knobFault_bounds (h : s.image.knobs.find? (·.knob = r.knob) = some k) (hi : tget (knobInstances s.image r.knob) r.knobIndex = some w) (x : Nat) :
    knobFault s r x = if x < k.min ∨ k.max < x then some 0x0B11 else none := by
  simp [knobFault, h, thas, hi, Status.knobOutOfBounds]

end

/-- Settles O22: a write goes by the first check of R73 that fails (`knobFault`), and an accepted value goes where `acceptKnob` puts it. -/
theorem knobWritesAreCheckedInOrder : Obligations.KnobWritesAreCheckedInOrder := by
  unfold Obligations.KnobWritesAreCheckedInOrder
  refine ⟨fun p v s h => knobWrite_unreachable h v, ?_⟩
  intro p v s h
  dsimp only
  refine ⟨fun unlisted => knobWrite_refused h (knobFault_unlisted unlisted _), fun k listed => ⟨?absent, ?present⟩⟩
  case absent => exact fun absent => knobWrite_refused h (knobFault_absent listed absent _)
  case present =>
    intro w present
    have checked := knobFault_bounds listed present (v % 2 ^ 32)
    refine ⟨fun out => knobWrite_refused h (checked.trans (if_pos out)), fun low high => ?_⟩
    have accepted := knobWrite_accepted h (checked.trans (if_neg (by omega)))
    refine ⟨_, accepted, by simp, fun p' other => by simp [pathRegs_setPath_ne other], fun later => ?_, fun now => ?_, by simp, by simp⟩
    · obtain ⟨waits, inForce⟩ := acceptKnob_later later (setPath s p { pathRegs s p with knobResult := 0 }) (pathRegs s p).knobIndex (v % 2 ^ 32)
      exact ⟨waits, inForce.trans (setPath_knobs ..)⟩
    · obtain ⟨inForce, waiting⟩ := acceptKnob_now now (setPath s p { pathRegs s p with knobResult := 0 }) (pathRegs s p).knobIndex (v % 2 ^ 32)
      exact ⟨knobValue_of_tget present inForce, waiting.trans (setPath_knobsDue ..)⟩

end Sys2Proof.Proofs
end

section
/-!
PROOFS. What the reads of a queue pair, of a Kettle ring and of a function's registers give after the operations that set them
(04_host_queues.md Tables 4.3, 4.4, 4.10).
-/
namespace Sys2Proof.Proofs
open Sys2Proof.Machine

section
variable (s t : State) (fn q m v c : Nat) (p : QueuePair) (k : Kettle) (f : FuncRegs)

@[simp] theorem queueOf_setQueue : queueOf (setQueue s fn q p) fn q = p := tgetD_tset_self ..
@[simp] theorem kettleOf_setKettle : kettleOf (setKettle s fn k) fn = k := tgetD_tset_self ..
@[simp] theorem funcOf_setFunc : funcOf (setFunc s fn f) fn = f := tgetD_tset_self ..
@[simp] theorem queueOf_signal : queueOf (signal s m v) fn q = queueOf s fn q := by simp [queueOf]
@[simp] theorem kettleOf_signal : kettleOf (signal s m v) fn = kettleOf s fn := by simp [kettleOf]

@[simp] theorem queueOf_keep : queueOf (s.keep t) fn q = queueOf t fn q := rfl
@[simp] theorem queueOf_keepHost : queueOf (s.keepHost t) fn q = queueOf t fn q := rfl
@[simp] theorem kettleOf_keep : kettleOf (s.keep t) fn = kettleOf t fn := rfl
@[simp] theorem kettleOf_keepHost : kettleOf (s.keepHost t) fn = kettleOf t fn := rfl
@[simp] theorem funcOf_keepHost : funcOf (s.keepHost t) fn = funcOf t fn := rfl

/-- A row that sets one of the three puts nothing back. -/
@[simp] theorem keepHost_setQueue : s.keepHost (setQueue s fn q p) = setQueue s fn q p := rfl
@[simp] theorem keepHost_setKettle : s.keepHost (setKettle s fn k) = setKettle s fn k := rfl
@[simp] theorem keepHost_setFunc : s.keepHost (setFunc s fn f) = setFunc s fn f := rfl

/-- A refused write of a queue pair sets its CODE. -/
@[simp] theorem queueOf_refuseQueue : queueOf (refuseQueue s fn q c) fn q = { queueOf s fn q with code := c } := by simp [refuseQueue]
@[simp] theorem kettleOf_refuseKettle : kettleOf (refuseKettle s fn c) fn = { kettleOf s fn with code := c } := by simp [refuseKettle]

end

section
variable {fn q : Nat} {k : Nat × Nat} (h : k ≠ (fn, q)) (s : State)
include h

theorem queueOf_setQueue_ne (p : QueuePair) : queueOf (setQueue s fn q p) k.1 k.2 = queueOf s k.1 k.2 := tgetD_tset_ne h.symm ..

/-- It leaves every other queue pair as it is. -/
theorem queueOf_refuseQueue_ne (c : Nat) : queueOf (refuseQueue s fn q c) k.1 k.2 = queueOf s k.1 k.2 := by
  rw [refuseQueue, queueOf_signal, queueOf_setQueue_ne h]

end

@[simp] theorem refuseQueue_host_slots (s : State) (fn q c : Nat) : (refuseQueue s fn q c).host.slots = s.host.slots := by simp [refuseQueue]
@[simp] theorem refuseQueue_host_due (s : State) (fn q c : Nat) : (refuseQueue s fn q c).host.due = s.host.due := by simp [refuseQueue]
@[simp] theorem refuseQueue_host_badLines (s : State) (fn q c : Nat) : (refuseQueue s fn q c).host.badLines = s.host.badLines := by simp [refuseQueue]
@[simp] theorem refuseQueue_hostMem (s : State) (fn q c : Nat) : (refuseQueue s fn q c).hostMem = s.hostMem := by simp [refuseQueue]

theorem kettleOf_setKettle_ne {fn m : Nat} (h : m ≠ fn) (s : State) (k : Kettle) : kettleOf (setKettle s fn k) m = kettleOf s m :=
  tgetD_tset_ne h.symm ..

/-- In READY the Kettle registers of a function with a tenant may be written (03 R68, 04 R83). -/
theorem kettleExists_of_tenant {s : State} {fn : Nat} {r : TenantRec} (ht : tenantOfFn s fn = some r) (hr : isReady s = true) :
    kettleExists s fn = true := by
  simp [kettleExists, ht, hr]

/-- In READY the page of a queue pair that the function's tenant has may be written. -/
theorem pageExists_of_tenant {s : State} {fn q : Nat} {r : TenantRec} (ht : tenantOfFn s fn = some r) (hq : q < r.queuePairs)
    (hr : isReady s = true) : pageExists s fn q = true := by
  simp [pageExists, ht, hr, hq]

end Sys2Proof.Proofs
end

section
/-!
PROOFS. O15 (04_host_queues.md R91): the doorbells.
-/
namespace Sys2Proof.Proofs
open Sys2Proof.Machine

/-- The state that a doorbell of the submission queue finds: what the host placed before it stands in host memory (04 R91; 06 R174). -/
def hostPlaced (s : State) (placed : List Host.Cell) (bad : List Nat) : State :=
  { spoilT3 s placed with hostMem := s.hostMem.place placed, host := { s.host with badLines := bad } }

theorem sqTailDoorbell_eq {s : State} {fn q : Nat} (h : pageExists s fn q = true) (v : Nat) (placed : List Host.Cell) (bad : List Nat) :
    exec (.sqTailDoorbell fn q v placed bad) s = .next (s.keep (
      if v % 2 ^ 16 < 2 ^ (queueOf s fn q).sqLog then
        setQueue (hostPlaced s placed bad) fn q { queueOf s fn q with sqTail := v % 2 ^ 16 }
      else refuseQueue (hostPlaced s placed bad) fn q Status.doorbellInvalid)) := by
  have page : pageExists (hostPlaced s placed bad) fn q = true := h
  change execSqTailDoorbell fn q v placed bad s = _
  simp only [execSqTailDoorbell]
  rw [← hostPlaced, if_pos page]
  have same : queueOf (hostPlaced s placed bad) fn q = queueOf s fn q := rfl
  rw [same]
  split <;> rfl

/-- May the head of the completion queue move to `x`: below the entry count, and not past the tail (R91)? -/
def headFits (p : QueuePair) (x : Nat) : Prop :=
  x < 2 ^ p.cqLog ∧ (x + 2 ^ p.cqLog - p.cqHead) % 2 ^ p.cqLog ≤ (p.cqTail + 2 ^ p.cqLog - p.cqHead) % 2 ^ p.cqLog

theorem cqHeadDoorbell_fits {s : State} {fn q v : Nat} (h : pageExists s fn q = true) (hx : headFits (queueOf s fn q) (v % 2 ^ 16)) :
    exec (.cqHeadDoorbell fn q v) s = .next (setQueue s fn q { queueOf s fn q with
      cqHead := v % 2 ^ 16
      unreadSince := if v % 2 ^ 16 = (queueOf s fn q).cqTail then none else (queueOf s fn q).unreadSince }) := by
  obtain ⟨below, reached⟩ := hx
  change execCqHeadDoorbell fn q v s = _
  simp only [execCqHeadDoorbell, h, below, reached, decide_true, Bool.and_self, if_true]
  rfl

theorem cqHeadDoorbell_refused {s : State} {fn q v : Nat} (h : pageExists s fn q = true) (hx : ¬ headFits (queueOf s fn q) (v % 2 ^ 16)) :
    exec (.cqHeadDoorbell fn q v) s = .next (s.keepHost (refuseQueue s fn q Status.doorbellInvalid)) := by
  have refused : ¬ (decide (v % 2 ^ 16 < 2 ^ (queueOf s fn q).cqLog) && decide ((v % 2 ^ 16 + 2 ^ (queueOf s fn q).cqLog - (queueOf s fn q).cqHead) %
      2 ^ (queueOf s fn q).cqLog ≤ ((queueOf s fn q).cqTail + 2 ^ (queueOf s fn q).cqLog - (queueOf s fn q).cqHead) % 2 ^ (queueOf s fn q).cqLog)) = true := by
    simpa [headFits] using hx
  change execCqHeadDoorbell fn q v s = _
  simp only [execCqHeadDoorbell, h, if_true]
  rw [if_neg refused]
  rfl

/-- Settles O15: each doorbell is one write of the queue pair where its bounds hold, and a refused write elsewhere. -/
theorem doorbellsObeyTheirBounds : Obligations.DoorbellsObeyTheirBounds := by
  unfold Obligations.DoorbellsObeyTheirBounds
  refine ⟨?tail, ?head⟩
  case tail =>
    intro fn q v placed bad s hp hm
    have memory : (s.hostMem.place placed).canon = s.hostMem.place placed := Memory.canon_of_wf (Memory.place_wf placed hm)
    refine ⟨_, sqTailDoorbell_eq hp v placed bad, ?_⟩
    by_cases below : v % 2 ^ 16 < 2 ^ (queueOf s fn q).sqLog
    · rw [if_pos below, if_pos below]
      exact ⟨queueOf_setQueue .., fun k hk => queueOf_setQueue_ne hk (hostPlaced s placed bad) _, memory, rfl, rfl, rfl⟩
    · rw [if_neg below, if_neg below]
      refine ⟨queueOf_refuseQueue .., fun k hk => queueOf_refuseQueue_ne hk (hostPlaced s placed bad) _, ?_, ?_, ?_, ?_⟩
      · rw [keep_hostMem, refuseQueue_hostMem]; exact memory
      · rw [keep_host, refuseQueue_host_badLines]; rfl
      · rw [keep_host, refuseQueue_host_slots]; rfl
      · rw [keep_host, refuseQueue_host_due]; rfl
  case head =>
    intro fn q v s hp
    dsimp only
    by_cases fits : headFits (queueOf s fn q) (v % 2 ^ 16)
    · refine ⟨_, cqHeadDoorbell_fits hp fits, fun high => ?_, fun _ past => ?_, fun _ _ => queueOf_setQueue ..,
        fun k hk => queueOf_setQueue_ne hk s _, rfl, rfl⟩
      · exact absurd fits.1 (by omega)
      · exact absurd fits.2 (by omega)
    · refine ⟨_, cqHeadDoorbell_refused hp fits, fun _ => queueOf_refuseQueue .., fun _ _ => queueOf_refuseQueue .., fun below reached => ?_,
        fun k hk => queueOf_refuseQueue_ne hk s _, by simp, by simp⟩
      exact absurd ⟨below, reached⟩ fits

end Sys2Proof.Proofs
end

section
/-!
PROOFS. O16 (04_host_queues.md R83, R85, R87, Tables 4.4, 4.10): writes of configuration registers.
-/
namespace Sys2Proof.Proofs
open Sys2Proof.Machine

theorem queueConfigOff_iff {off : Nat} : queueConfigOff off = true ↔ off ∈ [0x010, 0x014, 0x018, 0x01C, 0x020] := by
  simp [queueConfigOff, or_assoc]

theorem kettleConfigOff_iff {off : Nat} : kettleConfigOff off = true ↔ off ∈ [0x000, 0x004, 0x008] := by
  simp [kettleConfigOff, or_assoc]

/-- The bits of Table 4.4 that a configuration register takes from a value. -/
theorem writeConfig_eq {off : Nat} (h : off ∈ [0x010, 0x014, 0x018, 0x01C, 0x020]) (p : QueuePair) (v : Nat) :
    p.writeConfig off v =
      if off = 0x010 then { p with sqBase := p.sqBase / 2 ^ 32 * 2 ^ 32 + v % 2 ^ 32 }
      else if off = 0x014 then { p with sqBase := p.sqBase % 2 ^ 32 + v % 2 ^ 32 * 2 ^ 32 }
      else if off = 0x018 then { p with cqBase := p.cqBase / 2 ^ 32 * 2 ^ 32 + v % 2 ^ 32 }
      else if off = 0x01C then { p with cqBase := p.cqBase % 2 ^ 32 + v % 2 ^ 32 * 2 ^ 32 }
      else { p with sqLog := v % 32, cqLog := v / 256 % 32 } := by
  have size : bits v 12 8 = v / 256 % 32 := by simp [bits, Nat.shiftRight_eq_div_pow]
  fin_cases h <;> simp [QueuePair.writeConfig, size]

section
variable {s : State} {fn q off : Nat} (v : Nat)

theorem queueConfigWrite_eq (hp : pageExists s fn q = true) (ho : off ∈ [0x010, 0x014, 0x018, 0x01C, 0x020]) :
    exec (.queueConfigWrite fn q off v) s =
      if (queueOf s fn q).fn.st = .off then .next (setQueue s fn q ((queueOf s fn q).writeConfig off v))
      else .next (s.keepHost (refuseQueue s fn q Status.ringBusy)) := by
  change execQueueConfigWrite fn q off v s = _
  simp only [execQueueConfigWrite, hp, queueConfigOff_iff.mpr ho, Bool.and_self, if_true]
  rfl

theorem queueConfigWrite_ignored (h : pageExists s fn q = false ∨ off ∉ [0x010, 0x014, 0x018, 0x01C, 0x020]) :
    exec (.queueConfigWrite fn q off v) s = .next s := by
  have ignored : (pageExists s fn q && queueConfigOff off) = false := by
    rcases h with h | h
    · simp [h]
    · simp [Bool.eq_false_iff.mpr (mt queueConfigOff_iff.mp h)]
  change execQueueConfigWrite fn q off v s = _
  simp only [execQueueConfigWrite, ignored, Bool.false_eq_true, if_false]

theorem kettleConfigWrite_off (hk : kettleExists s fn = true) (ho : off ∈ [0x000, 0x004, 0x008]) (hf : (kettleOf s fn).fn.st = .off) :
    exec (.kettleConfigWrite fn off v) s = .next (setKettle s fn (
      if off = 0x000 then { kettleOf s fn with base := (kettleOf s fn).base / 2 ^ 32 * 2 ^ 32 + v % 2 ^ 32 }
      else if off = 0x004 then { kettleOf s fn with base := (kettleOf s fn).base % 2 ^ 32 + v % 2 ^ 32 * 2 ^ 32 }
      else { kettleOf s fn with sizeLog := v % 32 })) := by
  change execKettleConfigWrite fn off v s = _
  simp only [execKettleConfigWrite, hk, kettleConfigOff_iff.mpr ho, Bool.and_self, if_true, hf]
  fin_cases ho <;> rfl

theorem kettleConfigWrite_busy (hk : kettleExists s fn = true) (ho : off ∈ [0x000, 0x004, 0x008]) (hf : (kettleOf s fn).fn.st ≠ .off) :
    exec (.kettleConfigWrite fn off v) s = .next (s.keepHost (refuseKettle s fn Status.ringBusy)) := by
  change execKettleConfigWrite fn off v s = _
  simp only [execKettleConfigWrite, hk, kettleConfigOff_iff.mpr ho, Bool.and_self, if_true, hf, if_false]
  rfl

theorem kettleConfigWrite_ignored (h : tenantOfFn s fn = none ∨ isReady s = false ∨ off ∉ [0x000, 0x004, 0x008]) :
    exec (.kettleConfigWrite fn off v) s = .next s := by
  have ignored : (kettleExists s fn && kettleConfigOff off) = false := by
    rcases h with h | h | h
    · simp [kettleExists, h]
    · simp [kettleExists, h]
    · simp [Bool.eq_false_iff.mpr (mt kettleConfigOff_iff.mp h)]
  change execKettleConfigWrite fn off v s = _
  simp only [execKettleConfigWrite, ignored, Bool.false_eq_true, if_false]

end

/-- Settles O16: on a place that is a configuration register, a write goes by the status of its queue pair or ring; elsewhere it is ignored. -/
theorem configurationIsWrittenOnlyWhileOff : Obligations.ConfigurationIsWrittenOnlyWhileOff := by
  unfold Obligations.ConfigurationIsWrittenOnlyWhileOff
  refine ⟨?queueOff, ?queueBusy, fun fn q off v s h => queueConfigWrite_ignored v h, ?kettleOff, ?kettleBusy,
    fun fn off v s h => kettleConfigWrite_ignored v h⟩
  case queueOff =>
    intro fn q off v s hp ho hf
    rw [queueConfigWrite_eq v hp ho, if_pos hf, writeConfig_eq ho]
  case queueBusy =>
    intro fn q off v s hp ho hf
    refine ⟨_, (queueConfigWrite_eq v hp ho).trans (if_neg hf), queueOf_refuseQueue .., fun k hk => queueOf_refuseQueue_ne hk s _⟩
  case kettleOff =>
    intro fn off v r s ht hr ho hf
    exact kettleConfigWrite_off v (kettleExists_of_tenant ht hr) ho hf
  case kettleBusy =>
    intro fn off v r s ht hr ho hf
    exact ⟨_, kettleConfigWrite_busy v (kettleExists_of_tenant ht hr) ho hf, kettleOf_refuseKettle ..⟩

end Sys2Proof.Proofs
end

section
/-!
PROOFS. O19 (04_host_queues.md R110, R111, Table 4.3): the coalescing timer and the interrupt masks.
-/
namespace Sys2Proof.Proofs
open Sys2Proof.Machine

/-! ### A vector that was not signalled before -/

section
variable {s : State} {fn v : Nat} (h : tget (funcOf s fn).lastSignal v = none)
include h

/-- It is signalled at once where it is not masked. -/
theorem signal_unmasked (hm : vecMasked (funcOf s fn) v = false) :
    (signal s fn v).host.signals = (fn, v) :: s.host.signals ∧
      funcOf (signal s fn v) fn =
        { funcOf s fn with vecPending := (funcOf s fn).vecPending.erase v, lastSignal := tset (funcOf s fn).lastSignal v s.mono } := by
  simp only [signal, h, hm, Bool.or_self, Bool.false_eq_true, if_false]
  exact ⟨rfl, funcOf_setFunc ..⟩

end

/-- A masked vector is held pending. -/
theorem signal_masked {s : State} {fn v : Nat} (hm : vecMasked (funcOf s fn) v = true) :
    (signal s fn v).host.signals = s.host.signals ∧ (funcOf (signal s fn v) fn).vecPending.contains v = true := by
  simp only [signal, hm, Bool.true_or, if_true]
  refine ⟨rfl, ?_⟩
  rw [funcOf_setFunc]
  dsimp only
  split
  next held => exact held
  next => simp

/-! ### The timer -/

/-- A completion unread for 8 µs, on a queue whose vector was never signalled, signals it. -/
theorem interruptCoalesceTimer_unread {s : State} {fn q u : Nat} (hu : (queueOf s fn q).unreadSince = some u) (ht : u + 8000 ≤ s.mono)
    (hl : tget (funcOf s fn).lastSignal (2 + q) = none) :
    exec (.interruptCoalesceTimer fn (2 + q)) s = .next (s.keepHost (signal s fn (2 + q))) := by
  have never : tgetD (funcOf s fn).lastSignal (2 + q) 0 = 0 := by simp [tgetD, hl]
  change execInterruptCoalesceTimer fn (2 + q) s = _
  simp only [execInterruptCoalesceTimer, never, Nat.add_sub_cancel_left, hu, Nat.max_zero, ht]
  simp [quiet]

/-! ### Masks -/

/-- The registers of a function after a write of one of its masks (Table 4.3). -/
def maskWritten (f : FuncRegs) (m : IrqMask) (v : Nat) : FuncRegs :=
  match m with
  | .lo => { f with maskLo := v % 2 ^ 32 }
  | .hi => { f with maskHi := v % 2 ^ 32 }
  | .evt => { f with maskFunc := bit v 0, maskKettle := bit v 1 }
  | .msix n => { f with vecMasked := if bit v 0 then (if f.vecMasked.contains n then f.vecMasked else f.vecMasked ++ [n]) else f.vecMasked.erase n }

theorem irqMaskWrite_ready {s : State} (h : isReady s = true) (fn : Nat) (m : IrqMask) (v : Nat) :
    exec (.irqMaskWrite fn m v) s =
      .next (s.keepHost (signalPending (setFunc s fn (maskWritten (funcOf s fn) m v)) fn (funcOf s fn).vecPending)) := by
  change execIrqMaskWrite fn m v s = _
  simp only [execIrqMaskWrite, h, Bool.not_true, Bool.false_eq_true, if_false]
  cases m <;> rfl

theorem irqMaskWrite_beforeReady {s : State} (h : isReady s = false) (fn : Nat) (m : IrqMask) (v : Nat) :
    exec (.irqMaskWrite fn m v) s = .next s := by
  change execIrqMaskWrite fn m v s = _
  simp only [execIrqMaskWrite, h, Bool.not_false, if_true]

/-- With nothing pending, a mask is written and nothing else. -/
theorem irqMaskWrite_quiet {s : State} {fn : Nat} (h : isReady s = true) (hp : (funcOf s fn).vecPending = []) (m : IrqMask) (v : Nat) :
    exec (.irqMaskWrite fn m v) s = .next (setFunc s fn (maskWritten (funcOf s fn) m v)) := by
  rw [irqMaskWrite_ready h, hp]
  rfl

/-- Settles O19: an unread completion signals its vector, a mask write signals the pending vectors that it unmasks, and a signal is sent or pends. -/
theorem interruptsWaitForMasksAndTimers : Obligations.InterruptsWaitForMasksAndTimers := by
  unfold Obligations.InterruptsWaitForMasksAndTimers
  refine ⟨?timer, ?masks, fun fn v m s h => irqMaskWrite_beforeReady h fn m v, ?table, ?unmasked⟩
  case timer =>
    intro fn q u s hu ht hl
    refine ⟨_, interruptCoalesceTimer_unread hu ht hl, fun hm => (signal_unmasked hl hm).1, fun hm => signal_masked hm, ?_⟩
    simp
  case masks =>
    intro fn v s h hp
    exact ⟨irqMaskWrite_quiet h hp .lo v, irqMaskWrite_quiet h hp .hi v, irqMaskWrite_quiet h hp .evt v⟩
  case table =>
    intro fn n v s h hp hb hm
    rw [irqMaskWrite_quiet h hp]
    simp [maskWritten, hb, hm]
  case unmasked =>
    intro fn q v s h hp hq hm hb hl
    have written : funcOf (setFunc s fn (maskWritten (funcOf s fn) .lo v)) fn = maskWritten (funcOf s fn) .lo v := funcOf_setFunc ..
    have unmasked : vecMasked (funcOf (setFunc s fn (maskWritten (funcOf s fn) .lo v)) fn) (2 + q) = false := by
      have low : 2 + q < 34 := by omega
      have place : 2 + q ≠ 1 := by omega
      rw [written]
      simpa [vecMasked, maskWritten, hm, low, place] using hb
    have sent := signal_unmasked (s := setFunc s fn (maskWritten (funcOf s fn) .lo v)) (by rw [written]; exact hl) unmasked
    have runs : exec (.irqMaskWrite fn .lo v) s =
        .next (s.keepHost (signal (setFunc s fn (maskWritten (funcOf s fn) .lo v)) fn (2 + q))) := by
      rw [irqMaskWrite_ready h, hp]
      simp only [signalPending, unmasked, Bool.false_eq_true, if_false]
    refine ⟨_, runs, sent.1, ?_, ?_⟩
    · rw [funcOf_keepHost, sent.2, written]
      simp [maskWritten, hp]
    · rw [funcOf_keepHost, sent.2, written]
      rfl

end Sys2Proof.Proofs
end

section
/-!
PROOFS. O21 (04_host_queues.md R117): the head of a Kettle ring.
-/
namespace Sys2Proof.Proofs
open Sys2Proof.Machine

/-- Settles O21: the write takes effect exactly where the distance to the tail allows it. -/
theorem kettleHeadMovesOnlyToTheTail : Obligations.KettleHeadMovesOnlyToTheTail := by
  unfold Obligations.KettleHeadMovesOnlyToTheTail
  intro fn v r s ht hr
  have exists' := kettleExists_of_tenant ht hr
  refine ⟨fun reached => ?_, fun past => ?_⟩
  · change execKettleHeadWrite fn v s = _
    simp only [execKettleHeadWrite, exists', reached, decide_true, Bool.and_self, if_true]
    rfl
  · change execKettleHeadWrite fn v s = _
    simp only [execKettleHeadWrite, exists', Nat.not_le.mpr past, decide_false, Bool.and_false, Bool.false_eq_true, if_false]

end Sys2Proof.Proofs
end

section
/-!
PROOFS. What finishing a command does on a module with no command mirrored, and what it leaves alone on any module (04_host_queues.md R82, R90, R102;
01_serving_roles.md R12).
-/
namespace Sys2Proof.Proofs
open Sys2Proof.Machine

/-! ### Slots -/

/-- A slot that is changed is found as it was, changed. -/
theorem slotById_modSlot {s : State} {id : Nat} {x : Slot} (h : slotById s id = some x) {f : Slot → Slot} (hf : ∀ y, (f y).id = y.id) :
    slotById (modSlot s id f) id = some (f x) := by
  have same : (fun y : Slot => decide (y.id = id)) ∘ (fun y => if y.id = id then f y else y) = fun y => decide (y.id = id) := by
    funext y
    by_cases hy : y.id = id <;> simp [hy, hf]
  have found : s.host.slots.find? (fun y => decide (y.id = id)) = some x := h
  simp only [slotById, modSlot, setSlots_host, List.find?_map, same, found, Option.map_some, id_of_slotById h, if_true]

/-- A command that starts is found in its slot, with its place in the order of starting and its members noted. -/
theorem slotById_noteMembers {s : State} {id : Nat} {c : Cmd} {x : Slot} (h : slotById s id = some x) :
    ∃ n ms, slotById (noteMembers s id c) id = some { x with order := n, members := ms } := by
  have started : slotById { s with host := { s.host with nextStart := s.host.nextStart + 1 } } id = some x := h
  have ordered : slotById (noteOrder s id) id = some { x with order := s.host.nextStart } :=
    slotById_modSlot (f := fun y => { y with order := s.host.nextStart }) started fun _ => rfl
  exact ⟨_, _, slotById_modSlot ordered fun _ => rfl⟩

/-- A command that takes a slot no other command has is found in it. -/
theorem slotById_takeSlot {s : State} (h : slotById s s.host.nextSlot = none) (c : Cmd) :
    slotById (takeSlot s c).2 s.host.nextSlot = some (acceptedSlot s.host.nextSlot c []) := by
  have others : s.host.slots.find? (fun x => decide (x.id = s.host.nextSlot)) = none := h
  simp only [slotById, takeSlot, List.find?_append, others]
  simp [acceptedSlot]

/-! ### The three forms of the end -/

/-- A command that ends gives up what the module kept for it: its pins, what it had learnt or asked of request owners, its place in WAIT_TAG and its
sampling state (06 R179; 08 R263). -/
def released (s : State) (id : Nat) : State :=
  { releasePins s id with
    req := { (releasePins s id).req with
      known := (releasePins s id).req.known.filter fun k => k.1 ≠ id
      asks := (releasePins s id).req.asks.filter fun a => !decide (a.asker = .forward id) }
    comp := { (releasePins s id).comp with
      waitTags := (releasePins s id).comp.waitTags.filter fun g => g.2.2 ≠ id
      sampling := tdel (releasePins s id).comp.sampling id } }

/-- The completion of the command in a slot (Table 4.8). -/
def completionOf (s : State) (x : Slot) (id status r0 r1 : Nat) : Completion :=
  { slot := id, fn := x.cmd.fn, q := x.cmd.q, cid := cidOf x.cmd, status := status, handle := handleOf x.cmd, result0 := r0, result1 := r1,
    forwarded := false, notify := isNotify x.cmd, injected := x.injected, tenant := cmdTenant s x.cmd }

section
variable {s : State} {id : Nat} {x : Slot} (h : slotById s id = some x) (hp : x.phase ≠ .finished) (hm : s.rel.mirrors = []) (status r0 r1 : Nat)
include hm

theorem shadowed_unmirrored : shadowed s id = false := by simp [shadowed, hm]

theorem mirrorEnd_released (cid : Nat) : mirrorEnd (released s id) id cid status r0 r1 = released s id := by
  simp [mirrorEnd, released, releasePins, hm]

include h hp

/-- The completion falls due after those due before. -/
theorem finish_due (hs : x.cmd.src = none) (hd : x.dead = false) :
    finish s id status r0 r1 = { setPhase (released s id) id .finished with
      host := { (setPhase (released s id) id .finished).host with due := s.host.due ++ [completionOf s x id status r0 r1] } } := by
  simp only [finish, finishWith, h, hp, if_false, shadowed_unmirrored hm, Bool.false_eq_true, hs, hd]
  rw [← released, mirrorEnd_released hm]
  rfl

/-- A queue pair that has left STOPPING, or lost its link, counts it dropped. -/
theorem finish_dropped (hs : x.cmd.src = none) (hd : x.dead = true) :
    finish s id status r0 r1 = countDropped (dropSlot (released s id) id) x.cmd.fn := by
  simp only [finish, finishWith, h, hp, if_false, shadowed_unmirrored hm, Bool.false_eq_true, hs, hd, if_true]
  rw [← released, mirrorEnd_released hm]

/-- The completion of a forwarded command goes to the module that accepted it. -/
theorem finish_forwarded {m k : Nat} (hs : x.cmd.src = some (m, k)) :
    finish s id status r0 r1 = sysSend (dropSlot (released s id) id) m (.completion { x.cmd with src := none } status r0 r1) := by
  simp only [finish, finishWith, h, hp, if_false, shadowed_unmirrored hm, Bool.false_eq_true, hs]
  rw [← released, mirrorEnd_released hm]

end

/-! ### What it leaves alone -/

theorem compareDigest_frame (s : State) (cid mine theirs : Nat) : ∃ ks sg te re,
    compareDigest s cid mine theirs = { s with host := { s.host with kettles := ks, staging := sg }, tele := te, rel := re } := by
  unfold compareDigest
  split
  · dsimp only
    split
    · obtain ⟨ks, sg, te, h⟩ := eventA_eq { s with rel := { s.rel with clean := satAdd 28 s.rel.clean 1, admitted := true } } 21 0xB1 0
      exact ⟨ks, sg, te, _, h⟩
    · exact ⟨s.host.kettles, s.host.staging, s.tele, _, rfl⟩
  · obtain ⟨ks, sg, te, h⟩ := eventA_eq { s with rel := { s.rel with clean := 0 } } 21 0xB0 cid
    exact ⟨ks, sg, te, _, h⟩

/-- The digests of a mirrored command touch messages, counters and rings. -/
theorem mirrorEnd_frame (s : State) (id cid status r0 r1 : Nat) : ∃ ks sg te re rq,
    mirrorEnd s id cid status r0 r1 = { s with host := { s.host with kettles := ks, staging := sg }, tele := te, rel := re, req := rq } := by
  unfold mirrorEnd
  split
  · exact ⟨s.host.kettles, s.host.staging, s.tele, s.rel, s.req, rfl⟩
  next x _ =>
    dsimp only
    split
    · obtain ⟨out, again, h⟩ := sysSend_eq { s with rel := { s.rel with mirrors := tdel s.rel.mirrors id } } x.peer
        (.mirrorDone x.seq (mirrorDigest status r0 r1 x.out) r0)
      exact ⟨s.host.kettles, s.host.staging, s.tele, _, _, h⟩
    next e _ =>
      obtain ⟨ks, sg, te, re, h⟩ := compareDigest_frame { s with rel := { s.rel with mirrors := tdel s.rel.mirrors id } } cid
        (mirrorDigest status r0 r1 x.out) e
      exact ⟨ks, sg, te, re, s.req, h⟩

theorem mirrorEnd_host (s : State) (id cid status r0 r1 : Nat) :
    (mirrorEnd s id cid status r0 r1).host.slots = s.host.slots ∧ (mirrorEnd s id cid status r0 r1).host.queues = s.host.queues := by
  obtain ⟨ks, sg, te, re, rq, h⟩ := mirrorEnd_frame s id cid status r0 r1
  rw [h]
  exact ⟨rfl, rfl⟩

theorem dropSlot_length_le (s : State) (id : Nat) : (dropSlot s id).host.slots.length ≤ s.host.slots.length := List.length_filter_le ..

/-- Finishing a command changes no queue pair and takes no slot. -/
theorem finishWith_host (s : State) (id status r0 r1 : Nat) (fwd : Bool) :
    (finishWith s id status r0 r1 fwd).host.queues = s.host.queues ∧
      (finishWith s id status r0 r1 fwd).host.slots.length ≤ s.host.slots.length := by
  unfold finishWith
  split
  · exact ⟨rfl, le_rfl⟩
  next x _ =>
    by_cases hf : x.phase = .finished
    · simp only [hf, if_true]; exact ⟨rfl, le_rfl⟩
    · simp only [hf, if_false]
      obtain ⟨slots, queues⟩ := mirrorEnd_host (released s id) id (cidOf x.cmd) status r0 r1
      have dropped := (dropSlot_length_le (mirrorEnd (released s id) id (cidOf x.cmd) status r0 r1) id).trans_eq (congrArg List.length slots)
      split
      · exact ⟨queues, dropped⟩
      · split
        · rw [sysSend_host]; exact ⟨queues, dropped⟩
        · split
          · exact ⟨queues, dropped⟩
          · exact ⟨queues, (List.length_map _).trans_le (congrArg List.length slots).le⟩

end Sys2Proof.Proofs
end

section
/-!
PROOFS. O26 (04_host_queues.md R82, R90, R102; 01_serving_roles.md R12): a NOP finishes.
-/
namespace Sys2Proof.Proofs
open Sys2Proof.Machine Sys2Proof.Laws

/-- Settles O26: a NOP that starts finishes its slot at once, in the form that `finish_due`, `finish_dropped` and `finish_forwarded` give. -/
theorem finishingHasThreeForms : Obligations.FinishingHasThreeForms := by
  unfold Obligations.FinishingHasThreeForms
  intro c id s s1 x h hprim hmir hx hphase hcmd
  obtain ⟨n, ms, found⟩ := slotById_noteMembers (c := c) hx
  have runs : exec (.nop c) s = .next (s.keepHost (finish (noteMembers s1 id c) id 0 0 0)) := by
    rw [← begun_unmirrored hprim, ← runCmd_starts h fun _ id s => finish s id 0 0 0]
    rfl
  subst hcmd
  refine ⟨fun hsrc hdead => ?_, fun hsrc hdead => ?_, fun m k hsrc => ?_⟩
  · rw [runs, finish_due found hphase hmir 0 0 0 hsrc hdead]; rfl
  · rw [runs, finish_dropped found hphase hmir 0 0 0 hsrc hdead]; rfl
  · rw [runs, finish_forwarded found hphase hmir 0 0 0 hsrc]; rfl

end Sys2Proof.Proofs
end

section
/-!
PROOFS. O17 (04_host_queues.md R92, R93, R101, R599; 02_module_organisation.md R43): one grant of the fetch arbiter.
-/
namespace Sys2Proof.Proofs
open Sys2Proof.Machine

/-! ### The arbiter -/

/-- A table's keys are those that it has. -/
theorem thas_iff_mem_keys {κ α : Type} [DecidableEq κ] (t : Tab κ α) (k : κ) : thas t k = true ↔ k ∈ t.map (·.1) := by
  induction t with
  | nil => simp [thas]
  | cons e t ih =>
    obtain ⟨a, v⟩ := e
    by_cases h : a = k
    · simp [thas, tget, h]
    · simpa [thas, tget, h, Ne.symm h] using ih

/-- Of two candidates the arbiter keeps the nearer one, the earlier one where they are as near. -/
def nearer {α : Type} (away : α → Nat) (b : Option α) (k : α) : Option α :=
  match b with
  | none => some k
  | some x => if away k < away x then some k else b

/-- The one candidate that is nearer than every other is chosen. -/
theorem foldl_nearer {α : Type} {away : α → Nat} {a : α} : ∀ (l : List α) (b : Option α), (∀ k ∈ l, k ≠ a → away a < away k) →
    (∀ x ∈ b, x ≠ a → away a < away x) → a ∈ l ∨ b = some a → l.foldl (nearer away) b = some a
  | [], b, _, _, h => h.resolve_left List.not_mem_nil
  | k :: l, b, hl, hb, h => by
    have rest : ∀ j ∈ l, j ≠ a → away a < away j := fun j hj => hl j (List.mem_cons_of_mem _ hj)
    refine foldl_nearer l (nearer away b k) rest (fun x hx hxa => ?_) ?_
    · cases b with
      | none => exact hl x (by simp_all [nearer]) hxa
      | some y =>
        simp only [nearer] at hx
        split at hx
        · exact hl x (by simp_all) hxa
        · exact hb x hx hxa
    · by_cases hka : k = a
      · subst hka
        refine .inr ?_
        cases b with
        | none => rfl
        | some y =>
          by_cases hyk : y = k
          · simp [nearer, hyk]
          · simp [nearer, hb y rfl hyk]
      · have far := hl k List.mem_cons_self hka
        rcases h with h | rfl
        · exact .inl ((List.mem_cons.mp h).resolve_left (Ne.symm hka))
        · exact .inr (if_neg (by omega))

/-- How far a queue pair lies from the arbiter's pointer, by requester number (02 R43). -/
def requesterAway (s : State) (k : Nat × Nat) : Nat := (k.1 * 64 + k.2 + 1088 - s.host.fetchPtr) % 1088

theorem fetchGrant_eq (s : State) :
    fetchGrant s = ((s.host.queues.map (·.1)).filter fun k => fetchEligible s k.1 k.2).foldl (nearer (requesterAway s)) none := by
  unfold fetchGrant
  dsimp only
  congr 1
  funext b k
  cases b <;> rfl

/-- The eligible queue pair that is nearest is granted. -/
theorem fetchGrant_nearest {s : State} {a : Nat × Nat} (ha : thas s.host.queues a = true) (he : fetchEligible s a.1 a.2 = true)
    (hn : ∀ k, thas s.host.queues k = true → fetchEligible s k.1 k.2 = true → k ≠ a → requesterAway s a < requesterAway s k) :
    fetchGrant s = some a := by
  rw [fetchGrant_eq]
  refine foldl_nearer _ _ (fun k hk => ?_) (fun _ h => nomatch h) (.inl ?_)
  · obtain ⟨mem, eligible⟩ := List.mem_filter.mp hk
    exact hn k ((thas_iff_mem_keys ..).mpr mem) eligible
  · exact List.mem_filter.mpr ⟨(thas_iff_mem_keys ..).mp ha, he⟩

theorem fetchGrant_none {s : State} (h : ∀ fn q, fetchEligible s fn q = false) : fetchGrant s = none := by
  simp [fetchGrant_eq, h]

/-! ### One entry -/

/-- The entry at the head of the queue. -/
def headEntry (s : State) (fn q : Nat) : Cmd := readEntry s fn q ((queueOf s fn q).sqBase + (queueOf s fn q).sqHead * 64)

/-- The head of the queue moves past its entry. -/
def entryPassed (s : State) (fn q : Nat) : State :=
  setQueue s fn q { queueOf s fn q with sqHead := ((queueOf s fn q).sqHead + 1) % 2 ^ (queueOf s fn q).sqLog }

section
variable {s : State} {fn q : Nat}

theorem fetchOne_readable (hb : s.host.badLines.contains (((queueOf s fn q).sqBase + (queueOf s fn q).sqHead * 64) / 64) = false)
    (hc : fetchChecks (takeSlot (entryPassed s fn q) (headEntry s fn q)).2 (headEntry s fn q) = none) :
    fetchOne s fn q = (takeSlot (entryPassed s fn q) (headEntry s fn q)).2 := by
  simp only [fetchOne, hb, Bool.false_eq_true, if_false]
  change (match fetchChecks (takeSlot (entryPassed s fn q) (headEntry s fn q)).2 (headEntry s fn q) with
    | some e => fail (takeSlot (entryPassed s fn q) (headEntry s fn q)).2 (takeSlot (entryPassed s fn q) (headEntry s fn q)).1 e
    | none => (takeSlot (entryPassed s fn q) (headEntry s fn q)).2) = _
  rw [hc]

theorem fetchOne_unreadable (hb : s.host.badLines.contains (((queueOf s fn q).sqBase + (queueOf s fn q).sqHead * 64) / 64) = true) :
    fetchOne s fn q =
      finish (takeSlot (entryPassed s fn q) (unreadable fn q)).2 s.host.nextSlot Status.hostReadError (queueOf s fn q).sqHead 0 := by
  simp only [fetchOne, hb, if_true]
  rfl

theorem cidOf_unreadable (fn q : Nat) : cidOf (unreadable fn q) = 0xFFFF := by
  change fld (0xFFFF000000000000 : Word) 63 48 = 0xFFFF
  decide

/-- Whatever the entry is, it moves the head and takes at most one slot. -/
theorem fetchOne_moves (s : State) (fn q : Nat) :
    (fetchOne s fn q).host.queues = (entryPassed s fn q).host.queues ∧ (fetchOne s fn q).host.slots.length ≤ s.host.slots.length + 1 := by
  have taken : ∀ c, (takeSlot (entryPassed s fn q) c).2.host.slots.length = s.host.slots.length + 1 := fun c => by
    simp [takeSlot, entryPassed]
  unfold fetchOne
  dsimp only
  split
  · obtain ⟨queues, slots⟩ := finishWith_host (takeSlot (entryPassed s fn q) (unreadable fn q)).2 s.host.nextSlot Status.hostReadError
      (queueOf s fn q).sqHead 0 false
    exact ⟨queues, slots.trans_eq (taken _)⟩
  · split
    next e _ =>
      obtain ⟨queues, slots⟩ := finishWith_host (takeSlot (entryPassed s fn q) (headEntry s fn q)).2 s.host.nextSlot e 0 0 false
      exact ⟨queues, slots.trans_eq (taken _)⟩
    · exact ⟨rfl, (taken _).le⟩

theorem queueOf_fetchOne : queueOf (fetchOne s fn q) fn q =
    { queueOf s fn q with sqHead := ((queueOf s fn q).sqHead + 1) % 2 ^ (queueOf s fn q).sqLog } := by
  rw [queueOf, (fetchOne_moves s fn q).1]
  exact queueOf_setQueue ..

/-! ### A grant -/

/-- A queue whose head has reached its tail has nothing to fetch. -/
theorem fetchEligible_empty (h : (queueOf s fn q).sqHead = (queueOf s fn q).sqTail) : fetchEligible s fn q = false := by
  simp [fetchEligible, h]

/-- Of a queue with one entry a grant fetches that one. -/
theorem fetchMany_single (he : fetchEligible s fn q = true)
    (ht : (queueOf s fn q).sqTail = ((queueOf s fn q).sqHead + 1) % 2 ^ (queueOf s fn q).sqLog) (n : Nat) :
    fetchMany s fn q (n + 2) = fetchOne s fn q := by
  have emptied : fetchEligible (fetchOne s fn q) fn q = false := fetchEligible_empty (by rw [queueOf_fetchOne]; exact ht.symm)
  simp only [fetchMany, he, if_true, emptied, Bool.false_eq_true, if_false]

theorem fetchMany_slots (fn q : Nat) : ∀ (n : Nat) (s : State), (fetchMany s fn q n).host.slots.length ≤ s.host.slots.length + n
  | 0, _ => le_rfl
  | n + 1, s => by
    unfold fetchMany
    split
    · exact (fetchMany_slots fn q n _).trans (by have := (fetchOne_moves s fn q).2; omega)
    · omega

theorem commandFetch_granted (hu : s.host.link.up = true) (hr : isReady s = true) (hs : s.boot.stop = none) (hg : fetchGrant s = some (fn, q)) :
    exec .commandFetch s = .next (s.keepHost { fetchMany s fn q 8 with
      host := { (fetchMany s fn q 8).host with fetchPtr := (fn * 64 + q + 1) % 1088 } }) := by
  change execCommandFetch s = _
  simp only [execCommandFetch, hu, hr, hs, decide_true, Bool.and_self, if_true, hg]
  rfl

end

/-- Without a grant nothing is fetched. -/
theorem commandFetch_idle {s : State} (h : s.host.link.up = false ∨ isReady s = false ∨ fetchGrant s = none) : exec .commandFetch s = .next s := by
  change execCommandFetch s = _
  unfold execCommandFetch
  split
  next go =>
    simp only [Bool.and_eq_true] at go
    obtain ⟨⟨up, ready⟩, -⟩ := go
    have idle : fetchGrant s = none := by simpa [up, ready] using h
    rw [idle]
  next => rfl

/-- No grant takes more than eight slots. -/
theorem commandFetch_slots (s : State) : ∃ t, exec .commandFetch s = .next t ∧ t.host.slots.length ≤ s.host.slots.length + 8 := by
  change ∃ t, execCommandFetch s = .next t ∧ _
  unfold execCommandFetch
  split
  · split
    · exact ⟨s, rfl, by omega⟩
    next fn q _ => exact ⟨_, rfl, fetchMany_slots fn q 8 s⟩
  · exact ⟨s, rfl, by omega⟩

/-- Settles O17: the nearest eligible queue pair is granted, and a grant to a queue with one entry is one `fetchOne`. -/
theorem fetchTakesEntriesIntoSlots : Obligations.FetchTakesEntriesIntoSlots := by
  unfold Obligations.FetchTakesEntriesIntoSlots
  refine ⟨?granted, commandFetch_slots, ?idle⟩
  case granted =>
    intro fn q s hu hr hs hq he hn ht
    have runs := commandFetch_granted hu hr hs (fetchGrant_nearest hq he hn)
    rw [fetchMany_single he ht 6] at runs
    refine ⟨fun readable checked => ?_, fun bad unmirrored free => ?_⟩
    · rw [runs, fetchOne_readable readable (by rw [entryPassed, ← ht]; exact checked), entryPassed, ← ht]
      rfl
    · have found := slotById_takeSlot (s := entryPassed s fn q) free (unreadable fn q)
      refine ⟨_, completionOf (takeSlot (entryPassed s fn q) (unreadable fn q)).2 (acceptedSlot s.host.nextSlot (unreadable fn q) [])
        s.host.nextSlot Status.hostReadError (queueOf s fn q).sqHead 0, runs, ?_, ?_⟩
      · rw [fetchOne_unreadable bad]
        exact congrArg (fun t : State => t.host.due) (finish_due found (by simp [acceptedSlot]) unmirrored _ _ _ rfl rfl)
      · refine ⟨rfl, cidOf_unreadable fn q, rfl, rfl, rfl, ?_⟩
        exact (congrArg QueuePair.sqHead queueOf_fetchOne).trans ht.symm
  case idle =>
    intro s h
    exact commandFetch_idle (h.imp_right (Or.imp_right fetchGrant_none))

end Sys2Proof.Proofs
end

section
/-!
PROOFS. O18 (04_host_queues.md R100, R102, R111, Table 4.8): a completion is written.
-/
namespace Sys2Proof.Proofs
open Sys2Proof.Machine

theorem completionBytes_eq (d : Completion) (sqHead : Nat) (phase : Bool) :
    completionBytes d sqHead phase =
      leBytes 8 (d.cid % 2 ^ 16 * 2 ^ 48 + d.status % 2 ^ 16 * 2 ^ 32 + sqHead % 2 ^ 16 * 2 ^ 16 + (if d.forwarded then 128 else 0) +
        d.q % 64 * 2 + (if phase then 1 else 0)) ++ leBytes 8 d.handle ++ leBytes 8 d.result0 ++ leBytes 8 d.result1 := by
  have flag : b2n d.forwarded * 2 ^ 7 = if d.forwarded then 128 else 0 := by cases d.forwarded <;> rfl
  rw [completionBytes, flag]
  rfl

theorem completionBytes_length (d : Completion) (sqHead : Nat) (phase : Bool) : (completionBytes d sqHead phase).length = 32 := by
  simp [completionBytes]

/-- The queue pair once a completion is written: its tail moves on, and the phase flips where it wraps (R102). -/
def posted (p : QueuePair) (now : Nat) : QueuePair :=
  { p with
    cqTail := (p.cqTail + 1) % 2 ^ p.cqLog, phase := if (p.cqTail + 1) % 2 ^ p.cqLog = 0 then !p.phase else p.phase
    unreadSince := some (p.unreadSince.getD now) }

/-- The state with a completion written and its slot released. -/
def completionPosted (s : State) (fn q : Nat) (d : Completion) : State :=
  setQueue { dropSlot s d.slot with
    hostMem := s.hostMem.writeBytes ((queueOf s fn q).cqBase + (queueOf s fn q).cqTail * 32)
      (completionBytes d (queueOf s fn q).sqHead (queueOf s fn q).phase)
    host := { (dropSlot s d.slot).host with due := s.host.due.filter fun x => x.slot ≠ d.slot } } fn q (posted (queueOf s fn q) s.mono)

/-- The oldest completion is written, and with NOTIFY the queue's vector is signalled (R111). -/
theorem completionPost_first {fn q : Nat} {d : Completion} {rest : List Completion} {s : State} (hd : s.host.due = d :: rest) (hf : d.fn = fn)
    (hq : d.q = q) (hx : ((slotById s d.slot).map (·.cmd.src)) = some none) (hu : s.host.link.up = true) (hi : d.injected = false)
    (hr : ((queueOf s fn q).cqTail + 1) % 2 ^ (queueOf s fn q).cqLog ≠ (queueOf s fn q).cqHead) :
    exec (.completionPost fn q) s =
      .next (s.keep (if d.notify then signal (completionPosted s fn q d) fn (2 + q) else completionPosted s fn q d)) := by
  have first : (s.host.due.find? fun x => x.fn = fn && x.q = q && ((slotById s x.slot).map (·.cmd.src)) = some none) = some d := by
    rw [hd]
    exact List.find?_cons_of_pos (by simp only [hf, hq, hx, decide_true, Bool.and_self])
  change execCompletionPost fn q s = _
  simp only [execCompletionPost, first, hu, hr, hi, decide_false, Bool.not_false, Bool.and_self, if_true, Bool.false_eq_true, if_false]
  rfl

/-- What is written does not hang on the signal. -/
theorem completionPosted_signalled (s : State) (fn q : Nat) (d : Completion) (b : Bool) {t : State}
    (ht : t = if b then signal (completionPosted s fn q d) fn (2 + q) else completionPosted s fn q d) :
    t.hostMem = (completionPosted s fn q d).hostMem ∧ queueOf t fn q = posted (queueOf s fn q) s.mono ∧
      t.host.slots = (dropSlot s d.slot).host.slots ∧ t.host.due = s.host.due.filter fun x => x.slot ≠ d.slot := by
  subst ht
  cases b
  · exact ⟨rfl, queueOf_setQueue .., rfl, rfl⟩
  · exact ⟨signal_hostMem .., (queueOf_signal ..).trans (queueOf_setQueue ..), signal_host_slots .., signal_host_due ..⟩

theorem completionPosted_hostMem (s : State) (fn q : Nat) (d : Completion) : (completionPosted s fn q d).hostMem =
    s.hostMem.writeBytes ((queueOf s fn q).cqBase + (queueOf s fn q).cqTail * 32)
      (completionBytes d (queueOf s fn q).sqHead (queueOf s fn q).phase) := by
  rw [completionPosted, setQueue_hostMem]

theorem completionPosted_funcs (s : State) (fn q : Nat) (d : Completion) : (completionPosted s fn q d).host.funcs = s.host.funcs := rfl

theorem completionPosted_signals (s : State) (fn q : Nat) (d : Completion) : (completionPosted s fn q d).host.signals = s.host.signals := rfl

theorem completionPost_waits {fn q : Nat} {s : State}
    (h : s.host.link.up = false ∨ ((queueOf s fn q).cqTail + 1) % 2 ^ (queueOf s fn q).cqLog = (queueOf s fn q).cqHead) :
    exec (.completionPost fn q) s = .next s := by
  have noRoom : (s.host.link.up && !decide (((queueOf s fn q).cqTail + 1) % 2 ^ (queueOf s fn q).cqLog = (queueOf s fn q).cqHead)) = false := by
    rcases h with h | h <;> simp [h]
  change execCompletionPost fn q s = _
  simp only [execCompletionPost, noRoom, Bool.false_eq_true, if_false]
  split <;> rfl

/-- A slot that is dropped is found no more. -/
theorem slotById_dropSlot (s : State) (id : Nat) : slotById (dropSlot s id) id = none := by
  simp [slotById, dropSlot]

/-- Settles O18: the oldest completion is written (`completionPosted`), and its notice signals the queue's vector. -/
theorem completionsAreWrittenWhenThereIsRoom : Obligations.CompletionsAreWrittenWhenThereIsRoom := by
  unfold Obligations.CompletionsAreWrittenWhenThereIsRoom
  refine ⟨?written, fun fn q s h => completionPost_waits h⟩
  intro fn q d rest s hd hf hq hx hm hu hi
  dsimp only
  intro hr
  have memory : (completionPosted s fn q d).hostMem.canon = (completionPosted s fn q d).hostMem := by
    rw [completionPosted_hostMem]
    exact Memory.canon_of_wf (Memory.writeBytes_wf _ hm _)
  have runs := completionPost_first hd hf hq hx hu hi hr
  obtain ⟨t, ht⟩ : ∃ t, t = if d.notify then signal (completionPosted s fn q d) fn (2 + q) else completionPosted s fn q d := ⟨_, rfl⟩
  obtain ⟨tmem, tqueue, tslots, tdue⟩ := completionPosted_signalled s fn q d d.notify ht
  rw [← ht] at runs
  refine ⟨_, runs, ?_, fun a ha => ?_, ?_, ?_, ?_, ?_, ?_, fun notify masked recent => ?_, fun silent => ?_⟩
  · rw [keep_hostMem, tmem, memory, completionPosted_hostMem, completionBytes_eq]
  · rw [keep_hostMem, tmem, memory, completionPosted_hostMem]
    exact Memory.read_writeBytes_outside _ hm (by rwa [completionBytes_length])
  · rw [queueOf_keep, tqueue, posted]
  · rw [queueOf_keep, tqueue, posted]
  · rw [queueOf_keep, tqueue, posted]
  · rw [slotById, keep_host, tslots]
    exact slotById_dropSlot s d.slot
  · rw [keep_host, tdue, hd]
    simp
  · rw [keep_host, ht, notify]
    have regs : funcOf (completionPosted s fn q d) fn = funcOf s fn := by rw [funcOf, completionPosted_funcs, funcOf]
    rw [if_pos rfl, (signal_unmasked (by rw [regs]; exact recent) (by rw [regs]; exact masked)).1, completionPosted_signals]
  · rw [keep_host, ht, silent, if_neg (by decide), completionPosted_signals]

end Sys2Proof.Proofs
end

section
/-!
PROOFS. O20 (04_host_queues.md R113–R116, R118): words of the Kettle rings.
-/
namespace Sys2Proof.Proofs
open Sys2Proof.Machine

/-! ### The staging buffer -/

/-- Records that are lost are counted on their ring alone. -/
theorem kettleOf_loseRecords (s : State) (g n : Nat) :
    kettleOf (loseRecords s g n) g = { kettleOf s g with lost := satAdd 32 (kettleOf s g).lost n } ∧
      ∀ m, m ≠ g → kettleOf (loseRecords s g n) m = kettleOf s m :=
  ⟨kettleOf_setKettle .., fun _ h => kettleOf_setKettle_ne h ..⟩

section
variable {s : State} (fn : Nat) (w : KettleWord)

/-- A word joins a staging buffer that has room. -/
theorem stageWord_room (h : s.host.staging.length < 64) :
    stageWord s fn w = { s with host := { s.host with staging := s.host.staging ++ [(fn, w)] } } := by
  unfold stageWord
  split
  next empty => rw [empty]; rfl
  next o r full => rw [full] at h ⊢; exact if_pos h

/-- In a full one it takes the place of the oldest, whose ring loses its records. -/
theorem stageWord_full {o : Nat × KettleWord} {r : List (Nat × KettleWord)} (hs : s.host.staging = o :: r) (hr : 63 ≤ r.length) :
    stageWord s fn w = loseRecords { s with host := { s.host with staging := r ++ [(fn, w)] } } o.1 o.2.valid := by
  have full : ¬ (o :: r).length < 64 := by simp only [List.length_cons]; omega
  simp only [stageWord, hs, full, if_false]

theorem stageWord_full_kettles {o : Nat × KettleWord} {r : List (Nat × KettleWord)} (hs : s.host.staging = o :: r) (hr : 63 ≤ r.length) :
    kettleOf (stageWord s fn w) o.1 = { kettleOf s o.1 with lost := satAdd 32 (kettleOf s o.1).lost o.2.valid } ∧
      ∀ m, m ≠ o.1 → kettleOf (stageWord s fn w) m = kettleOf s m := by
  rw [stageWord_full fn w hs hr]
  exact kettleOf_loseRecords { s with host := { s.host with staging := r ++ [(fn, w)] } } o.1 o.2.valid

end

/-! ### The flush -/

/-- The open word of a ring is closed. -/
def wordClosed (s : State) (fn : Nat) : State := setKettle s fn { kettleOf s fn with opened := [] }

theorem kettleOf_wordClosed (s : State) (fn : Nat) : kettleOf (wordClosed s fn) fn = { kettleOf s fn with opened := [] } := kettleOf_setKettle ..

theorem wordClosed_lost (s : State) (fn m : Nat) : (kettleOf (wordClosed s fn) m).lost = (kettleOf s m).lost := by
  by_cases own : m = fn
  · rw [own, kettleOf_wordClosed]
  · rw [wordClosed, kettleOf_setKettle_ne own]

theorem flushRing_eq (s : State) (fn : Nat) : flushRing s fn = stageWord (wordClosed s fn) fn ((kettleOf s fn).flushed (islandTime s 31)) := rfl

theorem kettleFlushTimer_due {s : State} {fn : Nat} (ho : (kettleOf s fn).opened ≠ []) (ht : (kettleOf s fn).openedAt + 20000 ≤ s.mono) :
    exec (.kettleFlushTimer fn) s = .next (s.keepHost (flushRing s fn)) := by
  change execKettleFlushTimer fn s = _
  simp only [execKettleFlushTimer, ne_eq, ho, not_false_eq_true, ht, decide_true, Bool.and_self, if_true]
  rfl

theorem kettleFlushTimer_early {s : State} {fn : Nat} (h : (kettleOf s fn).opened = [] ∨ s.mono < (kettleOf s fn).openedAt + 20000) :
    exec (.kettleFlushTimer fn) s = .next s := by
  have early : (decide ((kettleOf s fn).opened ≠ []) && decide ((kettleOf s fn).openedAt + 20000 ≤ s.mono)) = false := by
    rcases h with h | h
    · simp [h]
    · simp [Nat.not_le.mpr h]
  change execKettleFlushTimer fn s = _
  simp only [execKettleFlushTimer, early, Bool.false_eq_true, if_false]

/-! ### A word is written -/

section
variable {fn : Nat} {a : List (Nat × KettleWord)} (ha : ∀ y ∈ a, y.1 ≠ fn) (w : KettleWord) (r : List (Nat × KettleWord))
include ha

/-- The oldest word of a ring is the first of its own in the buffer. -/
theorem find_staged : (a ++ (fn, w) :: r).find? (fun x => decide (x.1 = fn)) = some (fn, w) := by
  have others : a.find? (fun x => decide (x.1 = fn)) = none := List.find?_eq_none.mpr fun y hy => by simpa using ha y hy
  simp [List.find?_append, others]

theorem unstage_staged : unstage fn (a ++ (fn, w) :: r) = a ++ r := by
  induction a with
  | nil => simp [unstage]
  | cons y a ih =>
    have first : y.1 ≠ fn := ha y List.mem_cons_self
    have rest := ih fun z hz => ha z (List.mem_cons_of_mem _ hz)
    simp [unstage, first, rest]

end

/-- The slots of a word as they are written: one that fails parity has island byte 0xFE in each (R115). -/
def writtenSlots (w : KettleWord) (bad : Bool) : List Word := if bad then w.slots.map poisonWord else w.slots

/-- The ring once a word is written: a full one loses its oldest word first (R116). -/
def ringWritten (k : Kettle) (w : KettleWord) (bad : Bool) : Kettle :=
  { k with
    head := if (k.tail + 2 ^ 32 - k.head) % 2 ^ 32 = 2 ^ k.sizeLog then wrapAdd 32 k.head 1 else k.head
    lost := if (k.tail + 2 ^ 32 - k.head) % 2 ^ 32 = 2 ^ k.sizeLog then satAdd 32 k.lost (tgetD k.counts (k.head % 2 ^ k.sizeLog) 0) else k.lost
    tail := wrapAdd 32 k.tail 1
    counts := tset k.counts (k.tail % 2 ^ k.sizeLog) (if bad then 8 else w.valid)
    poison := if bad then satAdd 32 k.poison 1 else k.poison }

/-- The state with a word of a ring written, and the buffer without it. -/
def wordWritten (s : State) (fn : Nat) (w : KettleWord) (bad : Bool) (left : List (Nat × KettleWord)) : State :=
  setKettle { s with
    hostMem := s.hostMem.writeBytes ((kettleOf s fn).base + (kettleOf s fn).tail % 2 ^ (kettleOf s fn).sizeLog * 64)
      ((writtenSlots w bad).flatMap wordBytes)
    host := { s.host with staging := left } } fn (ringWritten (kettleOf s fn) w bad)

section
variable (s : State) (fn : Nat) (w : KettleWord) (bad : Bool) (left : List (Nat × KettleWord))

theorem wordWritten_hostMem : (wordWritten s fn w bad left).hostMem =
    s.hostMem.writeBytes ((kettleOf s fn).base + (kettleOf s fn).tail % 2 ^ (kettleOf s fn).sizeLog * 64)
      ((writtenSlots w bad).flatMap wordBytes) := rfl

theorem wordWritten_staging : (wordWritten s fn w bad left).host.staging = left := rfl

theorem kettleOf_wordWritten : kettleOf (wordWritten s fn w bad left) fn = ringWritten (kettleOf s fn) w bad := kettleOf_setKettle ..

end

/-- The oldest staged word of a ring that is ON is written, and the vector of a ring that was empty is signalled (R111, R116). -/
theorem kettleWordWrite_eq {fn : Nat} (bad : Bool) {w : KettleWord} {a r : List (Nat × KettleWord)} {s : State} (hs : s.host.staging = a ++ (fn, w) :: r)
    (ha : ∀ y ∈ a, y.1 ≠ fn) (hu : s.host.link.up = true) (hf : (kettleOf s fn).fn.st = .on) :
    exec (.kettleWordWrite fn bad) s = .next (s.keep (
      if ((kettleOf s fn).tail + 2 ^ 32 - (kettleOf s fn).head) % 2 ^ 32 = 0 then signal (wordWritten s fn w bad (a ++ r)) fn 1
      else wordWritten s fn w bad (a ++ r))) := by
  have first : (s.host.staging.find? fun x => decide (x.1 = fn)) = some (fn, w) := by rw [hs]; exact find_staged ha w r
  have left : unstage fn s.host.staging = a ++ r := by rw [hs]; exact unstage_staged ha w r
  change execKettleWordWrite fn bad s = _
  simp only [execKettleWordWrite, first, left, hu, hf, decide_true, Bool.and_self, if_true]
  by_cases full : ((kettleOf s fn).tail + 2 ^ 32 - (kettleOf s fn).head) % 2 ^ 32 = 2 ^ (kettleOf s fn).sizeLog
  · simp only [wordWritten, ringWritten, full, if_true]
    cases bad <;> rfl
  · simp only [wordWritten, ringWritten, full, if_false]
    cases bad <;> rfl

theorem flatMap_wordBytes_length (l : List Word) : (l.flatMap wordBytes).length = 8 * l.length := by
  induction l with
  | nil => rfl
  | cons x l ih => simp [wordBytes, ih]; omega

/-- Eight slots are 64 bytes. -/
theorem writtenSlots_bytes (w : KettleWord) (bad : Bool) (h : w.slots.length = 8) : ((writtenSlots w bad).flatMap wordBytes).length = 64 := by
  have slots : (writtenSlots w bad).length = 8 := by cases bad <;> simp [writtenSlots, h]
  rw [flatMap_wordBytes_length, slots]

/-- Settles O20: the flush stages the padded word (`stageWord`), and the write of a word is `wordWritten`. -/
theorem kettleWordsReachTheRing : Obligations.KettleWordsReachTheRing := by
  unfold Obligations.KettleWordsReachTheRing
  refine ⟨?flush, fun fn s h => kettleFlushTimer_early h, ?written⟩
  case flush =>
    intro fn s ho ht
    refine ⟨_, kettleFlushTimer_due ho ht, fun room => ?_, fun o r hs hr => ?_⟩
    · rw [flushRing_eq, stageWord_room (s := wordClosed s fn) _ _ room]
      exact ⟨kettleOf_wordClosed s fn, rfl⟩
    · obtain ⟨counted, others⟩ := stageWord_full_kettles (s := wordClosed s fn) fn ((kettleOf s fn).flushed (islandTime s 31)) hs hr
      refine ⟨?_, ?_, ?_⟩
      · rw [flushRing_eq, stageWord_full (s := wordClosed s fn) _ _ hs hr]; rfl
      · rw [kettleOf_keepHost, flushRing_eq]
        by_cases own : fn = o.1
        · rw [← own] at counted
          rw [counted, kettleOf_wordClosed]
        · rw [others fn own, kettleOf_wordClosed]
      · rw [kettleOf_keepHost, flushRing_eq, counted, wordClosed_lost]
  case written =>
    intro fn bad w a r s hs ha hu hf hm
    dsimp only
    have memory : (wordWritten s fn w bad (a ++ r)).hostMem.canon = (wordWritten s fn w bad (a ++ r)).hostMem := by
      rw [wordWritten_hostMem]
      exact Memory.canon_of_wf (Memory.writeBytes_wf _ hm _)
    have runs := kettleWordWrite_eq bad hs ha hu hf
    obtain ⟨t, ht⟩ : ∃ t, t = if ((kettleOf s fn).tail + 2 ^ 32 - (kettleOf s fn).head) % 2 ^ 32 = 0 then
      signal (wordWritten s fn w bad (a ++ r)) fn 1 else wordWritten s fn w bad (a ++ r) := ⟨_, rfl⟩
    rw [← ht] at runs
    have ring : kettleOf t fn = ringWritten (kettleOf s fn) w bad := by
      rw [ht, ← kettleOf_wordWritten]
      split
      · rw [kettleOf_signal]
      · rfl
    have staged : t.host.staging = a ++ r := by
      rw [ht]
      split
      · rw [signal_host_staging, wordWritten_staging]
      · rw [wordWritten_staging]
    have placed : t.hostMem = (wordWritten s fn w bad (a ++ r)).hostMem := by
      rw [ht]
      split
      · rw [signal_hostMem]
      · rfl
    refine ⟨_, runs, ?_, staged, ?_, ?_, ?_, ?_, ?_, fun slots x hx => ?_⟩
    · rw [kettleOf_keep, ring]; rfl
    · rw [kettleOf_keep, ring]; rfl
    · rw [kettleOf_keep, ring]; rfl
    · rw [kettleOf_keep, ring]; rfl
    · rw [kettleOf_keep, ring]; exact tget_tset_self ..
    · rw [keep_hostMem, placed, memory, wordWritten_hostMem]; rfl
    · rw [keep_hostMem, placed, memory, wordWritten_hostMem]
      exact Memory.read_writeBytes_outside _ hm (by rwa [writtenSlots_bytes w bad slots])

end Sys2Proof.Proofs
end

section
/-!
PROOFS. O27 (04_host_queues.md R103): JOB_OPEN.
-/
namespace Sys2Proof.Proofs
open Sys2Proof.Machine Sys2Proof.Laws

/-- The lowest free number is one that is free, from its start on. -/
theorem freeNumber_free (lo : Nat) (l : List Nat) : lo ≤ freeNumber lo l ∧ freeNumber lo l ∉ l := by
  unfold freeNumber
  cases h : ((List.range (l.length + 1)).map (· + lo)).find? fun x => !l.contains x with
  | none =>
    have taken : (List.range (l.length + 1)).map (· + lo) ⊆ l := fun x hx => by simpa using List.find?_eq_none.mp h x hx
    have distinct : ((List.range (l.length + 1)).map (· + lo)).Nodup := List.nodup_range.map fun _ _ e => Nat.add_right_cancel e
    have short := (List.subperm_of_subset distinct taken).length_le
    simp at short
  | some x =>
    have mem := List.mem_of_find?_eq_some h
    have free := List.find?_some h
    simp only [List.mem_map, List.mem_range] at mem
    obtain ⟨y, -, rfl⟩ := mem
    exact ⟨Nat.le_add_left .., by simpa using free⟩

/-- A key that a table does not have goes to its end. -/
theorem tset_absent {κ α : Type} [DecidableEq κ] {t : Tab κ α} {k : κ} (h : tget t k = none) (v : α) : tset t k v = t ++ [(k, v)] := by
  induction t with
  | nil => rfl
  | cons e t ih =>
    obtain ⟨a, b⟩ := e
    by_cases hk : a = k
    · simp [tget, hk] at h
    · simp only [tget, hk, if_false] at h
      simp [tset, hk, ih h]

/-- A job whose ID no open job of its tenant has is not open. -/
theorem job_absent {s : State} {t n : Nat} (h : n ∉ jobIds s t) : tget s.host.jobs (t, n) = none := by
  by_contra hn
  have has : thas s.host.jobs (t, n) = true := by simpa [thas, Option.isSome_iff_ne_none] using hn
  obtain ⟨e, he, key⟩ := List.mem_map.mp ((thas_iff_mem_keys ..).mp has)
  refine h (List.mem_map.mpr ⟨e, List.mem_filter.mpr ⟨he, ?_⟩, ?_⟩) <;> simp [key]

theorem jobIds_length (s : State) (t : Nat) : (jobIds s t).length = (s.host.jobs.filter fun e => e.1.1 = t).length := List.length_map _

@[simp] theorem sysSend_image (s : State) (d : Nat) (m : SysMsg) : (sysSend s d m).image = s.image := by
  obtain ⟨out, again, h⟩ := sysSend_eq s d m; rw [h]

/-- A command begins under the same image, mirrored or not (18 R530). -/
theorem begun_image (s : State) (id : Nat) (c : Cmd) : (begun s id c).image = s.image := by
  unfold begun mirrorStart
  split
  · rfl
  · split
    · dsimp only
      rw [sysSend_image]
      rfl
    · rfl

/-- The ID that JOB_OPEN gives. -/
def newJobId (s : State) (t : Nat) : Nat := freeNumber 1 (jobIds s t)

/-- A job that has just been opened. -/
def freshJob : Job := { closing := false, keys := [], handles := [], cancels := [], okCount := 0, waiters := [] }

theorem jobOpen_eq {c : Cmd} {id : Nat} {s s1 : State} {r : TenantRec} (h : Starts 0x01 c s id s1) (hr : tenantRec s1 (cmdTenant s1 c) = some r) :
    exec (.jobOpen c) s = .next (s.keepHost (
      if r.jobLimit ≤ (jobIds (begun s1 id c) (cmdTenant (begun s1 id c) c)).length ||
          65536 ≤ newJobId (begun s1 id c) (cmdTenant (begun s1 id c) c) then
        finish (begun s1 id c) id Status.jobLimit 0 0
      else finish (setJob (begun s1 id c) (cmdTenant (begun s1 id c) c) (newJobId (begun s1 id c) (cmdTenant (begun s1 id c) c)) freshJob) id 0
        (newJobId (begun s1 id c) (cmdTenant (begun s1 id c) c)) 0)) := by
  have image := begun_image s1 id c
  have tenant : cmdTenant (begun s1 id c) c = cmdTenant s1 c := by simp only [cmdTenant, tenantOfFn, image]
  have limit : tenantRec (begun s1 id c) (cmdTenant (begun s1 id c) c) = some r := by
    rw [tenant, ← hr]; simp only [tenantRec, image]
  change quiet s (runJobOpen c s) = _
  rw [runJobOpen, runCmd_starts h, quiet]
  dsimp only
  rw [limit]
  rfl

/-- Settles O27: below the limit there is an unused ID in the range, since fewer than 65,535 are in use. -/
theorem jobOpenGivesAnUnusedId : Obligations.JobOpenGivesAnUnusedId := by
  unfold Obligations.JobOpenGivesAnUnusedId
  intro c id s s1 r h hr hl
  dsimp only
  have runs := jobOpen_eq h hr
  obtain ⟨u, hu⟩ : ∃ u, u = begun s1 id c := ⟨_, rfl⟩
  rw [← hu] at runs ⊢
  have count := jobIds_length u (cmdTenant u c)
  refine ⟨fun full => ?_, fun room => ?_⟩
  · rw [runs, if_pos (by simp [count, full])]
  · obtain ⟨first, unused⟩ := freeNumber_free 1 (jobIds u (cmdTenant u c))
    have last := freeNumber_le 1 (jobIds u (cmdTenant u c))
    have absent := job_absent unused
    have free : ¬ (decide (r.jobLimit ≤ (jobIds u (cmdTenant u c)).length) || decide (65536 ≤ newJobId u (cmdTenant u c))) = true := by
      have unnamed : newJobId u (cmdTenant u c) < 65536 := by rw [newJobId]; omega
      simp only [Bool.or_eq_true, decide_eq_true_eq]
      omega
    rw [if_neg free] at runs
    refine ⟨newJobId u (cmdTenant u c), _, first, ?_, absent, rfl, ?_, runs⟩
    · rw [newJobId]; omega
    · rw [newJobId, tset_absent absent]
      simp

end Sys2Proof.Proofs
end

section
/-!
PROOFS. O25 (04_host_queues.md R96–R98, R104, R107, R599; 18_reliability_and_spares.md R527): the checks of a command that starts.
-/
namespace Sys2Proof.Proofs
open Sys2Proof.Machine Sys2Proof.Laws

/-- The code of the first check of R599 that a command with a defined opcode fails, on a module that is not quarantined. -/
def startCode (s : State) (c : Cmd) : Option Nat :=
  let t := cmdTenant s c
  if inTransition (queueOf s c.fn c.q).fn || inTransition (tenantFn s t) then some 0x0011
  else if 0xB0 ≤ opcodeOf c && opcodeOf c ≤ 0xBF && c.fn ≠ 0 then some 0x0B21
  else if jobOf c ≠ 0 && !thas s.host.jobs (t, jobOf c) then some 0x0B25
  else if jobOf c ≠ 0 && opcodeOf c ≠ 0x02 && (tget s.host.jobs (t, jobOf c)).any (·.closing) then some 0x0B26
  else if isBatch c && !thas s.host.batches (t, batchIdOf c) then some 0x0B27
  else if (if isBatch c then tgetD s.host.batches (t, batchIdOf c) [] else if handleOf c = 0 then [] else [handleOf c]).any
      (fun h => handleTenant h ≠ t) then some 0x0B22
  else none

section
variable {s : State} {c : Cmd}

theorem hostChecks_quarantined (h : s.rel.quarantined = true) : hostChecks s c = some 0x0A04 := by
  simp [hostChecks, entryChecks, h]

theorem memberChecks_own (hs : c.src = none) : memberChecks s c =
    if isBatch c && !thas s.host.batches (cmdTenant s c, batchIdOf c) then some 0x0B27
    else if (membersOf s c).any (fun h => handleTenant h ≠ cmdTenant s c) then some 0x0B22 else none := by
  simp only [memberChecks, hs, Option.isSome_none, Bool.false_eq_true, if_false]

/-- The checks of the accepting module, one after the other. -/
theorem hostChecks_eq (hq : s.rel.quarantined = false) (hs : c.src = none) (hd : opcodeDefined (opcodeOf c) = true) :
    hostChecks s c = startCode s c := by
  simp only [hostChecks, entryChecks, startCode, hq, hs, hd, Option.isSome_none, Bool.not_true, Bool.false_eq_true, if_false]
  by_cases moving : (inTransition (queueOf s c.fn c.q).fn || inTransition (tenantFn s (cmdTenant s c))) = true
  · simp only [moving, if_true]
  by_cases reserved : (decide (0xB0 ≤ opcodeOf c) && decide (opcodeOf c ≤ 0xBF) && decide (c.fn ≠ 0)) = true
  · simp only [moving, reserved, if_true, if_false, Bool.false_eq_true]
  simp only [moving, reserved, if_false, Bool.false_eq_true, memberChecks_own hs, membersOf]
  by_cases hj : jobOf c = 0
  · simp [hj]
  · cases job : tget s.host.jobs (cmdTenant s c, jobOf c) with
    | none => simp [hj, thas, job]
    | some j => by_cases closing : j.closing = true <;> by_cases close : opcodeOf c = 2 <;> simp [hj, thas, job, closing, close]

end

/-- The row of an opcode that some chapter defines runs its commands in the frame of host commands. -/
structure RunsChecked (op : Nat) (i : Cmd → Instr) : Prop where
  defined : opcodeDefined op = true
  framed : ∀ c s, ∃ body, exec (i c) s = bif writesHost (i c) then ordinary s (runCmd op c s body) else quiet s (runCmd op c s body)

theorem claim_hostMem {s s1 : State} {c : Cmd} {id : Nat} (h : claim s c = some (id, s1)) : s1.hostMem = s.hostMem := by
  unfold claim at h
  split at h
  · cases h
  · split at h
    · split at h
      · cases h; rfl
      · cases h
    · split at h
      · cases h; rfl
      · cases h

/-- A row that writes nothing to host memory may as well have been allowed to. -/
theorem keep_eq_keepHost {s t : State} (h : t.hostMem.canon = s.hostMem) : s.keep t = s.keepHost t := by
  rw [State.keepHost, ← h]; rfl

/-- A command that fails a check ends with its code, and with no other effect. -/
theorem RunsChecked.refused {op : Nat} {i : Cmd → Instr} (hi : RunsChecked op i) {c : Cmd} {id e : Nat} {s s1 : State} (ho : opcodeOf c = op)
    (hc : claim s c = some (id, s1)) (hm : s.hostMem.wf = true) (he : hostChecks s1 c = some e) :
    exec (i c) s = .next (s.keepHost (finish s1 id e 0 0)) := by
  obtain ⟨body, runs⟩ := hi.framed c s
  have ended : runCmd op c s body = finish s1 id e 0 0 := runCmd_checked ho hc he body
  have memory : (finish s1 id e 0 0).hostMem.canon = s.hostMem := by
    rw [finish, finishWith_hostMem, claim_hostMem hc]
    exact Memory.canon_of_wf hm
  rw [runs, ended]
  cases writesHost (i c)
  · rfl
  · exact congrArg Host.Outcome.next (keep_eq_keepHost memory)

/-- Settles O25: each row runs its commands in the one frame (`RunsChecked`), which makes the checks of R599 in order. -/
theorem commandsAreCheckedAsTheyStart : Obligations.CommandsAreCheckedAsTheyStart := by
  unfold Obligations.CommandsAreCheckedAsTheyStart
  intro rows code
  have framed : ∀ r ∈ rows, RunsChecked r.1 r.2 := by
    simp only [rows, List.forall_mem_cons, List.not_mem_nil, false_implies, implies_true, and_true]
    repeat' apply And.intro
    all_goals exact ⟨rfl, fun c s => ⟨_, rfl⟩⟩
  refine ⟨fun r hr c id e s s1 ho hs hc hm => ⟨fun hq he => ?_, fun hq => ?_⟩, fun c id s s1 h => ?_⟩
  · have checked : hostChecks s1 c = some e := (hostChecks_eq hq hs (ho ▸ (framed r hr).defined)).trans he
    exact (framed r hr).refused ho hc hm checked
  · exact (framed r hr).refused ho hc hm (hostChecks_quarantined hq)
  · rw [← runCmd_starts h fun _ id s => finish s id 0 0 0]
    rfl

end Sys2Proof.Proofs
end

section
/-!
PROOFS. O14, O24 and O28 fail: states that no hypothesis of theirs excludes (03_configuration_image_and_startup.md R61; 04_host_queues.md R86, R92,
R105, R115, R118).
-/
namespace Sys2Proof.Proofs
open Sys2Proof.Machine

/-! ### An image that binds one tenant to two functions -/

/-- The TENANT record that binds tenant 1 to a function. -/
def boundTo (fn : Nat) : TenantRec :=
  { tenant := 1, queuePairs := 1, function := fn, priority := 0, jobLimit := 1, camBanks := 0, grammarSlots := 0, counterRead := false, endpointBase := 256,
    endpointCount := 0 }

/-- Tenant 1 stands in two records: its own is that of function 2, and function 1 names it too. -/
def twiceBound : State :=
  { State.reset with boot := { Boot.reset with state := .ready }, image := { Image.none with tenantCount := 1, tenants := [boundTo 2, boundTo 1] } }

/-! ### O14 -/

/-- A ring that is ON with seven records in its open word. -/
def almostClosed : Kettle := { Kettle.reset with fn := { st := .on, latch := false }, base := 0x4000, sizeLog := 6, opened := List.replicate 7 0 }

/-- A closed word of a ring, with eight records. -/
def fullWord : KettleWord := { slots := List.replicate 8 0, valid := 8 }

/-- The rings of functions 0 and 2 are about to close a word, and 63 words are staged, of which the oldest is one of function 1's ring, which is OFF. -/
def almostStaged : State :=
  { twiceBound with
    host := { HostIf.reset with
      tenants := [(1, { st := .on, latch := false })]
      kettles := [(0, almostClosed), (2, almostClosed), (1, { Kettle.reset with base := 0x8000, sizeLog := 6 })]
      staging := List.replicate 63 (1, fullWord) } }

/-- The record of the ring's own STARTING closes a word of two other rings: the second finds the buffer full, and eight records of the ring are lost. -/
theorem lost_enableFn_almostStaged : (kettleOf (enableFn almostStaged (.kettle 1)) 1).lost = 8 := by decide

/-- Refutes O14: its clause on KETTLE_CTL says that a ring that starts with fewer than 64 words staged has lost one record at most. The record of
its STARTING goes to the ring of function 0 and to that of its tenant's record (20 R560), and no hypothesis says that this is the ring's own function, as
an image that start-up accepts would have it (03 R61). In `almostStaged` it closes two words, and the second takes the place of one of this ring's. -/
theorem not_enablesOfTenantsQueuesAndRings : ¬ Obligations.EnablesOfTenantsQueuesAndRings := by
  unfold Obligations.EnablesOfTenantsQueuesAndRings
  intro h
  obtain ⟨-, -, -, -, -, -, kettleEnable, -⟩ := h
  obtain ⟨-, -, -, accepted⟩ := kettleEnable 1 (boundTo 1) almostStaged rfl rfl
  obtain ⟨t, ht, -, -, starts⟩ := accepted (.inl rfl) rfl (by decide)
  obtain ⟨-, -, -, bound⟩ := starts rfl
  have runs : exec (.kettleEnable 1) almostStaged = .next (almostStaged.keepHost (enableFn almostStaged (.kettle 1))) := rfl
  have shown : t = almostStaged.keepHost (enableFn almostStaged (.kettle 1)) := by
    rw [runs, Host.Outcome.next.injEq] at ht
    exact ht.symm
  have lost : (kettleOf t 1).lost = 8 := by rw [shown, ← lost_enableFn_almostStaged]; rfl
  have few : (kettleOf t 1).lost ≤ 1 := bound (by decide)
  omega

/-! ### O24 -/

/-- A queue pair of function 2 is ON, and tenant 1 is OFF. -/
def queueOfTwo : State :=
  { twiceBound with host := { HostIf.reset with queues := [((2, 0), { QueuePair.reset with fn := { st := .on, latch := false } })] } }

/-- Refutes O24: its clause on a function-level reset of a function whose tenant is OFF says that the queue pairs of other functions stay. The reset ends
what the tenant does on the function of its record (04 R86), and no hypothesis says that this is the function reset, as an image that start-up accepts
would have it (03 R61). In `queueOfTwo` a reset of function 1 stops the queue pair of function 2. -/
theorem not_resetsBelowTheModule : ¬ Obligations.ResetsBelowTheModule := by
  unfold Obligations.ResetsBelowTheModule
  intro h
  obtain ⟨-, -, -, -, flrOff, -⟩ := h
  have off : ∀ r, tenantOfFn queueOfTwo 1 = some r → (fnState queueOfTwo (.tenant r.tenant)).st = .off := by
    intro r hr
    cases hr
    rfl
  obtain ⟨t, ht, -, -, -, -, -, stay, -⟩ := flrOff 1 queueOfTwo rfl rfl (by decide) off
  have stops : (queueOf (resetFunction (freeTenant (endTenantWork queueOfTwo 1) 1) 1) 2 0).fn.st = .stopping := by decide
  have runs : exec (.functionLevelReset 1) queueOfTwo =
    .next (queueOfTwo.keepHost (resetFunction (freeTenant (endTenantWork queueOfTwo 1) 1) 1)) := rfl
  have shown : t = queueOfTwo.keepHost (resetFunction (freeTenant (endTenantWork queueOfTwo 1) 1) 1) := by
    rw [runs, Host.Outcome.next.injEq] at ht
    exact ht.symm
  have same : queueOf t 2 0 = queueOf queueOfTwo 2 0 := stay (2, 0) (by decide)
  rw [shown] at same
  have stopped := (congrArg (fun p => p.fn.st) same).symm.trans stops
  exact absurd stopped (by decide)

/-! ### O28 -/

/-- A command of queue pair 0 of function 1, in job 1. -/
def inJob (op : Nat) : Cmd :=
  { fn := 1, q := 0, src := none, w0 := BitVec.ofNat 64 (2 ^ 32 + op), w1 := 0, w2 := 0, w3 := 0, w4 := 0, w5 := 0, w6 := 0, w7 := 0 }

/-- Slot 5 with such a command. -/
def slotFive (op : Nat) (p : Phase) : Slot :=
  { id := 5, order := 0, arrived := 0, members := [], phase := p, sentAt := 0, sentTo := none, askedAt := 0, aux := 0, injected := false, dead := false
    cmd := inJob op }

/-- Two slots have the number 5: in one a JOB_CLOSE has been fetched, in the other an ADMIT of the same job has finished. -/
def twoOfFive : State :=
  { State.reset with
    boot := { Boot.reset with state := .ready }
    image := { Image.none with tenantCount := 1, tenants := [boundTo 1] }
    host := { HostIf.reset with
      tenants := [(1, { st := .on, latch := false })]
      queues := [((1, 0), { QueuePair.reset with fn := { st := .on, latch := false } })]
      jobs := [((1, 1), freshJob)]
      slots := [slotFive 0x02 .fetched, slotFive 0x10 .finished]
      nextSlot := 6 } }

/-- The JOB_CLOSE waits for the ADMIT of the other slot, which its own wait has put in hand again: no completion falls due. -/
theorem due_jobClose_twoOfFive : (runJobClose (inJob 0x02) twoOfFive).host.due = [] := by decide

theorem starts_twoOfFive : Starts 0x02 (inJob 0x02) twoOfFive 5 twoOfFive := ⟨by decide, rfl, by decide⟩

/-- Refutes O28: its clause on JOB_CLOSE of a job with no request and no ADMIT in hand says that the command completes at once. No hypothesis says that slot
numbers are distinct, as a fetch gives them (04 R92): in `twoOfFive` the JOB_CLOSE, as it begins to wait, puts into hand an ADMIT that had finished,
and so waits for it. -/
theorem not_jobsCloseAndBatchesRegister : ¬ Obligations.JobsCloseAndBatchesRegister := by
  unfold Obligations.JobsCloseAndBatchesRegister
  intro h
  obtain ⟨jobClose, -⟩ := h
  obtain ⟨-, empties, -⟩ := jobClose (inJob 0x02) 5 twoOfFive twoOfFive starts_twoOfFive
  have completes := empties freshJob (by decide) rfl rfl (by decide) (by decide)
  have runs : exec (.jobClose (inJob 0x02)) twoOfFive = .next (twoOfFive.keepHost (runJobClose (inJob 0x02) twoOfFive)) := rfl
  rw [runs, Host.Outcome.next.injEq] at completes
  have due := congrArg (fun t => t.host.due.length) completes
  have none_due := congrArg List.length due_jobClose_twoOfFive
  exact absurd (due.symm.trans none_due) (by decide)

end Sys2Proof.Proofs
end

section
/-!
PROOFS. What the moves of request state share: a step issued for no working copy, and several messages in a row (05_request_state_and_ownership.md
R129; 15_message_transport.md R457).
-/
namespace Sys2Proof.Proofs
open Sys2Proof.Machine Sys2Proof.Laws

/-! ### A command that changes nothing -/

theorem keepHost_self (s : State) : s.keepHost s = s := rfl

theorem quiet_self (s : State) : quiet s s = .next s := rfl

@[simp] theorem sysSend_ledger (s : State) (d : Nat) (m : SysMsg) : (sysSend s d m).req.ledger = s.req.ledger := by
  obtain ⟨out, again, h⟩ := sysSend_eq s d m
  rw [h]

/-! ### A step that is issued for no working copy (05 R129) -/

/-- The outstanding step that is kept of it. -/
def issuedAlone (s : State) (x : LStep) (why : Why) : Issued :=
  { step := { x with digest := digestOf x }, before := none, head := headOf s x.handle, sentAt := s.mono, why := why, after := none }

/-- Issuing a step touches the outstanding steps and the messages, and nothing else. -/
theorem issue_eq (s : State) (x : LStep) (why : Why) :
    ∃ out again, issue s x why = { s with req := { s.req with issued := s.req.issued ++ [issuedAlone s x why], outbox := out, retry := again } } := by
  obtain ⟨out, again, h⟩ := sysSend_eq { s with req := { s.req with issued := s.req.issued ++ [issuedAlone s x why] } } (headOf s x.handle)
    (.step 1 (issuedAlone s x why).step)
  exact ⟨out, again, h⟩

section
variable (s : State) (x : LStep) (why : Why)

@[simp] theorem issue_issued : (issue s x why).req.issued = s.req.issued ++ [issuedAlone s x why] := by obtain ⟨out, again, h⟩ := issue_eq s x why; rw [h]
@[simp] theorem issue_owned : (issue s x why).req.owned = s.req.owned := by obtain ⟨out, again, h⟩ := issue_eq s x why; rw [h]
@[simp] theorem issue_admits : (issue s x why).req.admits = s.req.admits := by obtain ⟨out, again, h⟩ := issue_eq s x why; rw [h]
@[simp] theorem issue_recving : (issue s x why).req.recving = s.req.recving := by obtain ⟨out, again, h⟩ := issue_eq s x why; rw [h]
@[simp] theorem issue_recovering : (issue s x why).req.recovering = s.req.recovering := by obtain ⟨out, again, h⟩ := issue_eq s x why; rw [h]

end

/-! ### Several messages in a row -/

/-- Messages, sent in order. -/
def sendEach (s : State) (l : List (Nat × SysMsg)) : State := l.foldl (fun t m => sysSend t m.1 m.2) s

/-- Sending many touches what sending one does. -/
theorem sendEach_eq (l : List (Nat × SysMsg)) : ∀ s : State,
    ∃ out again, sendEach s l = { s with req := { s.req with outbox := out, retry := again } } := by
  induction l with
  | nil => exact fun s => ⟨s.req.outbox, s.req.retry, rfl⟩
  | cons m l ih =>
    intro s
    obtain ⟨out, again, h⟩ := sysSend_eq s m.1 m.2
    obtain ⟨out', again', h'⟩ := ih (sysSend s m.1 m.2)
    exact ⟨out', again', h'.trans (by rw [h])⟩

/-- With a fabric ID, time and no quarantine they all leave (15 R457). -/
theorem sendEach_canSend (l : List (Nat × SysMsg)) : ∀ {s : State}, canSend s = true →
    sendEach s l = { s with req := { s.req with outbox := s.req.outbox ++ l } } := by
  induction l with
  | nil => intro s _; simp [sendEach]
  | cons m l ih =>
    intro s h
    have first := sysSend_canSend h m.1 m.2
    have rest := ih (s := sysSend s m.1 m.2) (by rw [canSend_sysSend, h])
    refine rest.trans ?_
    rw [first]
    simp

theorem sendNotice_eq (n : Notice) (l : List Nat) : ∀ s : State, sendNotice s n l = sendEach s (l.map fun m => (m, .notice n)) := by
  induction l with
  | nil => exact fun _ => rfl
  | cons m l ih => exact fun s => ih (sysSend s m (.notice n))

theorem sendFlush_eq (h : Nat) (l : List Nat) : ∀ s : State, sendFlush s h l = sendEach s (l.map fun m => (m, .flush h (selfId s))) := by
  induction l with
  | nil => exact fun _ => rfl
  | cons m l ih => exact fun s => (ih (sysSend s m (.flush h (selfId s)))).trans (by rw [selfId_sysSend]; rfl)

theorem sendReplicas_eq (h : Nat) (p : PageData) (l : List Nat) :
    ∀ s : State, sendReplicas s h p l = sendEach s (l.map fun m => (m, .replica h (selfId s) p)) := by
  induction l with
  | nil => exact fun _ => rfl
  | cons m l ih => exact fun s => (ih (sysSend s m (.replica h (selfId s) p))).trans (by rw [selfId_sysSend]; rfl)

end Sys2Proof.Proofs
end

section
/-!
PROOFS. O31 (05_request_state_and_ownership.md R121, R157, Tables 5.1, 5.2): ADMIT.
-/
namespace Sys2Proof.Proofs
open Sys2Proof.Machine Sys2Proof.Laws

/-- The tokens of the prompt that ADMIT names. -/
def promptOf (s : State) (c : Cmd) : List Nat := (List.range (fld c.w3 63 32)).map fun i => s.hostMem.readNat (c.w4.toNat + 4 * i) 4

/-- The handle that ADMIT gives (Table 5.1). -/
def admitHandle (s : State) (c : Cmd) : Nat := newHandle s (cmdTenant s c) (tgetD s.req.admits (cmdTenant s c) 0)

/-- The record that CREATE installs for ADMIT. -/
def admitRecord (s : State) (c : Cmd) : ReqRec :=
  createRecord s c (admitHandle s c) (admitOwner s c) (admitSampler (if c.w7 = 0 then defaultSampler else s.hostMem.readWords c.w7.toNat 8))

/-- The CREATE that ADMIT issues, before its digest. -/
def admitStep (s : State) (c : Cmd) : LStep :=
  { stepOf s (admitRecord s c) 0 with epoch := 0, step := 1, payload := .create (admitRecord s c) (promptOf s c) }

/-- The checks of ADMIT, one after the other (R157). -/
theorem admitRefusal_eq (s : State) (c : Cmd) : admitRefusal s c =
    let p := fld c.w3 63 32
    let l := fld c.w3 31 0
    let role := roleOf s (admitOwner s c)
    if p = 0 ∨ 1048576 < p ∨ 1048576 < p + l then some 0x0110
    else if s.fab.epoch = 0 ∧ s.image.role.cachePool = false then some 0x0113
    else if role ≠ some 0 ∧ role ≠ some 2 ∧ role ≠ some 3 then some 0x010A
    else if poolNow s = [] then some 0x0113
    else if fld c.w6 27 26 = 3 then some 0x0114
    else if c.w4.toNat % 4 ≠ 0 ∨ c.w7.toNat % 64 ≠ 0 then some 0x0304
    else if modelOf s (cmdTenant s c) (fld c.w2 63 48) = none then some 0x020F
    else if hostBad s c.w4.toNat (4 * p) = true ∨ (c.w7 ≠ 0 ∧ hostBad s c.w7.toNat 64 = true) then some 0x0B2D
    else if ∃ x ∈ promptOf s c, 2 ^ 20 ≤ x then some 0x0110
    else none := by
  simp [admitRefusal, promptOf, or_assoc, and_assoc]

/-- The CREATE that ADMIT keeps as outstanding: with its digest, sent to the head of the new handle. -/
def admitIssued (s : State) (id : Nat) (c : Cmd) : Issued := issuedAlone s (admitStep s c) (.admitting id)

/-- ADMIT issues CREATE under the next count of its tenant, and waits for it. -/
theorem admitBody_shows (s : State) (id : Nat) (c : Cmd) :
    let t := admitBody s id c
    t.req.issued = s.req.issued ++ [admitIssued s id c] ∧
      tgetD t.req.admits (cmdTenant s c) 0 = (tgetD s.req.admits (cmdTenant s c) 0 + 1) % 2 ^ 30 ∧ t.req.owned = s.req.owned ∧
      t.host.due = s.host.due := by
  have body : admitBody s id c = await (issue (takeCount s (cmdTenant s c)).2 (admitStep s c) (.admitting id)) id .ledger := rfl
  simp only [body, await, setPhase_req, setPhase_due, issue_issued, issue_admits, issue_owned, issue_host]
  exact ⟨rfl, tgetD_tset_self .., rfl, rfl⟩

theorem admitRequest_refused {c : Cmd} {id e : Nat} {s s1 : State} (h : Starts 0x10 c s id s1) (he : admitRefusal (begun s1 id c) c = some e) :
    exec (.admitRequest c) s = .next (s.keepHost (finish (begun s1 id c) id e 0 0)) := by
  change quiet s (runAdmitRequest c s) = _
  rw [runAdmitRequest, runCmd_starts h]
  simp only [he]
  rfl

theorem admitRequest_accepted {c : Cmd} {id : Nat} {s s1 : State} (h : Starts 0x10 c s id s1) (he : admitRefusal (begun s1 id c) c = none) :
    exec (.admitRequest c) s = .next (s.keepHost (admitBody (begun s1 id c) id c)) := by
  change quiet s (runAdmitRequest c s) = _
  rw [runAdmitRequest, runCmd_starts h]
  simp only [he]
  rfl

/-- Settles O31: the first check that fails decides (`admitRefusal_eq`), and a command that passes them all issues `admitStep`. -/
theorem admitCreatesARequest : Obligations.AdmitCreatesARequest := by
  unfold Obligations.AdmitCreatesARequest
  intro c id s s1 h u p l owner role tokens refusal
  have checks : admitRefusal u c = refusal := admitRefusal_eq u c
  refine ⟨fun e he => admitRequest_refused h (checks.trans he), fun he => ?_⟩
  obtain ⟨issued, count, owned, due⟩ := admitBody_shows u id c
  exact ⟨_, admitIssued u id c, admitRecord u c, admitRequest_accepted h (checks.trans he), issued, rfl, rfl, rfl, rfl, rfl, rfl, rfl, rfl, rfl, rfl, rfl,
    rfl, rfl, rfl, rfl, rfl, rfl, rfl, count, owned, due⟩

end Sys2Proof.Proofs
end

section
/-!
PROOFS. O32 (05_request_state_and_ownership.md R153, R156, R158, Table 5.12; 08_attention.md R252): PREFILL_CHUNK on the owner.
-/
namespace Sys2Proof.Proofs
open Sys2Proof.Machine Sys2Proof.Laws

/-! ### Why a chunk is refused -/

section
variable {s : State} {c : Cmd} {o : Owned}

theorem chunkRefusal_phase (h : o.record.phase ∉ [0, 1, 2, 4, 5] ∨ (o.record.phase ∈ [2, 4, 5] ∧ o.record.logged ≤ o.record.firstMissing)) :
    chunkRefusal s c o = some Status.phaseInvalid := by
  simp only [List.mem_cons, List.not_mem_nil, or_false] at h
  unfold chunkRefusal
  refine if_pos ?_
  simp only [Bool.not_eq_true', Bool.or_eq_false_iff, Bool.and_eq_false_iff, decide_eq_false_iff_not]
  omega

theorem chunkRefusal_range (hp : o.record.phase ∈ [0, 1]) (h : chunkRange o (fld c.w2 63 32) (fld c.w2 31 0) = false ∨
      flag c.w3 0 ≠ decide (fld c.w2 63 32 + fld c.w2 31 0 = o.record.promptTokens)) :
    chunkRefusal s c o = some Status.pageRange := by
  have begins : o.record.phase = 0 ∨ o.record.phase = 1 := by simpa using hp
  rcases begins with hp | hp <;> rcases h with h | h <;> simp [chunkRefusal, hp, h]

theorem chunkRefusal_none {m : ModelDef} (hp : o.record.phase = 1) (hr : chunkRange o (fld c.w2 63 32) (fld c.w2 31 0) = true)
    (hl : flag c.w3 0 = decide (fld c.w2 63 32 + fld c.w2 31 0 = o.record.promptTokens))
    (hm : modelOf s (handleTenant o.record.handle) o.record.model = some m) : chunkRefusal s c o = none := by
  simp [chunkRefusal, hp, hr, hl, hm]

end

/-! ### The command -/

/-- A chunk that starts on the owner is refused, or its stage is noted and its pages are looked at. -/
theorem prefillChunk_here {c : Cmd} {id : Nat} {s s1 : State} {o : Owned} {m : ModelDef} (h : OneHere 0x11 c s id s1)
    (ho : ownedOf (here s1 id c) (handleOf c) = some o) (hm : modelOf (here s1 id c) (handleTenant o.record.handle) o.record.model = some m)
    (h0 : stageOf (here s1 id c) id = 0) (hf : finalPhase o.record.phase = false) :
    let u := here s1 id c
    (∀ e, chunkRefusal u c o = some e → exec (.prefillChunk c []) s = .next (s.keepHost (finish u id e 0 0))) ∧
    (o.record.phase = 1 → chunkRefusal u c o = none →
      exec (.prefillChunk c []) s = .next (s.keepHost (chunkPages (setStage u id 1) id c m []))) := by
  have run : exec (.prefillChunk c []) s = quiet s (runPrefillChunk c [] s) := rfl
  refine ⟨fun e he => ?_, fun hp he => ?_⟩
  · rw [run, runPrefillChunk, runCmd_here h.1, withOwned_owned h.2 ho hf]
    simp [hm, h0, he, quiet, fail]
  · rw [run, runPrefillChunk, runCmd_here h.1, withOwned_owned h.2 ho hf]
    simp [hm, h0, he, hp, quiet]

/-- The working copy of a request once a chunk of it is whole (R153, R158). -/
def chunkNoted (o : Owned) (c : Cmd) (layers : Nat) : Owned :=
  sealPages { o with lastDone := o.lastDone || flag c.w3 0, record := { o.record with placed := placedTokens o layers } }

/-- Where nothing is missing, a whole chunk needs no RECORD step: it completes with PLACED_TOKENS. -/
theorem chunkDone_nothingMissing {s : State} {id : Nat} {c : Cmd} {o : Owned} (ho : ownedOf s (handleOf c) = some o)
    (hm : o.record.firstMissing = 0xFFFFFFFF) (layers : Nat) :
    chunkDone s id c layers =
      finish (tryPrefilled (setOwned s (handleOf c) (chunkNoted o c layers)) (handleOf c)) id Status.ok (placedTokens o layers) 0 := by
  have missing : (sealPages { o with lastDone := o.lastDone || flag c.w3 0, record := { o.record with placed := placedTokens o layers } }).record.firstMissing
      = 0xFFFFFFFF := hm
  simp only [chunkDone, ho, missing, decide_true, Bool.or_true, if_true]
  rfl

/-- With no pages delivered, a chunk whose own steps have committed completes or waits for pages. -/
theorem chunkPages_nil {s : State} {id : Nat} {c : Cmd} {o : Owned} {m : ModelDef} (ho : ownedOf s (handleOf c) = some o)
    (hs : stepsPending s id = false) :
    chunkPages s id c m [] = if chunkCovered o m.layers (fld c.w2 63 32) (fld c.w2 63 32 + fld c.w2 31 0) = true then chunkDone s id c m.layers
      else setPhase s id (.waiting .fabric) := by
  simp [chunkPages, placeKv, ho, hs, await]

/-- Settles O32: the checks are those of `chunkRefusal`; a chunk that passes them is looked at once (`chunkPages_nil`). -/
theorem prefillChunksCompleteWhenWhole : Obligations.PrefillChunksCompleteWhenWhole := by
  unfold Obligations.PrefillChunksCompleteWhenWhole
  intro c id s s1 o m h u start count last ho hm h0 hf
  obtain ⟨refused, accepted⟩ := prefillChunk_here h ho hm h0 hf
  refine ⟨fun hp => refused _ (chunkRefusal_phase hp), fun hp bad => refused _ (chunkRefusal_range hp bad), ?_⟩
  intro hp hr hl missing _ idle o1
  have copy : ownedOf (setStage u id 1) (handleOf c) = some o := ho
  have run := accepted hp (chunkRefusal_none hp hr hl hm)
  rw [chunkPages_nil copy idle] at run
  refine ⟨fun whole => ?_, fun part => ?_⟩
  · rw [run, if_pos whole, chunkDone_nothingMissing copy missing]
    rfl
  · rw [run, if_neg (Bool.eq_false_iff.mp part)]

end Sys2Proof.Proofs
end

section
/-!
PROOFS. O35 (05_request_state_and_ownership.md R129, R132, R133, R136, R137, Table 5.4): a step at a copy of a ledger entry.
-/
namespace Sys2Proof.Proofs
open Sys2Proof.Machine Sys2Proof.Laws

/-! ### Membership epochs by their low 32 bits (R132) -/

/-- How far an epoch lies ahead of another, by the low 32 bits of both. -/
def epochAhead (a b : Nat) : Nat := (a % 2 ^ 32 + 2 ^ 32 - b % 2 ^ 32) % 2 ^ 32

theorem epochNewer_iff {a b : Nat} : epochNewer a b = true ↔ 0 < epochAhead a b ∧ epochAhead a b < 2 ^ 31 := by
  simp only [epochNewer, epochAhead, Bool.and_eq_true, Bool.not_eq_true', decide_eq_false_iff_not, decide_eq_true_eq, Nat.pos_iff_ne_zero]

theorem epochNewer_asymm {a b : Nat} (h : epochNewer a b = true) : epochNewer b a = false := by
  rw [epochNewer_iff, epochAhead] at h
  rw [Bool.eq_false_iff, ne_eq, epochNewer_iff, epochAhead]
  omega

/-- An epoch and its low 32 bits are the same. -/
theorem epochNewer_low (e : Nat) : epochNewer e (e % 2 ^ 32) = false ∧ epochNewer (e % 2 ^ 32) e = false := by
  simp only [Bool.eq_false_iff, ne_eq, epochNewer_iff, epochAhead]
  omega

/-! ### A step that arrives (R131, R132) -/

section
variable {s : State} {copy : Nat} {x : LStep} {v : LEntry}

theorem ledgerStepArrival_eq (h : ∀ d, (d, SysMsg.step copy x) ∉ s.req.outbox) :
    exec (.ledgerStepArrival copy x) s = .next (s.keepHost (takeStep s copy x)) := by
  change quiet s (takeStep (sysTaken s (.step copy x)) copy x) = _
  rw [sysTaken_of_notMem (h _)]
  rfl

theorem takeStep_newer (h : epochNewer x.membership s.fab.epoch = true) : takeStep s copy x = holdMsg s (.step copy x) := by
  simp [takeStep, h]

theorem takeStep_older (h : epochNewer s.fab.epoch x.membership = true) (hm : isMember s x.issuer = true)
    (hv : tget s.req.ledger (x.handle, copy) = some v) :
    takeStep s copy x = sysSend s x.issuer (.notice (noticeOf s v.record Status.ledgerMoved false x)) := by
  simp [takeStep, h, epochNewer_asymm h, hm, hv, replyFor]

/-- A member's step under the current membership, at the copy that is this module, is applied there. -/
theorem takeStep_current (h : x.membership = s.fab.epoch % 2 ^ 32) (hm : isMember s x.issuer = true) (h1 : 1 ≤ copy) (h3 : copy ≤ 3)
    (hv : tget s.req.ledger (x.handle, copy) = some v) (hf : v.frozen = none) (hc : (chainOf s x.handle).getD (copy - 1) 0x3FFFF = selfId s) :
    takeStep s copy x = copyStep s copy x := by
  obtain ⟨notOlder, notNewer⟩ := epochNewer_low s.fab.epoch
  rw [← h] at notOlder notNewer
  have inChain : ¬ (copy = 0 ∨ 3 < copy) := by omega
  simp [takeStep, notOlder, notNewer, hm, hv, hf, hc, inChain, -List.getD_eq_getElem?_getD]

end

/-! ### What a copy answers (R137) -/

/-- The answer of a copy that refuses. -/
def refusedAt (v : LEntry) (code : Nat) : Applied := { status := code, repeated := false, entry := some v }

/-- The answer of a copy that has the step already. -/
def repeatedAt (v : LEntry) : Applied := { status := Status.ok, repeated := true, entry := some v }

/-- The entry after a step that changes the record and appends nothing. -/
def steppedTo (s : State) (v : LEntry) (x : LStep) (r : ReqRec) : LEntry :=
  { v with record := { r with step := x.step, stepDigest := x.digest, stepTime := s.time } }

theorem phaseMove_iff {a b : Nat} : phaseMove a b = true ↔ (a, b) ∈ [(0, 1), (1, 2), (2, 4), (4, 5), (5, 4)] := by
  simp [phaseMove, or_assoc]

section
variable {s : State} {copy : Nat} {x : LStep} {v : LEntry}

section
variable (h0 : x.kind ≠ 0)
include h0

theorem applyStep_otherEpoch (he : x.epoch ≠ v.record.epoch) : applyStep s copy x (some v) = refusedAt v Status.epochStale := by
  simp [applyStep, h0, he, refusedAt]

variable (he : x.epoch = v.record.epoch)
include he

theorem applyStep_repeated (hs : x.step < v.record.step ∨ (x.step = v.record.step ∧ x.digest = v.record.stepDigest)) :
    applyStep s copy x (some v) = repeatedAt v := by
  rcases hs with hs | ⟨hs, hd⟩
  · simp [applyStep, h0, he, hs, repeatedAt]
  · simp [applyStep, h0, he, hs, hd, repeatedAt]

theorem applyStep_conflict (hs : x.step = v.record.step) (hd : x.digest ≠ v.record.stepDigest) :
    applyStep s copy x (some v) = refusedAt v Status.stepConflict := by
  simp [applyStep, h0, he, hs, hd, refusedAt]

theorem applyStep_gap (hs : v.record.step + 1 < x.step) : applyStep s copy x (some v) = refusedAt v Status.stepGap := by
  have later : ¬ x.step < v.record.step ∧ x.step ≠ v.record.step := by omega
  simp [applyStep, h0, he, hs, later, refusedAt]

end

variable (hk : x.kind = 1) (he : x.epoch = v.record.epoch) (hs : x.step = v.record.step + 1)
include hk he hs

/-- A PHASE step that is the next one goes by Table 1.3. -/
theorem applyStep_phase_refused (hp : (v.record.phase, x.newPhase) ∉ [(0, 1), (1, 2), (2, 4), (4, 5), (5, 4)]) :
    applyStep s copy x (some v) = refusedAt v Status.stepRefused := by
  have apart : phaseMove v.record.phase x.newPhase = false := Bool.eq_false_iff.mpr (mt phaseMove_iff.mp hp)
  simp [applyStep, hk, he, hs, stepRefusal, apart, refusedAt]

theorem applyStep_phase (hn : x.payload = .none) (hp : (v.record.phase, x.newPhase) ∈ [(0, 1), (1, 2), (2, 4), (4, 5), (5, 4)]) :
    applyStep s copy x (some v) =
      { status := Status.ok, repeated := false, entry := some (steppedTo s v x { v.record with phase := x.newPhase }) } := by
  have joined := phaseMove_iff.mpr hp
  simp [applyStep, hk, he, hs, stepRefusal, joined, stepEffect, stepTokens, hn, steppedTo]

end

/-! ### What it does with the answer (R129) -/

section
variable {s : State} {copy : Nat} {x : LStep} {v w : LEntry}

/-- A refusal goes to the issuer, and the entry stays. -/
theorem copyStep_refused {code : Nat} (hv : tget s.req.ledger (x.handle, copy) = some v) (ha : applyStep s copy x (some v) = refusedAt v code)
    (h0 : code ≠ Status.ok) (hx : code ≠ Status.epochExhausted) :
    copyStep s copy x = sysSend s x.issuer (.notice (noticeOf s v.record code false x)) := by
  simp [copyStep, hv, ha, refusedAt, h0, hx, replyFor, exhaust]

variable {rep : Bool} (hv : tget s.req.ledger (x.handle, copy) = some v)
  (ha : applyStep s copy x (some v) = { status := Status.ok, repeated := rep, entry := some w })
include hv ha

/-- The copy takes the entry. The head, which keeps the step, and the second copy send it to the next copy; the tail tells of the commit. -/
theorem copyStep_applied (hs : canSend s = true) :
    let t := copyStep s copy x
    t.req.ledger = tset s.req.ledger (x.handle, copy) w ∧
      (copy < 3 → t.req.outbox = s.req.outbox ++ [((chainOf s x.handle).getD copy 0x3FFFF, .step (copy + 1) x)]) ∧
      (¬ copy < 3 → t.req.outbox = s.req.outbox ++ (noticeTo s x (some v) (some w)).map fun m => (m, .notice (noticeOf s w.record Status.ok rep x))) := by
  have sends : canSend (setEntryAt s x.handle copy (some w)) = true := hs
  unfold copyStep
  rw [hv]
  dsimp only
  rw [ha, if_pos rfl]
  by_cases h : copy < 3
  · rw [if_pos h]
    by_cases head : copy = 1
    · rw [if_pos head, sysSend_canSend (by exact hs)]
      exact ⟨rfl, fun _ => rfl, fun h' => absurd h h'⟩
    · rw [if_neg head, sysSend_canSend sends]
      exact ⟨rfl, fun _ => rfl, fun h' => absurd h h'⟩
  · rw [if_neg h, sendNotice_eq, sendEach_canSend _ sends]
    exact ⟨rfl, fun h' => absurd h' h, fun _ => rfl⟩

end

/-- The issuer hears of a commit. -/
theorem issuer_mem_noticeTo (s : State) (x : LStep) (before after : Option LEntry) : x.issuer ∈ noticeTo s x before after := by
  simp [noticeTo, List.mem_eraseDups]

/-- Settles O35: a step of the current membership is applied (`takeStep_current`), and each clause is one answer of `applyStep` and what the copy does
with it; the others are held or refused by their epoch. -/
theorem ledgerCopiesApplySteps : Obligations.LedgerCopiesApplySteps := by
  unfold Obligations.LedgerCopiesApplySteps
  intro copy x v s hm h1 h3 hv hf hc hs hout r ahead Answers
  have arrives := ledgerStepArrival_eq hout
  have answers : ∀ code, takeStep s copy x = sysSend s x.issuer (.notice (noticeOf s v.record code false x)) → Answers code := fun code run =>
    ⟨_, noticeOf s v.record code false x, arrives, by rw [run]; exact sysSend_outbox hs .., rfl, rfl, rfl, rfl, by rw [run]; exact sysSend_ledger ..⟩
  refine ⟨fun hx => ?_, fun p q => ?_, fun p q => ?_⟩
  · have current := takeStep_current hx hm h1 h3 hv hf hc
    have refuses : ∀ code, applyStep s copy x (some v) = refusedAt v code → code ≠ Status.ok → code ≠ Status.epochExhausted → Answers code :=
      fun code ha h0 he => answers code (current.trans (copyStep_refused hv ha h0 he))
    have notCreate : x.kind ∉ [0, 4] → x.kind ≠ 0 := fun hk h0 => hk (by simp [h0])
    refine ⟨fun hk he => ?_, fun hk he hn hd => ?_, fun hk he hn => ?_, fun hk he hn hp => ?_, fun hk hpl he hn hp => ?_, fun hk he hn => ?_⟩
    · exact refuses _ (applyStep_otherEpoch (notCreate hk) he) (by decide) (by decide)
    · exact refuses _ (applyStep_conflict (notCreate hk) he hn hd) (by decide) (by decide)
    · exact refuses _ (applyStep_gap (notCreate hk) he hn) (by decide) (by decide)
    · exact refuses _ (applyStep_phase_refused hk he hn hp) (by decide) (by decide)
    · obtain ⟨ledger, next, told⟩ := copyStep_applied hv (applyStep_phase hk he hn hpl hp) hs
      refine ⟨_, arrives, ?_, fun k other => ?_, fun h => ?_, fun h => ?_⟩
      · rw [current, keepHost_req, ledger, tget_tset_self]
        rfl
      · rw [current, keepHost_req, ledger, tget_tset_ne (Ne.symm other)]
      · rw [current, keepHost_req, next h]
      · refine ⟨noticeOf s (steppedTo s v x { v.record with phase := x.newPhase }).record Status.ok false x, rfl, rfl, rfl, ?_⟩
        rw [current, keepHost_req, told (by omega)]
        exact List.mem_append_right _ (List.mem_map.mpr ⟨x.issuer, issuer_mem_noticeTo .., rfl⟩)
    · obtain ⟨ledger, next, -⟩ := copyStep_applied hv (applyStep_repeated (notCreate hk) he hn) hs
      refine ⟨_, arrives, ?_, fun h => ?_⟩
      · rw [current, keepHost_req, ledger, tget_tset_self]
      · rw [current, keepHost_req, next h]
  · exact answers _ (takeStep_older (epochNewer_iff.mpr ⟨p, q⟩) hm hv)
  · rw [arrives, takeStep_newer (epochNewer_iff.mpr ⟨p, q⟩)]
    rfl

end Sys2Proof.Proofs
end

section
/-!
PROOFS. O36 (05_request_state_and_ownership.md R129, R130, R132, R139, R147, R155): queries, resends, answers, notices and ERASE.
-/
namespace Sys2Proof.Proofs
open Sys2Proof.Machine Sys2Proof.Laws

/-! ### Queries (R130, R132) -/

section
variable {s : State} {h src e0 : Nat} {whole : Bool}

theorem ledgerQuery_eq (hout : ∀ d m, (d, m) ∈ s.req.outbox → m ≠ .query h src whole e0) :
    exec (.ledgerQuery h src ⟨whole, e0⟩) s = .next (s.keepHost (takeQuery s h src whole e0)) := by
  change quiet s (takeQuery (sysTaken s (.query h src whole e0)) h src whole e0) = _
  rw [sysTaken_of_notMem fun hm => hout _ _ hm rfl]
  rfl

theorem takeQuery_newer (he : epochNewer e0 s.fab.epoch = true) : takeQuery s h src whole e0 = holdMsg s (.query h src whole e0) := by
  simp [takeQuery, he]

theorem takeQuery_fenced (he : epochNewer e0 s.fab.epoch = false) (hm : isMember s src = false) : takeQuery s h src whole e0 = s := by
  simp [takeQuery, he, hm]

theorem takeQuery_older (he : epochNewer s.fab.epoch e0 = true) (hm : isMember s src = true) :
    takeQuery s h src whole e0 = sysSend s src (.answer { answerOf s h false with status := Status.ledgerMoved, body := none }) := by
  simp [takeQuery, he, epochNewer_asymm he, hm]

/-- The tail answers a member's query of the current membership, unless a repair may still bring the entry. -/
theorem takeQuery_current (hm : isMember s src = true) (ht : tailOf s h = selfId s)
    (hr : (tget s.req.ledger (h, 3)).isSome = true ∨ s.req.repairing = []) :
    takeQuery s h src whole (s.fab.epoch % 2 ^ 32) = sysSend s src (.answer (answerOf s h whole)) := by
  obtain ⟨notOlder, notNewer⟩ := epochNewer_low s.fab.epoch
  have here : ((tget s.req.ledger (h, 3)).isNone && awaitingRepair s) = false := by
    rcases hr with hr | hr
    · rw [Option.isNone_eq_false_iff.mpr hr, Bool.false_and]
    · simp [awaitingRepair, hr]
  simp only [takeQuery, notNewer, notOlder, hm, ht, here]
  simp

/-- What the answer tells of an entry that the tail has. -/
theorem answerOf_entry {e : LEntry} (he : tget s.req.ledger (h, 3) = some e) : ∃ n : Notice, answerOf s h whole = n ∧
    n.status = 0 ∧ n.handle = e.record.handle ∧ n.epoch = e.record.epoch ∧ n.step = e.record.step ∧ n.phase = e.record.phase ∧
      n.owner = e.record.owner ∧ n.logged = e.record.logged ∧ n.firstMissing = e.record.firstMissing ∧
      n.body = if whole then some (e.record, e.log) else none := by
  refine ⟨_, rfl, ?_⟩
  unfold answerOf
  rw [he]
  exact ⟨rfl, rfl, rfl, rfl, rfl, rfl, rfl, rfl, rfl⟩

/-- What it tells where there is none. -/
theorem answerOf_none (he : tget s.req.ledger (h, 3) = none) : (answerOf s h whole).status = 0x0101 ∧ (answerOf s h whole).handle = h := by
  simp [answerOf, he, emptyNotice]

theorem answerOf_membership (s : State) (h : Nat) (whole : Bool) : (answerOf s h whole).membership = s.fab.epoch % 2 ^ 32 := by
  unfold answerOf
  split <;> rfl

end

/-! ### Resends (R129, R147) -/

/-- An outstanding step as it goes again, to the head of the current chain under the current membership. -/
def resentStep (s : State) (i : Issued) : Issued :=
  { i with step := { i.step with membership := s.fab.epoch % 2 ^ 32 }, head := headOf s i.step.handle, sentAt := s.mono }

theorem stepResend_due {h : Nat} {i : Issued} {s : State} (hi : s.req.issued = [i]) (hh : i.step.handle = h) (ha : i.after = none)
    (ht : i.sentAt + 100000 ≤ s.mono) :
    exec (.ledgerStepResendTimer h) s = .next (s.keepHost (sysSend { s with req := { s.req with issued := [resentStep s i] } } (headOf s h)
      (.step 1 (resentStep s i).step))) := by
  subst hh
  change quiet s (reissueAll s (s.req.issued.filter fun i' => i'.step.handle = i.step.handle && i'.sentAt + 100000 ≤ s.mono)) = _
  simp [hi, ht, reissueAll, reissue, ha, quiet, resentStep]

theorem stepResend_early {h : Nat} {i : Issued} {s : State} (hi : s.req.issued = [i]) (ht : s.mono < i.sentAt + 100000) :
    exec (.ledgerStepResendTimer h) s = .next s := by
  change quiet s (reissueAll s (s.req.issued.filter fun i' => i'.step.handle = h && i'.sentAt + 100000 ≤ s.mono)) = _
  simp [hi, Nat.not_le.mpr ht, reissueAll, quiet_self]

theorem queryRetry_due {a : Ask} {s : State} (hi : s.req.asks = [a]) (ht : a.sentAt + 100000 ≤ s.mono) :
    exec (.ledgerQueryRetryTimer a.handle) s = .next (s.keepHost (sysSend { s with req := { s.req with asks := [{ a with sentAt := s.mono }] } }
      (tailOf s a.handle) (.query a.handle (selfId s) a.asker.whole (s.fab.epoch % 2 ^ 32)))) := by
  change quiet s (queryAgain s (s.req.asks.filter fun b => b.handle = a.handle && b.sentAt + 100000 ≤ s.mono)) = _
  simp [hi, ht, queryAgain, quiet]

theorem queryRetry_early {h : Nat} {a : Ask} {s : State} (hi : s.req.asks = [a]) (ht : s.mono < a.sentAt + 100000) :
    exec (.ledgerQueryRetryTimer h) s = .next s := by
  change quiet s (queryAgain s (s.req.asks.filter fun b => b.handle = h && b.sentAt + 100000 ≤ s.mono)) = _
  simp [hi, Nat.not_le.mpr ht, queryAgain, quiet_self]

/-! ### Answers and notices (R125, R129, R147) -/

/-- An answer that a command waits for is kept for it. -/
theorem answer_forward {n : Notice} {slot : Nat} {a : Ask} {s : State} (ha : s.req.asks = [a]) (hh : a.handle = n.handle)
    (hs : a.asker = .forward slot) (hn : n.status ≠ 0x0108) :
    takeAnswer s n = { s with req := { s.req with asks := [], known := s.req.known ++ [(slot, n.handle, locatedOf n)] } } := by
  simp [takeAnswer, hn, ha, hh, hs, Asker.whole, answerOne]

/-- The notice of a commit ends the outstanding step that it answers; a PHASE step that its command alone waited for completes that. -/
theorem notice_finishes {n : Notice} {i : Issued} {slot r0 r1 : Nat} {s : State} (hi : s.req.issued = [i]) (hk : s.req.kept = [])
    (hn : n.status = 0) (h1 : i.step.handle = n.handle) (h2 : i.step.step = n.ofStep) (h3 : i.step.kind = n.ofKind) (hkind : n.ofKind = 1)
    (hp : n.phase ≠ 2) (hw : i.why = .finish slot r0 r1) :
    takeNotice s n = finish { s with req := { s.req with issued := [] } } slot 0 r0 r1 := by
  have unkept : { s with req := { s.req with kept := [] } } = s := by rw [← hk]
  have heard : headHears s n = s := by simp [headHears, hk, unkept]
  simp [takeNotice, hn, heard, hi, h1, h2, h3, committed, hkind, hp, finishIssued, hw]

/-! ### ERASE (R139) -/

theorem ledgerErase_due {h : Nat} {e : LEntry} {s : State} (he : tget s.req.ledger (h, 1) = some e) (hh : headOf s h = selfId s)
    (hk : ∀ x ∈ s.req.kept, x.handle ≠ h) (hp : e.record.phase = 7 ∨ e.record.phase = 8) (ht : e.record.stepTime + 1000000000 ≤ s.time) :
    exec (.ledgerErase h) s = .next (s.keepHost (issue s (stepOf s e.record 8) .none)) := by
  change execLedgerErase h s = _
  have final : finalPhase e.record.phase = true := by simpa [finalPhase] using hp
  have free : ∀ x ∈ s.req.kept, ¬ x.handle = h := hk
  unfold execLedgerErase
  simp only [he]
  exact if_pos (by simpa [final, ht, hh] using free)

theorem ledgerErase_early {h : Nat} {e : LEntry} {s : State} (he : tget s.req.ledger (h, 1) = some e) (ht : s.time < e.record.stepTime + 1000000000) :
    exec (.ledgerErase h) s = .next s := by
  change execLedgerErase h s = _
  simp [execLedgerErase, he, Nat.not_le.mpr ht]

/-- Settles O36: each row is one of the lemmas above, and what it sends leaves, since the module may send (`sysSend_canSend`). -/
theorem queriesResendsAndErase : Obligations.QueriesResendsAndErase := by
  unfold Obligations.QueriesResendsAndErase
  refine ⟨?current, ?others, ?resend, ?retry, ?answer, ?notice, ?erase⟩
  case current =>
    intro h src whole s ht hs hm e0 hout
    have sent : ∀ n : Notice, takeQuery s h src whole e0 = sysSend s src (.answer n) →
        exec (.ledgerQuery h src ⟨whole, e0⟩) s = .next { s with req := { s.req with outbox := s.req.outbox ++ [(src, .answer n)] } } := by
      intro n run
      rw [ledgerQuery_eq hout, run, sysSend_canSend hs]
      rfl
    refine ⟨fun e he => ?_, fun he hr => ?_⟩
    · obtain ⟨n, hn, facts⟩ := answerOf_entry (whole := whole) he
      exact ⟨n, sent n (hn ▸ takeQuery_current hm ht (.inl (by simp [he]))), facts⟩
    · exact ⟨_, sent _ (takeQuery_current hm ht (.inr hr)), answerOf_none he⟩
  case others =>
    intro h src e0 whole s hs hout ahead
    refine ⟨fun p q hm => ?_, fun p q => ?_, fun hm he => ?_⟩
    · refine ⟨{ answerOf s h false with status := Status.ledgerMoved, body := none }, ?_, rfl, answerOf_membership s h false, rfl⟩
      rw [ledgerQuery_eq hout, takeQuery_older (epochNewer_iff.mpr ⟨p, q⟩) hm, sysSend_canSend hs]
      rfl
    · rw [ledgerQuery_eq hout, takeQuery_newer (epochNewer_iff.mpr ⟨p, q⟩)]
      rfl
    · obtain ⟨-, notNewer⟩ := epochNewer_low s.fab.epoch
      rw [ledgerQuery_eq hout, takeQuery_fenced (he ▸ notNewer) hm, keepHost_self]
  case resend =>
    intro h i s hi hh ha hs
    refine ⟨fun due => ?_, stepResend_early hi⟩
    refine ⟨_, stepResend_due hi hh ha due, ?_⟩
    subst hh
    rw [sysSend_canSend (by exact hs)]
    exact ⟨rfl, rfl⟩
  case retry =>
    intro h a s ha hh hs
    subst hh
    refine ⟨fun due => ?_, queryRetry_early ha⟩
    refine ⟨_, queryRetry_due ha due, ?_⟩
    rw [sysSend_canSend (by exact hs)]
    exact ⟨rfl, rfl⟩
  case answer =>
    intro n slot a s ha hh hk hn hw hout
    have located : locatedOf n = if n.status ≠ 0 then .unknown else if n.phase = 7 ∨ n.phase = 8 then .final n.phase else .owner n.owner n.phase := by
      simp [locatedOf, finalPhase]
    change ordinary s (takeAnswer (sysTaken s (.answer n)) n) = _
    rw [sysTaken_of_notMem fun hm => hout _ _ hm rfl, answer_forward ha hh hk hn, located]
    exact congrArg Host.Outcome.next (keep_eq_keepHost (Memory.canon_of_wf hw))
  case notice =>
    intro n i slot r0 r1 s hi hk hn h1 h2 h3 hkind hp hw
    change quiet s (takeNotice (sysTaken s (.notice n)) n) = _
    rw [notice_finishes (s := sysTaken s (.notice n)) hi hk hn h1 h2 h3 hkind hp hw]
    rfl
  case erase =>
    intro h e s he hh hr hk
    exact ⟨fun hp due => ⟨_, _, ledgerErase_due he hh hk hp due, issue_issued .., rfl, hr, rfl⟩, ledgerErase_early he⟩

end Sys2Proof.Proofs
end

section
/-!
PROOFS. O37 (05_request_state_and_ownership.md R131, R149): repair copies, the end of repair and the end of a head's freeze.
-/
namespace Sys2Proof.Proofs
open Sys2Proof.Machine Sys2Proof.Laws

/-- With nothing held, nothing comes up again. -/
theorem replayHeld_nil {s : State} (h : s.req.heldMsgs = []) : replayHeld s = s := by
  have same : { s with req := { s.req with heldMsgs := [] } } = s := by rw [← h]
  rw [replayHeld, h, same]
  rfl

/-! ### Repair copies (R131, R149) -/

/-- An entry whose owner is a member and that is not RECOVERING is not recovered. -/
theorem recoverIfFenced_sound {s : State} {h : Nat}
    (hs : ∀ f, tget s.req.ledger (h, 1) = some f → isMember s f.record.owner = true ∧ f.record.phase ≠ 6) : recoverIfFenced s h = s := by
  unfold recoverIfFenced
  split
  · rfl
  next f hf =>
    obtain ⟨member, phase⟩ := hs f hf
    simp [member, phase]

/-- The entry that a repair copy becomes. -/
def repairEntry (copy : Nat) (r : ReqRec) (log : List Nat) : LEntry := atCopy { record := r, log := log, frozen := none } r.handle copy

theorem repairCopyArrival_new {copy : Nat} {r : ReqRec} {log : List Nat} {s : State} (hh : s.req.heldMsgs = []) (hm : isMember s r.owner = true)
    (hp : r.phase ≠ 6) (hs : ∀ f, tget s.req.ledger (r.handle, 1) = some f → isMember s f.record.owner = true ∧ f.record.phase ≠ 6)
    (hn : tget s.req.ledger (r.handle, copy) = none) :
    exec (.repairCopyArrival copy r log) s =
      .next (setEntryAt (sysTaken s (.repair copy r log)) r.handle copy (some (repairEntry copy r log))) := by
  let s1 := setEntryAt (sysTaken s (.repair copy r log)) r.handle copy (some (repairEntry copy r log))
  have lacks : tget (sysTaken s (.repair copy r log)).req.ledger (r.handle, copy) = none := hn
  have nothing : s1.req.heldMsgs = [] := hh
  have sound : ∀ f, tget s1.req.ledger (r.handle, 1) = some f → isMember s1 f.record.owner = true ∧ f.record.phase ≠ 6 := by
    intro f hf
    have entry : tget (tset s.req.ledger (r.handle, copy) (repairEntry copy r log)) (r.handle, 1) = some f := hf
    rw [tget_tset] at entry
    split at entry
    · cases entry
      exact ⟨hm, hp⟩
    · exact hs f entry
  change execRepairCopyArrival copy r log s = _
  simp only [execRepairCopyArrival, lacks]
  change quiet s (recoverIfFenced (replayHeld s1) r.handle) = _
  rw [replayHeld_nil nothing, recoverIfFenced_sound sound]
  rfl

theorem repairCopyArrival_known {copy : Nat} {r : ReqRec} {log : List Nat} {s : State} {e : LEntry} (hh : s.req.heldMsgs = [])
    (hs : ∀ f, tget s.req.ledger (r.handle, 1) = some f → isMember s f.record.owner = true ∧ f.record.phase ≠ 6)
    (he : tget s.req.ledger (r.handle, copy) = some e) :
    exec (.repairCopyArrival copy r log) s = .next (sysTaken s (.repair copy r log)) := by
  have has : tget (sysTaken s (.repair copy r log)).req.ledger (r.handle, copy) = some e := he
  have nothing : (sysTaken s (.repair copy r log)).req.heldMsgs = [] := hh
  change execRepairCopyArrival copy r log s = _
  simp only [execRepairCopyArrival, has]
  rw [replayHeld_nil nothing, recoverIfFenced_sound (s := sysTaken s (.repair copy r log)) hs]
  rfl

/-! ### The end of repair (R131) -/

/-- The state in which a member's END_OF_REPAIR for the current epoch has come. -/
def repairEnded (s : State) (epoch src : Nat) : State :=
  { sysTaken s (.endRepair epoch src) with req := { (sysTaken s (.endRepair epoch src)).req with repairing := s.req.repairing.erase src } }

/-- The state in which one for an epoch not yet adopted is noted. -/
def earlyEndNoted (s : State) (epoch src : Nat) : State :=
  { sysTaken s (.endRepair epoch src) with req := { (sysTaken s (.endRepair epoch src)).req with earlyEnds := s.req.earlyEnds ++ [(epoch, src)] } }

theorem endOfRepair_eq {s : State} (hh : s.req.heldMsgs = []) (epoch src : Nat) :
    exec (.endOfRepair epoch src) s = .next (if epoch = s.fab.epoch then repairEnded s epoch src
      else if s.fab.epoch < epoch then earlyEndNoted s epoch src else sysTaken s (.endRepair epoch src)) := by
  have run : exec (.endOfRepair epoch src) s = if epoch = s.fab.epoch then quiet s (replayHeld (repairEnded s epoch src))
      else if s.fab.epoch < epoch then quiet s (earlyEndNoted s epoch src) else quiet s (sysTaken s (.endRepair epoch src)) := rfl
  have nothing : (repairEnded s epoch src).req.heldMsgs = [] := hh
  rw [run, replayHeld_nil nothing]
  split
  · rfl
  · split <;> rfl

/-! ### The end of a head's freeze (R131) -/

/-- A module outside the chain has no copy of it. -/
theorem myCopies_outside {s : State} {chain : List Nat} (hc : selfId s ∉ chain) (hs : selfId s ≠ 0x3FFFF) : myCopies s chain = [] := by
  refine List.filterMap_eq_nil_iff.mpr fun k _ => if_neg fun hk => ?_
  by_cases hl : k < chain.length
  · rw [List.getD_eq_getElem _ _ hl] at hk
    exact hc (hk ▸ List.getElem_mem hl)
  · rw [List.getD_eq_default _ _ (Nat.le_of_not_lt hl)] at hk
    exact hs hk.symm

/-- What a table keeps of the keys that a filter lets pass. -/
theorem tget_filter_key {κ α : Type} [DecidableEq κ] (p : κ → Bool) (t : Tab κ α) (k : κ) :
    tget (t.filter fun e => p e.1) k = if p k then tget t k else none := by
  induction t with
  | nil => simp [tget]
  | cons e t ih =>
    obtain ⟨a, v⟩ := e
    by_cases hk : a = k
    · subst hk
      by_cases hp : p a <;> simp [tget, hp, ih]
    · by_cases hp : p a <;> simp [tget, hp, hk, ih]

/-- A module that keeps no copy of a handle loses its entries, and no others. -/
theorem tget_rekey_nil (s : State) (h : Nat) (e : LEntry) (k : Nat × Nat) :
    tget (rekey s h e []).req.ledger k = if k.1 ≠ h then tget s.req.ledger k else none := by
  have kept := tget_filter_key (fun k : Nat × Nat => decide (k.1 ≠ h)) s.req.ledger k
  simpa [rekey] using kept

/-- The state in which a module outside the new chain has given up its copies of a handle, and what was held with them. -/
def gaveUp (s : State) (h : Nat) (e : LEntry) : State := rekey { s with req := { s.req with heldMsgs := [] } } h { e with frozen := none } []

/-- An old head outside the new chain gives up its copies, and passes the step that it held on to the new head. -/
theorem headFreezeEnd_passes {h at' : Nat} {e : LEntry} {x : LStep} {s : State} (he : tget s.req.ledger (h, 1) = some e) (hf : e.frozen = some at')
    (hx : x.handle = h) (hh : s.req.heldMsgs = [.step 1 x]) (hc : selfId s ∉ chainOf s h) (hn : selfId s ≠ 0x3FFFF) (hs : canSend s = true) :
    exec (.headFreezeEnd h) s = .next { gaveUp s h e with req := { (gaveUp s h e).req with outbox := s.req.outbox ++ [(headOf s h, .step 1 x)] } } := by
  have sends : canSend (gaveUp s h e) = true := hs
  have none : myCopies s (chainOf s h) = [] := myCopies_outside hc hn
  have passed : exec (.headFreezeEnd h) s = quiet s (replayHeld (sysSend (gaveUp s h e) (headOf s h) (.step 1 x))) := by
    change execHeadFreezeEnd h s = _
    simp [execHeadFreezeEnd, he, hf, hh, hx, none]
    rfl
  rw [passed, sysSend_canSend sends, replayHeld_nil (by rfl)]
  rfl

theorem headFreezeEnd_unfrozen {h : Nat} {e : LEntry} {s : State} (he : tget s.req.ledger (h, 1) = some e) (hf : e.frozen = none) :
    exec (.headFreezeEnd h) s = .next s := by
  change execHeadFreezeEnd h s = _
  simp [execHeadFreezeEnd, he, hf]

/-- Settles O37: a copy is taken once, END_OF_REPAIR is judged by its epoch, and a frozen head gives up what it holds for the new one. -/
theorem repairMovesCopies : Obligations.RepairMovesCopies := by
  unfold Obligations.RepairMovesCopies
  refine ⟨?copies, ?ends, ?passes, fun h e s he hf => headFreezeEnd_unfrozen he hf⟩
  case copies =>
    intro copy r log s hh hm hp hs s0
    exact ⟨fun hn => repairCopyArrival_new hh hm hp hs hn, fun e he => repairCopyArrival_known hh hs he⟩
  case ends =>
    intro epoch src s hh s0
    have run := endOfRepair_eq hh epoch src
    refine ⟨fun now => ?_, fun early => ?_, fun late => ?_⟩
    · rw [run, if_pos now]; rfl
    · rw [run, if_neg (by omega), if_pos early]; rfl
    · rw [run, if_neg (by omega), if_neg (by omega)]
  case passes =>
    intro h at' e x s he hf hx hh hc hn hs
    have entries : ∀ k, tget (gaveUp s h e).req.ledger k = if k.1 ≠ h then tget s.req.ledger k else none :=
      tget_rekey_nil { s with req := { s.req with heldMsgs := [] } } h { e with frozen := none }
    refine ⟨_, headFreezeEnd_passes he hf hx hh hc hn hs, fun k => ?_, fun k hk => ?_, rfl, rfl⟩
    · exact (entries (h, k)).trans (by simp)
    · exact (entries k).trans (if_pos hk)

end Sys2Proof.Proofs
end

section
/-!
PROOFS. O38 (05_request_state_and_ownership.md R142, R144, R146, Table 5.7): the sender of a handoff.
-/
namespace Sys2Proof.Proofs
open Sys2Proof.Machine Sys2Proof.Laws

/-! ### Asking the tail (R130) -/

/-- Asking touches the queries and the messages, and nothing else. -/
theorem askTail_eq (s : State) (h : Nat) (a : Asker) :
    ∃ out again, askTail s h a =
      { s with req := { s.req with asks := s.req.asks ++ [{ handle := h, asker := a, sentAt := s.mono }], outbox := out, retry := again } } := by
  obtain ⟨out, again, sent⟩ := sysSend_eq { s with req := { s.req with asks := s.req.asks ++ [{ handle := h, asker := a, sentAt := s.mono }] } }
    (tailOf s h) (.query h (selfId s) a.whole (s.fab.epoch % 2 ^ 32))
  exact ⟨out, again, sent⟩

theorem askTail_canSend {s : State} (hs : canSend s = true) (h : Nat) (a : Asker) :
    askTail s h a = { s with req := { s.req with
      asks := s.req.asks ++ [{ handle := h, asker := a, sentAt := s.mono }]
      outbox := s.req.outbox ++ [(tailOf s h, .query h (selfId s) a.whole (s.fab.epoch % 2 ^ 32))] } } := by
  rw [askTail, sysSend_canSend (by exact hs)]

/-! ### The handoff of a working copy -/

section
variable {s : State} {h : Nat} {o : Owned}

theorem setHandoff_owned (ho : ownedOf s h = some o) (x : Option Handoff) : setHandoff s h x = setOwned s h { o with handoff := x } := by
  simp only [setHandoff, ho]

/-- The handoff that shows once a working copy has been set. -/
theorem handoff_of_set {t : State} {l : Tab Nat Owned} (w : Owned) (ht : t.req.owned = tset l h w) : (ownedOf t h).bind (·.handoff) = w.handoff := by
  rw [ownedOf, ht, tget_tset_self]
  rfl

theorem meets_iff {x : Handoff} {hd : Tongs} : x.meets hd = true ↔ hd.sender = x.peer ∧ hd.epoch = x.epoch ∧ hd.step = x.step := by
  rw [eq_comm (a := hd.sender), eq_comm (a := hd.epoch), eq_comm (a := hd.step)]
  simp [Handoff.meets, and_assoc]

/-! ### PLACED (R144) -/

/-- A read of objects in T0 and T1 changes nothing. -/
theorem readObjects_high {s : State} : ∀ l : List Nat, (∀ i ∈ l, ∀ e, tget s.tier.dir i = some e → e.tier < 2) → readObjects s l = s
  | [], _ => rfl
  | i :: l, hl => by
    have rest := readObjects_high l fun j hj => hl j (List.mem_cons_of_mem _ hj)
    cases he : tget s.tier.dir i with
    | none => simp only [readObjects, he, rest]
    | some e =>
      have high : readFails s e = false := by simp [readFails, Nat.not_le.mpr (hl i List.mem_cons_self e he)]
      simp [readObjects, he, high, rest]

/-- Pages are messages in a row. -/
theorem sendPages_eq (o : Owned) (d : Nat) (ks : List (Nat × Nat)) : ∀ s : State,
    sendPages s o d ks = sendEach s (ks.filterMap fun k => (pageMessage s o k).map fun p => (d, .page o.record.handle p)) := by
  induction ks with
  | nil => exact fun _ => rfl
  | cons k ks ih =>
    intro s
    cases hp : pageMessage s o k with
    | none => simp [sendPages, hp, ih]
    | some p =>
      have same : ∀ k, pageMessage (sysSend s d (.page o.record.handle p)) o k = pageMessage s o k := fun k => by
        simp only [pageMessage, sysSend_tier]
      simp [sendPages, hp, ih, same, sendEach]

/-- The message of page `n` in layer-major order, where it is present and its bit is clear. -/
def askedPage (s : State) (h peer : Nat) (o : Owned) (held : List Nat) (n : Nat) : Option (Nat × SysMsg) :=
  (tget o.pages (n / pageCount o, n % pageCount o)).bind fun e =>
    if e.present && !held.contains n then
      some (peer, .page h { layer := n / pageCount o, index := n % pageCount o, upto := e.upto, blob := tgetD s.tier.data e.dir Blob.zeros })
    else none

/-- The messages of the pages that a PLACED asks for. -/
theorem askedPages_eq (s : State) (o : Owned) (layers peer : Nat) (held : List Nat) :
    (toSendOf o layers held).filterMap (fun k => (pageMessage s o k).map fun p => (peer, SysMsg.page o.record.handle p)) =
      (List.range (layers * pageCount o)).filterMap (askedPage s o.record.handle peer o held) := by
  rw [toSendOf, List.filterMap_filterMap]
  congr 1
  funext n
  cases he : tget o.pages (n / pageCount o, n % pageCount o) with
  | none => simp [askedPage, offerEntry, pageKey, he]
  | some e =>
    by_cases hp : e.present = true <;> by_cases hn : n ∈ held <;> simp [askedPage, offerEntry, pageKey, pageMessage, he, hp, hn]

theorem tget_mem {κ α : Type} [DecidableEq κ] {t : Tab κ α} {k : κ} {v : α} (h : tget t k = some v) : (k, v) ∈ t := by
  induction t with
  | nil => simp [tget] at h
  | cons e t ih =>
    obtain ⟨a, b⟩ := e
    by_cases hk : a = k
    · simp_all [tget]
    · exact List.mem_cons_of_mem _ (ih (by simpa [tget, hk] using h))

/-- The working copy of a sender that sends the pages that a PLACED asked for. -/
def sendingOwned (s : State) (h : Nat) (o : Owned) (x : Handoff) (held : List Nat) : Owned :=
  { o with handoff := some { x with st := .sending, toSend := toSendOf o (layersOf s h o.record.model) held } }

/-- The working copy of a sender that has sent its last page: the orphan timer runs. -/
def waitingOwned (s : State) (o : Owned) (x : Handoff) : Owned :=
  { o with handoff := some { x with st := .waiting, toSend := [], timer := some s.mono, orphanUs := orphanUsNow s } }

/-- The working copy of a sender that has asked the tail. -/
def queryingOwned (o : Owned) (x : Handoff) : Owned := { o with handoff := some { x with st := .querying, toSend := [], timer := none } }

/-- The working copy of a sender whose peer has refused. -/
def refusedOwned (o : Owned) (x : Handoff) : Owned := { o with handoff := some { x with st := .aborting, refused := true, toSend := [], timer := none } }

variable {x : Handoff} (ho : ownedOf s h = some o) (hx : o.handoff = some x)
include ho hx

/-- PLACED for an OFFER that waits for it: every page that it asks for is sent, in order. -/
theorem placed_sends {hd : Tongs} {held : List Nat} (hh : hd.handle = h) (hm : x.meets hd = true) (hst : x.st = .offered) (hs : canSend s = true)
    (hout : ∀ d, (d, SysMsg.placed hd held) ∉ s.req.outbox) (ht : ∀ p ∈ o.pages, ∀ e, tget s.tier.dir p.2.dir = some e → e.tier < 2)
    (hr : o.record.handle = h) :
    let v := setOwned s h (sendingOwned s h o x held)
    exec (.placed hd.handle hd.sender (hd.body held)) s = .next { v with req := { v.req with
      outbox := s.req.outbox ++ (List.range (layersOf s h o.record.model * pageCount o)).filterMap (askedPage s h x.peer o held) } } := by
  intro v
  have untouched : readObjects s ((toSendOf o (layersOf s h o.record.model) held).filterMap fun k => (tget o.pages k).map (·.dir)) = s := by
    refine readObjects_high _ fun i hi => ?_
    obtain ⟨k, -, hk⟩ := List.mem_filterMap.mp hi
    obtain ⟨p, hp, rfl⟩ := Option.map_eq_some_iff.mp hk
    exact ht _ (tget_mem hp)
  obtain ⟨peer, -, -⟩ := meets_iff.mp hm
  have run : exec (.placed hd.handle hd.sender (hd.body held)) s =
      quiet s (sendPages v o x.peer (toSendOf o (layersOf s h o.record.model) held)) := by
    change execPlaced hd.handle hd.sender (hd.body held) s = _
    have header : (hd.body held).header hd.handle hd.sender = hd := rfl
    have bits : (hd.body held).bits = held := rfl
    simp only [execPlaced, header, bits, sysTaken_of_notMem (hout _)]
    simp only [hh, ho, hx, hst, hm, decide_true, Bool.and_self, if_true, untouched,
      setHandoff_owned ho, Option.getD_some, peer]
    rfl
  have sends : canSend v = true := hs
  have pages := askedPages_eq v o (layersOf s h o.record.model) x.peer held
  rw [run, sendPages_eq, pages, sendEach_canSend _ sends, hr]
  rfl

/-- Any other PLACED changes nothing but the outbox. -/
theorem placed_ignored {hd : Tongs} {held : List Nat} (hh : hd.handle = h) (hn : ¬ (x.st = .offered ∧ x.meets hd = true)) :
    exec (.placed hd.handle hd.sender (hd.body held)) s = .next (sysTaken s (.placed hd held)) := by
  subst hh
  have copy : ownedOf (sysTaken s (.placed hd held)) hd.handle = some o := ho
  have other : (decide (x.st = .offered) && x.meets hd) = false := by simpa using hn
  change execPlaced hd.handle hd.sender (hd.body held) s = _
  have header : (hd.body held).header hd.handle hd.sender = hd := rfl
  have bits : (hd.body held).bits = held := rfl
  simp only [execPlaced, header, bits, copy, hx, other, Bool.false_eq_true, if_false]
  rfl

/-! ### The last page and the orphan timer (R146) -/

theorem lastPageSent_eq : exec (.lastPageSent h) s = .next (if x.st = .sending then setOwned s h (waitingOwned s o x) else s) := by
  change execLastPageSent h s = _
  simp only [execLastPageSent, ho, hx, Option.bind_some, setHandoff_owned ho]
  split <;> rfl

/-- While the sender waits, its orphan timer has the tail asked once it has run out. -/
theorem orphanTimer_waiting {start : Nat} (ht : x.timer = some start) (hst : x.st = .waiting) :
    exec (.orphanTimerExpiry h) s = if start + x.orphanUs * 1000 ≤ s.mono then
      .next (s.keepHost (askTail (setOwned s h (queryingOwned o x)) h .sender)) else .next s := by
  have asks : querySender s h = askTail (setOwned s h (queryingOwned o x)) h .sender := by
    simp only [querySender, ho, hx, setHandoff_owned ho]
    rfl
  change execOrphanTimerExpiry h s = _
  simp [execOrphanTimerExpiry, ho, hx, ht, hst, asks, quiet]

/-! ### A refusal (R142, R144) -/

/-- ABORT_HANDOFF at step s + 1, before its digest. -/
def abortStep (s : State) (o : Owned) (x : Handoff) : LStep := { stepOf s o.record 5 with step := x.step + 1, epoch := x.epoch }

theorem abortHandoff_refused : abortHandoff s h true = issue (setOwned s h (refusedOwned o x)) (abortStep s o x) .handoff := by
  simp only [abortHandoff, ho, hx, setHandoff_owned ho, Bool.or_true]
  rfl

theorem handoffRefuse_eq {hd : Tongs} (bits : List Nat) (hh : hd.handle = h) :
    exec (.handoffRefuse hd.handle hd.sender (hd.body bits)) s = .next (s.keepHost (
      if x.meets hd = true ∧ x.st ∈ [.offered, .sending, .waiting] then abortHandoff (sysTaken s (.refuse hd)) h true else sysTaken s (.refuse hd))) := by
  subst hh
  have copy : ownedOf (sysTaken s (.refuse hd)) hd.handle = some o := ho
  have header : (hd.body bits).header hd.handle hd.sender = hd := rfl
  change execHandoffRefuse hd.handle hd.sender (hd.body bits) s = _
  simp only [execHandoffRefuse, header, copy, hx, Option.bind_some]
  by_cases hc : x.meets hd = true ∧ x.st ∈ [.offered, .sending, .waiting]
  · rw [if_pos hc, if_pos (by simpa [or_assoc] using hc)]
    rfl
  · rw [if_neg hc, if_neg (by simpa [or_assoc] using hc)]
    rfl

end

/-- Settles O38: each row is one of the equations above, by the state of the handoff and the header of the message. -/
theorem handoffAtTheSender : Obligations.HandoffAtTheSender := by
  unfold Obligations.HandoffAtTheSender
  intro h o x s ho hx hr st mine n
  have meets : ∀ hd, hd.handle = h → (mine hd ↔ x.meets hd = true) := fun hd hh => by simp only [mine, meets_iff, hh, true_and]
  refine ⟨?placed, ?ignored, ?last, ?notSending, ?timer, ?refused, ?unmatched⟩
  case placed =>
    intro hd held hm hst hs hout ht
    have run := placed_sends ho hx hm.1 ((meets hd hm.1).mp hm) hst hs hout ht hr
    exact ⟨_, run, congrArg (Option.map (·.st)) (handoff_of_set (sendingOwned s h o x held) rfl), rfl, rfl⟩
  case ignored => exact fun hd held hh hn => placed_ignored ho hx hh fun hm => hn ⟨hm.1, (meets hd hh).mpr hm.2⟩
  case last =>
    intro hst
    have run := lastPageSent_eq ho hx
    rw [if_pos hst] at run
    have now := handoff_of_set (t := setOwned s h (waitingOwned s o x)) (waitingOwned s o x) rfl
    exact ⟨_, run, congrArg (Option.map (·.st)) now, congrArg (Option.bind · (·.timer)) now, congrArg (Option.map (·.orphanUs)) now, rfl⟩
  case notSending => exact fun hst => by rw [lastPageSent_eq ho hx, if_neg hst]
  case timer =>
    intro start ht hst hs
    have run := orphanTimer_waiting ho hx ht hst
    refine ⟨fun due => ?_, fun early => by rw [run, if_neg (Nat.not_le.mpr early)]⟩
    rw [if_pos due, askTail_canSend (by exact hs)] at run
    exact ⟨_, run, congrArg (Option.map (·.st)) (handoff_of_set (queryingOwned o x) rfl), rfl, rfl⟩
  case refused =>
    intro hd bits hm hst
    have run := handoffRefuse_eq ho hx bits hm.1
    rw [if_pos ⟨(meets hd hm.1).mp hm, hst⟩, abortHandoff_refused (s := sysTaken s (.refuse hd)) ho hx] at run
    have now := handoff_of_set (t := issue (setOwned (sysTaken s (.refuse hd)) h (refusedOwned o x)) (abortStep (sysTaken s (.refuse hd)) o x) .handoff)
      (refusedOwned o x) (issue_owned ..)
    exact ⟨_, _, run, congrArg (Option.map (·.st)) now, congrArg (Option.map (·.refused)) now, issue_issued .., rfl, rfl, rfl, rfl⟩
  case unmatched =>
    intro hd bits hh hn
    rw [handoffRefuse_eq ho hx bits hh, if_neg fun hm => hn ⟨(meets hd hh).mpr hm.1, hm.2⟩]
    rfl

end Sys2Proof.Proofs
end

section
/-!
PROOFS. O39 (05_request_state_and_ownership.md R142, R143, R146, R150, R152, Table 5.8): the receiver of a handoff, replicas, and the claim of a
recovery.
-/
namespace Sys2Proof.Proofs
open Sys2Proof.Machine Sys2Proof.Laws

/-- The reception that shows once it has been set. -/
theorem recving_of_set {t : State} {h : Nat} {l : Tab Nat Recving} (w : Recving) (ht : t.req.recving = tset l h w) :
    tget t.req.recving h = some w := by
  rw [ht, tget_tset_self]

/-! ### OFFER (R142) -/

/-- A reception whose orphan timer starts now. -/
def restarted (s : State) (v : Recving) : Recving := { v with timer := s.mono, orphanUs := orphanUsNow s }

/-- The PLACED by which a receiver answers. -/
def placedAnswer (s : State) (v : Recving) : SysMsg := .placed (tongsTo s v.offer 1 0 (heldPages v).length) (heldPages v)

section
variable {f : Offer} {s : State}

/-- An OFFER in hand is answered with the pages held. -/
theorem offer_inHand {v : Recving} (hout : ∀ d, (d, SysMsg.offer f) ∉ s.req.outbox) (hv : tget s.req.recving f.record.handle = some v)
    (he : v.offer.epoch = f.epoch) (hn : v.offer.step = f.step) :
    exec (.offer f) s = .next (s.keepHost (sysSend (setRecving s f.record.handle (restarted s v)) v.offer.sender (placedAnswer s v))) := by
  change execOffer f s = _
  simp only [execOffer, sysTaken_of_notMem (hout _), hv, he, hn, decide_true, Bool.and_self, if_true]
  rfl

/-- An unfit OFFER is refused. -/
theorem offer_unfit (hout : ∀ d, (d, SysMsg.offer f) ∉ s.req.outbox) (hv : tget s.req.recving f.record.handle = none) (hf : offerOk s f = false) :
    exec (.offer f) s = .next (s.keepHost (sendRefuse s f)) := by
  change execOffer f s = _
  simp only [execOffer, sysTaken_of_notMem (hout _), hv, freshOffer, hf]
  rfl

end

/-! ### Pages (R143) -/

theorem putPage_data (s : State) (i : Nat) (b : Blob) : tget (putPage s i b).tier.data i = some b := tget_tset_self ..

/-- The entry of an offered page once it is placed. -/
def placedEntry (v : Recving) (p : PageData) (e : PageEntry) : PageEntry :=
  { e with present := true, full := offeredSealed v.offer (p.layer, p.index), upto := if offeredSealed v.offer (p.layer, p.index) then 256 else p.upto }

/-- The reception once a page of its offer is placed: while it is RECEIVING its orphan timer starts anew. -/
def pagePlaced (s : State) (v : Recving) (p : PageData) (e : PageEntry) : Recving :=
  { v with
    pages := tset v.pages (p.layer, p.index) (placedEntry v p e)
    timer := if v.st = .receiving then s.mono else v.timer
    orphanUs := if v.st = .receiving then orphanUsNow s else v.orphanUs }

/-- The state in which the page is held. -/
def pageHeld (s : State) (h : Nat) (v : Recving) (p : PageData) (e : PageEntry) : State :=
  putPage (setRecving (sysTaken s (.page h p)) h (pagePlaced s v p e)) e.dir p.blob

/-- A page of the offer that was not yet held is placed, and goes on to the replica members where it is sealed. -/
theorem handoffPagePlaced_places {h : Nat} {v : Recving} {p : PageData} {e : PageEntry} {s : State} (hv : tget s.req.recving h = some v)
    (he : tget v.pages (p.layer, p.index) = some e) (hn : e.present = false) :
    ∃ t l, exec (.handoffPagePlaced h p) s = .next (s.keepHost t) ∧ t = sendEach (pageHeld s h v p e) l := by
  have known : tget (sysTaken s (.page h p)).req.recving h = some v := hv
  have run : exec (.handoffPagePlaced h p) s = quiet s (if offeredSealed v.offer (p.layer, p.index)
      then sendReplicas (pageHeld s h v p e) h p (replicaMembers (pageHeld s h v p e) h v.offer.record.replicas) else pageHeld s h v p e) := by
    change execHandoffPagePlaced h p s = _
    simp only [execHandoffPagePlaced, known, he, hn, Bool.false_eq_true, if_false]
    rfl
  by_cases sealed' : offeredSealed v.offer (p.layer, p.index) = true
  · rw [if_pos sealed', sendReplicas_eq] at run
    exact ⟨_, _, run, rfl⟩
  · rw [if_neg sealed'] at run
    exact ⟨_, [], run, rfl⟩

/-! ### CLAIM (R143) -/

theorem allPlaced_of {v : Recving} (h : ∀ k, (v.offer.pages[k]?).elim false (·.present) = true →
      (tget v.pages (k / v.offer.hashes.length, k % v.offer.hashes.length)).elim false (·.present) = true) : allPlaced v = true := by
  refine List.all_eq_true.mpr fun k hk => ?_
  obtain ⟨n, -, hn⟩ := List.mem_filterMap.mp hk
  split at hn
  next present =>
    cases hn
    exact h n present
  next => cases hn

/-- The CLAIM of a receiver, before its digest. -/
def claimStep (s : State) (v : Recving) : LStep :=
  { stepOf s v.offer.record 4 with
    step := v.offer.step + 1, epoch := v.offer.epoch, newPhase := v.offer.target, payload := .claim (claimedRecord s v) }

/-- A receiver that claims. -/
def claimingRecving (s : State) (v : Recving) : Recving := { v with st := .claiming, timer := s.mono, orphanUs := orphanUsNow s }

theorem claimHandoff_eq (s : State) (h : Nat) (v : Recving) :
    claimHandoff s h v = issue (setRecving s h (claimingRecving s v)) (claimStep s v) .handoff := rfl

section
variable {h : Nat} {v : Recving} {flushed : List Nat} {s : State} (hv : tget s.req.recving h = some v) (hst : v.st = .receiving)
  (hp : allPlaced v = true)
include hv hst hp

theorem allPagesPlaced_flushes (hf : v.flushed = false) (hm : replicaMembers s h v.offer.record.replicas ≠ []) :
    exec (.allPagesPlaced ⟨h, flushed⟩) s = .next (s.keepHost (sendFlush
      (setRecving s h { v with flushing := replicaMembers s h v.offer.record.replicas, flushed := true }) h
      (replicaMembers s h v.offer.record.replicas))) := by
  change execAllPagesPlaced ⟨h, flushed⟩ s = _
  simp [execAllPagesPlaced, hv, hst, hp, hf, hm, quiet]

variable (hf : v.flushed = true ∨ replicaMembers s h v.offer.record.replicas = [])
include hf

/-- Once there is no FLUSH to send, those that have completed count. -/
theorem allPagesPlaced_counts : exec (.allPagesPlaced ⟨h, flushed⟩) s = .next (s.keepHost (
      if (v.flushing.filter fun m => !flushed.contains m) = [] then claimHandoff s h { v with flushing := [], flushed := true }
      else setRecving s h { v with flushing := v.flushing.filter fun m => !flushed.contains m })) := by
  have sent : (!v.flushed && decide (replicaMembers s h v.offer.record.replicas ≠ [])) = false := by
    rcases hf with hf | hf <;> simp [hf]
  change execAllPagesPlaced ⟨h, flushed⟩ s = _
  simp only [execAllPagesPlaced, hv, hst, hp, sent, decide_true, Bool.and_self, if_true, Bool.false_eq_true, if_false]
  split <;> rfl

end

/-! ### The orphan timer and replicas (R143, R146) -/

theorem orphanTimer_receiver {h : Nat} {v : Recving} {s : State} (ho : ownedOf s h = none) (hv : tget s.req.recving h = some v) (hst : v.st ≠ .rquery) :
    exec (.orphanTimerExpiry h) s = if v.timer + v.orphanUs * 1000 ≤ s.mono then
      .next (s.keepHost (askTail (setRecving s h { v with st := .rquery }) h .receiver)) else .next s := by
  change execOrphanTimerExpiry h s = _
  simp [execOrphanTimerExpiry, ho, hv, hst, quiet]

/-- A replica that the module has already is replaced. -/
theorem replicaArrival_replaces {h sender : Nat} {p : PageData} {e : LEntry} {m : ModelDef} {i : Nat} {s : State}
    (he : tget s.req.ledger (h, 1) = some e) (hm : modelOf s (handleTenant h) e.record.model = some m)
    (hi : tget s.req.replicas (h, p.layer, p.index) = some i) :
    exec (.replicaArrival h ⟨sender, p⟩) s = .next (s.keepHost (putPage (sysTaken s (.replica h sender p)) i p.blob)) := by
  have record : localRecord (sysTaken s (.replica h sender p)) h = some e.record := by
    have entry : tget (sysTaken s (.replica h sender p)).req.ledger (h, 1) = some e := he
    simp only [localRecord, entry]
  have model : modelOf (sysTaken s (.replica h sender p)) (handleTenant h) e.record.model = some m := hm
  have held : tget (sysTaken s (.replica h sender p)).req.replicas (h, p.layer, p.index) = some i := hi
  change execReplicaArrival h ⟨sender, p⟩ s = _
  simp only [execReplicaArrival, record, Option.bind_some, model, held]
  rfl

/-! ### What freeing leaves alone (06 R177, R200) -/

section
variable {β : Type} {view : State → β} (hv : ∀ (s : State) (t : Tier) (c : Comp), view { s with tier := t, comp := c } = view s)
include hv

theorem releaseRun_keeps (s : State) (i : Nat) (r : Run) : view (releaseRun s i r) = view s := by
  unfold releaseRun
  split <;> exact hv ..

theorem freeEntry_keeps (s : State) (i : Nat) : view (freeEntry s i) = view s := by
  unfold freeEntry
  split
  · rfl
  next e _ =>
    refine (hv ..).trans (Eq.trans ?_ (releaseRun_keeps hv s i e.run))
    split
    · exact hv ..
    · rfl

theorem freeEntries_keeps : ∀ (l : List Nat) (s : State), view (freeEntries s l) = view s
  | [], _ => rfl
  | i :: l, s => (freeEntries_keeps l (freeEntry s i)).trans (freeEntry_keeps hv s i)

theorem dropSet_keeps (s : State) (ix : Nat) : view (dropSet s ix) = view s := by
  unfold dropSet
  split
  · rfl
  next p _ =>
    refine Eq.trans ?_ (freeEntries_keeps hv p.dirs s)
    unfold unindexSet
    dsimp only
    split <;> exact hv ..

theorem releaseSet_keeps (s : State) (ix : Nat) : view (releaseSet s ix) = view s := by
  unfold releaseSet
  split
  · rfl
  next p _ =>
    dsimp only
    rw [apply_ite view, dropSet_keeps hv, ite_self]
    refine (foldl_keeps (view := view) (fun st i => ?_) p.dirs _).trans (hv ..)
    split
    · exact hv ..
    · rfl

theorem releaseSets_keeps (l : List Nat) (s : State) : view (releaseSets s l) = view s := foldl_keeps (releaseSet_keeps hv) l s

end

/-- Ending a reception drops it, and changes nothing else of the requests. -/
theorem endReception_req (s : State) (h : Nat) (pages : Tab (Nat × Nat) PageEntry) :
    ∃ r, (endReception s h pages).req = { s.req with recving := r } := by
  unfold endReception
  split
  · exact ⟨s.req.recving, rfl⟩
  · dsimp only
    rw [releaseSets_keeps (view := State.req) (fun _ _ _ => rfl), freeEntries_keeps (view := State.req) (fun _ _ _ => rfl)]
    exact ⟨_, rfl⟩

theorem selfId_endReception (s : State) (h : Nat) (pages : Tab (Nat × Nat) PageEntry) : selfId (endReception s h pages) = selfId s := by
  unfold endReception
  split
  · rfl
  · exact (releaseSets_keeps (view := selfId) (fun _ _ _ => rfl) ..).trans (freeEntries_keeps (view := selfId) (fun _ _ _ => rfl) ..)

/-! ### The claim of a recovery (R150, R152) -/

theorem recoveryClaim_not {h : Nat} {v : Recovery} {e : LEntry} {s : State} (hv : tget s.req.recovering h = some v)
    (he : tget s.req.ledger (h, 1) = some e) (hn : v.started = false ∨ v.claiming = true ∨ v.limit = true) :
    exec (.recoveryClaim h []) s = .next s := by
  have notYet : (!v.started || v.claiming || v.limit) = true := by simpa [or_assoc] using hn
  change execRecoveryClaim h [] s = _
  simp only [execRecoveryClaim, hv, he, notYet, if_true]

/-- The state in which a recovery has ended its survey with the pages that the head itself has, and claims. -/
def surveyed (s : State) (h : Nat) (v : Recovery) : State :=
  let s0 := endReception s h (survivingHere s h)
  { s0 with req := { s0.req with
    recovering := tset s0.req.recovering h { v with claiming := true }
    replicas := s0.req.replicas.filter fun q => q.1.1 ≠ h
    recovered := tset s0.req.recovered h (survivingHere s h) } }

/-- The CLAIM of a recovery, before its digest: back to the phase before the loss (R152). -/
def recoveryStep (s : State) (h : Nat) (v : Recovery) (r : ReqRec) (firstMissing : Nat) : LStep :=
  let owner := { r with epoch := r.epoch + 1, step := r.step + 1, owner := selfId s, phase := recoveredPhase r, peer := 0x3FFFF, firstMissing := firstMissing }
  { stepOf (surveyed s h v) r 4 with newPhase := recoveredPhase r, firstMissing := firstMissing, payload := .claim owner }

/-- With no survivor elsewhere, a recovery whose START_RECOVERY has committed issues its CLAIM, with the lowest position that is missing. -/
theorem recoveryClaim_claims {h : Nat} {v : Recovery} {e : LEntry} {s : State} (hv : tget s.req.recovering h = some v)
    (he : tget s.req.ledger (h, 1) = some e) (hs : v.started = true) (hc : v.claiming = false) (hl : v.limit = false) :
    ∃ fm, exec (.recoveryClaim h []) s = .next (s.keepHost (issue (surveyed s h v) (recoveryStep s h v e.record fm) .recovery)) := by
  have ready : (!v.started || v.claiming || v.limit) = false := by simp [hs, hc, hl]
  change ∃ fm, execRecoveryClaim h [] s = _
  cases hm : modelOf s (handleTenant h) e.record.model with
  | none =>
    simp only [execRecoveryClaim, hv, he, ready, hm, Bool.false_eq_true, if_false]
    exact ⟨_, rfl⟩
  | some d =>
    simp only [execRecoveryClaim, hv, he, ready, hm, Bool.false_eq_true, if_false, copySurvivors]
    exact ⟨_, rfl⟩

/-- What the state shows then: no step issued yet, the recovery claiming, under the same fabric ID. -/
theorem surveyed_shows (s : State) (h : Nat) (v : Recovery) :
    (surveyed s h v).req.issued = s.req.issued ∧ tget (surveyed s h v).req.recovering h = some { v with claiming := true } ∧
      selfId (surveyed s h v) = selfId s := by
  obtain ⟨r, hr⟩ := endReception_req s h (survivingHere s h)
  refine ⟨?_, tget_tset_self .., selfId_endReception ..⟩
  simp only [surveyed, hr]

/-- Settles O39: each row is one of the equations above, by what the module has of the handoff, the replica or the recovery. -/
theorem handoffAtTheReceiver : Obligations.HandoffAtTheReceiver := by
  unfold Obligations.HandoffAtTheReceiver
  refine ⟨?offer, ?page, ?claim, ?timer, ?replica, ?recovery⟩
  case offer =>
    intro f s hs hout
    refine ⟨fun v hv he hn => ?_, fun hv hf => ?_⟩
    · have run := offer_inHand hout hv he hn
      rw [sysSend_canSend (by exact hs)] at run
      refine ⟨_, run, rfl, ?_, congrArg (Option.map (·.timer)) (recving_of_set (restarted s v) rfl)⟩
      rw [← he, ← hn]
      rfl
    · rw [offer_unfit hout hv hf, sendRefuse, sysSend_canSend hs]
      rfl
  case page =>
    intro h v p e s hv he hn whole
    obtain ⟨w, l, run, rfl⟩ := handoffPagePlaced_places hv he hn
    obtain ⟨out, again, sent⟩ := sendEach_eq l (pageHeld s h v p e)
    rw [sent] at run
    exact ⟨_, pagePlaced s v p e, run, recving_of_set _ rfl, tget_tset_self ..,
      putPage_data (setRecving (sysTaken s (.page h p)) h (pagePlaced s v p e)) ..⟩
  case claim =>
    intro h v flushed s hv hst n ms hp
    have placed := allPlaced_of hp
    refine ⟨fun hf done => ?_, fun hf ⟨m, hm, left⟩ => ?_, fun hf hm hs => ?_⟩
    · have run := allPagesPlaced_counts hv hst placed hf (flushed := flushed)
      rw [if_pos (List.filter_eq_nil_iff.mpr fun m hm => by simpa using done m hm), claimHandoff_eq] at run
      refine ⟨_, _, claimedRecord s v, run, ?_, issue_issued .., rfl, rfl, rfl, rfl, rfl, rfl, rfl, rfl, rfl⟩
      rw [keepHost_req, issue_recving]
      exact congrArg (Option.map (·.st)) (tget_tset_self s.req.recving h (claimingRecving s { v with flushing := [], flushed := true }))
    · have run := allPagesPlaced_counts hv hst placed (.inl hf) (flushed := flushed)
      rw [if_neg fun none => List.filter_eq_nil_iff.mp none m hm (by simpa using left)] at run
      exact ⟨_, run, recving_of_set _ rfl, rfl, rfl⟩
    · have run := allPagesPlaced_flushes hv hst placed hf hm (flushed := flushed)
      rw [sendFlush_eq, sendEach_canSend _ (by exact hs)] at run
      exact ⟨_, run, rfl, congrArg (Option.map (·.flushing)) (recving_of_set { v with flushing := ms, flushed := true } rfl), rfl⟩
  case timer =>
    intro h v s ho hv hst
    have run := orphanTimer_receiver ho hv hst
    refine ⟨fun due => ?_, fun early => by rw [run, if_neg (Nat.not_le.mpr early)]⟩
    obtain ⟨out, again, asked⟩ := askTail_eq (setRecving s h { v with st := .rquery }) h .receiver
    rw [if_pos due, asked] at run
    exact ⟨_, run, congrArg (Option.map (·.st)) (recving_of_set { v with st := .rquery } rfl), rfl⟩
  case replica => exact fun h sender p e m i s he hm hi => ⟨_, replicaArrival_replaces he hm hi, putPage_data .., rfl⟩
  case recovery =>
    intro h v e s hv he hh
    refine ⟨fun no => recoveryClaim_not hv he no, fun hs hc hl => ?_⟩
    obtain ⟨fm, run⟩ := recoveryClaim_claims hv he hs hc hl
    obtain ⟨issued, claiming, self⟩ := surveyed_shows s h v
    refine ⟨_, issuedAlone (surveyed s h v) (recoveryStep s h v e.record fm) .recovery, run, ?_, rfl, rfl, rfl, self, rfl, ?_⟩
    · exact (issue_issued ..).trans (congrArg (· ++ _) issued)
    · rw [keepHost_req, issue_recovering, claiming]
      rfl

end Sys2Proof.Proofs
end

section
/-!
PROOFS. O40 (06_kv_pages_and_tiers.md R185, R603): PAGE_DROP of a request whose first page counts more positions than a page has.
-/
namespace Sys2Proof.Proofs
open Sys2Proof.Machine

/-- PAGE_DROP of the request with handle 5 from position 256 on. -/
def dropSecondPage : Cmd :=
  { fn := 0, q := 0, src := none, w0 := 0x24, w1 := 5, w2 := BitVec.ofNat 64 (256 * 2 ^ 32), w3 := 0, w4 := 0, w5 := 0, w6 := 0, w7 := 0 }

/-- The slot into which it was fetched. -/
def fetchedDrop : Slot :=
  { id := 0, cmd := dropSecondPage, order := 0, arrived := 0, members := [], phase := .fetched, sentAt := 0, sentTo := none, askedAt := 0, aux := 0
    injected := false, dead := false }

/-- The request: 300 tokens in DECODING. The entry of its page (0, 0) counts 300 positions as written, where a page has 256. -/
def overfullOwned : Owned :=
  { record := { createRecord State.reset dropSecondPage 5 0x3FFFF [] with phase := 4, model := 2, logged := 300 }
    log := [], blocks := [], handoff := none, lastDone := true, lastStart := 0, adapterRef := false, refs := []
    pages := [((0, 0), { dir := 10, present := true, full := false, shared := false, pin := false, upto := 300 })] }

/-- Its model, of one layer. -/
def oneLayerModel : ModelDef :=
  { tenant := 0, model := 2, layers := 1, kvHeads := 1, qpk := 1, headDim := 64, kvFmt := 0, kvScale := 0, kvGroup := 0, pageBytes := 65536 }

/-- The module that owns the request and has fetched the PAGE_DROP. -/
def overfullPage : State :=
  { State.reset with
    host := { HostIf.reset with slots := [fetchedDrop], nextSlot := 1, nextStart := 1 }
    req := { State.reset.req with owned := [(5, overfullOwned)] }
    tier := { Tier.reset with models := [oneLayerModel] } }

theorem oneHere_overfullPage : OneHere 0x24 dropSecondPage overfullPage 0 overfullPage :=
  ⟨⟨⟨by decide, rfl, by decide⟩, by decide⟩, by decide⟩

theorem here_overfullPage_issued : (here overfullPage 0 dropSecondPage).req.issued = [] := by decide

/-- All 300 positions count as placed after the drop too, so the RECORD step says that none is missing. -/
theorem pageDrop_overfullPage :
    ∃ t, exec (.pageDrop dropSecondPage) overfullPage = .next t ∧ t.req.issued.map (fun i => i.step.firstMissing) = [0xFFFFFFFF] :=
  ⟨_, rfl, by decide⟩

/-- Refutes O40: its clause on PAGE_DROP says that the RECORD step gives a FIRST_MISSING not above the position dropped from, but takes a page list of
any kind, and a page entry may count more than 256 positions (HANDOFF_PAGE_PLACED takes the count from its message as it is). In `overfullPage`
the first page alone counts the 300 tokens, and FIRST_MISSING is 0xFFFF_FFFF after a drop from position 256 on. -/
theorem not_pagesMoveBetweenTiers : ¬ Obligations.PagesMoveBetweenTiers := by
  unfold Obligations.PagesMoveBetweenTiers
  intro h
  obtain ⟨-, -, -, -, -, -, -, drop⟩ := h
  have drops := (drop dropSecondPage 0 overfullPage overfullPage overfullOwned oneLayerModel oneHere_overfullPage (by decide) rfl (by decide)
    (by decide) (by decide)).2
  obtain ⟨t, i, -, run, issued, -, -, low, -⟩ := drops (by decide) (by decide) (by decide)
  obtain ⟨t', run', shown⟩ := pageDrop_overfullPage
  rw [run', Host.Outcome.next.injEq] at run
  rw [run, issued, here_overfullPage_issued, List.nil_append, List.map_singleton, List.cons.injEq] at shown
  have position : fld dropSecondPage.w2 63 32 = 256 := by decide
  omega

end Sys2Proof.Proofs
end

section
/-!
PROOFS. What freeing and charging change of the state (06_kv_pages_and_tiers.md R177, R178; 17_shaping_and_budgets.md R499, R500).
-/
namespace Sys2Proof.Proofs
open Sys2Proof.Machine

/-! ### Freeing changes runs and directory entries alone -/

/-- A run is released at once or drains. -/
theorem releaseRun_eq (s : State) (i : Nat) (r : Run) : ∃ u f b d,
    releaseRun s i r = { s with tier := { s.tier with used := u, freed := f, spoiled := b, drains := d } } := by
  unfold releaseRun
  split <;> exact ⟨_, _, _, _, rfl⟩

theorem freeEntry_eq (s : State) (i : Nat) : ∃ d q w b m u f p x, freeEntry s i = { s with tier := { s.tier with
    dir := d, freeSeq := q, waitPins := w, data := b, moves := m, used := u, freed := f, spoiled := p, drains := x } } := by
  unfold freeEntry
  split
  · exact ⟨_, _, _, _, _, _, _, _, _, rfl⟩
  next e _ =>
    obtain ⟨u, f, b, d, h⟩ := releaseRun_eq s i e.run
    rw [h]
    dsimp only
    split <;> exact ⟨_, _, _, _, _, _, _, _, _, rfl⟩

theorem freeEntries_eq (l : List Nat) : ∀ s : State, ∃ d q w b m u f p x, freeEntries s l = { s with tier := { s.tier with
    dir := d, freeSeq := q, waitPins := w, data := b, moves := m, used := u, freed := f, spoiled := p, drains := x } } := by
  induction l with
  | nil => exact fun s => ⟨_, _, _, _, _, _, _, _, _, rfl⟩
  | cons i l ih =>
    intro s
    obtain ⟨d, q, w, b, m, u, f, p, x, first⟩ := freeEntry_eq s i
    obtain ⟨d', q', w', b', m', u', f', p', x', rest⟩ := ih (freeEntry s i)
    exact ⟨d', q', w', b', m', u', f', p', x', rest.trans (by rw [first])⟩

section
variable (s : State) (l : List Nat)

@[simp] theorem freeEntries_comp : (freeEntries s l).comp = s.comp := by
  obtain ⟨_, _, _, _, _, _, _, _, _, h⟩ := freeEntries_eq l s
  rw [h]

@[simp] theorem freeEntries_req : (freeEntries s l).req = s.req := by
  obtain ⟨_, _, _, _, _, _, _, _, _, h⟩ := freeEntries_eq l s
  rw [h]

@[simp] theorem freeEntries_prefixes : (freeEntries s l).tier.prefixes = s.tier.prefixes := by
  obtain ⟨_, _, _, _, _, _, _, _, _, h⟩ := freeEntries_eq l s
  rw [h]

@[simp] theorem freeEntries_lent : (freeEntries s l).tier.lent = s.tier.lent := by
  obtain ⟨_, _, _, _, _, _, _, _, _, h⟩ := freeEntries_eq l s
  rw [h]

@[simp] theorem canSend_freeEntries : canSend (freeEntries s l) = canSend s := by
  obtain ⟨_, _, _, _, _, _, _, _, _, h⟩ := freeEntries_eq l s
  rw [h]
  rfl

end

/-! ### Charges leave the tiers as they are -/

section
variable (s : State)

@[simp] theorem charge_tier (t r c g n : Nat) : (charge s t r c g n).tier = s.tier := by
  unfold charge
  split <;> rfl

@[simp] theorem chargeFree_tier (t r c g : Nat) : (chargeFree s t r c g).tier = s.tier := by
  unfold chargeFree
  split
  · rfl
  · exact charge_tier ..

@[simp] theorem chargeStacks_tier (t cls : Nat) (ks : List Nat) : (chargeStacks s t cls ks).tier = s.tier :=
  foldl_keeps (view := State.tier) (fun s k => chargeFree_tier s t 1 cls k) ks s

@[simp] theorem chargeMove_tier (t cls : Nat) (ks : List Nat) (n : Nat) : (chargeMove s t cls ks n).tier = s.tier :=
  (foldl_keeps (view := State.tier) (fun s k => charge_tier s t 1 cls k n) ks _).trans (charge_tier ..)

end

end Sys2Proof.Proofs
end

section
/-!
PROOFS. O43 (06_kv_pages_and_tiers.md R202–R205, Table 6.10; 09_experts_and_weight_streaming.md R294, R295): streams of the weight window.
-/
namespace Sys2Proof.Proofs
open Sys2Proof.Machine Sys2Proof.Laws

/-! ### Filling idle slots (R203, R205) -/

/-- Beginning to fill adds slots and takes none away. -/
theorem mem_startFills {x : Stream} {w : WinSlot} (h : w ∈ x.slots) (behind : List Nat) : w ∈ (x.startFills behind).slots := by
  unfold Stream.startFills
  split
  · exact h
  · exact List.mem_append_left _ h

/-- A slot that it adds is one that was reserved and idle, empty, for a layer left behind or wanted. -/
theorem of_mem_startFills {x : Stream} {behind : List Nat} {w : WinSlot} (h : w ∈ (x.startFills behind).slots) :
    w ∈ x.slots ∨ (x.sourceLost = false ∧ w.filled = false ∧ (w.layer ∈ behind ∨ w.layer ∈ x.wanted) ∧ w.slot ∈ x.reserved) := by
  unfold Stream.startFills at h
  split at h
  · exact .inl h
  next alive =>
    refine (List.mem_append.mp h).imp_right fun added => ?_
    obtain ⟨p, hp, rfl⟩ := List.mem_map.mp added
    obtain ⟨idle, layer⟩ := List.of_mem_zip hp
    exact ⟨by simpa using alive, rfl, (List.mem_append.mp layer).imp_right List.mem_of_mem_filter, List.mem_of_mem_filter idle⟩

/-- A stream without slots fills as many as it has reserved, in the order in which it wants layers. -/
theorem startFills_empty {x : Stream} (hs : x.slots = []) (hl : x.sourceLost = false) (hr : x.wanted.length ≤ x.reserved.length) :
    (x.startFills []).slots.map (·.layer) = x.wanted := by
  have idle : x.idle = x.reserved := by simp [Stream.idle, hs]
  have lacking : x.lacking = x.wanted := by simp [Stream.lacking, slotOfLayer, hs]
  simp only [Stream.startFills, hl, hs, idle, lacking, Bool.false_eq_true, if_false, List.nil_append, List.map_map]
  exact List.map_snd_zip hr

/-- Only the slots of a stream change as it begins to fill. -/
theorem startFills_eq (x : Stream) (behind : List Nat) : x.startFills behind = { x with slots := (x.startFills behind).slots } := by
  unfold Stream.startFills
  split <;> rfl

theorem startFills_reserved (x : Stream) (behind : List Nat) : (x.startFills behind).reserved = x.reserved := by rw [startFills_eq]

theorem wanted_length (x : Stream) : x.wanted.length = min (x.distance + 1) x.layers := by simp [Stream.wanted]

/-! ### WINDOW_OPEN (R203) -/

/-- The stream that WINDOW_OPEN opens, before it fills. -/
def freshStream (s : State) (c : Cmd) : Stream :=
  let x := openArgs c
  { tenant := cmdTenant s c, source := x.kind, adapter := if x.kind = 0 then x.adapter else 0, version := if x.kind = 0 then x.version else 0
    addr := x.addr, stride := x.stride, layerBytes := x.layerBytes, layers := x.layers, cursor := x.first, distance := prefetchNow s
    reserved := (freeSlots s).take (prefetchNow s + 1), slots := [], sourceLost := x.kind = 1 && !s.host.link.up, cut := false, closing := false }

section
variable {c : Cmd} {id : Nat} {s s1 : State} (h : Starts 0x28 c s id s1)
include h

theorem windowOpen_refused {e : Nat} (he : openRefusal (begun s1 id c) (cmdTenant (begun s1 id c) c) (openArgs c) = some e) :
    exec (.windowOpen c) s = .next (s.keepHost (finish (begun s1 id c) id e 0 0)) := by
  change quiet s (runWindowOpen c s) = _
  simp only [runWindowOpen, runCmd_starts h, he]
  rfl

theorem windowOpen_opens (he : openRefusal (begun s1 id c) (cmdTenant (begun s1 id c) c) (openArgs c) = none) :
    exec (.windowOpen c) s = .next (s.keepHost (finish (setStream (begun s1 id c) (freeNumber 0 ((begun s1 id c).tier.streams.map (·.1)))
      ((freshStream (begun s1 id c) c).startFills [])) id 0 (freeNumber 0 ((begun s1 id c).tier.streams.map (·.1))) 0)) := by
  change quiet s (runWindowOpen c s) = _
  simp only [runWindowOpen, runCmd_starts h, he]
  rfl

end

/-- The slots of a fresh stream of host memory that is there: one for each layer that it wants, empty, among those reserved. -/
theorem freshStream_slots {s : State} {c : Cmd} (hf : prefetchNow s < (freeSlots s).length) (up : s.host.link.up = true) :
    ((freshStream s c).startFills []).slots.map (·.layer) = (freshStream s c).wanted ∧
      ∀ z ∈ ((freshStream s c).startFills []).slots, z.filled = false ∧ z.slot ∈ ((freshStream s c).startFills []).reserved := by
  have alive : (freshStream s c).sourceLost = false := by simp [freshStream, up]
  have room : (freshStream s c).wanted.length ≤ (freshStream s c).reserved.length := by
    rw [wanted_length, freshStream, List.length_take]
    dsimp only
    omega
  have kept : ((freshStream s c).startFills []).reserved = (freshStream s c).reserved := startFills_reserved ..
  refine ⟨startFills_empty rfl alive room, fun z hz => ?_⟩
  obtain old | ⟨-, empty, -, slot⟩ := of_mem_startFills hz
  · cases old
  · exact ⟨empty, kept ▸ slot⟩

/-! The refusals of WINDOW_OPEN in their order (R203, R294). -/

theorem openRefusal_unavailable {s : State} (hw : s.image.window = none) (t : Nat) (x : OpenArgs) :
    openRefusal s t x = some Status.windowUnavailable := by
  simp [openRefusal, hw]

section
variable {s : State} {w : WindowRec} (hw : s.image.window = some w) (t : Nat) {x : OpenArgs}
include hw

theorem openRefusal_full (hf : (freeSlots s).length ≤ prefetchNow s) : openRefusal s t x = some Status.windowFull := by
  simp [openRefusal, hw, orCode, firstCode, Nat.not_lt.mpr hf]

variable (hf : prefetchNow s < (freeSlots s).length)
include hf

theorem openRefusal_slice (hb : w.slotBytes < x.layerBytes) : openRefusal s t x = some Status.windowSliceSize := by
  simp [openRefusal, hw, orCode, firstCode, hf, Nat.not_le.mpr hb]

/-- A host stream that fits is refused for its layers, then for the number of streams. -/
theorem openRefusal_host (hb : x.layerBytes ≤ w.slotBytes) (hk : x.kind = 1) (ha : x.addr % 4096 = 0) :
    openRefusal s t x = if x.layers = 0 ∨ 256 < x.layers ∨ x.layers ≤ x.first then some Status.windowRange
      else if 255 ≤ s.tier.streams.length then some Status.windowFull else none := by
  have fits : (decide (1 ≤ x.layers) && decide (x.layers ≤ 256) && decide (x.first < x.layers)) =
      !decide (x.layers = 0 ∨ 256 < x.layers ∨ x.layers ≤ x.first) := by
    rw [Bool.eq_iff_iff]
    simp only [Bool.and_eq_true, decide_eq_true_eq, Bool.not_eq_true', decide_eq_false_iff_not]
    omega
  simp only [openRefusal, hw, orCode, hf, hb, hk, ha, fits]
  by_cases hl : x.layers = 0 ∨ 256 < x.layers ∨ x.layers ≤ x.first
  · simp [hl, firstCode]
  · by_cases hn : 255 ≤ s.tier.streams.length
    · simp [hl, hn, firstCode, Nat.not_lt.mpr hn]
    · simp [hl, hn, firstCode, Nat.lt_of_not_le hn]

end

/-! ### WINDOW_ADVANCE and WINDOW_CLOSE (R205) -/

section
variable {s : State} {id : Nat} {c : Cmd} {k : Nat → Stream → State}

theorem withStream_open {x : Stream} (hx : tget s.tier.streams (fld c.w2 7 0) = some x) (ht : x.tenant = cmdTenant s c) :
    withStream s id c k = k (fld c.w2 7 0) x := by
  simp [withStream, hx, ht]

/-- No stream of the number, one of another tenant, and one that closes, where the command refuses that, are unknown. -/
theorem withStream_gone (gone : ∀ x, tget s.tier.streams (fld c.w2 7 0) = some x → x.tenant ≠ cmdTenant s c ∨ x.closing = true)
    (closing : ∀ n x, x.closing = true → k n x = fail s id Status.windowUnknown) : withStream s id c k = fail s id Status.windowUnknown := by
  cases hx : tget s.tier.streams (fld c.w2 7 0) with
  | none => simp [withStream, hx]
  | some x =>
    by_cases ht : x.tenant = cmdTenant s c
    · rw [withStream_open hx ht]
      exact closing _ x ((gone x hx).resolve_left fun ne => ne ht)
    · simp [withStream, hx, ht]

end

section
variable {c : Cmd} {id : Nat} {s s1 : State} (h : Starts 0x29 c s id s1)
include h

theorem windowAdvance_here : exec (.windowAdvance c) s = .next (s.keepHost (withStream (begun s1 id c) id c fun n x =>
    if x.closing then fail (begun s1 id c) id Status.windowUnknown
    else if x.cut then fail (begun s1 id c) id Status.streamSourceLost
    else finish (setStream (begun s1 id c) n (advanced (begun s1 id c) x)) id Status.ok (advanced (begun s1 id c) x).cursor 0)) := by
  change quiet s (runWindowAdvance c s) = _
  rw [runWindowAdvance, runCmd_starts h]
  rfl

end

section
variable {c : Cmd} {id : Nat} {s s1 : State} (h : Starts 0x2A c s id s1)
include h

theorem windowClose_here : exec (.windowClose c) s = .next (s.keepHost (withStream (begun s1 id c) id c fun n x =>
    if x.closing then fail (begun s1 id c) id Status.windowUnknown
    else if streamNamed (begun s1 id c) x.tenant n none || slotsFrozen (begun s1 id c)
      then await (setStream (begun s1 id c) n { x with closing := true }) id .earlier
    else finish (setTier (begun s1 id c) { (begun s1 id c).tier with streams := tdel (begun s1 id c).tier.streams n }) id Status.ok 0 0)) := by
  change quiet s (runWindowClose c s) = _
  simp only [runWindowClose, runCmd_starts h, Bool.not_false, Bool.and_true]
  rfl

end

/-! ### WINDOW_SLOT_FILL (R205) -/

/-- Is a layer wanted, or does a started command name it? -/
def layerNeeded (s : State) (n : Nat) (x : Stream) (l : Nat) : Bool := x.wanted.contains l || streamNamed s x.tenant n (some l)

theorem layerNeeded_iff (s : State) (n : Nat) (x : Stream) (l : Nat) :
    layerNeeded s n x l = true ↔ l ∈ x.wanted ∨ streamNamed s x.tenant n (some l) = true := by
  simp [layerNeeded]

/-- The stream with the slots of layers that are not needed released. -/
def slotsReleased (s : State) (n : Nat) (x : Stream) : Stream := { x with slots := x.slots.filter fun w => layerNeeded s n x w.layer }

/-- The layers left behind that a started command names and no slot holds. -/
def layersBehind (s : State) (n : Nat) (x : Stream) : List Nat :=
  (List.range x.layers).filter fun l =>
    !x.wanted.contains l && (slotOfLayer (slotsReleased s n x) l).isNone && streamNamed s x.tenant n (some l)

theorem windowSlotFill_unknown {n : Nat} {s : State} (hx : tget s.tier.streams n = none) : exec (.windowSlotFill n) s = .next s := by
  change execWindowSlotFill n s = _
  simp only [execWindowSlotFill, hx]

theorem windowSlotFill_eq {n : Nat} {x : Stream} {s : State} (hx : tget s.tier.streams n = some x) (hf : slotsFrozen s = false) :
    exec (.windowSlotFill n) s = .next (s.keepHost (setStream s n ((slotsReleased s n x).startFills (layersBehind s n x)))) := by
  change execWindowSlotFill n s = _
  simp only [execWindowSlotFill, hx, hf, Bool.false_eq_true, if_false]
  rfl

/-- After the release and the new fills every slot holds a layer that is needed. -/
theorem layerNeeded_of_mem {s : State} {n : Nat} {x : Stream} {w : WinSlot}
    (h : w ∈ ((slotsReleased s n x).startFills (layersBehind s n x)).slots) :
    layerNeeded s n x w.layer = true := by
  obtain kept | ⟨-, -, layer, -⟩ := of_mem_startFills h
  · exact (List.mem_filter.mp kept).2
  · refine (layerNeeded_iff s n x _).mpr (layer.symm.imp_right fun behind => ?_)
    have := (List.mem_filter.mp behind).2
    simp only [Bool.and_eq_true] at this
    exact this.2

/-! ### WINDOW_SLOT_FILLED (R204, R294, R295) -/

/-- The state in which a fill has read its source: the runs of a version may fail as they are read. -/
def sourceRead (s : State) (x : Stream) : State := if x.source = 0 then (adVer s x.tenant x.adapter x.version).elim s (readVersion s) else s

/-- A slot whose fill has ended: it holds what was read, or its source is lost. -/
def fillEnded (w : WinSlot) : Option Blob → WinSlot
  | some b => { w with filled := true, blob := b }
  | none => { w with lost := true }

theorem windowSlotFilled_unknown {n : Nat} {s : State} (hx : tget s.tier.streams n = none) (layer : Nat) :
    exec (.windowSlotFilled n layer) s = .next s := by
  change execWindowSlotFilled n layer s = _
  simp only [execWindowSlotFilled, hx]

section
variable {n layer : Nat} {x : Stream} {w : WinSlot} {s : State} (hx : tget s.tier.streams n = some x)
include hx

theorem windowSlotFilled_waits (hc : canFill s x = false) : exec (.windowSlotFilled n layer) s = .next s := by
  change execWindowSlotFilled n layer s = _
  simp [execWindowSlotFilled, hx, hc]

/-- A fill whose source can be read, with the gate of the traffic open, ends. -/
theorem windowSlotFilled_ends (hs : x.slots = [w]) (hl : w.layer = layer) (hw : w.filled = false) (hf : slotsFrozen s = false)
    (hm : mayMove s x.tenant 0 [] = true) (hc : canFill s x = true) :
    ∃ t, exec (.windowSlotFilled n layer) s = .next t ∧
      tget t.tier.streams n = some { x with slots := [fillEnded w (fillSource (sourceRead s x) x layer)] } := by
  subst hl
  change ∃ t, execWindowSlotFilled n w.layer s = .next t ∧ _
  simp only [execWindowSlotFilled, hx, hc, hf, hm, Bool.not_true, Bool.or_self, Bool.false_eq_true, if_false]
  refine ⟨_, rfl, ?_⟩
  simp only [keepHost_tier, setStream, setTier_tier, tget_tset_self, hs, List.map_singleton, hw, decide_true, Bool.not_false, Bool.and_self, if_true]
  cases hr : fillSource (sourceRead s x) x w.layer <;> simp only [sourceRead] at hr <;> simp only [hr, fillEnded, hw]

end

/-! ### What a fill reads -/

/-- Cells of a range, moved to address 0. -/
theorem cellAt_moved (m : List Host.Cell) (a n : Nat) {i : Nat} (hi : i < n) :
    cellAt ((m.filter fun c => a ≤ c.1 && c.1 < a + n).map fun c => (c.1 - a, c.2)) i = cellAt m (a + i) := by
  induction m with
  | nil => rfl
  | cons c m ih =>
    obtain ⟨k, b⟩ := c
    unfold cellAt at ih ⊢
    by_cases inside : a ≤ k ∧ k < a + n
    · have same : k - a = i ↔ k = a + i := by omega
      simp only [List.filter_cons, inside, decide_true, Bool.and_self, if_true, List.map_cons, tget, same, ih]
    · have other : k ≠ a + i := by omega
      have out : (decide (a ≤ k) && decide (k < a + n)) = false := by simpa using inside
      simp only [List.filter_cons, out, Bool.false_eq_true, if_false, tget, other, ih]

/-- An object whose unwritten bytes are zeros. -/
theorem blobByte_zeroFill {b : Blob} (h : b.fill = none) (a : Nat) : blobByte b a = (cellAt b.cells a).getD 0 := by
  unfold blobByte
  cases cellAt b.cells a <;> simp [h]

theorem read_eq_cellAt (m : Memory) (a : Nat) : m.read a = (cellAt m a).getD 0 := by
  unfold cellAt
  induction m with
  | nil => rfl
  | cons c m ih =>
    rw [Memory.read_cons, tget, ih]
    split <;> rfl

/-- A stream of host memory reads the layer's bytes (R295). -/
theorem fillSource_host {s : State} {x : Stream} (hx : x.source = 1) (layer : Nat) : ∃ b, fillSource s x layer = some b ∧
    ∀ i, i < x.layerBytes → blobByte b i = s.hostMem.read (x.addr + layer * x.stride + i) := by
  have host : ¬ x.source = 0 := by omega
  simp only [fillSource, host, if_false]
  refine ⟨_, rfl, fun i hi => ?_⟩
  rw [blobByte_zeroFill (by rfl), read_eq_cellAt]
  exact congrArg (Option.getD · 0) (cellAt_moved _ _ _ hi)

/-- A stream of a version that is not lost reads the layer's slice (R294). -/
theorem fillSource_version {s : State} {x : Stream} {v : AdVer} (hx : x.source = 0) (hv : adVer s x.tenant x.adapter x.version = some v)
    (hl : v.st ≠ .lost) (hf : v.content.fill = none) (layer : Nat) : ∃ b, fillSource s x layer = some b ∧
    ∀ i, i < v.sliceBytes → blobByte b i = blobByte v.content (layer * v.sliceBytes + i) := by
  simp only [fillSource, hx, hv, hl, if_true, if_false]
  refine ⟨_, rfl, fun i hi => ?_⟩
  rw [blobByte_zeroFill (by rfl), blobByte_zeroFill hf]
  exact congrArg (Option.getD · 0) (cellAt_moved _ _ _ hi)

theorem fillSource_lost {s : State} {x : Stream} (hx : x.source = 0) (h : ∀ v, adVer s x.tenant x.adapter x.version = some v → v.st = .lost)
    (layer : Nat) : fillSource s x layer = none := by
  cases hv : adVer s x.tenant x.adapter x.version with
  | none => simp [fillSource, hx, hv]
  | some v => simp [fillSource, hx, hv, h v hv]

/-! ### The runs of a version as they are read (R286) -/

theorem readVersion_sound {s : State} {v : AdVer} (h : ∀ i ∈ v.dirs, ∀ e, tget s.tier.dir i = some e → readFails s e = false) :
    readVersion s v = s := by
  have none : v.dirs.filter (fun i => (tget s.tier.dir i).elim false (readFails s)) = [] := by
    refine List.filter_eq_nil_iff.mpr fun i hi => ?_
    cases he : tget s.tier.dir i with
    | none => simp
    | some e => simp [h i hi e he]
  simp only [readVersion, none, if_true]

/-- Losing runs notes the loss in every version, and in nothing else of the units. -/
theorem loseRuns_adapters (s : State) (lost : Nat → DirEntry → Bool) : (loseRuns s lost).comp.adapters =
    s.comp.adapters.map fun v => v.lose fun i => (tget s.tier.dir i).elim false (lost i) := by
  simp only [loseRuns]
  rw [foldl_keeps (view := State.comp) (fun s v => eventT_comp s ..), freeEntries_comp]

theorem readVersion_adapters (s : State) (v : AdVer) :
    readVersion s v = s ∨ ∃ gone, (readVersion s v).comp.adapters = s.comp.adapters.map fun x => x.lose gone := by
  unfold readVersion
  dsimp only
  split
  · exact .inl rfl
  · rw [loseRuns_adapters]
    refine .inr ⟨_, congrArg (List.map _) (congrArg Comp.adapters (foldl_keeps (view := State.comp) (fun s i => ?_) _ s))⟩
    split
    · exact eventT_comp ..
    · rfl

section
variable (v : AdVer) (gone : Nat → Bool)

theorem isAt_lose (t a n : Nat) : (v.lose gone).isAt t a n = v.isAt t a n := by
  unfold AdVer.lose
  dsimp only
  split <;> rfl

theorem lose_lost (h : v.st = .lost) : (v.lose gone).st = .lost := by simp [AdVer.lose, h]

end

/-- A version that is found once runs were read was found before, and one that was LOST then is LOST. -/
theorem adVer_of_readVersion {s : State} {v y : AdVer} {t a n : Nat} (h : adVer (readVersion s v) t a n = some y) :
    ∃ x, adVer s t a n = some x ∧ (x.st = .lost → y.st = .lost) := by
  obtain same | ⟨gone, read⟩ := readVersion_adapters s v
  · exact ⟨y, by rwa [same] at h, id⟩
  · have at' : (fun x : AdVer => x.isAt t a n) ∘ (fun x : AdVer => x.lose gone) = fun x : AdVer => x.isAt t a n :=
      funext fun x => isAt_lose x gone t a n
    rw [adVer, read, List.find?_map, at'] at h
    obtain ⟨x, hx, rfl⟩ := Option.map_eq_some_iff.mp h
    exact ⟨x, hx, lose_lost x gone⟩

/-- A version that is LOST, or gone, is so once its runs were read for a fill. -/
theorem lost_sourceRead {s : State} {x : Stream} (hx : x.source = 0) (h : ∀ v, adVer s x.tenant x.adapter x.version = some v → v.st = .lost) :
    ∀ v, adVer (sourceRead s x) x.tenant x.adapter x.version = some v → v.st = .lost := by
  intro y hy
  cases hv : adVer s x.tenant x.adapter x.version with
  | none =>
    simp only [sourceRead, hx, hv, Option.elim_none, if_true] at hy
    cases hy
  | some v =>
    simp only [sourceRead, hx, hv, Option.elim_some, if_true] at hy
    obtain ⟨z, hz, lost⟩ := adVer_of_readVersion hy
    exact lost (h z hz)

/-- Settles O43: each command is run to its own equation on the stream that it names; slots by what `startFills` adds, fills by what
`fillSource` reads. -/
theorem windowsFollowTheirStreams : Obligations.WindowsFollowTheirStreams := by
  unfold Obligations.WindowsFollowTheirStreams
  refine ⟨?opening, ?advance, ?close, ?unknown, ?fill, ?filled⟩
  case opening =>
    intro c id s s1 h u x d n
    refine ⟨fun hw => windowOpen_refused h (openRefusal_unavailable hw ..),
      fun w hw => ⟨fun hf => ?_, fun hf hb => ?_, fun hf hb hk ha => ?_⟩⟩
    · exact windowOpen_refused h (openRefusal_full hw _ hf)
    · exact windowOpen_refused h (openRefusal_slice hw _ hf hb)
    · have refusal := openRefusal_host hw (cmdTenant u c) hf hb hk ha
      refine ⟨fun hl => windowOpen_refused h (by rw [refusal, if_pos hl]), fun h1 h2 h3 hn => windowOpen_refused h ?_, fun h1 h2 h3 hn up => ?_⟩
      · rw [refusal, if_neg (by omega), if_pos hn]
      · obtain ⟨layers, slots⟩ := freshStream_slots (c := c) hf up
        have run := windowOpen_opens h (by rw [refusal, if_neg (by omega), if_neg (by omega)])
        generalize hy : (freshStream u c).startFills [] = y at layers slots run
        refine ⟨_, y, run, tget_tset_self .., ?_⟩
        have shape := startFills_eq (freshStream u c) []
        rw [hy] at shape
        rw [shape]
        exact ⟨rfl, hk, rfl, rfl, rfl, rfl, rfl, rfl, rfl, rfl, rfl, layers, shape ▸ slots, fun k hk => tget_tset_ne (Ne.symm hk) .., rfl⟩
  case advance =>
    intro c id s s1 h u n
    have run := windowAdvance_here h
    refine ⟨fun gone => ?_, fun x hx ht hc cut => ?_, fun x hx ht hc cut => ?_⟩
    · rw [run, withStream_gone gone fun n x hx => by rw [if_pos hx]]
      rfl
    · rw [run, withStream_open hx ht, hc, cut]
      rfl
    · rw [withStream_open hx ht, hc, cut] at run
      exact ⟨_, advanced u x, run, tget_tset_self .., rfl, rfl, rfl, rfl, fun k hk => tget_tset_ne (Ne.symm hk) .., rfl⟩
  case close =>
    intro c id s s1 h u n
    have run := windowClose_here h
    refine ⟨fun gone => ?_, fun x hx ht hc => ⟨fun free thawed => ?_, fun busy => ?_⟩⟩
    · rw [run, withStream_gone gone fun n x hx => by rw [if_pos hx]]
      rfl
    · rw [run, withStream_open hx ht, hc, free, thawed]
      rfl
    · have waits : (streamNamed u x.tenant n none || slotsFrozen u) = true := by rwa [Bool.or_eq_true]
      rw [withStream_open hx ht, hc, if_neg Bool.false_ne_true, if_pos waits] at run
      exact ⟨_, run, tget_tset_self .., rfl⟩
  case unknown =>
    intro n s hx k
    exact ⟨windowSlotFill_unknown hx, windowSlotFilled_unknown hx k⟩
  case fill =>
    intro n x s hx hf
    have run := windowSlotFill_eq hx hf
    generalize hy : (slotsReleased s n x).startFills (layersBehind s n x) = y at run
    have needed : ∀ w ∈ y.slots, w.layer ∈ x.wanted ∨ streamNamed s x.tenant n (some w.layer) = true :=
      fun w hw => (layerNeeded_iff ..).mp (layerNeeded_of_mem (hy ▸ hw))
    refine ⟨_, y, run, tget_tset_self .., ?_, ?_, fun w hw => ⟨needed w, fun need => ?_⟩, fun w hw => ?_,
      fun k hk => tget_tset_ne (Ne.symm hk) .., rfl⟩
    · rw [← hy, startFills_eq]
      rfl
    · rw [← hy, startFills_reserved]
      rfl
    · rw [← hy]
      exact mem_startFills (List.mem_filter.mpr ⟨hw, (layerNeeded_iff ..).mpr need⟩) _
    · obtain kept | ⟨alive, empty, -, slot⟩ := of_mem_startFills (hy ▸ hw)
      · exact .inl (List.mem_of_mem_filter kept)
      · exact .inr ⟨alive, empty, needed w hw, slot⟩
  case filled =>
    intro n layer x w s hx hs hl hw hf hm
    refine ⟨fun host lost => ?_, fun host alive up => ?_, fun v ver hv hl1 hl2 hl3 hfill sound => ?_, fun ver lost => ?_⟩
    · refine windowSlotFilled_waits hx ?_
      rcases lost with lost | down
      · simp [canFill, host, lost]
      · simp [canFill, host, down]
    · obtain ⟨t, run, shown⟩ := windowSlotFilled_ends hx hs hl hw hf hm (by simp [canFill, host, alive, up])
      obtain ⟨b, hb, bytes⟩ := fillSource_host (s := s) host layer
      have read : sourceRead s x = s := by simp [sourceRead, host]
      rw [read, hb] at shown
      exact ⟨t, b, run, shown, bytes⟩
    · obtain ⟨t, run, shown⟩ := windowSlotFilled_ends hx hs hl hw hf hm (by simp [canFill, ver, hv, hl2, hl3])
      obtain ⟨b, hb, bytes⟩ := fillSource_version ver hv hl1 hfill layer
      have read : sourceRead s x = s := by simp [sourceRead, ver, hv, readVersion_sound sound]
      rw [read, hb] at shown
      exact ⟨t, b, run, shown, bytes⟩
    · have can : canFill s x = true := by
        cases hv : adVer s x.tenant x.adapter x.version with
        | none => simp [canFill, ver, hv]
        | some v => simp [canFill, ver, hv, lost v hv]
      obtain ⟨t, run, shown⟩ := windowSlotFilled_ends hx hs hl hw hf hm can
      rw [fillSource_lost ver (lost_sourceRead ver lost)] at shown
      exact ⟨t, run, shown⟩

end Sys2Proof.Proofs
end

section
/-!
PROOFS. O42 (06_kv_pages_and_tiers.md R189–R194, Table 6.7): loans of stack memory at the lender and at the borrower.
-/
namespace Sys2Proof.Proofs
open Sys2Proof.Machine Sys2Proof.Laws

/-! ### The borrower asks (R191) -/

/-- At or below 900 per mille no further grant is asked for. -/
theorem tryAsk_low {s : State} (h : occupancy s ≤ 900) : tryAsk s = s := by simp [tryAsk, Nat.not_lt.mpr h]

/-- The ask to the sender of an answer ends. -/
def askEnded (s : State) (m : LoanMsg) : Option Nat := if s.tier.ask = some m.sender then none else s.tier.ask

/-- The grant that a GRANT gives. -/
def grantHeld (m : LoanMsg) : Held :=
  { lender := m.sender, id := m.grantId, stack := m.stack, key := m.key, addr := m.addr, idle := 0, deadline := none }

section
variable {m : LoanMsg} {s : State} (hout : ∀ d, (d, SysMsg.loan m) ∉ s.req.outbox)
include hout

theorem loanOfferArrival_eq : exec (.loanOfferArrival m) s =
    .next (s.keepHost (tryAsk (setTier s { s.tier with offered := tset s.tier.offered m.sender m.grants }))) := by
  change execLoanOfferArrival m s = _
  simp only [execLoanOfferArrival, sysTaken_of_notMem (hout _)]
  rfl

theorem loanDeclineArrival_eq : exec (.loanDeclineArrival m) s = .next (s.keepHost (tryAsk (setTier s { s.tier with ask := askEnded s m }))) := by
  change execLoanDeclineArrival m s = _
  simp only [execLoanDeclineArrival, sysTaken_of_notMem (hout _)]
  rfl

theorem loanGrantArrival_eq : exec (.loanGrantArrival m) s =
    .next (s.keepHost (tryAsk (setTier s { s.tier with held := s.tier.held ++ [grantHeld m], ask := askEnded s m }))) := by
  change execLoanGrantArrival m s = _
  simp only [execLoanGrantArrival, sysTaken_of_notMem (hout _)]
  rfl

/-! ### The lender answers (R190, R191) -/

theorem loanAskArrival_declines (h : offerable s = 0) :
    exec (.loanAskArrival m) s = .next (s.keepHost (sysSend s m.sender (.loan (loanMsg s 3 1 0 0 0 0 0)))) := by
  change execLoanAskArrival m s = _
  simp only [execLoanAskArrival, sysTaken_of_notMem (hout _), h, if_true]
  rfl

theorem loanAskArrival_lends {g : Lent} {v : State} (h : offerable s ≠ 0) (hl : lend s m.sender = some (g, v)) :
    exec (.loanAskArrival m) s = .next (s.keepHost (sysSend (eventT v 21 0x41 false none 0) m.sender
      (.loan (loanMsg v 2 1 g.stack g.id g.key (trayAddr v g.stack g.slab) 0)))) := by
  change execLoanAskArrival m s = _
  simp only [execLoanAskArrival, sysTaken_of_notMem (hout _), h, hl, if_false]
  rfl

end

/-- A run that is taken with its entry changes runs and entries alone. -/
theorem takeSpan_eq {s v : State} {stack tenant back : Nat} {x : Nat × Nat} (h : takeSpan s stack tenant back x = some v) :
    ∃ u d q, v = { s with tier := { s.tier with used := u, dir := d, freeSeq := q } } := by
  unfold takeSpan newEntry at h
  dsimp only at h
  split at h
  · cases h
  · cases h
    exact ⟨_, _, _, rfl⟩

theorem takeSpans_eq {stack tenant back : Nat} (l : List (Nat × Nat)) : ∀ {s v : State}, takeSpans s stack tenant back l = some v →
    ∃ u d q, v = { s with tier := { s.tier with used := u, dir := d, freeSeq := q } } := by
  induction l with
  | nil =>
    intro s v h
    cases h
    exact ⟨_, _, _, rfl⟩
  | cons x l ih =>
    intro s v h
    obtain ⟨w, hw, rest⟩ := Option.bind_eq_some_iff.mp h
    obtain ⟨u, d, q, first⟩ := takeSpan_eq hw
    obtain ⟨u', d', q', h'⟩ := ih rest
    exact ⟨u', d', q', h'.trans (by rw [first])⟩

@[simp] theorem canSend_eventT (s : State) (i c : Nat) (inj : Bool) (t : Option Nat) (d : Nat) : canSend (eventT s i c inj t d) = canSend s := by
  obtain ⟨k, g, x, h⟩ := eventT_eq s i c inj t d
  rw [h]
  rfl

/-- Lending keeps the grants lent before, numbers the new one by the next number, and changes nothing but the tiers and the region entries. -/
theorem lendRun_eq {s v : State} {b stack slab : Nat} {g : Lent} (h : lendRun s b stack slab = some (g, v)) :
    g.id = s.tier.nextGrant ∧ g.borrower = b ∧ g.deadline = none ∧ ∃ u d q x, v = { s with
      tier := { s.tier with used := u, dir := d, freeSeq := q, lent := s.tier.lent ++ [g], nextGrant := s.tier.nextGrant + 1 }, xport := x } := by
  unfold lendRun at h
  generalize spans slab 16384 = runs at h
  obtain ⟨w, hw, rest⟩ := Option.map_eq_some_iff.mp h
  obtain ⟨u, d, q, rfl⟩ := takeSpans_eq runs hw
  cases rest
  exact ⟨rfl, rfl, rfl, u, d, q, _, rfl⟩

theorem lend_lendRun {s v : State} {b : Nat} {g : Lent} (h : lend s b = some (g, v)) : ∃ stack slab, lendRun s b stack slab = some (g, v) := by
  cases hr : bigRun s 16384 (stacksByFree s) with
  | none =>
    rw [lend, hr] at h
    exact nomatch h
  | some x =>
    rw [lend, hr] at h
    exact ⟨x.1, x.2, (Option.ite_none_right_eq_some.mp h).2⟩

/-! ### A grant ends (R194) -/

section
variable (s : State) (i : Nat)

theorem destroySpace3_region : tget (destroySpace3 s i).xport.regions i = none := by simp [destroySpace3, destroyRegion, setXport, tget_tdel]

@[simp] theorem destroySpace3_lent : (destroySpace3 s i).tier.lent = s.tier.lent := freeEntries_lent ..

@[simp] theorem destroySpace3_req : (destroySpace3 s i).req = s.req := freeEntries_req ..

@[simp] theorem canSend_destroySpace3 : canSend (destroySpace3 s i) = canSend s := canSend_freeEntries ..

end

/-- Revoking a grant tells the borrower, drops the grant and destroys its region's entry. -/
theorem revoke_shows {s : State} (hs : canSend s = true) (g : Lent) : ∃ n : LoanMsg,
    (revoke s g).req.outbox = s.req.outbox ++ [(g.borrower, .loan n)] ∧ n.type = 6 ∧ n.grantId = g.id ∧
      (revoke s g).tier.lent = s.tier.lent.filter (fun x => x.id ≠ g.id) ∧ tget (revoke s g).xport.regions (g.key % 2 ^ 24) = none := by
  have sends := (canSend_destroySpace3 s (g.key % 2 ^ 24)).trans hs
  rw [revoke, sysSend_canSend (by exact sends)]
  exact ⟨_, congrArg (fun r : Req => r.outbox ++ _) (destroySpace3_req ..), rfl, rfl, congrArg (List.filter _) (destroySpace3_lent ..),
    destroySpace3_region ..⟩

/-- Of the one grant that is lent, nothing stays lent. -/
theorem revoke_last {s : State} {g : Lent} (hs : canSend s = true) (hl : s.tier.lent = [g]) : ∃ (t : State) (n : LoanMsg), revoke s g = t ∧
    t.tier.lent = [] ∧ tget t.xport.regions (g.key % 2 ^ 24) = none ∧ (g.borrower, SysMsg.loan n) ∈ t.req.outbox ∧
      n.type = 6 ∧ n.grantId = g.id := by
  obtain ⟨n, out, type, grant, lent, dead⟩ := revoke_shows hs g
  exact ⟨_, n, rfl, by simp [lent, hl], dead, by simp [out], type, grant⟩

/-! ### A location without objects (R193, R194) -/

/-- Where no resident object lies in a grant under recall, nothing begins to move out of it. -/
theorem emptyGrant_still {s : State} {loc : Nat} (h : ∀ e ∈ s.tier.dir, e.2.run.loc = loc → e.2.st ≠ .resident) : emptyGrant s loc = s := by
  have none : s.tier.dir.filter (fun e => e.2.run.loc = loc && e.2.st = .resident) = [] :=
    List.filter_eq_nil_iff.mpr fun e he => by simpa using h e he
  simp only [emptyGrant, recallOrder, none]
  rfl

/-- Moves to other locations, and old runs there, go on. -/
theorem stopMoves_elsewhere {s : State} {loc : Nat} (hm : ∀ x ∈ s.tier.moves, x.2.run.loc ≠ loc)
    (hd : ∀ x ∈ s.tier.drains, x.run.loc ≠ loc) : stopMoves s loc = s := by
  have moves : s.tier.moves.filter (fun m => m.2.run.loc = loc) = [] := List.filter_eq_nil_iff.mpr fun x hx => by simpa using hm x hx
  have drains : s.tier.drains.filter (fun d => d.run.loc = loc) = [] := List.filter_eq_nil_iff.mpr fun x hx => by simpa using hd x hx
  have movesStay : s.tier.moves.filter (fun m => !decide (m.2.run.loc = loc)) = s.tier.moves :=
    List.filter_eq_self.mpr fun x hx => by simpa using hm x hx
  have drainsStay : s.tier.drains.filter (fun d => !decide (d.run.loc = loc)) = s.tier.drains :=
    List.filter_eq_self.mpr fun x hx => by simpa using hd x hx
  simp only [stopMoves, moves, drains, List.foldl_nil, movesStay, drainsStay]
  rfl

/-- Where no run is lost, losing runs changes at most the notes of the adapter versions. -/
theorem loseRuns_none {s : State} {lost : Nat → DirEntry → Bool} (h : ∀ i e, tget s.tier.dir i = some e → lost i e = false) :
    ∃ a, loseRuns s lost = { s with comp := { s.comp with adapters := a } } := by
  have gone : (fun i => (tget s.tier.dir i).elim false (lost i)) = fun _ => false := by
    funext i
    cases hi : tget s.tier.dir i with
    | none => rfl
    | some e => exact h i e hi
  have unhit : ∀ l : List Nat, l.any (fun _ => false) = false := fun l => List.any_eq_false.mpr fun _ _ => Bool.false_ne_true
  refine ⟨s.comp.adapters.map fun v => v.lose fun _ => false, ?_⟩
  simp only [loseRuns, gone, unhit, Bool.false_and, List.filter_false, List.foldl_nil, freeEntries]

/-- Losing a location that holds nothing changes no tier and no request. -/
theorem loseLoc_empty {s : State} {loc : Nat} (hm : ∀ x ∈ s.tier.moves, x.2.run.loc ≠ loc) (hd : ∀ x ∈ s.tier.drains, x.run.loc ≠ loc)
    (h : ∀ e ∈ s.tier.dir, e.2.run.loc ≠ loc) : ∃ a, loseLoc s loc = { s with comp := { s.comp with adapters := a } } := by
  obtain ⟨a, kept⟩ := loseRuns_none (s := s) (lost := fun _ e => e.run.loc = loc) fun i e he => decide_eq_false (h _ (tget_mem he))
  have none : s.tier.dir.filter (fun e => e.2.run.loc = loc) = [] := List.filter_eq_nil_iff.mpr fun e he => by simpa using h e he
  simp only [loseLoc, stopMoves_elsewhere hm hd, kept, none]
  exact ⟨a, rfl⟩

/-! ### RECALL, RETURN and REVOKED (R193, R194) -/

section
variable {m : LoanMsg} {s : State} (hout : ∀ d, (d, SysMsg.loan m) ∉ s.req.outbox)
include hout

theorem recall_unknown (h : ∀ g ∈ s.tier.held, ¬ (g.lender = m.sender ∧ g.id = m.grantId)) : exec (.recall m) s = .next s := by
  have none : s.tier.held.any (fun g => g.lender = m.sender && g.id = m.grantId) = false :=
    List.any_eq_false.mpr fun g hg => by simpa using h g hg
  change execRecall m s = _
  simp only [execRecall, sysTaken_of_notMem (hout _), none, Bool.false_eq_true, if_false]
  exact quiet_self s

theorem revoked_unknown (h : ∀ g ∈ s.tier.held, ¬ (g.lender = m.sender ∧ g.id = m.grantId)) : exec (.revoked m) s = .next s := by
  have none : s.tier.held.any (fun g => g.lender = m.sender && g.id = m.grantId) = false :=
    List.any_eq_false.mpr fun g hg => by simpa using h g hg
  change execRevoked m s = _
  simp only [execRevoked, sysTaken_of_notMem (hout _), none, Bool.false_eq_true, if_false]
  exact quiet_self s

theorem returnGrant_unknown (h : ∀ g ∈ s.tier.lent, ¬ (g.id = m.grantId ∧ g.borrower = m.sender)) : exec (.returnGrant m) s = .next s := by
  have none : s.tier.lent.find? (fun g => g.id = m.grantId && g.borrower = m.sender) = none :=
    List.find?_eq_none.mpr fun g hg => by simpa using h g hg
  change execReturnGrant m s = _
  simp only [execReturnGrant, sysTaken_of_notMem (hout _), none]
  exact quiet_self s

theorem returnGrant_last {g : Lent} (hl : s.tier.lent = [g]) (hi : g.id = m.grantId) (hb : g.borrower = m.sender) :
    exec (.returnGrant m) s = .next (s.keepHost (revoke s g)) := by
  change execReturnGrant m s = _
  simp only [execReturnGrant, sysTaken_of_notMem (hout _), hl, List.find?_singleton, hi, hb, decide_true, Bool.and_self, if_true]
  rfl

section
variable {g : Held} (hh : s.tier.held = [g]) (hl : g.lender = m.sender) (hi : g.id = m.grantId)
include hh hl hi

theorem recall_still (h : ∀ e ∈ s.tier.dir, e.2.run.loc ≠ grantLoc m.sender m.grantId) :
    exec (.recall m) s = .next (setTier s { s.tier with held := [{ g with deadline := some m.deadline }] }) := by
  have known : s.tier.held.any (fun x => x.lender = m.sender && x.id = m.grantId) = true := by simp [hh, hl, hi]
  have noted : s.tier.held.map (fun x => if x.lender = m.sender && x.id = m.grantId then { x with deadline := some m.deadline } else x) =
      [{ g with deadline := some m.deadline }] := by simp [hh, hl, hi]
  change execRecall m s = _
  simp only [execRecall, sysTaken_of_notMem (hout _), known, noted, if_true]
  rw [emptyGrant_still (by exact fun e he hloc => absurd hloc (h e he))]
  rfl

theorem revoked_held : exec (.revoked m) s = .next (s.keepHost (loseGrant s m.sender m.grantId)) := by
  change execRevoked m s = _
  simp only [execRevoked, sysTaken_of_notMem (hout _), hh, hl, hi, List.any_cons, List.any_nil, decide_true, Bool.and_self, Bool.or_false, if_true]
  rfl

end

end

/-! ### RECALL_EMPTY and the deadline (R193, R194) -/

section
variable {g : Held} {s : State} (hh : s.tier.held = [g])
include hh

/-- An empty grant under recall goes back, with the tray address of its first byte. -/
theorem recallEmpty_returns (hs : canSend s = true) (hd : g.deadline.isSome = true) (hu : usedAt s (grantLoc g.lender g.id) = 0) :
    exec (.recallEmpty g.lender g.id) s = .next { s with
      tier := { s.tier with held := [] }
      req := { s.req with outbox := s.req.outbox ++
        [(g.lender, .loan { type := 5, grants := 1, stack := g.stack, sender := selfId s, grantId := g.id, key := 0, addr := g.addr
                            deadline := 0 })] } } := by
  have found : s.tier.held.find? (fun x => x.lender = g.lender && x.id = g.id) = some g := by simp [hh]
  have left : s.tier.held.filter (fun x => !(x.lender = g.lender && x.id = g.id)) = [] := by simp [hh]
  have recalled : g.deadline.isNone = false := by simpa using hd
  change execRecallEmpty g.lender g.id s = _
  simp only [execRecallEmpty, found, recalled, hu, returnHeld, left, Bool.false_eq_true, if_false, if_true]
  rw [sysSend_canSend (by exact hs)]
  rfl

/-- One that is not recalled stays, and one that holds no resident object waits. -/
theorem recallEmpty_stays (h : g.deadline = none ∨ (usedAt s (grantLoc g.lender g.id) ≠ 0 ∧
      ∀ e ∈ s.tier.dir, e.2.run.loc = grantLoc g.lender g.id → e.2.st ≠ .resident)) : exec (.recallEmpty g.lender g.id) s = .next s := by
  have found : s.tier.held.find? (fun x => x.lender = g.lender && x.id = g.id) = some g := by simp [hh]
  change execRecallEmpty g.lender g.id s = _
  simp only [execRecallEmpty, found]
  split
  · rfl
  next recalled =>
    obtain ⟨used, still⟩ := h.resolve_left fun none => recalled (by simp [none])
    rw [if_neg used, emptyGrant_still still]
    rfl

end

section
variable {g : Lent} {d : Nat} {s : State} (hl : s.tier.lent = [g]) (hh : s.tier.held = []) (hd : g.deadline = some d)
include hl hh hd

theorem recallDeadline_due (due : d ≤ s.time) : exec (.recallDeadlineExpiry g.id) s = .next (s.keepHost (revoke s g)) := by
  have expired : s.tier.lent.filter (fun x => x.id = g.id && x.deadline.elim false (· ≤ s.time)) = [g] := by simp [hl, hd, due]
  change execRecallDeadlineExpiry g.id s = _
  simp only [execRecallDeadlineExpiry, expired, hh, List.filter_nil, List.foldl_nil, List.foldl_cons]
  rfl

theorem recallDeadline_early (early : s.time < d) : exec (.recallDeadlineExpiry g.id) s = .next s := by
  have expired : s.tier.lent.filter (fun x => x.id = g.id && x.deadline.elim false (· ≤ s.time)) = [] := by simp [hl, hd, Nat.not_le.mpr early]
  change execRecallDeadlineExpiry g.id s = _
  simp only [execRecallDeadlineExpiry, expired, hh, List.filter_nil, List.foldl_nil]
  exact quiet_self s

end

/-- Settles O42: each row is one of the equations above; what ends a loan is `revoke` at the lender, `returnHeld` and `loseGrant` at the borrower. -/
theorem loansGoOutAndComeBack : Obligations.LoansGoOutAndComeBack := by
  unfold Obligations.LoansGoOutAndComeBack
  refine ⟨?answers, ?ask, ?messages, ?empty, ?deadline⟩
  case answers =>
    intro m s low hout
    refine ⟨?_, ?_, ?_⟩
    · rw [loanOfferArrival_eq hout, tryAsk_low (by exact low)]
      rfl
    · rw [loanDeclineArrival_eq hout, tryAsk_low (by exact low)]
      rfl
    · rw [loanGrantArrival_eq hout, tryAsk_low (by exact low)]
      rfl
  case ask =>
    intro m s hs hout
    refine ⟨fun none => ?_, fun g v some lends => ?_⟩
    · rw [loanAskArrival_declines hout none, sysSend_canSend hs]
      rfl
    · have run := loanAskArrival_lends hout some lends
      obtain ⟨stack, slab, lent⟩ := lend_lendRun lends
      obtain ⟨number, borrower, fresh, u, d, q, x, hv⟩ := lendRun_eq lent
      have sends : canSend (eventT v 21 0x41 false none 0) = true := by
        rw [canSend_eventT, hv]
        exact hs
      rw [sysSend_canSend sends] at run
      refine ⟨_, _, run, by simp [hv], borrower, number, fresh, by simp [hv], by simp [hv]; rfl, rfl, rfl, rfl, rfl, rfl, ?_⟩
      refine (eventT_counted v ..).trans ?_
      rw [hv]
  case messages =>
    intro m s hout
    refine ⟨fun no => ⟨recall_unknown hout no, revoked_unknown hout no⟩, returnGrant_unknown hout,
      fun g hh hl hi empty => ⟨recall_still hout hh hl hi empty, fun moves drains => ?_⟩, fun g hl hi hb hs => ?_⟩
    · obtain ⟨a, lost⟩ := loseLoc_empty moves drains empty
      refine ⟨_, revoked_held hout hh hl hi, ?_, ?_, ?_, ?_⟩
      · simp [loseGrant, lost, hh, hl, hi]
      all_goals simp [loseGrant, lost]
    · obtain ⟨t, n, rfl, shown⟩ := revoke_last hs hl
      exact ⟨_, n, returnGrant_last hout hl hi hb, shown⟩
  case empty =>
    intro g s hh hs
    refine ⟨fun recalled unused => ?_, fun still => ?_⟩
    · exact recallEmpty_returns hh hs recalled unused
    · exact recallEmpty_stays hh still
  case deadline =>
    intro g d s hl hh hd hs
    refine ⟨fun due => ?_, fun early => recallDeadline_early hl hh hd early⟩
    obtain ⟨t, n, rfl, shown⟩ := revoke_last hs hl
    exact ⟨_, n, recallDeadline_due hl hh hd due, shown⟩

end Sys2Proof.Proofs
end

section
/-!
PROOFS. O41 (06_kv_pages_and_tiers.md R173, R179, R186, R198–R200, R206, R602; 11_associative_search.md R332): prefixes, T3, TIER_QUERY,
MODEL_DEFINE, the age epoch and pressure.
-/
namespace Sys2Proof.Proofs
open Sys2Proof.Machine Sys2Proof.Laws

/-! ### Work on directory entries alone -/

/-- The state without its directory: what work on directory entries keeps. -/
def offDir (s : State) : State := setTier s { s.tier with dir := [] }

section
variable (s : State) (ix : Nat)

theorem makeSetPages_offDir (dirs : List Nat) : offDir (makeSetPages s ix dirs) = offDir s :=
  foldl_keeps (view := offDir) (fun s i => by split <;> rfl) dirs s

/-- A set that is referred to has one reference more. -/
theorem referSet_offDir {p : PrefixSet} (h : tget s.tier.prefixes ix = some p) :
    offDir (referSet s ix) = offDir (setTier s { s.tier with prefixes := tset s.tier.prefixes ix { p with refs := p.refs + 1 } }) := by
  unfold referSet
  rw [h]
  exact foldl_keeps (view := offDir) (fun s i => by split <;> rfl) p.dirs _

theorem referSet_refs {p : PrefixSet} (h : tget s.tier.prefixes ix = some p) :
    tget (referSet s ix).tier.prefixes ix = some { p with refs := p.refs + 1 } := by
  have prefixes := congrArg (fun s => tget s.tier.prefixes ix) (referSet_offDir s ix h)
  exact prefixes.trans (tget_tset_self ..)

theorem referSet_req : (referSet s ix).req = s.req := by
  cases h : tget s.tier.prefixes ix with
  | none => simp only [referSet, h]
  | some p =>
    have kept := congrArg State.req (referSet_offDir s ix h)
    exact kept

end

/-! ### PREFIX_LOOKUP (R198) -/

/-- Reuse leaves a working copy that also refers to the matched sets; where none matched, its pages stay. -/
theorem reuse_eq {s : State} {h : Nat} {o : Owned} (ho : ownedOf s h = some o) (layers : Nat) (hashes sets : List Nat) :
    ∃ w : Owned, reuse s h layers hashes sets = setOwned (sets.foldl referSet s) h w ∧ w.refs = o.refs ++ sets ∧
      (sets = [] → w.pages = o.pages) := by
  simp only [reuse, ho]
  refine ⟨_, rfl, rfl, ?_⟩
  rintro rfl
  rfl

/-- The lookup itself, where no step of the command is outstanding. -/
theorem lookup_eq {s : State} {id h : Nat} {o : Owned} (m : ModelDef) (ho : ownedOf s h = some o) (hp : stepsPending s id = false) :
    let sets := matchSets s (handleTenant h) (chainHashes o.record o.log ((o.record.promptTokens - 1) / 256) 0 0)
    ∃ w : Owned, lookup s id h m = finish (setOwned (sets.foldl referSet s) h w) id 0 (256 * sets.length) 0 ∧ w.refs = o.refs ++ sets ∧
      (sets = [] → w.pages = o.pages) := by
  intro sets
  obtain ⟨w, reused, refs, pages⟩ := reuse_eq ho m.layers (chainHashes o.record o.log ((o.record.promptTokens - 1) / 256) 0 0) sets
  have req : (sets.foldl referSet s).req = s.req := foldl_keeps (view := State.req) referSet_req sets s
  have idle : stepsPending (setOwned (sets.foldl referSet s) h w) id = false := by
    have same := congrArg (fun r : Req => r.issued.any fun i => decide (i.why = .command id)) req
    exact same.trans hp
  refine ⟨w, ?_, refs, pages⟩
  simp only [lookup, ho]
  rw [reused, idle]
  rfl

section
variable {c : Cmd} {id : Nat} {s s1 : State} {o : Owned} {m : ModelDef} (h : OneHere 0x25 c s id s1)
  (ho : ownedOf (here s1 id c) (handleOf c) = some o)
  (hf : finalPhase o.record.phase = false) (hm : modelOf (here s1 id c) (handleTenant o.record.handle) o.record.model = some m)
  (h0 : stageOf (here s1 id c) id = 0)
include h ho hf hm h0

theorem prefixLookup_here :
    let u := here s1 id c
    exec (.prefixLookup c) s = .next (s.keepHost (
      if 1 < o.record.phase then finish u id 0x0103 0 0
      else if banksOf u (handleTenant o.record.handle) 1 = [] then finish u id 0x0205 0 0
      else if o.record.placed ≠ 0 then finish u id 0x0207 0 0
      else if o.record.phase = 0 then
        (bindVersion u o).elim (finish u id Status.adapterAbsent 0 0) fun v => lookup (bindAndStart u id o.record.handle v) id o.record.handle m
      else lookup u id o.record.handle m)) := by
  change quiet s (runPrefixLookup c s) = _
  have phases : (!(decide (o.record.phase = 0) || decide (o.record.phase = 1))) = decide (1 < o.record.phase) := by
    rw [Bool.eq_iff_iff]
    simp
    omega
  rw [runPrefixLookup, runCmd_here h.1, withOwned_owned h.2 ho hf]
  simp only [quiet, fail, h0, withModel, hm, phases, ne_eq, not_true_eq_false, if_false, decide_eq_true_eq, Bool.not_eq_true',
    decide_eq_false_iff_not]
  cases bindVersion (here s1 id c) o <;> rfl

end

/-! ### PREFIX_PUBLISH (R199; 11 R332) -/

/-- The set that a block becomes. -/
def blockSet (o : Owned) (k hash layers : Nat) : PrefixSet :=
  { refs := 1, tenant := handleTenant o.record.handle, model := o.record.model, adapter := o.record.adapter, version := o.record.adapterVersion
    block := k, hash := hash, dirs := (List.range layers).map fun l => (tget o.pages (l, k)).elim 0 (·.dir) }

/-- The state in which the index holds that set, with the bank entry that finds it. -/
def blockEntered (s : State) (o : Owned) (k hash layers ix : Nat) : State :=
  let bank := tgetD s.comp.banks (ix / 4096) Bank.fresh
  { s with
    comp := { s.comp with banks := tset s.comp.banks (ix / 4096) { bank with
      entries := tset bank.entries (ix % 4096) { key := hash, mask := 0, priority := 0, masked := false, poison := false } } }
    tier := { s.tier with prefixes := tset s.tier.prefixes ix (blockSet o k hash layers) } }

/-- A block whose hash is new takes the lowest free entry: the set, the key in its bank, and the reference of the working copy. -/
theorem publishBlock_new {s : State} {o : Owned} {k hash layers ix : Nat} (hs : findSet s (handleTenant o.record.handle) hash = none)
    (hx : lowestFree s (banksOf s (handleTenant o.record.handle) 1) = some ix) : ∃ (v : State) (w : Owned),
      publishBlock s o k hash layers = (.new, v, w) ∧ tget v.tier.prefixes ix = some (blockSet o k hash layers) ∧
      (tget (tgetD v.comp.banks (ix / 4096) Bank.fresh).entries (ix % 4096)).map (·.key) = some hash ∧ w.refs = o.refs ++ [ix] := by
  have kept := makeSetPages_offDir (blockEntered s o k hash layers ix) ix (blockSet o k hash layers).dirs
  simp only [publishBlock, hs, hx]
  refine ⟨_, _, rfl, ?_, ?_, rfl⟩
  · have prefixes := congrArg (fun s => tget s.tier.prefixes ix) kept
    exact prefixes.trans (tget_tset_self ..)
  · have entries := congrArg (fun s => (tget (tgetD s.comp.banks (ix / 4096) Bank.fresh).entries (ix % 4096)).map (·.key)) kept
    refine entries.trans ?_
    simp [offDir, setTier, blockEntered, tgetD]

/-- Publishing of the blocks of the first `n` tokens, as a request may. -/
def publishFirst (s : State) (id : Nat) (o : Owned) (m : ModelDef) (n : Nat) : State :=
  let hashes := chainHashes o.record o.log (n / 256) 0 0
  let r := publishBlocks s o m.layers ((List.range hashes.length).map fun k => (k, hashes.getD k 0)) (0, 0)
  finish (setOwned r.2.2.1 o.record.handle r.2.2.2) id (if r.2.1 then Status.prefixIndexFull else Status.ok) r.1.1 r.1.2

/-- One block that is published as new. -/
theorem publishFirst_new {s v : State} {id : Nat} {o w : Owned} {m : ModelDef}
    (h : publishBlock s o 0 (chainHash 0 o.record.model o.record.adapter o.record.adapterVersion (handleTenant o.record.handle)
      ((o.log.drop (256 * 0)).take 256)) m.layers = (.new, v, w)) :
    publishFirst s id o m 256 = finish (setOwned v o.record.handle w) id 0 1 0 := by
  simp [publishFirst, chainHashes, publishBlocks] at h ⊢
  simp [h]

section
variable {c : Cmd} {id : Nat} {s s1 : State} {o : Owned} {m : ModelDef} (h : OneHere 0x26 c s id s1)
  (ho : ownedOf (here s1 id c) (handleOf c) = some o)
  (hm : modelOf (here s1 id c) (handleTenant o.record.handle) o.record.model = some m) (hp : o.record.phase ∈ [1, 2, 4, 5])
  (hb : banksOf (here s1 id c) (handleTenant o.record.handle) 1 ≠ [])
include h ho hm hp hb

theorem prefixPublish_here :
    let u := here s1 id c
    let n := fld c.w2 31 0
    exec (.prefixPublish c) s = .next (s.keepHost (
      if o.record.firstMissing < o.record.logged then finish u id 0x010D o.record.firstMissing 0
      else if n % 256 ≠ 0 ∨ o.record.placed < n ∨ o.record.promptTokens < n then finish u id 0x0202 0 0
      else publishFirst u id o m n)) := by
  have ph : (decide (o.record.phase = 1) || decide (o.record.phase = 2) || decide (o.record.phase = 4) || decide (o.record.phase = 5)) = true := by
    simpa [or_assoc] using hp
  have live : finalPhase o.record.phase = false := by
    simp [finalPhase] at hp ⊢
    omega
  change quiet s (runPrefixPublish c s) = _
  rw [runPrefixPublish, runCmd_here h.1, withOwned_owned h.2 ho live]
  simp [quiet, fail, withModel, hm, ph, hb, publishFirst, or_assoc]

end

/-! ### PREFIX_RELEASE (R200) -/

theorem dropSet_prefixes (s : State) (ix k : Nat) : tget (dropSet s ix).tier.prefixes k = if ix = k then none else tget s.tier.prefixes k := by
  unfold dropSet
  split
  next none =>
    split
    next same => exact same ▸ none
    · rfl
  next p _ =>
    have gone : (unindexSet (freeEntries s p.dirs) ix).tier.prefixes = tdel s.tier.prefixes ix := by
      rw [← freeEntries_prefixes s p.dirs]
      unfold unindexSet
      dsimp only
      split <;> rfl
    rw [gone, tget_tdel]

theorem dropAll_prefixes (k : Nat) : ∀ (l : List Nat) (s : State),
    tget (l.foldl dropSet s).tier.prefixes k = if k ∈ l then none else tget s.tier.prefixes k
  | [], s => by simp
  | ix :: l, s => by
    rw [List.foldl_cons, dropAll_prefixes k l, dropSet_prefixes]
    by_cases hk : k = ix
    · simp [hk]
    · simp [hk, Ne.symm hk]

section
variable {c : Cmd} {id : Nat} {s s1 : State} (h : Starts 0x27 c s id s1)
include h

theorem prefixRelease_starts :
    let u := begun s1 id c
    let mine := (u.tier.prefixes.filter fun p => p.2.tenant = cmdTenant u c && p.2.refs = 0).map (·.1)
    exec (.prefixRelease c) s = .next (s.keepHost (
      if banksOf u (cmdTenant u c) 1 = [] then finish u id 0x0205 0 0 else finish (mine.foldl dropSet u) id 0 mine.length 0)) := by
  change quiet s (runPrefixRelease c s) = _
  rw [runPrefixRelease, runCmd_starts h]
  rfl

end

/-! ### T3_ATTACH, TIER_QUERY and MODEL_DEFINE (R173, R206, R602) -/

section
variable {c : Cmd} {id : Nat} {s s1 : State}

theorem t3Attach_starts (h : Starts 0x2B c s id s1) :
    let u := begun s1 id c
    let a := c.w2.toNat
    let n := c.w3.toNat
    let total := (u.tier.t3.map (·.2)).sum
    exec (.t3Attach c) s = .next (s.keepHost (
      if c.fn ≠ 0 then finish u id 0x0B21 0 0
      else if a % 2097152 ≠ 0 ∨ n % 2097152 ≠ 0 ∨ n = 0 ∨ u.image.t3Bytes < total + n ∨ 16 ≤ u.tier.t3.length then
        finish u id 0x020E 0 0
      else finish { u with tier := { u.tier with t3 := u.tier.t3 ++ [(a, n)] } } id 0 (total + n) 0)) := by
  change quiet s (runT3Attach c s) = _
  rw [runT3Attach, runCmd_starts h]
  simp only [quiet, fail, Bool.or_eq_true, Bool.not_eq_true', decide_eq_true_eq, decide_eq_false_iff_not, or_assoc]
  simp only [t3Total, setTier, List.map_append, List.sum_append, List.map_cons, List.map_nil, List.sum_cons, List.sum_nil, Nat.add_zero]

section
variable {u : State} (hm : u.image.molril = false) (t : Nat)
include hm

/-! Outside the Molril mode a tier's occupancy is that of the module (Table 6.9). -/

theorem tierReport_t0 : tierReport u t 0 = perMille (usedAt u 40) (t0Slabs u) := by
  unfold tierReport
  simp only [hm, Bool.false_eq_true, if_false]

theorem tierReport_t1 : tierReport u t 1 = occupancy u := by
  unfold tierReport
  simp only [hm, Bool.false_eq_true, if_false]

theorem tierReport_t2 (hh : u.tier.held = []) : tierReport u t 2 = 0 := by
  have none : heldUse u = (0, 0) := by simp [heldUse, hh]
  unfold tierReport
  simp only [hm, none, Bool.false_eq_true, if_false]
  rfl

theorem tierReport_t3 : tierReport u t 3 = perMille (usedAt u 20) (t3Total u / 65536) := by
  unfold tierReport
  simp only [hm, Bool.false_eq_true, if_false]

end

theorem tierQuery_starts (h : Starts 0x2C c s id s1) (hm : (begun s1 id c).image.molril = false) (hh : (begun s1 id c).tier.held = []) :
    let u := begun s1 id c
    exec (.tierQuery c) s = .next (s.keepHost (finish u id 0
      (min 65535 (occupancy u) * 2 ^ 48 + min 65535 (perMille (usedAt u 40) (t0Slabs u)) * 2 ^ 32 +
        min 65535 (perMille (usedAt u 20) (t3Total u / 65536))) u.tier.lent.length)) := by
  have noGrants : ∀ x y z : Nat, x + y + min 65535 0 * 2 ^ 16 + z = x + y + z := fun x y z => by simp
  have noneHeld : ∀ n : Nat, ([] : List Held).length * 2 ^ 32 + n = n := fun n => by simp
  change quiet s (runTierQuery c s) = _
  rw [runTierQuery, runCmd_starts h]
  dsimp only
  rw [tierReport_t0 hm, tierReport_t1 hm, tierReport_t2 hm _ hh, tierReport_t3 hm, hh, noGrants, noneHeld]
  rfl

theorem modelDefine_unknown (h : Starts 0x2D c s id s1)
    (hy : tget (begun s1 id c).tier.tensors (cmdTenant (begun s1 id c) c, fld c.w2 15 0) = none) :
    exec (.modelDefine c) s = .next (s.keepHost (finish (begun s1 id c) id 0x0306 0 0)) := by
  change quiet s (runModelDefine c s) = _
  simp only [runModelDefine, runCmd_starts h, hy]
  rfl

/-- What MODEL_DEFINE does with a descriptor that can be read. -/
def defineModel (s : State) (id t : Nat) (d : ADesc) : State :=
  if d.shapeOk = false then finish s id 0x0303 0 0
  else if d.formatOk = false then finish s id 0x0302 0 0
  else if 4194304 < d.pageBytes then finish s id 0x0303 0 0
  else match modelOf s t d.model with
    | some x => if x = d.defines t then finish s id 0 d.model (d.defines t).pageBytes else finish s id 0x0210 0 0
    | none =>
      if 256 ≤ (s.tier.models.filter fun x => x.tenant = t).length then finish s id 0x0211 0 0
      else finish { s with tier := { s.tier with models := s.tier.models ++ [d.defines t] } } id 0 d.model (d.defines t).pageBytes

theorem modelDefine_known (h : Starts 0x2D c s id s1) {y : Tensor}
    (hy : tget (begun s1 id c).tier.tensors (cmdTenant (begun s1 id c) c, fld c.w2 15 0) = some y) (hf : y.freeing = false) :
    exec (.modelDefine c) s = .next (s.keepHost (defineModel (begun s1 id c) id (cmdTenant (begun s1 id c) c) (aDescOf y.blob))) := by
  change quiet s (runModelDefine c s) = _
  simp only [runModelDefine, runCmd_starts h, hy, hf, quiet, fail, defineModel, Bool.not_eq_true', Bool.false_eq_true, if_false]
  rfl

end

/-! ### The age epoch (R179) -/

section
variable (s : State)

@[simp] theorem meterAdd_tier (t comp cls n : Nat) : (meterAdd s t comp cls n).tier = s.tier := by
  unfold meterAdd
  extract_lets bump s1
  split
  · rfl
  split
  · rfl
  split
  · rfl
  · exact eventT_tier ..

@[simp] theorem meterSlabs_tier : ∀ (l : List (Nat × DirEntry)) (s : State), (meterSlabs s l).tier = s.tier
  | [], _ => rfl
  | x :: l, s => by
    rw [meterSlabs, meterSlabs_tier l]
    split
    · rfl
    · exact meterAdd_tier ..

@[simp] theorem recallNewest_dir : (recallNewest s).tier.dir = s.tier.dir := by
  unfold recallNewest
  split
  · rfl
  · rw [sysSend_tier, eventT_tier]
    rfl

@[simp] theorem recallDown_dir (n : Nat) : (recallDown s n).tier.dir = s.tier.dir := by
  induction n generalizing s with
  | zero => rfl
  | succ n ih =>
    rw [recallDown]
    split
    · rfl
    · rw [ih, recallNewest_dir]

@[simp] theorem sendOffers_dir : (sendOffers s).tier.dir = s.tier.dir := by
  unfold sendOffers
  dsimp only
  split
  · rfl
  · rw [foldl_keeps (view := State.tier) fun st m => sysSend_tier st m _]
    rfl

@[simp] theorem tryAsk_dir : (tryAsk s).tier.dir = s.tier.dir := by
  unfold tryAsk
  split
  · split
    · rw [sysSend_tier]
      rfl
    · rfl
  · rfl

@[simp] theorem returnHeld_dir (g : Held) : (returnHeld s g).tier.dir = s.tier.dir := by
  rw [returnHeld, sysSend_tier]
  rfl

@[simp] theorem ageGrants_dir : (ageGrants s).tier.dir = s.tier.dir := by
  unfold ageGrants
  dsimp only
  exact (foldl_keeps (view := fun s : State => s.tier.dir) returnHeld_dir _ _).trans rfl

theorem ageEpoch_dir : (ageEpoch s).tier.dir = (ageAll s).tier.dir := by
  unfold ageEpoch
  generalize 1280 = n
  simp only [ageGrants_dir, tryAsk_dir, sendOffers_dir, meterSlabs_tier]
  split
  · rw [recallDown_dir]
    rfl
  · rfl

end

/-! ### Pressure (R186) -/

theorem pressurePark_low {s : State} (h : occupancy s < 900) :
    exec .pressurePark s = .next { s with tier := { s.tier with parking := false } } := by
  change execPressurePark s = _
  simp only [execPressurePark, h, show ¬ 950 < occupancy s by omega, if_true, if_false]
  rfl

theorem pressurePark_between {s : State} (h9 : 900 ≤ occupancy s) (h95 : occupancy s ≤ 950) (hp : s.tier.parking = false) :
    exec .pressurePark s = .next s := by
  change execPressurePark s = _
  simp only [execPressurePark, Nat.not_lt.mpr h9, Nat.not_lt.mpr h95, if_false]
  rw [if_neg (by simp [hp])]
  rfl

/-- On a pool member the first idle request begins its own PHASE step, after the event. -/
theorem pressurePark_parks {s : State} {h : Nat} {o : Owned} (h95 : 950 < occupancy s) (hc : s.image.role.cachePool = true)
    (hv : (victimRequests s none).find? (fun e => idleRequest s e.2) = some (h, o)) : ∃ v : State,
      v.tier = { s.tier with parking := true } ∧ v.req = s.req ∧ exec .pressurePark s = .next (s.keepHost (phaseStep v o 5 .none)) := by
  have first : (victimRequests (setTier s { s.tier with parking := true }) none).find?
      (fun e => idleRequest (setTier s { s.tier with parking := true }) e.2) = some (h, o) := hv
  have pool : (setTier s { s.tier with parking := true }).image.role.cachePool = true := hc
  refine ⟨eventT (setTier s { s.tier with parking := true }) 21 0x30 false (some (handleTenant h)) 0, eventT_tier .., eventT_req .., ?_⟩
  change execPressurePark s = _
  simp only [execPressurePark, h95, if_true, parkOne, first, pool]
  rfl

@[simp] theorem ownStep_tier (s : State) (o : Owned) (x : LStep) (why : Why) (f : ReqRec → ReqRec) : (ownStep s o x why f).tier = s.tier := by
  rw [ownStep, issueFrom, sysSend_tier]
  rfl

theorem phaseStep_issued (s : State) (o : Owned) (ph : Nat) (why : Why) :
    (phaseStep s o ph why).req.issued = s.req.issued ++ [issuedOf s o { stepOf s o.record 1 with newPhase := ph } why] := ownStep_issued ..

theorem phaseStep_phase (s : State) (o : Owned) (ph : Nat) (why : Why) :
    (ownedOf (phaseStep s o ph why) o.record.handle).map (·.record.phase) = some ph := congrArg (Option.map (·.record.phase)) (ownedOf_ownStep ..)

/-- Settles O41: each command is run to its own equation; what directory entries alone change is left out by `offDir`, and the steps of the age epoch
after its first keep the directory. -/
theorem prefixesTiersAndAges : Obligations.PrefixesTiersAndAges := by
  unfold Obligations.PrefixesTiersAndAges
  refine ⟨?lookup, ?publish, ?release, fun c id s s1 h => t3Attach_starts h, ?query, ?define, ?age, ?pressure⟩
  case lookup =>
    intro c id s s1 o m h u hd ho hh hf hm h0
    have run := prefixLookup_here h ho hf hm h0
    refine ⟨fun hp => ?_, fun hp hb => ?_, fun hp hb hl => ?_, fun hp hb hl idle => ?_⟩
    · rw [run, if_pos hp]
    · rw [run, if_neg (Nat.not_lt.mpr hp), if_pos hb]
    · rw [run, if_neg (Nat.not_lt.mpr hp), if_neg hb, if_pos hl]
    · obtain ⟨w, found, refs, pages⟩ := lookup_eq m (hh ▸ ho) idle
      dsimp only at run
      rw [if_neg (by omega), if_neg hb, if_neg (not_not.mpr hl), if_neg (by omega), found] at run
      refine ⟨_, run, ?_, fun ix p one hx => ?_, fun none => ?_⟩
      · simp [ownedOf, setOwned, refs]
      · have raised := congrArg (Option.map (·.refs)) (referSet_refs u ix hx)
        rw [one]
        exact raised
      · have same := pages none
        rw [none]
        exact ⟨by simp [ownedOf, setOwned, same], rfl⟩
  case publish =>
    intro c id s s1 o m h u hd n ho hm hp hb
    have run := prefixPublish_here h ho hm hp hb
    refine ⟨fun missing => ?_, fun whole bad => ?_, fun whole zero => ?_, fun ix whole hn placed prompt => ?_⟩
    · rw [run, if_pos missing]
    · rw [run, if_neg (Nat.not_lt.mpr whole), if_pos bad]
    · dsimp only at run
      rw [if_neg (Nat.not_lt.mpr whole), if_neg (by omega)] at run
      exact run.trans (by rw [show fld c.w2 31 0 = 0 from zero]; rfl)
    · intro hash new free
      obtain ⟨v, w, published, set, key, refs⟩ := publishBlock_new (k := 0) (layers := m.layers) new free
      dsimp only at run
      rw [if_neg (Nat.not_lt.mpr whole), if_neg (by omega), show fld c.w2 31 0 = 256 from hn, publishFirst_new published] at run
      exact ⟨_, _, run, set, rfl, rfl, rfl, rfl, key, by simp [ownedOf, setOwned, hd, refs]⟩
  case release =>
    intro c id s s1 h u t mine
    have run := prefixRelease_starts h
    refine ⟨fun hb => ?_, fun hb => ⟨_, run.trans (by rw [if_neg hb, List.length_map]), fun p hp => ?_, fun ix other => ?_⟩⟩
    · rw [run, if_pos hb]
    · exact (dropAll_prefixes ..).trans (if_pos (List.mem_map_of_mem hp))
    · refine (dropAll_prefixes ..).trans (if_neg fun hx => ?_)
      obtain ⟨p, hp, same⟩ := List.mem_map.mp hx
      exact other p hp same
  case query =>
    intro c id s s1 h u use hm hh
    exact tierQuery_starts h hm hh
  case define =>
    intro c id s s1 h u t
    refine ⟨modelDefine_unknown h, fun y hy hf => ?_⟩
    intro d
    rw [show exec (.modelDefine c) s = .next (s.keepHost (defineModel u id t d)) from modelDefine_known h hy hf]
    refine ⟨fun hs => ?_, fun hs hf => ?_, fun hs hf hp => ?_,
      fun hs hf hp => ⟨fun x hx same => ?_, fun x hx other => ?_, fun hx full => ?_, fun hx room => ?_⟩⟩
    · simp [defineModel, hs]
    · simp [defineModel, hs, hf]
    · simp [defineModel, hs, hf, hp]
    · simp [defineModel, hs, hf, Nat.not_lt.mpr hp, hx, same]
    · simp [defineModel, hs, hf, Nat.not_lt.mpr hp, hx, other]
    · simp [defineModel, hs, hf, Nat.not_lt.mpr hp, hx, full]
    · simp [defineModel, hs, hf, Nat.not_lt.mpr hp, hx, Nat.not_le.mpr room]
  case age =>
    intro s hr
    refine ⟨fun early => ?_, fun due => ⟨s.keepHost (ageEpoch s), ?_, ?_⟩⟩
    · change execAgeEpoch s = _
      rw [execAgeEpoch, if_neg (by simp [early])]
    · change execAgeEpoch s = _
      rw [execAgeEpoch, if_pos (by simp [hr, due])]
      rfl
    · rw [keepHost_tier, ageEpoch_dir]
      rfl
  case pressure =>
    intro s
    refine ⟨pressurePark_low, pressurePark_between, fun h o h95 hc hv => ?_⟩
    obtain ⟨v, tier, req, run⟩ := pressurePark_parks h95 hc hv
    refine ⟨_, issuedOf v o { stepOf v o.record 1 with newPhase := 5 } .none, run, ?_, ?_, rfl, rfl, rfl, phaseStep_phase v o 5 .none⟩
    · rw [keepHost_tier, phaseStep, ownStep_tier, tier]
    · rw [keepHost_req, phaseStep_issued, req]

end Sys2Proof.Proofs
end

section
/-!
PROOFS. O45 fails: GEMM takes the age of its command from a slot number that two slots may share (07_ladle_engines.md R240, R245; 04_host_queues.md R92).
-/
namespace Sys2Proof.Proofs
open Sys2Proof.Machine

/-- GEMM of N = 1, K = 32, M = 1, INT8 × INT8 to FP32, on Ladle 5: A is tensor 1, W and C are in host memory. -/
def gemmOfTensor : Cmd :=
  { inJob 0x30 with
    w2 := BitVec.ofNat 64 (1 * 2 ^ 46), w3 := BitVec.ofNat 64 (2 * 2 ^ 62 + 0x2000), w4 := BitVec.ofNat 64 (2 * 2 ^ 62 + 0x3000)
    w5 := BitVec.ofNat 64 (1 * 2 ^ 43 + 32 * 2 ^ 25 + 1 * 2 ^ 8), w6 := BitVec.ofNat 64 (1 * 2 ^ 60 + 1 * 2 ^ 56 + 6 * 2 ^ 52)
    w7 := BitVec.ofNat 64 (2 * 2 ^ 62 + 5 * 2 ^ 54) }

/-- Tensor 1 of tenant 1, which a TENSOR_FREE waits to free. -/
def freeingTensor : Tensor := { bytes := 64, blob := Blob.zeros, dirs := [], freeing := true }

/-- Two slots have the number 5: in one a command waits for its engine, in the other the GEMM has been fetched. -/
def gemmBehindFive : State :=
  { twoOfFive with
    host := { twoOfFive.host with slots := [slotFive 0x31 (.waiting .engine), { slotFive 0x30 .fetched with cmd := gemmOfTensor }] }
    tier := { Tier.reset with tensors := [((1, 1), freeingTensor)] } }

theorem starts_gemmBehindFive : Starts 0x30 gemmOfTensor gemmBehindFive 5 gemmBehindFive := ⟨by decide, rfl, by decide⟩

/-- The GEMM passes its checks as a command that had started before the TENSOR_FREE, and runs: no completion falls due. -/
theorem due_gemm_gemmBehindFive : (runGemm gemmOfTensor gemmBehindFive).host.due = [] := by decide

/-- Refutes O45: its clause on GEMM says that a command whose reference does not pass completes with the code of that reference, here 0x0306, since the
tensor is being freed (R245). The tensor serves a command that has started before, and whether it has is read from the first slot of the command's number. No
hypothesis says that slot numbers are distinct, as a fetch gives them (04 R92): in `gemmBehindFive` the command of another slot 5 has started, and the
GEMM reads the tensor and runs. -/
theorem not_ladleOperatorsWriteTheirResults : ¬ Obligations.LadleOperatorsWriteTheirResults := by
  unfold Obligations.LadleOperatorsWriteTheirResults
  intro h
  obtain ⟨gemm, -⟩ := h
  obtain ⟨-, inShape⟩ := gemm false gemmOfTensor 5 gemmBehindFive gemmBehindFive starts_gemmBehindFive
  obtain ⟨-, inFormat⟩ := inShape (by decide) (by decide) (by decide)
  obtain ⟨refused, -⟩ := inFormat ⟨.int8, .int8, .fp32, .exact, 32, 32⟩ (by decide) rfl
  have completes := refused 0x0306 (by decide) rfl
  have runs : exec (.gemm gemmOfTensor) gemmBehindFive = .next (gemmBehindFive.keep (runGemm gemmOfTensor gemmBehindFive)) := rfl
  have same : gemmBehindFive.keep (runGemm gemmOfTensor gemmBehindFive) =
      gemmBehindFive.keepHost (finish (begun gemmBehindFive 5 gemmOfTensor) 5 0x0306 0 0) := Host.Outcome.next.inj (runs.symm.trans completes)
  have due := congrArg (fun t => t.host.due.length) same
  have none_due := congrArg List.length due_gemm_gemmBehindFive
  exact absurd (due.symm.trans none_due) (by decide)

end Sys2Proof.Proofs
end

section
/-!
PROOFS. O46: the execution states of a Ladle, and the draft waste that a SAMPLE decides (07_ladle_engines.md R224–R233, Tables 7.7, 7.8;
08_attention.md R263; 20_counters_and_metering.md R568).
-/
namespace Sys2Proof.Proofs
open Sys2Proof.Machine

/-! ### The table of Ladles -/

@[simp] theorem ladleOf_setLadle (s : State) (l : Nat) (x : Ladle) : ladleOf (setLadle s l x) l = x := tgetD_tset_self ..

theorem ladleOf_setLadle_ne {k l : Nat} (h : k ≠ l) (s : State) (x : Ladle) : ladleOf (setLadle s l x) k = ladleOf s k := tgetD_tset_ne h.symm ..

/-! ### LADLE_ENTRY_START (R225, R230, R231) -/

/-- The Ladle once it has begun an entry: a saved one is restored, and any other runs with the first tile of every operand. -/
def entryStarted (s : State) (l : Nat) (e : QEntry) : Ladle :=
  let x := ladleOf s l
  let saved := x.budgetArea = some e ∨ x.urgencyArea = some e
  { x with queue := x.queue.erase e, running := some e, since := s.mono, st := if saved then .restoring else .running,
           work := { lines := if saved then [] else (List.range e.operands).map fun k => (k, Config.tile e.slot l k), accs := none } }

section
variable {s : State} {l n : Nat} {x : Ladle} {e : QEntry}

theorem startEntry_stays (h : (ladleOf s l).st ≠ .idle ∨ ladleServes s l = false ∨ grantLane s l (ladleOf s l) = none) : startEntry s l = s := by
  obtain busy | off | none_granted := h
  · simp [startEntry, busy]
  · simp [startEntry, off]
  · simp [startEntry, none_granted]

theorem startEntry_granted (idle : (ladleOf s l).st = .idle) (serves : ladleServes s l = true) (grant : grantLane s l (ladleOf s l) = some n)
    (head : laneHead (ladleOf s l) n = some e) : startEntry s l = setLadle s l (entryStarted s l e) := by
  simp [startEntry, entryStarted, idle, serves, grant, head]

theorem grantLane_eligible (grant : grantLane s l x = some n) : laneEligible s l x n = true := by
  have granted := List.find?_some grant
  simp only [Bool.and_eq_true] at granted
  exact granted.1

theorem laneEligible_open (he : laneEligible s l x n = true) : gateOpen s (n / 8) 0 (n % 8) l = true := by
  simp only [laneEligible, laneReady, Bool.and_eq_true] at he
  exact he.1.2

theorem laneEligible_credited (he : laneEligible s l x n = true) (head : laneHead x n = some e) : e.operands ≤ e.credits := by
  simp only [laneEligible, laneReady, Bool.and_eq_true, head, Option.any_some, decide_eq_true_eq] at he
  exact he.1.1

/-- While the urgency area is in use, only class 7 and the saved command are eligible (R231). -/
theorem laneEligible_urgent {v : QEntry} (he : laneEligible s l x n = true) (head : laneHead x n = some e) (used : x.urgencyArea = some v) :
    e = v ∨ n % 8 = 7 := by
  by_cases same : e = v
  · exact .inl same
  · simp only [laneEligible, used, head, Option.some.injEq, same, if_false, Bool.and_eq_true, decide_eq_true_eq] at he
    exact .inr he.2

end

/-! ### What charges leave alone (R228; 17 R498; 20 R573) -/

section
variable (s : State)

theorem charge_eq (t r c g n : Nat) : ∃ gov, charge s t r c g n = { s with gov := gov } := by
  unfold charge
  split
  · exact ⟨_, rfl⟩
  · exact ⟨_, rfl⟩

theorem chargeFree_eq (t r c g : Nat) : ∃ gov free, chargeFree s t r c g = { s with gov := gov, free := free } := by
  unfold chargeFree
  split
  · exact ⟨_, _, rfl⟩
  · obtain ⟨gov, h⟩ := charge_eq s t r c g (Config.freeWord s.free).toNat
    exact ⟨gov, _, by rw [h]⟩

theorem chargeStacks_eq (t cls : Nat) (ks : List Nat) : ∃ gov free, chargeStacks s t cls ks = { s with gov := gov, free := free } := by
  induction ks generalizing s with
  | nil => exact ⟨_, _, rfl⟩
  | cons k r ih =>
    obtain ⟨g1, f1, h1⟩ := chargeFree_eq s t 1 cls k
    obtain ⟨g2, f2, h2⟩ := ih (chargeFree s t 1 cls k)
    exact ⟨g2, f2, h2.trans (by rw [h1])⟩

theorem chargeTraffic_eq (t cls : Nat) (ks : List Nat) : ∃ gov free, chargeTraffic s t cls ks = { s with gov := gov, free := free } := by
  obtain ⟨g1, f1, h1⟩ := chargeFree_eq s t 2 cls 0
  obtain ⟨g2, f2, h2⟩ := chargeStacks_eq (chargeFree s t 2 cls 0) t cls ks
  exact ⟨g2, f2, h2.trans (by rw [h1])⟩

/-- A meter changes nothing but telemetry, and the rings where its record goes. -/
theorem meterAdd_eq (t comp cls n : Nat) :
    ∃ k g x, meterAdd s t comp cls n = { s with host := { s.host with kettles := k, staging := g }, tele := x } := by
  unfold meterAdd
  extract_lets bump s1
  split
  · exact ⟨s.host.kettles, s.host.staging, _, rfl⟩
  · split
    · exact ⟨s.host.kettles, s.host.staging, _, rfl⟩
    · split
      · exact ⟨s.host.kettles, s.host.staging, _, rfl⟩
      · exact eventT_eq ..

theorem meterShares_eq (t cls n : Nat) (comps : List Nat) :
    ∃ k g x, meterShares s t cls n comps = { s with host := { s.host with kettles := k, staging := g }, tele := x } := by
  have go (k i : Nat) (r : List Nat) : ∀ s : State, ∃ a b x,
      meterShares.go t cls n k s i r = { s with host := { s.host with kettles := a, staging := b }, tele := x } := by
    induction r generalizing i with
    | nil => exact fun s => ⟨s.host.kettles, s.host.staging, s.tele, rfl⟩
    | cons c r ih =>
      intro s
      obtain ⟨a1, b1, x1, h1⟩ := meterAdd_eq s t c cls (n / k + (if i = 0 then n % k else 0))
      obtain ⟨a2, b2, x2, h2⟩ := ih (i + 1) (meterAdd s t c cls (n / k + (if i = 0 then n % k else 0)))
      exact ⟨a2, b2, x2, h2.trans (by rw [h1])⟩
  unfold meterShares
  split
  · exact meterAdd_eq ..
  · exact go _ _ _ s

end

/-- The charge of an entry changes gates, free values, meters with their records, and the cycles of its command (R228). -/
theorem chargeEntry_eq {s : State} {e : QEntry} {r : Running} (hr : tget s.comp.running e.slot = some r) (l : Nat) (x : Ladle) :
    ∃ gov free kettles staging tele, chargeEntry s l x e = { s with
      gov := gov, free := free, host := { s.host with kettles := kettles, staging := staging }, tele := tele
      comp := { s.comp with running := tset s.comp.running e.slot { r with cycles := r.cycles + ranCycles s x } } } := by
  obtain ⟨g1, h1⟩ := charge_eq s (laneTenant e.lane) 0 (laneClass e.lane) l (gateCycles s x)
  obtain ⟨g2, f2, h2⟩ := chargeTraffic_eq { s with gov := g1 } (laneTenant e.lane) (laneClass e.lane) [l / 8]
  simp only [chargeEntry, h1, h2, hr]
  obtain ⟨k, g, t, h3⟩ := meterShares_eq { s with
      gov := g2, free := f2, comp := { s.comp with running := tset s.comp.running e.slot { r with cycles := r.cycles + ranCycles s x } } }
    (laneTenant e.lane) 0 (ranCycles s x) e.comps
  exact ⟨g2, f2, k, g, t, h3⟩

/-! ### Entries that waited for room (R224) -/

/-- From `s` to `w` entries have joined the queue of Ladle `l`, or wait for room in it, and nothing else has changed. -/
structure Joined (l : Nat) (s w : State) : Prop where
  frame : ∃ ladles whisk, w = { s with comp := { s.comp with ladles := ladles, whisk := whisk } }
  own : ∃ q, ladleOf w l = { ladleOf s l with queue := (ladleOf s l).queue ++ q }
  others : ∀ k, k ≠ l → ladleOf w k = ladleOf s k

namespace Joined
variable {l : Nat} {s v w : State}

theorem of_whisk (l : Nat) (s : State) (wk : List (Nat × QEntry)) : Joined l s { s with comp := { s.comp with whisk := wk } } where
  frame := ⟨_, _, rfl⟩
  own := ⟨[], by rw [List.append_nil]; rfl⟩
  others _ _ := rfl

theorem refl (l : Nat) (s : State) : Joined l s s := of_whisk l s s.comp.whisk

theorem trans (a : Joined l s v) (b : Joined l v w) : Joined l s w where
  frame := by
    obtain ⟨_, _, h1⟩ := a.frame
    obtain ⟨_, _, h2⟩ := b.frame
    exact ⟨_, _, h2.trans (by rw [h1])⟩
  own := by
    obtain ⟨q1, h1⟩ := a.own
    obtain ⟨q2, h2⟩ := b.own
    exact ⟨q1 ++ q2, h2.trans (by rw [h1, List.append_assoc])⟩
  others k hk := (b.others k hk).trans (a.others k hk)

theorem issueEntry (l : Nat) (s : State) (e : QEntry) : Joined l s (issueEntry s l e) := by
  unfold Machine.issueEntry
  extract_lets x
  split
  · exact ⟨⟨_, _, rfl⟩, ⟨[e], ladleOf_setLadle ..⟩, fun k hk => ladleOf_setLadle_ne hk ..⟩
  · exact of_whisk ..

theorem admitWhisk (l : Nat) : ∀ (r : List (Nat × QEntry)) (s : State), Joined l s (admitWhisk s l r)
  | [], s => refl l s
  | w :: r, s => by
    have taken := of_whisk l s (s.comp.whisk.erase w)
    unfold Machine.admitWhisk
    split
    · exact (taken.trans (issueEntry ..)).trans (admitWhisk l r _)
    · exact (taken.trans (of_whisk ..)).trans (admitWhisk l r _)

theorem refillQueue (l : Nat) (s : State) : Joined l s (refillQueue s l) := admitWhisk ..

theorem running (h : Joined l s w) : w.comp.running = s.comp.running := by obtain ⟨_, _, h⟩ := h.frame; rw [h]
theorem due (h : Joined l s w) : w.host.due = s.host.due := by obtain ⟨_, _, h⟩ := h.frame; rw [h]
theorem tier (h : Joined l s w) : w.tier = s.tier := by obtain ⟨_, _, h⟩ := h.frame; rw [h]

end Joined

theorem refillQueue_none {s : State} (h : s.comp.whisk = []) (l : Nat) : refillQueue s l = s := by simp [refillQueue, h, admitWhisk]

/-! ### LADLE_ENTRY_COMPLETE (R225, R228; 08 R263; 17 R499) -/

@[simp] theorem raiseCounter_comp (s : State) (t c : Nat) : (raiseCounter s t c).comp = s.comp := by unfold raiseCounter; split <;> rfl
@[simp] theorem raiseCounter_tier (s : State) (t c : Nat) : (raiseCounter s t c).tier = s.tier := by unfold raiseCounter; split <;> rfl

/-- The Ladle once its running entry has ended: IDLE, its pointer past the entry's lane. -/
def entryEnded (x : Ladle) (e : QEntry) : Ladle := { x with st := .idle, running := none, ptr := (e.lane + 1) % 128 }

/-- The state when the running entry of a Ladle has ended and is charged, and what waited for room has joined the queue. -/
def endedState (s : State) (l : Nat) (e : QEntry) : State :=
  refillQueue (setLadle (chargeEntry { s with tele := s.tele.endEntry l e (partOf s e) } l (ladleOf s l) e) l (entryEnded (ladleOf s l) e)) l

/-- The command once its last entry has ended, before it completes: it runs no more, and its DONE_COUNTER has risen (08 R263). -/
def ranOut (s : State) (id : Nat) (r : Running) : State :=
  raiseCounter { s with tele := s.tele.endCommand id (retires r.status), comp := { s.comp with running := tdel s.comp.running id } }
    ((slotById s id).elim 0 fun x => cmdTenant s x.cmd) r.counter

/-- RESULT0 of a command whose entries have ended (Table 7.12). -/
def result0Of (r : Running) : Nat := if r.charged then r.preempts * 2 ^ 32 + r.cycles / 1000 % 2 ^ 32 else r.r0

theorem ranOut_shows (s : State) (id : Nat) (r : Running) :
    (∀ k, ladleOf (ranOut s id r) k = ladleOf s k) ∧ tget (ranOut s id r).comp.running id = none ∧ (ranOut s id r).tier = s.tier := by
  refine ⟨fun k => ?_, ?_, ?_⟩
  · simp [ranOut, ladleOf]
  · simp [ranOut, tget_tdel]
  · simp [ranOut]

section
variable {s : State} {id : Nat} {r : Running}

theorem entryDone_last (hr : tget s.comp.running id = some r) (last : r.left ≤ 1) :
    entryDone s id = finish (ranOut s id r) id r.status (result0Of r) r.r1 := by
  simp only [entryDone, hr, last, if_true, finishRunning]
  rfl

theorem entryDone_more (hr : tget s.comp.running id = some r) (more : 1 < r.left) :
    entryDone s id = { s with comp := { s.comp with running := tset s.comp.running id { r with left := r.left - 1 } } } := by
  simp only [entryDone, hr, Nat.not_le.mpr more, if_false]

end

section
variable {s : State} {l : Nat} {e : QEntry} {r : Running}

theorem completeEntry_ends (st : (ladleOf s l).st = .running) (runs : (ladleOf s l).running = some e)
    (moves : mayMove s (e.lane / 8) (e.lane % 8) [l / 8] = true) : completeEntry s l = entryDone (endedState s l e) e.slot := by
  have passes : mayMove s (laneTenant e.lane) (laneClass e.lane) [l / 8] = true := moves
  simp only [completeEntry, runs, st, passes, decide_true, Bool.and_self, if_true]
  rfl

theorem completeEntry_gated (runs : (ladleOf s l).running = some e) (held : mayMove s (e.lane / 8) (e.lane % 8) [l / 8] = false) :
    completeEntry s l = s := by
  have closed : mayMove s (laneTenant e.lane) (laneClass e.lane) [l / 8] = false := held
  simp only [completeEntry, runs, closed, Bool.and_false, Bool.false_eq_true, if_false]

theorem completeEntry_notRunning (h : (ladleOf s l).st ≠ .running ∨ (ladleOf s l).running = none) : completeEntry s l = s := by
  obtain busy | idle := h
  · cases runs : (ladleOf s l).running <;> simp [completeEntry, runs, busy]
  · simp [completeEntry, idle]

/-- What the end of an entry changes: cycles of its command, its Ladle and the queue of that Ladle. -/
theorem endedState_shows (hr : tget s.comp.running e.slot = some r) (l : Nat) :
    tget (endedState s l e).comp.running e.slot = some { r with cycles := r.cycles + (s.mono - (ladleOf s l).since) * 3 / 2 } ∧
    (∃ q, ladleOf (endedState s l e) l = { entryEnded (ladleOf s l) e with queue := (ladleOf s l).queue ++ q } ∧ (s.comp.whisk = [] → q = [])) ∧
    (∀ k, k ≠ l → ladleOf (endedState s l e) k = ladleOf s k) ∧
    (endedState s l e).host.due = s.host.due ∧ (endedState s l e).tier = s.tier := by
  obtain ⟨gov, free, kettles, staging, tele, charged⟩ :=
    chargeEntry_eq (s := { s with tele := s.tele.endEntry l e (partOf s e) }) hr l (ladleOf s l)
  unfold endedState
  rw [charged]
  generalize hv : setLadle _ l _ = v
  have joined := Joined.refillQueue l v
  have own : ladleOf v l = entryEnded (ladleOf s l) e := by rw [← hv, ladleOf_setLadle]
  refine ⟨?_, ?_, fun k hk => (joined.others k hk).trans ?_, joined.due.trans ?_, joined.tier.trans ?_⟩
  · rw [joined.running, ← hv]
    exact tget_tset_self ..
  · by_cases empty : s.comp.whisk = []
    · refine ⟨[], ?_, fun _ => rfl⟩
      rw [refillQueue_none (by rw [← hv]; exact empty), own, List.append_nil]
      rfl
    · obtain ⟨q, hq⟩ := joined.own
      exact ⟨q, by rw [hq, own]; rfl, fun h => absurd h empty⟩
  · rw [← hv, ladleOf_setLadle_ne hk]
    rfl
  · rw [← hv]; rfl
  · rw [← hv]; rfl

end

/-! ### LADLE_PREEMPT (R229–R233, Table 7.7) -/

section
variable {s : State} {l : Nat} {x : Ladle} {e : QEntry} {r : Running}

theorem urgencyDue_iff : urgencyDue s l x e = true ↔
    s.image.role = .s ∧ class7Ready s l x = true ∧ e.lane % 8 < 7 ∧ 15000 ≤ (s.mono - x.since) * 3 / 2 ∧ x.urgencyArea = none := by
  unfold urgencyDue laneClass ranCycles ladleCycles
  simp [and_assoc]

theorem budgetDue_iff : budgetDue s l x e = true ↔
    (∃ b, gateBalance s (e.lane / 8) 0 (e.lane % 8) l = some b ∧ b ≤ gateCycles s x) ∧ 75000 ≤ (s.mono - x.since) * 3 / 2 ∧
      x.budgetArea = none := by
  unfold budgetDue laneTenant laneClass ranCycles ladleCycles
  cases gateBalance s (e.lane / 8) 0 (e.lane % 8) l with
  | none => simp
  | some b => simp [and_assoc]

theorem preemptLadle_notRunning (h : (ladleOf s l).st ≠ .running ∨ (ladleOf s l).running = none) : preemptLadle s l = s := by
  obtain busy | idle := h
  · cases runs : (ladleOf s l).running <;> simp [preemptLadle, runs, busy]
  · simp [preemptLadle, idle]

theorem preemptLadle_running (st : (ladleOf s l).st = .running) (runs : (ladleOf s l).running = some e) :
    preemptLadle s l = if urgencyDue s l (ladleOf s l) e then savePreempted s l (ladleOf s l) e true
      else if budgetDue s l (ladleOf s l) e then savePreempted s l (ladleOf s l) e false else s := by
  simp [preemptLadle, runs, st]

/-- The Ladle once the save of its running entry has begun (R231–R233): the entry stands at the head again, and in the area of the cause. -/
theorem savePreempted_shows (hr : tget s.comp.running e.slot = some r) (urgent : Bool) :
    let w := savePreempted s l x e urgent
    let y := ladleOf w l
    (y.st = .saving ∧ y.running = none ∧ y.queue = e :: x.queue ∧ y.ptr = (e.lane + 1) % 128) ∧
    y.budgetArea = (if urgent then x.budgetArea else some e) ∧ y.urgencyArea = (if urgent then some e else x.urgencyArea) ∧
    tget w.comp.running e.slot = some { r with preempts := r.preempts + 1, cycles := r.cycles + (s.mono - x.since) * 3 / 2 } ∧
    (∀ k, k ≠ l → ladleOf w k = ladleOf s k) ∧ w.host.due = s.host.due := by
  obtain ⟨gov, free, kettles, staging, tele, charged⟩ := chargeEntry_eq (s := { s with tele := s.tele.wasteEntry l e }) hr l x
  unfold savePreempted
  simp only [charged, tget_tset_self, ladleOf_setLadle]
  exact ⟨⟨trivial, trivial, trivial, trivial⟩, trivial, trivial, tget_tset_self .., fun k hk => ladleOf_setLadle_ne hk .., rfl⟩

end

/-! ### Slot-cycles of decode members (20 R568) -/

theorem tgetD_tupd_self {κ α : Type} [DecidableEq κ] (t : Tab κ α) (k : κ) (d : α) (f : α → α) :
    tgetD (tupd t k d f) k d = f (tgetD t k d) := tgetD_tset_self ..

theorem tgetD_tupd_ne {κ α : Type} [DecidableEq κ] {k k' : κ} (h : k ≠ k') (t : Tab κ α) (d : α) (f : α → α) :
    tgetD (tupd t k d f) k' d = tgetD t k' d := tgetD_tset_ne h ..

/-- Shares added in turn at distinct keys: each key gains its own. -/
theorem tgetD_shares {κ : Type} [DecidableEq κ] {key : ℕ → κ} (inj : Function.Injective key) (share : ℕ → ℕ) (t : Tab κ Nat) (n p : Nat) :
    tgetD ((List.range n).foldl (fun d p => tupd d (key p) 0 (· + share p)) t) (key p) 0 = tgetD t (key p) 0 + if p < n then share p else 0 := by
  induction n with
  | zero => simp
  | succ n ih =>
    rw [List.range_succ, List.foldl_append, List.foldl_cons, List.foldl_nil]
    by_cases last : p = n
    · subst last
      rw [tgetD_tupd_self, ih]
      simp
    · rw [tgetD_tupd_ne (fun same => last (inj same).symm), ih]
      have : p < n + 1 ↔ p < n := by omega
      simp only [this]

/-- What a SAMPLE that used `used` positions does with one kept share. -/
def wasteDraft (used : Nat) (t : Tele) (e : (Nat × Nat) × Nat) : Tele :=
  if e.1.2 / 4 < used then t else { t with draftWasted := tupd t.draftWasted (e.1.2 % 4) 0 (wrapAdd 48 · e.2) }

theorem wasteDraft_draftWasted (used : Nat) (t : Tele) (e : (Nat × Nat) × Nat) : (wasteDraft used t e).draftWasted =
    if e.1.2 / 4 < used then t.draftWasted else tupd t.draftWasted (e.1.2 % 4) 0 (wrapAdd 48 · e.2) := by
  unfold wasteDraft
  split <;> rfl

theorem wasteDraft_at (used k : Nat) (t : Tele) (e : (Nat × Nat) × Nat) : tgetD (wasteDraft used t e).draftWasted k 0 =
    if used ≤ e.1.2 / 4 ∧ e.1.2 % 4 = k then (tgetD t.draftWasted k 0 + e.2) % 2 ^ 48 else tgetD t.draftWasted k 0 := by
  rw [wasteDraft_draftWasted]
  by_cases before : e.1.2 / 4 < used
  · simp [before, Nat.not_le.mpr before]
  · by_cases same : e.1.2 % 4 = k
    · rw [if_neg before, if_pos ⟨Nat.not_lt.mp before, same⟩, same, tgetD_tupd_self, wrapAdd]
    · rw [if_neg before, if_neg (fun h => same h.2), tgetD_tupd_ne same]

/-- The kept shares of slot `k` at positions that the SAMPLE does not use are added up, in the counter's 48 bits. -/
theorem wasteDrafts_sum (used k : Nat) (l : List ((Nat × Nat) × Nat)) : ∀ {t : Tele}, tgetD t.draftWasted k 0 < 2 ^ 48 →
    tgetD (l.foldl (wasteDraft used) t).draftWasted k 0 =
      (tgetD t.draftWasted k 0 + ((l.filter fun e => decide (used ≤ e.1.2 / 4) && decide (e.1.2 % 4 = k)).map (·.2)).sum) % 2 ^ 48 := by
  induction l with
  | nil => exact fun h => (Nat.mod_eq_of_lt h).symm
  | cons e l ih =>
    intro t h
    have now := wasteDraft_at used k t e
    by_cases hit : used ≤ e.1.2 / 4 ∧ e.1.2 % 4 = k
    · rw [if_pos hit] at now
      rw [List.foldl_cons, ih (now ▸ Nat.mod_lt _ (by decide)), now, List.filter_cons_of_pos (by simp [hit]), List.map_cons, List.sum_cons]
      omega
    · rw [if_neg hit] at now
      rw [List.foldl_cons, ih (now ▸ h), now, List.filter_cons_of_neg (by simpa using hit)]

/-- Shares of a decode member's entry: equal parts, the remainder to the first position. -/
theorem shareDraft_held {t : Tele} {id h positions k n p : Nat} (hn : 0 < n) (hp : 2 ≤ positions) (lt : p < positions) :
    tgetD (t.shareDraft id h positions k n).draftHeld (id, h, p * 4 + k) 0 =
      tgetD t.draftHeld (id, h, p * 4 + k) 0 + n / positions + if p = 0 then n % positions else 0 := by
  have distinct : Function.Injective fun p : Nat => (id, h, p * 4 + k) := fun a b same => by simpa using same
  have none_left : ¬ (n = 0 ∨ positions < 2) := by omega
  have shares := tgetD_shares distinct (fun p => n / positions + if p = 0 then n % positions else 0) t.draftHeld positions p
  simp only [Tele.shareDraft, Bool.or_eq_true, decide_eq_true_eq, none_left, if_false]
  rw [shares, if_pos lt, Nat.add_assoc]

theorem decideDrafts_wasted {t : Tele} {k : Nat} (h used : Nat) (ht : tgetD t.draftWasted k 0 < 2 ^ 48) :
    tgetD (t.decideDrafts h used).draftWasted k 0 = (tgetD t.draftWasted k 0 +
      ((t.draftKept.filter fun e => e.1.1 = h && decide (used ≤ e.1.2 / 4) && e.1.2 % 4 = k).map (·.2)).sum) % 2 ^ 48 := by
  have total := wasteDrafts_sum used k (t.draftKept.filter fun e => e.1.1 = h) ht
  rw [List.filter_filter] at total
  refine total.trans ?_
  simp only [Bool.and_comm, Bool.and_left_comm]

theorem decideDrafts_kept {t : Tele} {h used : Nat} {e : (Nat × Nat) × Nat} (he : e ∈ (t.decideDrafts h used).draftKept) : e.1.1 ≠ h := by
  simpa using (List.mem_filter.mp he).2

/-! ### The obligation -/

/-- Settles O46, command by command: each one's effect in the states that Table 7.8 gives it, and none elsewhere. -/
theorem ladlesFollowTable78 : Obligations.LadlesFollowTable78 := by
  unfold Obligations.LadlesFollowTable78
  refine ⟨fun l s => ?start, fun l s => ?run, fun l s => ?saveRestore, fun t id h positions k n p _ hn hp lt => shareDraft_held hn hp lt,
    fun t h used k _ ht => ⟨decideDrafts_wasted h used ht, fun e he => decideDrafts_kept he⟩⟩
  case start =>
    intro x
    refine ⟨fun stays => ?_, fun n e idle serves grant head => ⟨_, rfl, ?_⟩⟩
    · exact congrArg (quiet s) (startEntry_stays stays)
    · have eligible := grantLane_eligible grant
      rw [startEntry_granted idle serves grant head]
      exact ⟨ladleOf_setLadle .., fun k hk => ladleOf_setLadle_ne hk .., rfl, rfl, laneEligible_open eligible, laneEligible_credited eligible head,
        fun v used => laneEligible_urgent eligible head used⟩
  case run =>
    intro x
    refine ⟨fun e runs held => ?_, fun idle => ⟨?_, ?_⟩, fun e r st runs hr moves => ?_, fun e r st runs hr => ?_⟩
    · exact congrArg (quiet s) (completeEntry_gated runs held)
    · exact congrArg (quiet s) (completeEntry_notRunning idle)
    · exact congrArg (quiet s) (preemptLadle_notRunning idle)
    · intro next cycles
      have run : exec (.ladleEntryComplete l) s = .next (s.keepHost (entryDone (endedState s l e) e.slot)) :=
        congrArg (quiet s) (completeEntry_ends st runs moves)
      obtain ⟨charged, joined, others, due, tier⟩ := endedState_shows (e := e) hr l
      refine ⟨fun last => ⟨_, run.trans (by rw [entryDone_last charged last]; rfl), ?_⟩,
        fun more => ⟨_, run.trans (by rw [entryDone_more charged more]), ?_⟩⟩
      · obtain ⟨own, gone, tiers⟩ := ranOut_shows (endedState s l e) e.slot { r with cycles := cycles }
        obtain ⟨q, queue, none_waited⟩ := joined
        exact ⟨⟨q, (own l).trans queue, none_waited⟩, fun k hk => (own k).trans (others k hk), gone, tiers.trans tier⟩
      · exact ⟨joined, others, tget_tset_self .., due, tier⟩
    · intro ran urgent empty
      have run : exec (.ladlePreempt l) s = quiet s _ := congrArg (quiet s) (preemptLadle_running st runs)
      have urgency : urgencyDue s l x e = true ↔ urgent := urgencyDue_iff
      have budget : budgetDue s l x e = true ↔ empty := budgetDue_iff
      have saves (cause : Bool) := savePreempted_shows (l := l) (x := x) hr cause
      have savesUrgent (hu : urgent) : exec (.ladlePreempt l) s = .next (s.keepHost (savePreempted s l x e true)) := by
        rw [run, if_pos (urgency.mpr hu)]; rfl
      have savesBudget (hu : ¬ urgent) (he : empty) : exec (.ladlePreempt l) s = .next (s.keepHost (savePreempted s l x e false)) := by
        rw [run, if_neg (mt urgency.mp hu), if_pos (budget.mpr he)]; rfl
      refine ⟨fun hu he => ?_, fun due => ?_, fun hu => ⟨_, savesUrgent hu, ?_⟩, fun hu he => ⟨_, savesBudget hu he, ?_⟩⟩
      · rw [run, if_neg (mt urgency.mp hu), if_neg (mt budget.mp he)]; rfl
      · by_cases hu : urgent
        · obtain ⟨⟨saving, stopped, queue, ptr⟩, -, -, counted, others, nothing_due⟩ := saves true
          exact ⟨_, savesUrgent hu, saving, stopped, queue, ptr, counted, others, nothing_due⟩
        · obtain ⟨⟨saving, stopped, queue, ptr⟩, -, -, counted, others, nothing_due⟩ := saves false
          exact ⟨_, savesBudget hu (due.resolve_left hu), saving, stopped, queue, ptr, counted, others, nothing_due⟩
      · obtain ⟨-, budgetArea, urgencyArea, -⟩ := saves true
        exact ⟨urgencyArea, budgetArea⟩
      · obtain ⟨-, budgetArea, urgencyArea, -⟩ := saves false
        exact ⟨budgetArea, urgencyArea⟩
  case saveRestore =>
    intro x
    exact ⟨fun h => if_neg h, fun h => if_pos h, fun h => if_neg h, fun h => if_pos h⟩

end Sys2Proof.Proofs
end

section
/-!
PROOFS. O47 fails: ATTEND_DECODE takes the age of its command from a slot number that two slots may share (08_attention.md R249, Table 8.8;
07_ladle_engines.md R245; 04_host_queues.md R92).
-/
namespace Sys2Proof.Proofs
open Sys2Proof.Machine

/-- ATTEND_DECODE of the request with handle 5, with descriptor tensor 1, for layer 0, FP32 in and out, its operands in host memory. -/
def decodeWithTensor : Cmd :=
  { dropSecondPage with
    w0 := 0x38, w2 := BitVec.ofNat 64 (2 * 2 ^ 62 + 0x2000), w3 := BitVec.ofNat 64 (2 * 2 ^ 62 + 0x3000)
    w4 := BitVec.ofNat 64 (1 * 2 ^ 48 + 6 * 2 ^ 36 + 6 * 2 ^ 32) }

/-- The module owns the request. Two slots have the number 0: in one a command waits for its engine, in the other the ATTEND_DECODE has been fetched. A
TENSOR_FREE waits to free tensor 1. -/
def decodeInSharedSlot : State :=
  { overfullPage with
    host := { overfullPage.host with slots := [{ fetchedDrop with phase := .waiting .engine }, { fetchedDrop with cmd := decodeWithTensor }] }
    tier := { overfullPage.tier with tensors := [((0, 1), freeingTensor)] } }

theorem startsHere_decodeInSharedSlot : StartsHere 0x38 decodeWithTensor decodeInSharedSlot 0 decodeInSharedSlot :=
  ⟨⟨by decide, rfl, by decide⟩, by decide⟩

/-- What the clause asks for: TENSOR_UNKNOWN, since a command that starts now does not find the tensor (07 R245). -/
theorem due_finish_decodeInSharedSlot :
    (finish (here decodeInSharedSlot 0 decodeWithTensor) 0 0x0306 0 0).host.due.map (·.status) = [0x0306] := by decide

/-- What the command does: as one that had started before the TENSOR_FREE it reads the tensor, and its member's block, of T = 0, is refused for its shape. -/
theorem due_attendDecode_decodeInSharedSlot : (runAttendDecode decodeWithTensor decodeInSharedSlot).host.due.map (·.status) = [0x0303] := by decide

/-- Refutes O47: its clause on ATTEND_DECODE says that a command whose descriptor tensor is being freed completes with TENSOR_UNKNOWN, 0x0306 (Table 8.8,
07 R245). The tensor serves a command that has started before, and whether it has is read from the first slot of the command's number. No hypothesis
says that slot numbers are distinct, as a fetch gives them (04 R92): in `decodeInSharedSlot` the command of another slot 0 has started, and the
ATTEND_DECODE passes the descriptor and completes with the code of a later check, SHAPE_INVALID. -/
theorem not_attentionAndExpertsWriteTheirRows : ¬ Obligations.AttentionAndExpertsWriteTheirRows := by
  unfold Obligations.AttentionAndExpertsWriteTheirRows
  intro h
  obtain ⟨decode, -⟩ := h
  obtain ⟨-, -, -, ahead⟩ := decode decodeWithTensor 0 decodeInSharedSlot decodeInSharedSlot startsHere_decodeInSharedSlot rfl (by decide) (by decide)
  obtain ⟨unknown, -⟩ := ahead (by decide) (by decide) (by decide) (by decide) (by decide : ∀ i ∈ _, _ = _)
  have completes := unknown (by decide)
  have runs : exec (.attendDecode decodeWithTensor) decodeInSharedSlot =
    .next (decodeInSharedSlot.keep (runAttendDecode decodeWithTensor decodeInSharedSlot)) := rfl
  have same : decodeInSharedSlot.keep (runAttendDecode decodeWithTensor decodeInSharedSlot) =
      decodeInSharedSlot.keepHost (finish (here decodeInSharedSlot 0 decodeWithTensor) 0 0x0306 0 0) := Host.Outcome.next.inj (runs.symm.trans completes)
  have codes : [0x0303] = [0x0306] := calc
    [0x0303] = (runAttendDecode decodeWithTensor decodeInSharedSlot).host.due.map (·.status) := due_attendDecode_decodeInSharedSlot.symm
    _ = (finish (here decodeInSharedSlot 0 decodeWithTensor) 0 0x0306 0 0).host.due.map (·.status) := congrArg (fun t => t.host.due.map (·.status)) same
    _ = [0x0306] := due_finish_decodeInSharedSlot
  exact absurd codes (by decide)

end Sys2Proof.Proofs
end

section
/-!
PROOFS. O44: the life of an adapter version (09_experts_and_weight_streaming.md R278–R288, Tables 9.1, 9.2, 9.3; 20 Table 20.2).
-/
namespace Sys2Proof.Proofs
open Sys2Proof.Machine Sys2Proof.Laws

/-! ### The adapter table -/

/-- A version that is found is the one that was asked for. -/
theorem adVer_key {s : State} {t a n : Nat} {v : AdVer} (h : adVer s t a n = some v) : v.tenant = t ∧ v.adapter = a ∧ v.version = n := by
  have found := List.find?_some h
  simpa [AdVer.isAt, and_assoc] using found

section
variable (s : State) (v : AdVer)

@[simp] theorem setAdVer_tier : (setAdVer s v).tier = s.tier := rfl

theorem adVer_setAdVer : adVer (setAdVer s v) v.tenant v.adapter v.version = some v := by
  have own : v.isAt v.tenant v.adapter v.version = true := by simp [AdVer.isAt]
  simp only [adVer, setAdVer]
  split
  next there =>
    have kept : (fun x : AdVer => x.isAt v.tenant v.adapter v.version) ∘
        (fun x => if x.isAt v.tenant v.adapter v.version then v else x) = fun x => x.isAt v.tenant v.adapter v.version := by
      funext x
      by_cases hx : x.isAt v.tenant v.adapter v.version = true <;> simp [hx, own]
    obtain ⟨x, hx⟩ := Option.isSome_iff_exists.mp (List.find?_isSome.mpr (List.any_eq_true.mp there))
    have at' := List.find?_some hx
    rw [List.find?_map, kept, hx, Option.map_some, if_pos at']
  next absent =>
    have notFound : s.comp.adapters.find? (·.isAt v.tenant v.adapter v.version) = none := by simpa using absent
    rw [List.find?_append, notFound]
    simp [own]

/-- Setting one version leaves every other in the table. -/
theorem mem_setAdVer {x : AdVer} (hx : x ∈ s.comp.adapters) (other : x.version ≠ v.version) : x ∈ (setAdVer s v).comp.adapters := by
  have apart : x.isAt v.tenant v.adapter v.version = false := by simp [AdVer.isAt, other]
  simp only [setAdVer]
  split
  · exact List.mem_map.mpr ⟨x, hx, by simp [apart]⟩
  · exact List.mem_append_left _ hx

end

theorem adVer_delAdVer (s : State) (t a n : Nat) : adVer (delAdVer s t a n) t a n = none := by
  simp only [adVer, delAdVer]
  exact List.find?_eq_none.mpr fun x hx => by simpa using (List.mem_filter.mp hx).2

/-! ### Directory entries that are freed (06 R177) -/

theorem freeEntry_dir (s : State) (i k : Nat) : tget (freeEntry s i).tier.dir k = if i = k then none else tget s.tier.dir k := by
  cases hi : tget s.tier.dir i with
  | none =>
    simp only [freeEntry, hi]
    split
    next same => rw [← same, hi]
    next => rfl
  | some e =>
    have released : (releaseRun s i e.run).tier.dir = s.tier.dir := by
      unfold releaseRun
      split <;> rfl
    simp only [freeEntry, hi, setTier_tier, tget_tdel]
    split
    · rfl
    · split <;> exact congrArg (tget · k) released

theorem freeEntries_dir : ∀ (l : List Nat) (s : State) (k : Nat),
    tget (freeEntries s l).tier.dir k = if k ∈ l then none else tget s.tier.dir k
  | [], _, _ => by simp [freeEntries]
  | i :: l, s, k => by
    rw [freeEntries, freeEntries_dir l, freeEntry_dir]
    by_cases hl : k ∈ l <;> by_cases hi : i = k <;> simp [hl, hi, eq_comm]

/-! ### Loads that find no room (R283; 06 R192) -/

/-- An occurrence of another event leaves a counter as it is. -/
theorem eventT_events_ne {c k : Nat} (h : c ≠ k) (s : State) (i j : Nat) (t : Option Nat) (d : Nat) :
    tgetD (eventT s i c false t d).tele.events (j, k) 0 = tgetD s.tele.events (j, k) 0 := by
  have other : (i, c) ≠ (j, k) := fun e => h (congrArg Prod.snd e)
  simp [eventT, countEvent, tupd, tgetD_tset_ne other]

section
variable (s : State)

@[simp] theorem sysSend_tele (d : Nat) (m : SysMsg) : (sysSend s d m).tele = s.tele := by
  obtain ⟨out, again, h⟩ := sysSend_eq s d m
  rw [h]

@[simp] theorem recallNewest_due : (recallNewest s).host.due = s.host.due := by
  unfold recallNewest
  split
  · rfl
  · simp

/-- A recall raises its own counter alone, that of code 0x42. -/
theorem recallNewest_events {k : Nat} (h : 0x42 ≠ k) (i : Nat) :
    tgetD (recallNewest s).tele.events (i, k) 0 = tgetD s.tele.events (i, k) 0 := by
  unfold recallNewest
  split
  · rfl
  · rw [sysSend_tele, eventT_events_ne h, setTier_tele]

variable (v : AdVer)

/-- What a load that finds no room may do is to recall a lent grant. -/
theorem turnedAway_eq : turnedAway s v = s ∨ turnedAway s v = recallNewest s := by
  unfold turnedAway
  split
  · exact .inl rfl
  · split
    · unfold unplaced
      split
      · exact .inr rfl
      · exact .inl rfl
    · exact .inl rfl

theorem turnedAway_due : (turnedAway s v).host.due = s.host.due := by
  obtain h | h := turnedAway_eq s v
  · rw [h]
  · rw [h, recallNewest_due]

theorem turnedAway_waits (i : Nat) : tgetD (turnedAway s v).tele.events (i, 0x34) 0 = tgetD s.tele.events (i, 0x34) 0 := by
  obtain h | h := turnedAway_eq s v
  · rw [h]
  · rw [h, recallNewest_events s (by decide)]

/-- A version without slices places none, and recalls nothing. -/
theorem turnedAway_headerOnly : (if v.headerOnly then s else turnedAway s v) = turnedAway s v := by
  split
  next h => simp [turnedAway, h]
  next => rfl

theorem waitForRoom_shown (id : Nat) : adVer (waitForRoom s id v) v.tenant v.adapter v.version = some v ∧ (waitForRoom s id v).tier = s.tier ∧
    (waitForRoom s id v).host.due = s.host.due ∧
    tgetD (waitForRoom s id v).tele.events (21, 0x34) 0 = wrapAdd 48 (tgetD s.tele.events (21, 0x34) 0) 1 := by
  refine ⟨?table, ?tier, ?due, eventT_counted ..⟩
  case table =>
    change (eventT (setAdVer s v) ..).comp.adapters.find? _ = _
    rw [eventT_comp]
    exact adVer_setAdVer s v
  case tier => exact eventT_tier ..
  case due => exact eventT_host_due ..

end

/-! ### A load that begins -/

/-- The table entry of a load whose runs are placed. -/
def placedVersion (v : AdVer) (dirs : List Nat) : AdVer := { v with st := .loading, dirs := dirs }

theorem startLoad_placed {s p : State} {v : AdVer} {l : List Nat} (slices : v.headerOnly = false) (few : fewVersions s v = true)
    (placed : placeStacks s v (List.range 20) = .ok (l, p)) (new : v.reload = false) :
    startLoad s v = some (setAdVer p (placedVersion v l)) := by
  unfold startLoad
  rw [if_neg (by simp [slices, few]), placed]
  dsimp only
  rw [if_neg (by simp [new])]
  rfl

section
variable {u : State} {id : Nat} {v : AdVer} (nowait : Bool)

theorem beginLoad_header (h : v.headerOnly = true) (few : fewVersions u v = true) :
    beginLoad u id v nowait = loadDone u { v with st := .loading } := by simp [beginLoad, h, few]

theorem beginLoad_room {p : State} (h : v.headerOnly = false) (room : startLoad u v = some p) :
    beginLoad u id v nowait = await p id .room := by simp [beginLoad, h, room]

theorem beginLoad_noRoom (h : if v.headerOnly then fewVersions u v = false else startLoad u v = none) :
    beginLoad u id v nowait =
      if nowait then fail (turnedAway u v) id Status.adapterWaitRoom else waitForRoom (turnedAway u v) id v := by
  unfold beginLoad
  split at h
  next header => simp [header, h, turnedAway]
  next slices => rw [if_neg slices, h]

end

/-! ### ADAPTER_LOAD (R288) -/

theorem adapterLoad_runs {c : Cmd} {id : Nat} {s s1 : State} (h : Starts 0xA0 c s id s1) :
    exec (.adapterLoad c) s = .next (s.keepHost (loadBody c id (begun s1 id c))) := by
  change quiet s (runAdapterLoad c s) = _
  rw [runAdapterLoad, runCmd_starts h]
  rfl

section
variable {c : Cmd} {id : Nat} {u : State} {v : AdVer} (aligned : c.w2.toNat % 64 = 0) (readable : hostBad u c.w2.toNat 64 = false)
  (header : headerOf (cmdTenant u c) (u.hostMem.readWords c.w2.toNat 8) c.w3.toNat c.w2.toNat id = v)
include aligned readable header

theorem loadBody_malformed (bad : v.formatOk = false) : loadBody c id u = fail u id Status.adapterFormat := by
  simp [loadBody, aligned, readable, header, bad]

variable (ok : v.formatOk = true)
include ok

/-- Only a LOST version with the CRC of the header is loaded again. -/
theorem loadBody_exists {x : AdVer} (there : adVer u (cmdTenant u c) v.adapter v.version = some x) (other : x.st ≠ .lost ∨ x.crc ≠ v.crc) :
    loadBody c id u = fail u id Status.adapterExists := by
  have noReload : (decide (x.st = .lost) && decide (x.crc = v.crc) && !x.reload) = false := by
    rcases other with st | crc
    · simp [st]
    · simp [crc]
  simp [loadBody, aligned, readable, header, ok, there, noReload]

theorem loadBody_new (absent : adVer u (cmdTenant u c) v.adapter v.version = none) : loadBody c id u =
    if 1024 ≤ u.comp.adapters.length then fail u id Status.adapterLimit else beginLoad u id v (flag c.w3 2) := by
  simp [loadBody, aligned, readable, header, ok, absent]

end

/-! ### A load that ends (Table 9.2, R286) -/

/-- What a version becomes when its load ends well. -/
def reachedSt (v : AdVer) : AdSt := if v.makeCurrent then .current else .held

/-- The table entry of a new version whose load has ended well: LOST where it lost a run meanwhile. -/
def loadedVersion (v : AdVer) : AdVer :=
  let x : AdVer := { v with fresh := [], reload := false, slot := none }
  if v.short then { x with st := .lost, prior := reachedSt v, short := false } else { x with st := reachedSt v }

/-- The state in which the load of a new version has ended well, its command still to complete. -/
def loadedState (s : State) (v : AdVer) : State :=
  let s1 := if v.makeCurrent then demoteCurrent s v.tenant v.adapter v.version else s
  setAdVer (if v.short then eventT s1 21 0x45 false (some v.tenant) 0 else s1) (loadedVersion v)

theorem loadedState_tier (s : State) (v : AdVer) : (loadedState s v).tier = s.tier := by
  have demoted : (if v.makeCurrent then demoteCurrent s v.tenant v.adapter v.version else s).tier = s.tier := by split <;> rfl
  unfold loadedState
  dsimp only
  rw [setAdVer_tier]
  split
  · rw [eventT_tier, demoted]
  · exact demoted

theorem loadedVersion_fields (v : AdVer) : (loadedVersion v).tenant = v.tenant ∧ (loadedVersion v).adapter = v.adapter ∧
    (loadedVersion v).version = v.version ∧ (loadedVersion v).dirs = v.dirs ∧ (loadedVersion v).content = v.content := by
  unfold loadedVersion
  dsimp only
  split <;> exact ⟨rfl, rfl, rfl, rfl, rfl⟩

theorem loadedVersion_st (v : AdVer) : (loadedVersion v).st = (if v.short then .lost else reachedSt v) ∧
    (v.short = true → (loadedVersion v).prior = reachedSt v) := by
  unfold loadedVersion
  dsimp only
  split
  · exact ⟨rfl, fun _ => rfl⟩
  next whole => exact ⟨rfl, fun h => absurd h whole⟩

theorem adVer_loadedState (s : State) (v : AdVer) : adVer (loadedState s v) v.tenant v.adapter v.version = some (loadedVersion v) := by
  obtain ⟨ht, ha, hn, -, -⟩ := loadedVersion_fields v
  have set (r : State) : adVer (setAdVer r (loadedVersion v)) v.tenant v.adapter v.version = some (loadedVersion v) := by
    simpa only [ht, ha, hn] using adVer_setAdVer r (loadedVersion v)
  exact set _

/-- A version that becomes CURRENT retires the one that was. -/
theorem retiring_mem_loadedState {s : State} {v x : AdVer} (make : v.makeCurrent = true) (hx : x ∈ s.comp.adapters) (ht : x.tenant = v.tenant)
    (ha : x.adapter = v.adapter) (hn : x.version ≠ v.version) (hc : x.st = .current) :
    { x with st := .retiring } ∈ (loadedState s v).comp.adapters := by
  obtain ⟨-, -, version, -, -⟩ := loadedVersion_fields v
  refine mem_setAdVer _ _ ?_ (by rw [version]; exact hn)
  have demoted : { x with st := .retiring } ∈ (demoteCurrent s v.tenant v.adapter v.version).comp.adapters :=
    List.mem_map.mpr ⟨x, hx, by simp [ht, ha, hn, hc]⟩
  rw [if_pos make]
  split
  · rw [eventT_comp]
    exact demoted
  · exact demoted

section
variable {s : State} {v : AdVer} {id : Nat} (new : v.reload = false) (slot : v.slot = some id)
include new slot

theorem loadDone_new : loadDone s v = finish (loadedState s v) id Status.ok (slabsIn s v.dirs true) (slabsIn s v.dirs false) := by
  have slabs (t1 : Bool) : slabsIn (loadedState s v) v.dirs t1 = slabsIn s v.dirs t1 := by simp only [slabsIn, loadedState_tier]
  rw [← slabs true, ← slabs false]
  unfold loadDone loadedState afterLoad loadedVersion reachedSt
  cases make : v.makeCurrent <;> cases short : v.short <;> simp [new, slot]

theorem loadFailed_new (code : Nat) :
    loadFailed s v code = finish (delAdVer (freeEntries s v.dirs) v.tenant v.adapter v.version) id code 0 0 := by
  simp only [loadFailed, new, slot, Bool.false_eq_true, if_false]
  rfl

end

/-- Bytes taken over from host memory. -/
theorem blobByte_hostBlob (s : State) (a : Nat) {i n : Nat} (hi : i < n) : blobByte (hostBlob s a n) i = s.hostMem.read (a + i) := by
  rw [blobByte_zeroFill (by rfl), read_eq_cellAt]
  exact congrArg (Option.getD · 0) (cellAt_moved _ _ _ hi)

/-- A version with the content that its load has read. -/
def readSlices (s : State) (v : AdVer) : AdVer := { v with content := hostBlob s (v.addr + 64) (v.layers * v.sliceBytes) }

/-! ### The rows about one version (Table 9.2) -/

section
variable {s : State} {t a n : Nat}

theorem adapterRoomAvailable_unknown (h : adVer s t a n = none) : exec (.adapterRoomAvailable t a n) s = .next s := by
  change execAdapterRoomAvailable t a n s = _
  simp only [execAdapterRoomAvailable, h]

theorem adapterLoadComplete_unknown (h : adVer s t a n = none) : exec (.adapterLoadComplete t a n) s = .next s := by
  change quiet s (loadComplete s t a n) = _
  simp only [loadComplete, h]
  rfl

theorem adapterVersionFree_unknown (h : adVer s t a n = none) : exec (.adapterVersionFree t a n) s = .next s := by
  change execAdapterVersionFree t a n s = _
  simp only [execAdapterVersionFree, h]

variable {v : AdVer}

/-- A version of which no load is under way goes with its runs. -/
theorem freeVersion_idle (slot : v.slot = none) (fresh : v.fresh = []) :
    freeVersion s v = delAdVer (freeEntries s v.dirs) v.tenant v.adapter v.version := by
  simp only [freeVersion, slot, fresh, List.append_nil]

variable (h : adVer s t a n = some v)
include h

/-- A version is freed once it is RETIRING, or LOST with that as its PRIOR, and neither a request nor a stream refers to it. -/
theorem adapterVersionFree_eq : exec (.adapterVersionFree t a n) s =
    if (v.st = .retiring ∨ (v.st = .lost ∧ v.prior = .retiring)) ∧ v.refs = 0 ∧ streamsOf s t a n = 0 then
      .next (s.keepHost (freeVersion s v))
    else .next s := by
  change execAdapterVersionFree t a n s = _
  simp only [execAdapterVersionFree, h, Bool.and_eq_true, Bool.or_eq_true, decide_eq_true_eq, and_assoc]
  rfl

theorem adapterRoomAvailable_notWaiting (new : v.reload = false) (st : v.st ≠ .waitRoom) : exec (.adapterRoomAvailable t a n) s = .next s := by
  change execAdapterRoomAvailable t a n s = _
  simp [execAdapterRoomAvailable, h, AdVer.waiting, st, new]

theorem adapterRoomAvailable_waiting (st : v.st = .waitRoom) (slices : v.headerOnly = false) :
    exec (.adapterRoomAvailable t a n) s = .next (s.keepHost ((startLoad s v).getD s)) := by
  change execAdapterRoomAvailable t a n s = _
  simp only [execAdapterRoomAvailable, h, AdVer.waiting, st, slices, decide_true, Bool.true_or, Bool.not_true, Bool.false_eq_true, if_false]
  rfl

theorem adapterLoadComplete_notLoading (new : v.reload = false) (st : v.st ≠ .loading) : exec (.adapterLoadComplete t a n) s = .next s := by
  change quiet s (loadComplete s t a n) = _
  simp [loadComplete, h, AdVer.reading, st, new, quiet_self]

/-- Slices that can be read are judged by their CRC. -/
theorem adapterLoadComplete_judged (st : v.st = .loading) (readable : hostBad s (v.addr + 64) (v.layers * v.sliceBytes) = false) :
    exec (.adapterLoadComplete t a n) s = .next (s.keepHost
      (if crc32c (s.hostMem.readBytes (v.addr + 64) (v.layers * v.sliceBytes)) ≠ v.crc then loadFailed s v Status.adapterIntegrity
       else loadDone s (readSlices s v))) := by
  change quiet s (loadComplete s t a n) = _
  simp only [loadComplete, h, AdVer.reading, st, readable, decide_true, Bool.true_or, Bool.not_true, Bool.false_eq_true, if_false]
  rfl

end

/-! ### ADAPTER_RETIRE and ADAPTER_QUERY (R287) -/

/-- The versions that an ADAPTER_RETIRE names. -/
def namedVersions (u : State) (c : Cmd) : List AdVer :=
  u.comp.adapters.filter fun v => v.tenant = cmdTenant u c && v.adapter = fld c.w2 31 16 && (fld c.w2 15 0 = 0 || v.version = fld c.w2 15 0)

section
variable {s : State} {v : AdVer}

theorem retireVer_serving (h : v.st = .current ∨ v.st = .held) : retireVer s v = setAdVer s { v with st := .retiring } := by
  rcases h with h | h <;> simp [retireVer, h]

theorem retireVer_retiring (h : v.st = .retiring) : retireVer s v = s := by simp [retireVer, h]

theorem retireVer_waiting {k : Nat} (h : v.st = .waitRoom) (slot : v.slot = some k) :
    retireVer s v = finish (delAdVer s v.tenant v.adapter v.version) k Status.adapterRetired 0 0 := by
  simp only [retireVer, h, slot]
  rfl

end

theorem adapterRetire_runs {c : Cmd} {id : Nat} {s s1 : State} (h : Starts 0xA1 c s id s1) :
    exec (.adapterRetire c) s = .next (s.keepHost (finish ((namedVersions (begun s1 id c) c).foldl retireVer (begun s1 id c)) id Status.ok
      ((namedVersions (begun s1 id c) c).filter fun v => v.st = .current || v.st = .held).length 0)) := by
  change quiet s (runAdapterRetire c s) = _
  rw [runAdapterRetire, runCmd_starts h]
  rfl

theorem adapterQuery_runs {c : Cmd} {id : Nat} {s s1 : State} (h : Starts 0xA2 c s id s1) :
    let u := begun s1 id c
    let cur := (currentVersion u (cmdTenant u c) (fld c.w2 31 16)).elim 0 (·.version)
    let found := adVer u (cmdTenant u c) (fld c.w2 31 16) (if fld c.w2 15 0 = 0 then cur else fld c.w2 15 0)
    exec (.adapterQuery c) s = .next (s.keepHost (match found with
      | none => finish u id Status.ok (cur * 2 ^ 40) 0
      | some v => finish u id Status.ok (v.st.code * 2 ^ 56 + cur * 2 ^ 40 + v.refs)
        (streamsOf u (cmdTenant u c) (fld c.w2 31 16) (if fld c.w2 15 0 = 0 then cur else fld c.w2 15 0) * 2 ^ 32 + slabsIn u v.dirs true +
          slabsIn u v.dirs false))) := by
  change quiet s (runAdapterQuery c s) = _
  rw [runAdapterQuery, runCmd_starts h]
  rfl

/-- Settles O44: each command is run to its own equation; the table is read through `adVer_setAdVer` and `adVer_delAdVer`, a load that ends well is
`loadedState`, and one that ends badly is deleted with its runs. -/
theorem adapterVersionsFollowTable92 : Obligations.AdapterVersionsFollowTable92 := by
  unfold Obligations.AdapterVersionsFollowTable92
  refine ⟨?load, ?unknown, ?presented, ?retire, ?free, ?query⟩
  case load =>
    intro c id s s1 h u t v aligned readable
    have run := adapterLoad_runs h
    have checks := @loadBody_new c id u v aligned readable rfl
    refine ⟨fun bad => ?_, fun x ok there other => ?_, fun ok absent => ⟨fun full => ?_, fun space => ?_⟩⟩
    · rw [run, loadBody_malformed aligned readable rfl bad]
      rfl
    · rw [run, loadBody_exists aligned readable rfl ok there other]
      rfl
    · rw [run, checks ok absent, if_pos full]
      rfl
    rw [run, checks ok absent, if_neg (Nat.not_le.mpr space)]
    refine ⟨fun header few => ?_, fun l p slices few placed => ?_, fun full => ⟨fun nowait => ?_, fun waits => ?_⟩⟩
    · rw [beginLoad_header _ header few, loadDone_new rfl rfl]
      exact ⟨_, _, rfl, adVer_loadedState .., rfl, rfl⟩
    · rw [beginLoad_room _ slices (startLoad_placed slices few placed rfl)]
      exact ⟨_, placedVersion v l, rfl, adVer_setAdVer p (placedVersion v l), rfl, rfl, rfl, rfl⟩
    · rw [beginLoad_noRoom _ full, if_pos nowait, turnedAway_headerOnly]
      rfl
    · obtain ⟨entry, tier, due, counted⟩ := waitForRoom_shown (turnedAway u v) v id
      rw [beginLoad_noRoom _ full, if_neg (by simp [waits]), turnedAway_headerOnly]
      exact ⟨_, v, rfl, entry, rfl, tier, due.trans (turnedAway_due ..), counted.trans (by rw [turnedAway_waits])⟩
  case unknown =>
    intro t a n s h
    exact ⟨adapterRoomAvailable_unknown h, adapterLoadComplete_unknown h, adapterVersionFree_unknown h⟩
  case presented =>
    intro t a n v s h new
    obtain ⟨rfl, rfl, rfl⟩ := adVer_key h
    refine ⟨adapterRoomAvailable_notWaiting h new, adapterLoadComplete_notLoading h new, fun st slices full => ?_,
      fun l p st slices few placed _ => ?_, fun id st slot readable => ⟨fun good => ?_, fun bad => ?_⟩⟩
    · rw [adapterRoomAvailable_waiting h st slices, full]
      rfl
    · rw [adapterRoomAvailable_waiting h st slices, startLoad_placed slices few placed new]
      exact ⟨_, placedVersion v l, rfl, adVer_setAdVer p (placedVersion v l), rfl, rfl, rfl⟩
    · rw [adapterLoadComplete_judged h st readable, if_neg (not_not.mpr good), loadDone_new (v := readSlices s v) new slot]
      obtain ⟨-, -, -, dirs, content⟩ := loadedVersion_fields (readSlices s v)
      refine ⟨_, _, rfl, adVer_loadedState s (readSlices s v), loadedVersion_st (readSlices s v), dirs, fun i hi => ?_,
        fun make x hx ht ha hn hc => retiring_mem_loadedState (v := readSlices s v) make hx ht ha hn hc, loadedState_tier ..⟩
      rw [content]
      exact blobByte_hostBlob s _ hi
    · rw [adapterLoadComplete_judged h st readable, if_pos bad, loadFailed_new new slot]
      exact ⟨_, rfl, adVer_delAdVer .., fun i hi => (freeEntries_dir ..).trans (if_pos hi)⟩
  case retire =>
    intro c id s s1 h u t mine
    have run := adapterRetire_runs h
    refine ⟨fun absent => ?_, fun v one => ?_⟩
    · rw [run, show namedVersions (begun s1 id c) c = [] from absent]
      rfl
    have tenant : v.tenant = t := by
      have isMine := (List.mem_filter.mp (one ▸ List.mem_singleton_self v : v ∈ mine)).2
      simp only [Bool.and_eq_true, decide_eq_true_eq] at isMine
      exact isMine.1.1
    rw [run, show namedVersions (begun s1 id c) c = [v] from one, ← tenant, List.foldl_cons, List.foldl_nil]
    refine ⟨fun st => ?_, fun st => ?_, fun k st slot => ?_⟩
    · rw [retireVer_serving st, List.filter_cons_of_pos (by simpa using st)]
      exact ⟨_, rfl, adVer_setAdVer u { v with st := .retiring }, rfl⟩
    · rw [retireVer_retiring st, List.filter_cons_of_neg (by simp [st])]
      rfl
    · rw [retireVer_waiting st slot, List.filter_cons_of_neg (by simp [st])]
      exact ⟨_, rfl, adVer_delAdVer ..⟩
  case free =>
    intro t a n v s h new
    rw [adapterVersionFree_eq h]
    refine ⟨fun st refs streams slot fresh => ?_, fun kept => if_neg ?_⟩
    · obtain ⟨rfl, rfl, rfl⟩ := adVer_key h
      rw [if_pos ⟨st, refs, streams⟩, freeVersion_idle slot fresh]
      exact ⟨_, rfl, adVer_delAdVer .., fun i hi => (freeEntries_dir ..).trans (if_pos hi), fun i hi => (freeEntries_dir ..).trans (if_neg hi)⟩
    · rintro ⟨st, refs, streams⟩
      rcases st with st | ⟨st, -⟩ <;> simp [st, refs, streams] at kept
  case query =>
    intro c id s s1 h u t a cur n
    have run := adapterQuery_runs h
    refine ⟨fun absent => ?_, fun v found => ?_⟩
    · rw [run, absent]
    · rw [run, found]

end Sys2Proof.Proofs
end

section
/-!
PROOFS. What a write to where a reference points does (07_ladle_engines.md R237, R246; 02_module_organisation.md R41; 04_host_queues.md R82).
-/
namespace Sys2Proof.Proofs
open Sys2Proof.Machine

/-! ### Bytes of an object -/

theorem cellAt_putCell (m : List Host.Cell) (a : Nat) (x : Byte) (k : Nat) : cellAt (putCell m a x) k = if k = a then some x else cellAt m k := by
  unfold cellAt
  induction m with
  | nil => simp [putCell, tget, eq_comm]
  | cons c m ih =>
    obtain ⟨a', x'⟩ := c
    unfold putCell
    split
    · simp [tget, eq_comm]
    · split
      next same =>
        subst same
        by_cases hk : a = k <;> simp [tget, hk, eq_comm (a := k)]
      next below other =>
        by_cases hk : a' = k
        · simp [tget, hk, show k ≠ a from fun e => other (e.symm.trans hk.symm)]
        · simp [tget, hk, ih]

/-- The cells of an object whose unwritten bytes are zeros are in canonical form; those of any other need no form. -/
def Cells (b : Blob) : Prop := b.fill.isSome = true ∨ Memory.wf b.cells = true

section
variable {b : Blob} (h : Cells b)
include h

theorem cells_blobPut (a : Nat) (x : Byte) : Cells (blobPut b a x) := by
  unfold blobPut
  split
  next none =>
    refine .inr (Memory.write_wf (h.resolve_left ?_) a x)
    simp [none]
  next n some => exact .inl (by simp [some])

theorem blobByte_blobPut (a : Nat) (x : Byte) (k : Nat) : blobByte (blobPut b a x) k = if k = a then x else blobByte b k := by
  unfold blobPut
  split
  next none =>
    have canonical : Memory.wf b.cells = true := h.resolve_left (by simp [none])
    rw [blobByte_zeroFill none, blobByte_zeroFill (by exact none), ← read_eq_cellAt, ← read_eq_cellAt]
    exact Memory.read_write canonical a k x
  next n _ =>
    unfold blobByte
    rw [cellAt_putCell]
    by_cases hk : k = a <;> simp [hk]

end

/-- A byte after several are written from `a` on: the one written there, or the one before. -/
theorem blobByte_blobPutAll : ∀ (bs : List (Byte × Bool)) {b : Blob} (_ : Cells b) (a k : Nat),
    blobByte (blobPutAll b a bs) k = if a ≤ k ∧ k < a + bs.length then (bs.getD (k - a) (0, false)).1 else blobByte b k
  | [], b, _, a, k => by simp [blobPutAll]
  | (x, q) :: bs, b, h, a, k => by
    rw [blobPutAll, blobByte_blobPutAll bs (cells_blobPut h a x), blobByte_blobPut h]
    by_cases here : k = a
    · subst here; simp
    · by_cases after : a + 1 ≤ k ∧ k < a + 1 + bs.length
      · obtain ⟨d, rfl⟩ := Nat.exists_eq_add_of_le after.1
        rw [if_pos after, if_pos (by simp; omega), show a + 1 + d - a = d + 1 by omega, show a + 1 + d - (a + 1) = d by omega, List.getD_cons_succ]
      · rw [if_neg after, if_neg here, if_neg (by simp; omega)]

/-- A byte of a memory after several are written. -/
theorem read_writeBytes {m : Memory} (h : m.wf = true) (bs : List Byte) (a k : Nat) :
    (m.writeBytes a bs).read k = if a ≤ k ∧ k < a + bs.length then bs.getD (k - a) 0 else m.read k := by
  split
  next inside =>
    obtain ⟨d, rfl⟩ := Nat.exists_eq_add_of_le inside.1
    have hd : d < bs.length := by omega
    rw [Memory.read_writeBytes_inside bs h hd, Nat.add_sub_cancel_left, List.getD_eq_getElem bs 0 hd]
  next outside => exact Memory.read_writeBytes_outside bs h (by omega)

/-! ### The write of a reference -/

theorem touchAll_eq (l : List Nat) : ∀ s : State, ∃ d, touchAll s l = setTier s { s.tier with dir := d } := by
  induction l with
  | nil => exact fun s => ⟨s.tier.dir, rfl⟩
  | cons i l ih =>
    intro s
    obtain ⟨d, h⟩ := ih (touch s i)
    exact ⟨d, h⟩

theorem touchRef_eq (s : State) (t : Nat) (r : Ref) : ∃ d, touchRef s t r = setTier s { s.tier with dir := d } := by
  unfold touchRef
  split
  · exact touchAll_eq ..
  · exact ⟨s.tier.dir, rfl⟩

theorem cover_eq (s : State) (id : Nat) (k : OpKind) (e : Option Bool) :
    ∃ n ops, cover s id k e = { s with host := { s.host with nextOp := n, ops := ops } } := by
  unfold cover
  split <;> exact ⟨_, _, rfl⟩

theorem mirrorOut_eq (s : State) (id : Nat) (bs : List Byte) : ∃ m, mirrorOut s id bs = { s with rel := { s.rel with mirrors := m } } := by
  unfold mirrorOut
  split
  · exact ⟨_, rfl⟩
  · exact ⟨s.rel.mirrors, rfl⟩

theorem shadowed_mirrorOut (s : State) (id : Nat) (bs : List Byte) : shadowed (mirrorOut s id bs) id = shadowed s id := by
  unfold mirrorOut shadowed
  split
  next has =>
    obtain ⟨x, hx⟩ := Option.isSome_iff_exists.mp has
    simp [tmod, hx]
  next => rfl

/-- A write to where a reference points changes bytes, operations that fences cover, what a digest is made of, and ages; nothing else. -/
theorem refWrite_eq (s : State) (id t : Nat) (r : Ref) (off : Nat) (bs : List (Byte × Bool)) : ∃ mem lines n ops tensors dir mirrors,
    refWrite s id t r off bs = { s with
      hostMem := mem, host := { s.host with badLines := lines, nextOp := n, ops := ops }
      tier := { s.tier with tensors := tensors, dir := dir }, rel := { s.rel with mirrors := mirrors } } := by
  obtain ⟨m, hm⟩ := mirrorOut_eq s id (bs.map (·.1))
  unfold refWrite
  rw [hm]
  dsimp only
  split
  · split
    · exact ⟨_, _, _, _, _, _, _, rfl⟩
    next x _ =>
      obtain ⟨d, hd⟩ := touchRef_eq _ t (.tensor _ _)
      rw [hd]
      exact ⟨_, _, _, _, _, _, _, rfl⟩
  · split
    · exact ⟨_, _, _, _, _, _, _, rfl⟩
    · split
      · obtain ⟨n, ops, hc⟩ := cover_eq _ id _ _
        rw [hc]
        exact ⟨_, _, _, _, _, _, _, rfl⟩
      · obtain ⟨n, ops, hc⟩ := cover_eq _ id _ _
        rw [hc]
        exact ⟨_, _, _, _, _, _, _, rfl⟩
  · exact ⟨_, _, _, _, _, _, _, rfl⟩

section
variable {s : State} {id t : Nat} (bs : List (Byte × Bool))

/-- A write to a tensor that the tenant has. -/
theorem refWrite_tensor {n off : Nat} {x : Tensor} (hx : tget s.tier.tensors (t, n) = some x) (o : Nat) :
    (refWrite s id t (.tensor n off) o bs).tier.tensors = tset s.tier.tensors (t, n) { x with blob := blobWrite x.blob (off + o) bs } ∧
      (refWrite s id t (.tensor n off) o bs).hostMem = s.hostMem := by
  obtain ⟨m, hm⟩ := mirrorOut_eq s id (bs.map (·.1))
  simp only [refWrite, hm, hx]
  obtain ⟨d, hd⟩ := touchRef_eq _ t (.tensor n off)
  rw [hd]
  exact ⟨rfl, rfl⟩

/-- A write to host memory is placed while the link is up (02 R41). -/
theorem refWrite_host (own : shadowed s id = false) (a o : Nat) :
    (refWrite s id t (.host a) o bs).hostMem = (if s.host.link.up then s.hostMem.writeBytes (a + o) (bs.map (·.1)) else s.hostMem) ∧
      (refWrite s id t (.host a) o bs).tier.tensors = s.tier.tensors := by
  have own' := (shadowed_mirrorOut s id (bs.map (·.1))).trans own
  obtain ⟨m, hm⟩ := mirrorOut_eq s id (bs.map (·.1))
  simp only [refWrite, own', Bool.false_eq_true, if_false]
  rw [hm]
  dsimp only
  split
  next up =>
    obtain ⟨n, ops, hc⟩ := cover_eq _ id (.hostWrite (a + o)) (some true)
    rw [hc]
    exact ⟨rfl, rfl⟩
  next down =>
    obtain ⟨n, ops, hc⟩ := cover_eq _ id (.hostWrite (a + o)) (some false)
    rw [hc]
    exact ⟨rfl, rfl⟩

/-- A reference that passes its check is to a tensor that the tenant has, or to host memory. -/
theorem refCheck_ok {r : Ref} {n : Nat} (ok : refCheck s t r n false = .ok) :
    (∃ k off x, r = .tensor k off ∧ tget s.tier.tensors (t, k) = some x ∧ x.freeing = false) ∨ ∃ a, r = .host a := by
  cases r with
  | tensor k off =>
    simp only [refCheck] at ok
    split at ok
    · cases ok
    · split at ok
      · cases ok
      next x hx =>
        split at ok
        · cases ok
        next kept => exact .inl ⟨k, off, x, rfl, hx, by simpa using kept⟩
  | window stream layer off => simp [refCheck] at ok
  | host a => exact .inr ⟨a, rfl⟩
  | reserved => simp [refCheck] at ok

theorem map_fst_getD (i : Nat) : (bs.map (·.1)).getD i 0 = (bs.getD i (0, false)).1 := by
  simp [List.getD_eq_getElem?_getD, List.getElem?_map]
  cases bs[i]? <;> rfl

/-- Where a reference passes its check, a write to it puts the bytes there and changes no other. -/
theorem wrote_refWrite {r : Ref} {n : Nat} (ok : refCheck s t r n false = .ok) (room : Writable s t r) (own : shadowed s id = false) :
    Wrote s (refWrite s id t r 0 bs) t r bs ∧ (refWrite s id t r 0 bs).hostMem.wf = true := by
  obtain ⟨canonical, cells⟩ := room
  obtain ⟨k, off, x, rfl, hx, -⟩ | ⟨a, rfl⟩ := refCheck_ok ok
  · obtain ⟨tensors, memory⟩ := refWrite_tensor (id := id) bs hx (off := off) 0
    refine ⟨⟨x, { x with blob := blobWrite x.blob off bs }, hx, ?_, rfl, rfl, fun a => ?_, fun j hj => ?_, memory⟩, by rw [memory, canonical]⟩
    · rw [tensors, tget_tset_self, Nat.add_zero]
    · exact blobByte_blobPutAll bs (cells k off x rfl hx) off a
    · rw [tensors, tget_tset_ne (Ne.symm hj)]
  · obtain ⟨memory, tensors⟩ := refWrite_host (t := t) bs own a 0
    refine ⟨⟨tensors, fun i => ?_⟩, ?_⟩
    · rw [memory, Nat.add_zero]
      by_cases up : s.host.link.up = true
      · simp only [up, if_true, true_and]
        rw [read_writeBytes canonical, map_fst_getD, List.length_map]
      · simp [up]
    · rw [memory]
      split
      · exact Memory.writeBytes_wf _ canonical _
      · exact canonical

end

/-- `Wrote` speaks of the tensors, of host memory and of the host link alone. -/
theorem wrote_congr {s s' w w' : State} {t : Nat} {r : Ref} {bs : List (Byte × Bool)} (h : Wrote s w t r bs) (tensors : s'.tier.tensors = s.tier.tensors)
    (memory : s'.hostMem = s.hostMem) (link : s'.host.link = s.host.link) (tensors' : w'.tier.tensors = w.tier.tensors)
    (memory' : w'.hostMem = w.hostMem) : Wrote s' w' t r bs := by
  unfold Wrote at h ⊢
  rw [tensors, memory, link, tensors', memory']
  exact h

end Sys2Proof.Proofs
end

section
/-!
PROOFS. What SAMPLE and DRAFT_RESET do on the owner of the request (10_sieve_sampler.md R297–R299, R312–R322, Tables 10.9, 10.10; 20 R568).
-/
namespace Sys2Proof.Proofs
open Sys2Proof.Machine Sys2Proof.Laws

/-! ### What a SAMPLE reads is not in the directory -/

/-- The state with another directory, and other pins that wait for a demotion. -/
def withDir (s : State) (d : Tab Nat DirEntry) (w : List (Nat × Pin)) : State := setTier s { s.tier with dir := d, waitPins := w }

theorem pinEntry_withDir (s : State) (p : Pin) (i : Nat) : ∃ d w, pinEntry s p i = withDir s d w := by
  unfold pinEntry
  split
  · split <;> exact ⟨_, _, rfl⟩
  · exact ⟨s.tier.dir, s.tier.waitPins, rfl⟩

theorem pinRead_withDir (id : Nat) (l : List Nat) : ∀ s : State, ∃ d w, pinRead s id l = withDir s d w := by
  induction l with
  | nil => exact fun s => ⟨s.tier.dir, s.tier.waitPins, rfl⟩
  | cons i l ih =>
    intro s
    obtain ⟨d1, w1, first⟩ := pinEntry_withDir s (.command id) i
    obtain ⟨d, w, rest⟩ := ih (pinEntry s (.command id) i)
    exact ⟨d, w, rest.trans (by rw [first]; rfl)⟩

/-- A read of objects none of which fails changes nothing (06 R174). -/
theorem readObjects_readable {s : State} : ∀ l : List Nat, Readable s l → readObjects s l = s
  | [], _ => rfl
  | i :: l, h => by
    have rest := readObjects_readable l fun j hj => h j (List.mem_cons_of_mem _ hj)
    have whole := h i List.mem_cons_self
    cases he : tget s.tier.dir i with
    | none => simp only [readObjects, he, rest]
    | some e =>
      rw [he, Option.elim_some] at whole
      simp [readObjects, he, whole, rest]

section
variable (s : State) (d : Tab Nat DirEntry) (w : List (Nat × Pin))

theorem sampleRefusal_withDir (id t : Nat) (r : Ref) (h : Nat) (m : Option SMember) :
    sampleRefusal (withDir s d w) id t r h m = sampleRefusal s id t r h m := rfl

theorem emit_withDir (e : SEnv) (y : StepOut) (x : Nat) (acc : Bool) : e.emit (withDir s d w) y x acc = e.emit s y x acc := rfl

theorem positions_withDir (e : SEnv) : ∀ (n j : Nat) (y : StepOut), e.positions (withDir s d w) n j y = e.positions s n j y
  | 0, _, _ => rfl
  | n + 1, j, y => by
    simp only [SEnv.positions, emit_withDir, positions_withDir e n]
    rfl

end

/-! ### A reference that passes as a command starts passes while it runs (07 R245) -/

section
variable {s : State} {t : Nat} {r : Ref}

theorem codeOf_refCheck_old {n : Nat} (ok : codeOf (refCheck s t r n false) = none) (old : Bool) :
    codeOf (refCheck s t r n false old) = none := by
  cases old with
  | false => exact ok
  | true =>
    cases r with
    | tensor k off =>
      simp only [refCheck] at ok ⊢
      split
      next bad => simp [bad, codeOf] at ok
      next aligned =>
        rw [if_neg aligned] at ok
        cases hx : tget s.tier.tensors (t, k) with
        | none => simp [hx, codeOf] at ok
        | some x =>
          cases free : x.freeing <;> cases short : decide (x.bytes < off + n) <;> simp_all [codeOf]
    | window stream layer off => simp [refCheck, codeOf] at ok
    | host a => exact ok
    | reserved => exact ok

/-- A block that is read as the command starts is read the same while it runs. -/
theorem readMember_old {off : Nat} {m : SMember} (h : readMember s t r false off = some m) (old : Bool) : readMember s t r old off = some m := by
  have passes (n : Nat) (ok : ¬ (codeOf (refCheck s t r n false)).isSome = true) : ¬ (codeOf (refCheck s t r n false old)).isSome = true := by
    rw [codeOf_refCheck_old (by simpa using ok)]
    simp
  unfold readMember at h ⊢
  split at h
  · cases h
  next head =>
    rw [if_neg (passes _ head)]
    extract_lets at h ⊢
    split at h
    next unsized => rw [if_pos unsized]; exact h
    next sized =>
      rw [if_neg sized]
      split at h
      · cases h
      next drafts =>
        rw [if_neg (passes _ drafts)]
        split at h
        · cases h
        next whole => rw [if_neg (passes _ whole)]; exact h

theorem readMembers_one (old : Bool) (off : Nat) : readMembers s t r old 1 off = (readMember s t r old off).map fun m => [some m] := by
  unfold readMembers
  cases readMember s t r old off with
  | none => rfl
  | some m => by_cases sized : sizedIntake m.intake m.fmt = true <;> simp [sized, readMembers]

theorem readMembers_one_old {m : SMember} (h : readMembers s t r false 1 0 = some [some m]) (old : Bool) :
    readMembers s t r old 1 0 = some [some m] := by
  rw [readMembers_one] at h ⊢
  obtain ⟨x, hx, same⟩ := Option.map_eq_some_iff.mp h
  rw [readMember_old hx]
  exact congrArg some same

end

/-! ### What a step of SAMPLE leaves alone -/

/-- From `u` to `w` nothing has changed of the tensors, of host memory, of its link, of the slots, the completions due and the mirrored commands. -/
structure Kept (u w : State) : Prop where
  tensors : w.tier.tensors = u.tier.tensors
  memory : w.hostMem = u.hostMem
  link : w.host.link = u.host.link
  slots : w.host.slots = u.host.slots
  due : w.host.due = u.host.due
  rel : w.rel = u.rel
  comp : w.comp = u.comp

theorem Kept.withReq {u w : State} (k : Kept u w) (r : Req) : Kept u { w with req := r } :=
  ⟨k.tensors, k.memory, k.link, k.slots, k.due, k.rel, k.comp⟩

theorem Kept.withTele {u w : State} (k : Kept u w) (x : Tele) : Kept u { w with tele := x } :=
  ⟨k.tensors, k.memory, k.link, k.slots, k.due, k.rel, k.comp⟩

theorem countEvent_drafts (s : State) (i c : Nat) (inj : Bool) (t : Option Nat) :
    (countEvent s i c inj t).tele.draftKept = s.tele.draftKept ∧ (countEvent s i c inj t).tele.draftWasted = s.tele.draftWasted := by
  cases inj <;> exact ⟨rfl, rfl⟩

theorem eventT_drafts (s : State) (i c : Nat) (inj : Bool) (t : Option Nat) (d : Nat) :
    (eventT s i c inj t d).tele.draftKept = s.tele.draftKept ∧ (eventT s i c inj t d).tele.draftWasted = s.tele.draftWasted := by
  unfold eventT
  extract_lets hi
  obtain ⟨k, g, rings⟩ := toRings_eq (countEvent s i c inj t) (eventWord i c hi (islandTime s i)) t
  rw [rings]
  exact countEvent_drafts s i c inj t

theorem meterAdd_drafts (s : State) (t comp cls n : Nat) :
    (meterAdd s t comp cls n).tele.draftKept = s.tele.draftKept ∧ (meterAdd s t comp cls n).tele.draftWasted = s.tele.draftWasted := by
  unfold meterAdd
  extract_lets bump s1
  split
  · exact ⟨rfl, rfl⟩
  · split
    · exact ⟨rfl, rfl⟩
    · split
      · exact ⟨rfl, rfl⟩
      · exact eventT_drafts ..

/-- The cycles of a step are charged to its gate and its meter, and its traffic to the crossbar and the stacks (R322; 17 R498). -/
def stepCharged (s : State) (t cls comp n : Nat) : State :=
  meterAdd (chargeTraffic (charge s t 4 cls 0 n) t cls (List.range 20)) t comp 2 n

theorem stepCharged_eq (s : State) (t cls comp n : Nat) : ∃ gov free k g x, stepCharged s t cls comp n =
    { s with gov := gov, free := free, host := { s.host with kettles := k, staging := g }, tele := x } ∧
      x.draftKept = s.tele.draftKept ∧ x.draftWasted = s.tele.draftWasted := by
  obtain ⟨g1, h1⟩ := charge_eq s t 4 cls 0 n
  obtain ⟨g2, free, h2⟩ := chargeTraffic_eq { s with gov := g1 } t cls (List.range 20)
  obtain ⟨k, g, x, h3⟩ := meterAdd_eq { s with gov := g2, free := free } t comp 2 n
  have drafts := meterAdd_drafts { s with gov := g2, free := free } t comp 2 n
  rw [h3] at drafts
  refine ⟨g2, free, k, g, x, ?_, drafts⟩
  rw [stepCharged, h1, h2]
  exact h3

/-- What SAMPLE decides of a request's drafts depends on the shares kept and the waste counted so far alone (20 R568). -/
theorem decideDrafts_congr {t t' : Tele} (kept : t'.draftKept = t.draftKept) (wasted : t'.draftWasted = t.draftWasted) (h used : Nat) :
    (t'.decideDrafts h used).draftWasted = (t.decideDrafts h used).draftWasted ∧
      (t'.decideDrafts h used).draftKept = (t.decideDrafts h used).draftKept := by
  have same (l : List ((Nat × Nat) × Nat)) : ∀ {t t' : Tele}, t'.draftKept = t.draftKept → t'.draftWasted = t.draftWasted →
      (l.foldl (wasteDraft used) t').draftWasted = (l.foldl (wasteDraft used) t).draftWasted ∧
        (l.foldl (wasteDraft used) t').draftKept = (l.foldl (wasteDraft used) t).draftKept := by
    induction l with
    | nil => exact fun kept wasted => ⟨wasted, kept⟩
    | cons e l ih =>
      intro t t' kept wasted
      refine ih ?_ ?_
      · unfold wasteDraft
        split <;> exact kept
      · rw [wasteDraft_draftWasted, wasteDraft_draftWasted, wasted]
  obtain ⟨sameWasted, sameKept⟩ := same (t.draftKept.filter fun e => e.1.1 = h) kept wasted
  unfold Tele.decideDrafts
  rw [kept]
  exact ⟨sameWasted, congrArg (List.filter _) sameKept⟩

/-! ### The steps that the ledger is given (R319) -/

theorem ownStep_eq (s : State) (o : Owned) (x : LStep) (why : Why) (f : ReqRec → ReqRec) : ∃ r, ownStep s o x why f = { s with req := r } := by
  unfold ownStep issueFrom
  obtain ⟨out, again, h⟩ := sysSend_eq _ _ _
  exact ⟨_, h⟩

/-- The LOG_APPEND step of the tokens that a SAMPLE has emitted. -/
def appendedStep (s : State) (o : Owned) (tokens : List Nat) (sampler : List Word) : LStep :=
  { stepOf s o.record 2 with logged := o.record.logged + tokens.length, payload := .append tokens sampler }

/-- The working copy once the tokens are in its log. -/
def appended (o : Owned) (tokens : List Nat) (sampler : List Word) : Owned :=
  { o with
    log := o.log ++ tokens
    record := { o.record with step := o.record.step + 1, logged := o.record.logged + tokens.length, sampler := sampler } }

/-- The state once LOG_APPEND is issued. -/
def appendIssued (s : State) (id : Nat) (o : Owned) (tokens : List Nat) (sampler : List Word) : State :=
  ownStep s { o with log := o.log ++ tokens } (appendedStep s o tokens sampler) (.command id)
    fun r => { r with logged := r.logged + tokens.length, sampler := sampler }

section
variable (s : State) (id : Nat) (o : Owned) (tokens : List Nat) (sampler : List Word)

theorem ownedOf_appendIssued : ownedOf (appendIssued s id o tokens sampler) o.record.handle = some (appended o tokens sampler) :=
  ownedOf_ownStep s { o with log := o.log ++ tokens } ..

theorem appendStep_eq (stop : Bool) : appendStep s id o tokens sampler stop =
    if stop then finishStep (appendIssued s id o tokens sampler) (appended o tokens sampler) 7 (.command id)
    else appendIssued s id o tokens sampler := by
  change (match ownedOf (appendIssued s id o tokens sampler) o.record.handle with
    | some o1 => if stop then finishStep (appendIssued s id o tokens sampler) o1 7 (.command id) else appendIssued s id o tokens sampler
    | none => appendIssued s id o tokens sampler) = _
  rw [ownedOf_appendIssued]

theorem appendIssued_issued : (appendIssued s id o tokens sampler).req.issued =
    s.req.issued ++ [issuedOf s { o with log := o.log ++ tokens } (appendedStep s o tokens sampler) (.command id)] := ownStep_issued ..

/-- FINISH with phase `ph` changes the working copy at once. -/
theorem ownedOf_finishStep (ph : Nat) (why : Why) : ownedOf (finishStep s o ph why) o.record.handle =
    some { o with record := { o.record with step := o.record.step + 1, phase := ph } } := ownedOf_ownStep ..

theorem finishStep_issued (ph : Nat) (why : Why) : (finishStep s o ph why).req.issued =
    s.req.issued ++ [issuedOf s o { stepOf s o.record 7 with newPhase := ph } why] := ownStep_issued ..

/-- What is issued changes the requests alone. -/
theorem appendStep_frame (stop : Bool) : ∃ r, appendStep s id o tokens sampler stop = { s with req := r } := by
  obtain ⟨r1, h1⟩ : ∃ r, appendIssued s id o tokens sampler = { s with req := r } := ownStep_eq ..
  rw [appendStep_eq]
  split
  next =>
    obtain ⟨r2, h2⟩ : ∃ r, finishStep (appendIssued s id o tokens sampler) (appended o tokens sampler) 7 (.command id) =
      { appendIssued s id o tokens sampler with req := r } := ownStep_eq ..
    rw [h1] at h2 ⊢
    exact ⟨r2, h2⟩
  next => exact ⟨r1, h1⟩

/-- The ledger gets the tokens with the new sampler state, and FINISH where the step met a stop condition; the working copy shows both at once. -/
theorem appendStep_shows (stop : Bool) : ∃ o1 i l, ownedOf (appendStep s id o tokens sampler stop) o.record.handle = some o1 ∧
    o1.log = o.log ++ tokens ∧ o1.record.logged = o.record.logged + tokens.length ∧
    o1.record.sampler = sampler ∧ o1.record.phase = (if stop then 7 else o.record.phase) ∧
    (appendStep s id o tokens sampler stop).req.issued = s.req.issued ++ i :: l ∧ i.why = .command id ∧
    i.step = { appendedStep s o tokens sampler with digest := i.step.digest } ∧
    (if stop then ∃ f, l = [f] ∧ f.step.kind = 7 ∧ f.step.newPhase = 7 ∧ f.step.step = o.record.step + 2 else l = []) := by
  rw [appendStep_eq]
  split
  next =>
    have issued := finishStep_issued (appendIssued s id o tokens sampler) (appended o tokens sampler) 7 (.command id)
    rw [appendIssued_issued, List.append_assoc, List.singleton_append] at issued
    exact ⟨_, _, _, ownedOf_finishStep .., rfl, rfl, rfl, rfl, issued, rfl, rfl, _, rfl, rfl, rfl, rfl⟩
  next => exact ⟨_, _, [], ownedOf_appendIssued .., rfl, rfl, rfl, rfl, appendIssued_issued .., rfl, rfl, rfl⟩

end

/-! ### The codes of a SAMPLE -/

theorem firstCode_mem {e : Nat} : ∀ {l : List (Option Nat)}, firstCode l = some e → some e ∈ l
  | none :: _, h => List.mem_cons_of_mem _ (firstCode_mem (by exact h))
  | some c :: _, h => by rw [show some c = some e from h]; exact List.mem_cons_self

theorem orCode_some {b : Bool} {c e : Nat} (h : orCode b c = some e) : e = c := by
  unfold orCode at h
  split at h
  · cases h
  · exact (Option.some.inj h).symm

/-- A refusal of a request that is owned here is no OK. -/
theorem sampleRefusal_ne_ok {s : State} {id t h e : Nat} {r : Ref} {o : Owned} {m : SMember} (ho : ownedOf s h = some o)
    (he : sampleRefusal s id t r h (some m) = some e) : e ≠ Status.ok := by
  simp only [sampleRefusal, ho] at he
  have code := firstCode_mem he
  simp only [List.mem_cons, List.not_mem_nil, or_false, eq_comm (a := some e)] at code
  rcases code with c | c | c | c | c | c | c | c | c | c <;> (rw [orCode_some c]; decide)

/-- A step ends with the status that it had, or with one of its own two (R309, R314). -/
def stepStatus (x : Nat) : Prop := x = Status.ok ∨ x = Status.grammarNoTransition ∨ x = Status.constraintDeadEnd

theorem emit_status {e : SEnv} {s : State} {y : StepOut} (h : stepStatus y.status) (x : Nat) (acc : Bool) :
    stepStatus (e.emit s y x acc).1.status := by
  unfold SEnv.emit
  dsimp only
  split
  · exact .inr (.inl rfl)
  · exact h

theorem positions_status (e : SEnv) (s : State) : ∀ (n j : Nat) {y : StepOut}, stepStatus y.status → stepStatus (e.positions s n j y).status
  | 0, _, _, h => h
  | n + 1, j, y, h => by
    unfold SEnv.positions
    extract_lets pos given y0
    split
    · exact .inr (.inr rfl)
    · extract_lets y1
      split
      · exact emit_status (by exact h) ..
      · split
        · extract_lets r
          have emitted : stepStatus r.1.status := emit_status (by exact h) ..
          split
          · exact positions_status e s n (j + 1) emitted
          · exact emitted
        · exact emit_status (by exact h) ..

/-! ### One request's SAMPLE -/

theorem slotMembers_setStage {s : State} {id h : Nat} (one : slotMembers s id = [h]) (n : Nat) : slotMembers (setStage s id n) id = [h] := by
  unfold slotMembers at one ⊢
  cases hx : slotById s id with
  | none => simp [hx] at one
  | some x =>
    rw [setStage, slotById_modSlot (f := fun y => { y with aux := n }) hx fun _ => rfl]
    rw [hx] at one
    exact one

/-- Command `c` of slot `id` is a SAMPLE of one request with working copy `o` and input block `m`, which has passed all that lies before its step: nothing
of it has run, nothing makes it wait, its operands can be read and written, and the gate of its lane is open. -/
structure SampleReady (u : State) (id : Nat) (c : Cmd) (o : Owned) (m : SMember) : Prop where
  fresh : tget u.comp.sampling id = none
  noSteps : stepsPending u id = false
  readable : Readable u (tensorDirs u (cmdTenant u c) (refTensor (refOf c.w2) ++ refTensor (refOf c.w3)))
  member : slotMembers u id = [handleOf c]
  single : isBatch c = false
  owned : ownedOf u (handleOf c) = some o
  handle : o.record.handle = handleOf c
  notPrefilled : o.record.phase ≠ 2
  input : refCheck u (cmdTenant u c) (refOf c.w2) 64 false = .ok
  output : refCheck u (cmdTenant u c) (refOf c.w3) 128 false = .ok
  block : readMembers u (cmdTenant u c) (refOf c.w2) false 1 0 = some [some m]
  gate : gateOpen u (cmdTenant u c) 4 (classOf c) 0 = true
  moves : mayMove u (cmdTenant u c) (classOf c) [] = true
  room : Writable u (cmdTenant u c) (refOf c.w3)
  ownRun : shadowed u id = false

/-- What a SAMPLE of one request has done once the member's step has ended. -/
def oneRun (status : Nat) (rec' : List Byte) (x : StepOut) : Sampling := Sampling.fresh.add 0 status rec' x

/-- The state once the records are written and the SAMPLE waits for its steps alone. -/
def recorded (s : State) (id : Nat) (c : Cmd) (t : Nat) (y : Sampling) : State :=
  setStage (refWrite { s with comp := { s.comp with sampling := tset s.comp.sampling id y } } id t (refOf c.w3) 0 (clean y.out)) id 2

/-- A PREFILLED request alone moves to DECODE before its step (05 R158). -/
theorem startSample_one {s : State} {id t h : Nat} {r : Ref} {m : Option SMember} {o : Owned} (ho : ownedOf s h = some o) (hp : o.record.phase ≠ 2) :
    startSample s id t r [(h, m)] = s := by
  unfold startSample
  cases sampleRefusal s id t r h m <;> simp [ho, hp, startSample]

section
variable {u : State} {id : Nat} {c : Cmd} {o : Owned} {m : SMember} (a : SampleReady u id c o m)
include a

/-- The command reads its block and pins its tensors, and its member's step runs. -/
theorem sampleBody_ready : ∃ d w, sampleBody u id c = sampleWork (withDir u d w) id c (cmdTenant u c) [(handleOf c, some m)] := by
  obtain ⟨d1, w, pinned⟩ := pinRead_withDir id (tensorDirs u (cmdTenant u c) (refTensor (refOf c.w2) ++ refTensor (refOf c.w3))) u
  obtain ⟨d, touched⟩ := touchRef_eq (withDir u d1 w) (cmdTenant u c) (refOf c.w2)
  have read : readNamed u (cmdTenant u c) (refTensor (refOf c.w2) ++ refTensor (refOf c.w3)) = u := readObjects_readable _ a.readable
  have input := codeOf_refCheck_old (by rw [a.input]; rfl) (slotStarted u id)
  have output := codeOf_refCheck_old (by rw [a.output]; rfl) (slotStarted u id)
  have noSteps : stepsPending (withDir u d1 w) id = false := a.noSteps
  refine ⟨d, w, ?_⟩
  simp only [sampleBody, read, a.member, List.length_singleton, Nat.mul_one, input, output, readMembers_one_old a.block, List.zip_cons_cons,
    List.zip_nil_left, thas, a.fresh, Option.isSome_none, Bool.false_eq_true, if_false, startSample_one a.owned a.notPrefilled, pinned, noSteps]
  rw [touched]
  rfl

/-- After its one member's step the command writes the record and waits for the steps it has issued, or completes. -/
theorem sampleWork_ready {d : Tab Nat DirEntry} {w : List (Nat × Pin)} {p : State} {y : Sampling}
    (ran : sampleMember id (cmdTenant u c) (classOf c) (refOf c.w2) 0 (handleOf c) (some m) (withDir u d w) .fresh = (p, y)) (one : y.next = 1) :
    sampleWork (withDir u d w) id c (cmdTenant u c) [(handleOf c, some m)] =
      if stepsPending p id then await (recorded p id c (cmdTenant u c) y) id .ledger else finishSample (recorded p id c (cmdTenant u c) y) id c := by
  have fresh : tgetD (withDir u d w).comp.sampling id .fresh = .fresh := congrArg (Option.getD · Sampling.fresh) a.fresh
  have gate : gateOpen (withDir u d w) (cmdTenant u c) 4 (classOf c) 0 = true := a.gate
  have moves : mayMove (withDir u d w) (cmdTenant u c) (classOf c) [] = true := a.moves
  have members : sampleMembers id (cmdTenant u c) (classOf c) (refOf c.w2) 0 [(handleOf c, some m)] (withDir u d w) .fresh = (p, y) := by
    simp [sampleMembers, gate, moves, ran]
  have pending : stepsPending (recorded p id c (cmdTenant u c) y) id = stepsPending p id := by
    obtain ⟨_, _, _, _, _, _, _, written⟩ := refWrite_eq { p with comp := { p.comp with sampling := tset p.comp.sampling id y } } id (cmdTenant u c)
      (refOf c.w3) 0 (clean y.out)
    unfold recorded
    rw [written]
    rfl
  rw [← pending]
  unfold sampleWork
  extract_lets y0 q s1 s2
  have ended : q = (p, y) := by
    change sampleMembers id _ _ _ (tgetD (withDir u d w).comp.sampling id .fresh).next (List.drop (tgetD (withDir u d w).comp.sampling id .fresh).next _) _
      (tgetD (withDir u d w).comp.sampling id .fresh) = _
    rw [fresh]
    exact members
  have last : ¬ q.2.next < [(handleOf c, some m)].length := by rw [ended]; simp [one]
  rw [if_neg last]
  change (if stepsPending (recorded q.1 id c _ q.2) id then await (recorded q.1 id c _ q.2) id .ledger
    else finishSample (recorded q.1 id c _ q.2) id c) = _
  rw [ended]

end

/-- DONE_COUNTER rises, and what was noted of the SAMPLE goes (R321). -/
def doneCounted (s : State) (id : Nat) (c : Cmd) : State :=
  raiseCounter { s with comp := { s.comp with sampling := tdel s.comp.sampling id } } (cmdTenant s c) (fld c.w5 47 32)

theorem doneCounted_frame (s : State) (id : Nat) (c : Cmd) :
    (doneCounted s id c).tier = s.tier ∧ (doneCounted s id c).hostMem = s.hostMem ∧ (doneCounted s id c).req = s.req := by
  unfold doneCounted raiseCounter
  split <;> exact ⟨rfl, rfl, rfl⟩

/-- Once the steps of a SAMPLE have committed, it completes with what it has noted (R321). -/
theorem finishSample_noted {s : State} {id : Nat} {y : Sampling} (noted : tget s.comp.sampling id = some y) (c : Cmd) :
    finishSample s id c = finish (doneCounted s id c) id (y.first.elim Status.ok (·.2))
      (if y.first.elim Status.ok (·.2) = Status.recomputeRequired && !isBatch c
        then ((slotMembers s id).head?.bind (ownedOf s)).elim 0 (·.record.firstMissing) else y.fallbacks * 2 ^ 32 + y.tokens)
      (y.first.elim 0xFFFFFFFF (·.1) * 2 ^ 32 + y.failed) := by
  have now : tgetD s.comp.sampling id .fresh = y := by simp [tgetD, noted]
  unfold finishSample
  rw [now]
  rfl

/-- What a SAMPLE of one request reports. -/
theorem oneRun_shows (status : Nat) (rec' : List Byte) (x : StepOut) :
    (oneRun status rec' x).first.elim Status.ok (·.2) = status ∧
      (oneRun status rec' x).fallbacks * 2 ^ 32 + (oneRun status rec' x).tokens = b2n x.fallback * 2 ^ 32 + x.tokens.length ∧
      (oneRun status rec' x).first.elim 0xFFFFFFFF (·.1) * 2 ^ 32 + (oneRun status rec' x).failed =
        (if status = 0 then 0xFFFFFFFF * 2 ^ 32 else 1) := by
  by_cases ok : status = 0 <;> simp [oneRun, Sampling.add, Sampling.fresh, ok]

/-- The record is written where the output reference points, in a state that is otherwise that after the step. -/
theorem recorded_wrote {u p : State} {id t : Nat} {c : Cmd} (kept : Kept u p) (output : refCheck u t (refOf c.w3) 128 false = .ok)
    (room : Writable u t (refOf c.w3)) (ownRun : shadowed u id = false) (y : Sampling) :
    Wrote u (recorded p id c t y) t (refOf c.w3) (clean y.out) ∧ (recorded p id c t y).hostMem.wf = true := by
  have output' : refCheck { p with comp := { p.comp with sampling := tset p.comp.sampling id y } } t (refOf c.w3) 128 false = .ok := by
    rw [← output]
    cases refOf c.w3 <;> simp [refCheck, kept.tensors]
  have room' : Writable { p with comp := { p.comp with sampling := tset p.comp.sampling id y } } t (refOf c.w3) := by
    unfold Writable
    rw [kept.memory, kept.tensors]
    exact room
  have ownRun' : shadowed { p with comp := { p.comp with sampling := tset p.comp.sampling id y } } id = false := by
    unfold shadowed
    rw [kept.rel]
    exact ownRun
  obtain ⟨wrote, canonical⟩ := wrote_refWrite (clean y.out) output' room' ownRun'
  exact ⟨wrote_congr wrote kept.tensors.symm kept.memory.symm kept.link.symm rfl rfl, canonical⟩

theorem recorded_frame (p : State) (id : Nat) (c : Cmd) (t : Nat) (y : Sampling) :
    (recorded p id c t y).req = p.req ∧ (recorded p id c t y).tele = p.tele ∧ (recorded p id c t y).host.due = p.host.due ∧
      tget (recorded p id c t y).comp.sampling id = some y := by
  obtain ⟨_, _, _, _, _, _, _, written⟩ := refWrite_eq { p with comp := { p.comp with sampling := tset p.comp.sampling id y } } id t
    (refOf c.w3) 0 (clean y.out)
  unfold recorded
  rw [written]
  exact ⟨rfl, rfl, rfl, tget_tset_self ..⟩

theorem slotMembers_recorded {p : State} {id h : Nat} (one : slotMembers p id = [h]) (c : Cmd) (t : Nat) (y : Sampling) :
    slotMembers (recorded p id c t y) id = [h] := by
  obtain ⟨_, _, _, _, _, _, _, written⟩ := refWrite_eq { p with comp := { p.comp with sampling := tset p.comp.sampling id y } } id t
    (refOf c.w3) 0 (clean y.out)
  refine slotMembers_setStage ?_ 2
  rw [written]
  exact one

section
variable {u : State} {id : Nat} {c : Cmd} {o : Owned} {m : SMember} (a : SampleReady u id c o m)
include a

/-- A step that emitted no token ends the command with its status: the record is written, and nothing of the request has changed. -/
theorem finishSample_noTokens {p : State} (kept : Kept u p) (req : p.req = u.req) (status : Nat) (rec' : List Byte) {x : StepOut}
    (noTokens : x.tokens = []) :
    ∃ v, Wrote u v (cmdTenant u c) (refOf c.w3) (clean rec') ∧ ownedOf v (handleOf c) = some o ∧
      finishSample (recorded p id c (cmdTenant u c) (oneRun status rec' x)) id c = finish v id status
        (if status = 0x010D then o.record.firstMissing else b2n x.fallback * 2 ^ 32) (if status = 0 then 0xFFFFFFFF * 2 ^ 32 else 1) := by
  obtain ⟨req', -, -, noted⟩ := recorded_frame p id c (cmdTenant u c) (oneRun status rec' x)
  obtain ⟨wrote, -⟩ := recorded_wrote kept a.output a.room a.ownRun (oneRun status rec' x)
  have member : slotMembers p id = [handleOf c] := by
    rw [← a.member]
    unfold slotMembers slotById
    rw [kept.slots]
  have copy : ownedOf (recorded p id c (cmdTenant u c) (oneRun status rec' x)) (handleOf c) = some o := by
    rw [← a.owned, ownedOf, req', req]
    rfl
  obtain ⟨tier, memory, req''⟩ := doneCounted_frame (recorded p id c (cmdTenant u c) (oneRun status rec' x)) id c
  obtain ⟨code, result0, result1⟩ := oneRun_shows status rec' x
  refine ⟨doneCounted (recorded p id c (cmdTenant u c) (oneRun status rec' x)) id c, ?wrote, ?copy, ?completes⟩
  case wrote => exact wrote_congr wrote rfl rfl rfl (by rw [tier]) memory
  case copy =>
    rw [← copy, ownedOf, req'']
    rfl
  case completes =>
    rw [finishSample_noted noted, slotMembers_recorded member, List.head?_cons, Option.bind_some, copy, code, result0, result1, a.single, noTokens]
    simp

end

/-! ### The member's step -/

/-- What the step of the request reads (R312–R315). -/
def sampleEnv (u : State) (c : Cmd) (o : Owned) (m : SMember) : SEnv :=
  let p := paramsOf o.record.sampler
  { p := p, m := m, k := constraintFor u (cmdTenant u c) p, o := o, tenant := cmdTenant u c, input := refOf c.w2,
    d := if p.suspended then 0 else min m.drafts p.draftLen }

/-- What the step does: its positions in order. -/
def sampleRun (u : State) (c : Cmd) (o : Owned) (m : SMember) : StepOut :=
  (sampleEnv u c o m).positions u ((sampleEnv u c o m).d + 1) 0 (StepOut.none (paramsOf o.record.sampler).gstate)

/-- The parameters after a step that emitted tokens. -/
def sampleParams (u : State) (c : Cmd) (o : Owned) (m : SMember) : SParams :=
  (paramsOf o.record.sampler).afterStep (sampleEnv u c o m).d (sampleRun u c o m).accepted (sampleRun u c o m).gstate

theorem sampleRun_status (u : State) (c : Cmd) (o : Owned) (m : SMember) : (sampleRun u c o m).status ≠ 0x010D := by
  have status : stepStatus (sampleRun u c o m).status := positions_status _ u _ 0 (.inl rfl)
  rcases status with h | h | h <;> (rw [h]; decide)

/-- The state once the drafts of a request are decided by a step that used `n` positions (20 R568). -/
def withDecided (s : State) (h n : Nat) : State := { s with tele := s.tele.decideDrafts h n }

/-- The state once the step that emitted `x` is charged and its drafts decided (R322). -/
def draftsDecided (s : State) (c : Cmd) (o : Owned) (t : Nat) (x : StepOut) : State :=
  withDecided (stepCharged s t (classOf c) o.record.composition x.cycles) (handleOf c) x.tokens.length

theorem withDecided_req (s : State) (h n : Nat) : (withDecided s h n).req = s.req := rfl
theorem withDecided_tele (s : State) (h n : Nat) : (withDecided s h n).tele = s.tele.decideDrafts h n := rfl

theorem kept_withDecided {u s : State} (k : Kept u s) (h n : Nat) : Kept u (withDecided s h n) := k.withTele _

/-- The end of the step of `x`, after which the parameters are `p`: it is charged, and the ledger gets what it emitted. -/
def memberEnded (s : State) (id : Nat) (c : Cmd) (o : Owned) (t : Nat) (p : SParams) (x : StepOut) : State × Sampling :=
  (if x.tokens = [] then stepCharged s t (classOf c) o.record.composition x.cycles
    else appendStep (draftsDecided s c o t x) id o x.tokens (p.store o.record.sampler) x.stop,
    oneRun x.status (sampleRecord (handleOf c) x.status p (o.record.logged + x.tokens.length) x) x)

theorem kept_stepCharged (u : State) (d : Tab Nat DirEntry) (w : List (Nat × Pin)) (t cls comp n : Nat) :
    Kept u (stepCharged (withDir u d w) t cls comp n) ∧ (stepCharged (withDir u d w) t cls comp n).req = u.req := by
  obtain ⟨_, _, _, _, _, charged, -⟩ := stepCharged_eq (withDir u d w) t cls comp n
  rw [charged]
  exact ⟨⟨rfl, rfl, rfl, rfl, rfl, rfl, rfl⟩, rfl⟩

/-- From `u` to `w` the tokens of the step of `x`, after which the parameters are `p`, have gone to the ledger: the working copy shows them, LOG_APPEND is
outstanding, FINISH behind it where a stop condition was met, the drafts of the request are decided, and no completion is due. -/
structure StepLogged (u w : State) (c : Cmd) (o : Owned) (p : SParams) (x : StepOut) : Prop where
  copy : ∃ o1, ownedOf w (handleOf c) = some o1 ∧ o1.log = o.log ++ x.tokens ∧ o1.record.logged = o.record.logged + x.tokens.length ∧
    o1.record.sampler = p.store o.record.sampler ∧ o1.record.phase = (if x.stop then 7 else o.record.phase)
  issued : ∃ i l, w.req.issued = u.req.issued ++ i :: l ∧ i.step.kind = 2 ∧ i.step.handle = handleOf c ∧ i.step.step = o.record.step + 1 ∧
    i.step.logged = o.record.logged + x.tokens.length ∧ i.step.payload = .append x.tokens (p.store o.record.sampler) ∧
    (if x.stop then ∃ f, l = [f] ∧ f.step.kind = 7 ∧ f.step.newPhase = 7 ∧ f.step.step = o.record.step + 2 else l = [])
  wasted : w.tele.draftWasted = (u.tele.decideDrafts (handleOf c) x.tokens.length).draftWasted
  keptDrafts : w.tele.draftKept = (u.tele.decideDrafts (handleOf c) x.tokens.length).draftKept
  due : w.host.due = u.host.due

theorem StepLogged.congr {u w w' : State} {c : Cmd} {o : Owned} {p : SParams} {x : StepOut} (h : StepLogged u w c o p x) (req : w'.req = w.req)
    (tele : w'.tele = w.tele) (due : w'.host.due = w.host.due) : StepLogged u w' c o p x := by
  obtain ⟨copy, issued, wasted, keptDrafts, noneDue⟩ := h
  unfold ownedOf at copy
  constructor <;> simp only [ownedOf, req, tele, due] <;> assumption

theorem kept_appendStep {u s : State} (kept : Kept u s) (id : Nat) (o : Owned) (tokens : List Nat) (sampler : List Word) (stop : Bool) :
    Kept u (appendStep s id o tokens sampler stop) := by
  obtain ⟨_, frame⟩ := appendStep_frame s id o tokens sampler stop
  rw [frame]
  exact kept.withReq _

theorem appendStep_tele (s : State) (id : Nat) (o : Owned) (tokens : List Nat) (sampler : List Word) (stop : Bool) :
    (appendStep s id o tokens sampler stop).tele = s.tele := by
  obtain ⟨_, frame⟩ := appendStep_frame s id o tokens sampler stop
  rw [frame]

theorem stepsPending_appendStep (s : State) (id : Nat) (o : Owned) (tokens : List Nat) (sampler : List Word) (stop : Bool) :
    stepsPending (appendStep s id o tokens sampler stop) id = true := by
  obtain ⟨_, _, _, -, -, -, -, -, issued, why, -, -⟩ := appendStep_shows s id o tokens sampler stop
  rw [stepsPending, issued]
  simp [why]

theorem StepLogged.waits {u w : State} {c : Cmd} {o : Owned} {p : SParams} {x : StepOut} (h : StepLogged u w c o p x) (id : Nat) (k : Wait) :
    StepLogged u (await w id k) c o p x := h.congr rfl rfl rfl

theorem wrote_waits {u w : State} {t : Nat} {r : Ref} {bs : List (Byte × Bool)} (h : Wrote u w t r bs) (id : Nat) (k : Wait) :
    Wrote u (await w id k) t r bs := wrote_congr h rfl rfl rfl rfl rfl

/-- The tokens of a step go to the ledger, in a state where its drafts are decided. -/
theorem stepLogged_appendStep {u s : State} {c : Cmd} {o : Owned} (handle : o.record.handle = handleOf c) {x : StepOut} (req : s.req = u.req)
    (due : s.host.due = u.host.due) (wasted : s.tele.draftWasted = (u.tele.decideDrafts (handleOf c) x.tokens.length).draftWasted)
    (keptDrafts : s.tele.draftKept = (u.tele.decideDrafts (handleOf c) x.tokens.length).draftKept) (id : Nat) (p : SParams) :
    StepLogged u (appendStep s id o x.tokens (p.store o.record.sampler) x.stop) c o p x := by
  obtain ⟨_, frame⟩ := appendStep_frame s id o x.tokens (p.store o.record.sampler) x.stop
  obtain ⟨o1, i, l, copy, log, logged, sampler, phase, issued, -, step, finishes⟩ :=
    appendStep_shows s id o x.tokens (p.store o.record.sampler) x.stop
  refine ⟨⟨o1, handle ▸ copy, log, logged, sampler, phase⟩, ⟨i, l, req ▸ issued, ?kind, ?handle, ?number, ?logged, ?payload, finishes⟩,
    ?wasted, ?keptDrafts, ?due⟩
  case kind => rw [step]; rfl
  case handle => rw [step, ← handle]; rfl
  case number => rw [step]; rfl
  case logged => rw [step]; rfl
  case payload => rw [step]; rfl
  case wasted => rw [appendStep_tele, wasted]
  case keptDrafts => rw [appendStep_tele, keptDrafts]
  case due => rw [frame, ← due]

theorem draftsDecided_frame (u : State) (d : Tab Nat DirEntry) (w : List (Nat × Pin)) (c : Cmd) (o : Owned) (t : Nat) (x : StepOut) :
    Kept u (draftsDecided (withDir u d w) c o t x) ∧ (draftsDecided (withDir u d w) c o t x).req = u.req ∧
      (draftsDecided (withDir u d w) c o t x).tele.draftWasted = (u.tele.decideDrafts (handleOf c) x.tokens.length).draftWasted ∧
      (draftsDecided (withDir u d w) c o t x).tele.draftKept = (u.tele.decideDrafts (handleOf c) x.tokens.length).draftKept := by
  obtain ⟨kept, req⟩ := kept_stepCharged u d w t (classOf c) o.record.composition x.cycles
  obtain ⟨_, _, _, _, _, charged, draftKept, draftWasted⟩ := stepCharged_eq (withDir u d w) t (classOf c) o.record.composition x.cycles
  have decided := decideDrafts_congr (t := u.tele) (t' := (stepCharged (withDir u d w) t (classOf c) o.record.composition x.cycles).tele)
    (by rw [charged]; exact draftKept) (by rw [charged]; exact draftWasted) (handleOf c) x.tokens.length
  unfold draftsDecided
  rw [withDecided_req, withDecided_tele]
  exact ⟨kept_withDecided kept .., req, decided⟩

section
variable {u : State} {id : Nat} {c : Cmd} {o : Owned} {m : SMember} (a : SampleReady u id c o m)
include a

theorem sampleMember_refused (d : Tab Nat DirEntry) (w : List (Nat × Pin)) {e : Nat}
    (refused : sampleRefusal u id (cmdTenant u c) (refOf c.w2) (handleOf c) (some m) = some e) :
    sampleMember id (cmdTenant u c) (classOf c) (refOf c.w2) 0 (handleOf c) (some m) (withDir u d w) .fresh = (withDir u d w,
      oneRun e (sampleRecord (handleOf c) e (paramsOf o.record.sampler) o.record.logged (StepOut.none (paramsOf o.record.sampler).gstate))
        (StepOut.none 0)) := by
  have owned : ownedOf (withDir u d w) (handleOf c) = some o := a.owned
  simp only [sampleMember, sampleRefusal_withDir, refused, owned]
  rfl

theorem sampleMember_accepted (d : Tab Nat DirEntry) (w : List (Nat × Pin))
    (accepted : sampleRefusal u id (cmdTenant u c) (refOf c.w2) (handleOf c) (some m) = none) :
    sampleMember id (cmdTenant u c) (classOf c) (refOf c.w2) 0 (handleOf c) (some m) (withDir u d w) .fresh =
      memberEnded (withDir u d w) id c o (cmdTenant u c)
        (if (sampleRun u c o m).tokens = [] then paramsOf o.record.sampler else sampleParams u c o m) (sampleRun u c o m) := by
  have owned : ownedOf (withDir u d w) (handleOf c) = some o := a.owned
  have run : (sampleEnv u c o m).positions (withDir u d w) ((sampleEnv u c o m).d + 1) 0 (StepOut.none (paramsOf o.record.sampler).gstate) =
    sampleRun u c o m := positions_withDir ..
  unfold sampleParams
  rw [← run]
  simp only [sampleMember, sampleRefusal_withDir, accepted, owned]
  rfl

/-- SAMPLE of a request that a check refuses. -/
theorem sampleBody_refused {e : Nat} (refused : sampleRefusal u id (cmdTenant u c) (refOf c.w2) (handleOf c) (some m) = some e) :
    ∃ v, Wrote u v (cmdTenant u c) (refOf c.w3)
        (clean (sampleRecord (handleOf c) e (paramsOf o.record.sampler) o.record.logged (StepOut.none (paramsOf o.record.sampler).gstate))) ∧
      ownedOf v (handleOf c) = some o ∧
      sampleBody u id c = finish v id e (if e = 0x010D then o.record.firstMissing else 0) 1 := by
  obtain ⟨d, w, body⟩ := sampleBody_ready a
  have work := sampleWork_ready a (sampleMember_refused a d w refused) rfl
  have noSteps : stepsPending (withDir u d w) id = false := a.noSteps
  rw [noSteps, if_neg Bool.false_ne_true] at work
  obtain ⟨v, wrote, copy, ends⟩ := finishSample_noTokens a (p := withDir u d w) ⟨rfl, rfl, rfl, rfl, rfl, rfl, rfl⟩ rfl e
    (sampleRecord (handleOf c) e (paramsOf o.record.sampler) o.record.logged (StepOut.none (paramsOf o.record.sampler).gstate))
    (x := StepOut.none 0) rfl
  rw [if_neg (sampleRefusal_ne_ok a.owned refused), ← work, ← body] at ends
  exact ⟨v, wrote, copy, ends⟩

/-- SAMPLE whose step emits no token. -/
theorem sampleBody_noTokens (accepted : sampleRefusal u id (cmdTenant u c) (refOf c.w2) (handleOf c) (some m) = none)
    (noTokens : (sampleRun u c o m).tokens = []) :
    ∃ v, Wrote u v (cmdTenant u c) (refOf c.w3) (clean (sampleRecord (handleOf c) (sampleRun u c o m).status (paramsOf o.record.sampler)
        o.record.logged (sampleRun u c o m))) ∧
      ownedOf v (handleOf c) = some o ∧
      sampleBody u id c = finish v id (sampleRun u c o m).status (b2n (sampleRun u c o m).fallback * 2 ^ 32)
        (if (sampleRun u c o m).status = 0 then 0xFFFFFFFF * 2 ^ 32 else 1) := by
  obtain ⟨d, w, body⟩ := sampleBody_ready a
  obtain ⟨kept, req⟩ := kept_stepCharged u d w (cmdTenant u c) (classOf c) o.record.composition (sampleRun u c o m).cycles
  have member := sampleMember_accepted a d w accepted
  rw [memberEnded, if_pos noTokens, if_pos noTokens, noTokens, List.length_nil, Nat.add_zero] at member
  have work := sampleWork_ready a member rfl
  have noSteps : stepsPending (stepCharged (withDir u d w) (cmdTenant u c) (classOf c) o.record.composition (sampleRun u c o m).cycles) id = false := by
    rw [← a.noSteps, stepsPending, req]
    rfl
  rw [noSteps, if_neg Bool.false_ne_true] at work
  obtain ⟨v, wrote, copy, ends⟩ := finishSample_noTokens a kept req (sampleRun u c o m).status
    (sampleRecord (handleOf c) (sampleRun u c o m).status (paramsOf o.record.sampler) o.record.logged (sampleRun u c o m)) noTokens
  rw [if_neg (sampleRun_status u c o m), ← work, ← body] at ends
  exact ⟨v, wrote, copy, ends⟩

/-- SAMPLE whose step emits tokens: the record is written, the ledger gets the tokens, and the command waits for its steps. -/
theorem sampleBody_tokens (accepted : sampleRefusal u id (cmdTenant u c) (refOf c.w2) (handleOf c) (some m) = none)
    (tokens : (sampleRun u c o m).tokens ≠ []) :
    Wrote u (sampleBody u id c) (cmdTenant u c) (refOf c.w3) (clean (sampleRecord (handleOf c) (sampleRun u c o m).status (sampleParams u c o m)
        (o.record.logged + (sampleRun u c o m).tokens.length) (sampleRun u c o m))) ∧
      (sampleBody u id c).hostMem.wf = true ∧ StepLogged u (sampleBody u id c) c o (sampleParams u c o m) (sampleRun u c o m) := by
  obtain ⟨d, w, body⟩ := sampleBody_ready a
  have member := sampleMember_accepted a d w accepted
  rw [memberEnded, if_neg tokens, if_neg tokens] at member
  have work := sampleWork_ready a member rfl
  obtain ⟨decided, sameReq, wasted, keptDrafts⟩ := draftsDecided_frame u d w c o (cmdTenant u c) (sampleRun u c o m)
  have logged := stepLogged_appendStep a.handle sameReq decided.due wasted keptDrafts id (sampleParams u c o m)
  have kept := kept_appendStep decided id o (sampleRun u c o m).tokens ((sampleParams u c o m).store o.record.sampler) (sampleRun u c o m).stop
  rw [if_pos (stepsPending_appendStep ..), ← body] at work
  obtain ⟨wrote, canonical⟩ := recorded_wrote kept a.output a.room a.ownRun
    (oneRun (sampleRun u c o m).status (sampleRecord (handleOf c) (sampleRun u c o m).status (sampleParams u c o m)
      (o.record.logged + (sampleRun u c o m).tokens.length) (sampleRun u c o m)) (sampleRun u c o m))
  obtain ⟨req, tele, due, -⟩ := recorded_frame _ id c (cmdTenant u c)
    (oneRun (sampleRun u c o m).status (sampleRecord (handleOf c) (sampleRun u c o m).status (sampleParams u c o m)
      (o.record.logged + (sampleRun u c o m).tokens.length) (sampleRun u c o m)) (sampleRun u c o m))
  rw [work]
  exact ⟨wrote_waits wrote .., canonical, (logged.congr req tele due).waits ..⟩

end

/-! ### The commands -/

theorem begun_hostMem (s : State) (id : Nat) (c : Cmd) : (begun s id c).hostMem = s.hostMem := by
  unfold begun mirrorStart
  split
  · rfl
  · split
    · exact sysSend_hostMem ..
    · rfl

section
variable {c : Cmd} {id : Nat} {s s1 : State} (h : StartsHere 0x40 c s id s1) (stage : stageOf (here s1 id c) id = 0)
  (noSteps : stepsPending (here s1 id c) id = false)
include h stage noSteps

/-- SAMPLE that starts here looks at its DONE_COUNTER, then at its tag, then at what it must wait for. -/
theorem sample_here : exec (.sample c) s = .next (s.keep (if counterOk (fld c.w5 47 32) then tagGate (here s1 id c) id c (fld c.w5 63 48) false fun s =>
    if sampleAhead s id then await s id .earlier else if grammarHeld s id (cmdTenant s c) then await s id .engine else sampleBody s id c
    else fail (here s1 id c) id Status.tagInvalid)) := by
  change ordinary s (runSample c s) = _
  rw [runSample, runCmd_here h]
  cases counterOk (fld c.w5 47 32) <;> simp [stage, noSteps, ordinary]

theorem sample_badCounter (canonical : s.hostMem.wf = true) (bad : 4096 ≤ fld c.w5 47 32) :
    exec (.sample c) s = .next (s.keepHost (finish (here s1 id c) id 0x0710 0 0)) := by
  have memory : (finish (here s1 id c) id 0x0710 0 0).hostMem = s.hostMem := by
    rw [finish, finishWith_hostMem, here, noteStart_hostMem, noteArrival_hostMem, keepGone_hostMem, begun_hostMem, claim_hostMem h.1.2.1]
  have out : ¬ counterOk (fld c.w5 47 32) = true := by simpa [counterOk] using bad
  rw [sample_here h stage noSteps, if_neg out, fail, keep_eq_keepHost (by rw [memory, Memory.canon_of_wf canonical])]

variable (counter : fld c.w5 47 32 < 4096) (tag : fld c.w5 63 48 = 0)
include counter tag

theorem sample_gated : exec (.sample c) s = .next (s.keep (if sampleAhead (here s1 id c) id then setPhase (here s1 id c) id (.waiting .earlier)
    else if grammarHeld (here s1 id c) id (cmdTenant (here s1 id c) c) then setPhase (here s1 id c) id (.waiting .engine)
    else sampleBody (here s1 id c) id c)) := by
  rw [sample_here h stage noSteps, if_pos (by simpa [counterOk] using counter), tagGate, if_pos tag]
  rfl

end

/-! ### DRAFT_RESET (R316) -/

/-- The sampler state after DRAFT_RESET. -/
def resetDrafts (p : SParams) : SParams := { p with draftLen := p.draftMax, fullRejects := 0, suspended := false }

/-- The number that the fifth word of the sampler state stands for (Table 10.1). -/
def draftWord (p : SParams) : Nat :=
  p.gstate % 2 ^ 16 * 2 ^ 48 + p.draftMax % 32 * 2 ^ 43 + p.draftLen % 32 * 2 ^ 38 + p.fullRejects % 16 * 2 ^ 34 + b2n p.suspended * 2 ^ 33

theorem fld_word {n : Nat} (h : n < 2 ^ 64) (hi lo : Nat) : fld (word n) hi lo = n / 2 ^ lo % 2 ^ (hi + 1 - lo) := by
  rw [fld, word, BitVec.toNat_ofNat, Nat.mod_eq_of_lt h, bits, Nat.shiftRight_eq_div_pow]

theorem b2n_le (b : Bool) : b2n b ≤ 1 := by cases b <;> decide

theorem draftWord_lt (p : SParams) : draftWord p < 2 ^ 64 := by
  have := b2n_le p.suspended
  unfold draftWord
  omega

theorem draftWord_fields (p : SParams) : fld (word (draftWord p)) 63 48 = p.gstate % 2 ^ 16 ∧ fld (word (draftWord p)) 47 43 = p.draftMax % 32 ∧
    fld (word (draftWord p)) 42 38 = p.draftLen % 32 ∧ fld (word (draftWord p)) 37 34 = p.fullRejects % 16 ∧
    flag (word (draftWord p)) 33 = p.suspended := by
  have one := b2n_le p.suspended
  simp only [fld_word (draftWord_lt p)]
  refine ⟨by unfold draftWord; omega, by unfold draftWord; omega, by unfold draftWord; omega, by unfold draftWord; omega, ?_⟩
  rw [flag, word, BitVec.toNat_ofNat, Nat.mod_eq_of_lt (draftWord_lt p), bit, Nat.shiftRight_eq_div_pow]
  have low : draftWord p / 2 ^ 33 % 2 = b2n p.suspended := by unfold draftWord; omega
  rw [low]
  cases p.suspended <;> rfl

/-- What is stored of the parameters is what is read again (R298). -/
theorem paramsOf_store (w : List Word) (p : SParams) : paramsOf (p.store w) = { paramsOf w with
    gstate := p.gstate % 2 ^ 16, draftMax := p.draftMax % 32, draftLen := p.draftLen % 32, fullRejects := p.fullRejects % 16, suspended := p.suspended
    proposed := p.proposed % 2 ^ 32, accepted := p.accepted % 2 ^ 32 } := by
  obtain ⟨gstate, draftMax, draftLen, fullRejects, suspended⟩ := draftWord_fields p
  have counts : p.proposed % 2 ^ 32 * 2 ^ 32 + p.accepted % 2 ^ 32 < 2 ^ 64 := by omega
  have proposed : fld (word (p.proposed % 2 ^ 32 * 2 ^ 32 + p.accepted % 2 ^ 32)) 63 32 = p.proposed % 2 ^ 32 := by rw [fld_word counts]; omega
  have accepted : fld (word (p.proposed % 2 ^ 32 * 2 ^ 32 + p.accepted % 2 ^ 32)) 31 0 = p.accepted % 2 ^ 32 := by rw [fld_word counts]; omega
  change ({ paramsOf w with
    gstate := fld (word (draftWord p)) 63 48, draftMax := fld (word (draftWord p)) 47 43, draftLen := fld (word (draftWord p)) 42 38
    fullRejects := fld (word (draftWord p)) 37 34, suspended := flag (word (draftWord p)) 33
    proposed := fld (word (p.proposed % 2 ^ 32 * 2 ^ 32 + p.accepted % 2 ^ 32)) 63 32
    accepted := fld (word (p.proposed % 2 ^ 32 * 2 ^ 32 + p.accepted % 2 ^ 32)) 31 0 } : SParams) = _
  rw [gstate, draftMax, draftLen, fullRejects, suspended, proposed, accepted]

/-- The fields of the sampler state are as wide as Table 10.1 gives them. -/
theorem paramsOf_widths (w : List Word) : (paramsOf w).gstate < 2 ^ 16 ∧ (paramsOf w).draftMax < 32 ∧ (paramsOf w).proposed < 2 ^ 32 ∧
    (paramsOf w).accepted < 2 ^ 32 :=
  ⟨Nat.mod_lt _ (by decide), Nat.mod_lt _ (by decide), Nat.mod_lt _ (by decide), Nat.mod_lt _ (by decide)⟩

/-- DRAFT_RESET sets DRAFT_LEN to DRAFT_MAX, clears FULL_REJECTS and SUSPENDED, and changes no other field. -/
theorem paramsOf_resetDrafts (w : List Word) : paramsOf ((resetDrafts (paramsOf w)).store w) = resetDrafts (paramsOf w) := by
  obtain ⟨gstate, draftMax, proposed, accepted⟩ := paramsOf_widths w
  rw [paramsOf_store]
  simp only [resetDrafts, Nat.mod_eq_of_lt gstate, Nat.mod_eq_of_lt draftMax, Nat.mod_eq_of_lt proposed, Nat.mod_eq_of_lt accepted, Nat.zero_mod]

theorem draftReset_here {c : Cmd} {id : Nat} {s s1 : State} {o : Owned} (h : OneHere 0x41 c s id s1)
    (owned : ownedOf (here s1 id c) (handleOf c) = some o) (living : finalPhase o.record.phase = false) :
    exec (.draftReset c) s = .next (s.keepHost (if sampleAhead (here s1 id c) id then setPhase (here s1 id c) id (.waiting .earlier)
      else finish (setOwned (here s1 id c) (handleOf c)
        { o with record := { o.record with sampler := (resetDrafts (paramsOf o.record.sampler)).store o.record.sampler } }) id 0
        (paramsOf o.record.sampler).draftMax 0)) := by
  change quiet s (runDraftReset c s) = _
  rw [runDraftReset, runCmd_here h.1, withOwned_owned h.2 owned living]
  rfl

end Sys2Proof.Proofs
end

section
/-!
PROOFS. What CONSTRAINT_LOAD and CONSTRAINT_RETIRE do (10_sieve_sampler.md R305–R311, Tables 10.2–10.4; 11_associative_search.md R332).
-/
namespace Sys2Proof.Proofs
open Sys2Proof.Machine Sys2Proof.Laws

/-! ### What a placement that drops nothing leaves alone (06 R182, R192) -/

/-- From `s` to `w` host memory, the units' tables, the parts' state and the image are the same. -/
structure Beside (s w : State) : Prop where
  memory : w.hostMem = s.hostMem
  comp : w.comp = s.comp
  rel : w.rel = s.rel
  image : w.image = s.image

namespace Beside

theorem refl (s : State) : Beside s s := ⟨rfl, rfl, rfl, rfl⟩

theorem trans {s v w : State} (a : Beside s v) (b : Beside v w) : Beside s w :=
  ⟨b.memory.trans a.memory, b.comp.trans a.comp, b.rel.trans a.rel, b.image.trans a.image⟩

theorem tier (s : State) (t : Tier) : Beside s (setTier s t) := ⟨rfl, rfl, rfl, rfl⟩

theorem sysSend (s : State) (d : Nat) (m : SysMsg) : Beside s (sysSend s d m) := by
  obtain ⟨_, _, sent⟩ := sysSend_eq s d m
  rw [sent]
  exact ⟨rfl, rfl, rfl, rfl⟩

theorem eventT (s : State) (i c : Nat) (inj : Bool) (t : Option Nat) (d : Nat) : Beside s (eventT s i c inj t d) := by
  obtain ⟨_, _, _, event⟩ := eventT_eq s i c inj t d
  rw [event]
  exact ⟨rfl, rfl, rfl, rfl⟩

theorem recallNewest (s : State) : Beside s (recallNewest s) := by
  unfold Machine.recallNewest
  split
  · exact refl s
  · exact ((tier s _).trans (eventT ..)).trans (sysSend ..)

theorem takeRun {s w : State} {loc n : Nat} {r : Run} (h : takeRun s loc n = some (r, w)) : Beside s w := by
  unfold Machine.takeRun at h
  split at h
  · cases h
  · split at h
    · cases h
    · cases h
      exact tier ..

theorem takeFirst {s w : State} {n : Nat} {r : Run} : ∀ {l : List Nat}, takeFirst s n l = some (r, w) → Beside s w
  | [], h => by cases h
  | k :: l, h => by
    unfold Machine.takeFirst at h
    split at h
    next x hx =>
      cases h
      exact takeRun hx
    next => exact takeFirst h

theorem takeT1 {s w : State} {t n : Nat} {among : List Nat} {r : Run} (h : takeT1 s t n among = some (r, w)) : Beside s w := by
  unfold Machine.takeT1 at h
  split at h
  · cases h
  · exact takeFirst h

theorem takeLower {s w : State} {t n : Nat} {two : Bool} {r : Run} (h : takeLower s t n two = some (r, w)) : Beside s w := by
  unfold Machine.takeLower at h
  dsimp only at h
  split at h
  next x hx =>
    cases h
    split at hx
    · exact takeFirst hx
    · cases hx
  next =>
    split at h
    · cases h
    · exact takeRun h

theorem demoteFor {t n : Nat} {among : List Nat} {r : Run} {w : State} : ∀ {l : List Nat} {s : State},
    demoteFor s t n among l = some (r, w) → Beside s w
  | [], _, h => by cases h
  | i :: l, s, h => by
    unfold Machine.demoteFor at h
    split at h
    · exact demoteFor h
    next e _ =>
      split at h
      · exact demoteFor h
      next run s1 lower =>
        have moved : Beside s (setEntry (freeRunOf s1 e.run) i
          { e with run := run, tier := tierOfLoc run.loc, seq := wrapAdd 32 e.seq 1 }) := (takeLower lower).trans ⟨rfl, rfl, rfl, rfl⟩
        dsimp only at h
        split at h
        next x hx =>
          cases h
          exact moved.trans (takeT1 hx)
        next => exact moved.trans (demoteFor h)

theorem place {s w : State} {t n : Nat} {among : List Nat} {lower : Bool} {r : Run} (h : place s t n among lower false = some (r, w)) : Beside s w := by
  unfold Machine.place at h
  split at h
  next x hx =>
    cases h
    exact takeT1 hx
  next =>
    extract_lets s0 at h
    have recalled : Beside s s0 := by
      unfold s0
      split
      · exact recallNewest s
      · exact refl s
    split at h
    next x hx =>
      cases h
      exact recalled.trans (demoteFor hx)
    next =>
      split at h
      next x hx =>
        cases h
        split at hx
        · exact recalled.trans (takeLower hx)
        · cases hx
      next => cases h

theorem newEntry {s w : State} {r : Run} {kind t layer page back i : Nat} {persist : Bool}
    (h : newEntry s r kind t layer page back persist = some (i, w)) : Beside s w := by
  unfold Machine.newEntry at h
  dsimp only at h
  split at h
  · cases h
  · rw [← (Prod.mk.inj (Option.some.inj h)).2]
    exact tier ..

theorem placeEntry {s w : State} {t n : Nat} {among : List Nat} {lower : Bool} {kind layer page back i : Nat} {persist : Bool}
    (h : placeEntry s t n among lower false kind layer page back persist = .ok (i, w)) : Beside s w := by
  unfold Machine.placeEntry at h
  -- `newEntry` becomes a variable, since the kernel would count the system objects to reduce a match on it
  obtain ⟨enter, same⟩ : ∃ f, f = @Machine.newEntry := ⟨_, rfl⟩
  rw [← same] at h
  split at h
  · cases h
  next r s1 placed =>
    split at h
    · cases h
    next entered =>
      cases h
      rw [same] at entered
      exact (place placed).trans (newEntry entered)

theorem placeRuns {t kind layer back : Nat} {persist lower : Bool} {w : State} : ∀ {r : List Nat} {page : Nat} {s : State} {l : List Nat},
    placeRuns s t kind layer page back persist lower false r = .ok (l, w) → Beside s w
  | [], _, _, _, h => by
    cases h
    exact refl _
  | n :: r, page, s, l, h => by
    unfold Machine.placeRuns at h
    split at h
    · cases h
    next i s1 first =>
      split at h
      · cases h
      next l2 s2 rest =>
        cases h
        exact (placeEntry first).trans (placeRuns rest)

theorem freeEntries (s : State) (l : List Nat) : Beside s (freeEntries s l) := by
  obtain ⟨_, _, _, _, _, _, _, _, _, freed⟩ := freeEntries_eq l s
  rw [freed]
  exact ⟨rfl, rfl, rfl, rfl⟩

theorem banksOf {s w : State} (h : Beside s w) (t use : Nat) : banksOf w t use = banksOf s t use := by
  have statuses (b : Nat) : fnState w (.bank b) = fnState s (.bank b) := by unfold fnState; rw [h.rel]
  unfold Machine.banksOf tenantRec
  simp only [h.image, h.comp, statuses]

end Beside

/-! ### Rows of the grammar banks (R308; 11 R332) -/

/-- One more row of bank `b` is written. -/
theorem bankOf_putEntry (s : State) (b i k : Nat) (e : CamEntry) :
    bankOf (putEntry s b i e) k = if b = k then { bankOf s b with entries := tset (bankOf s b).entries i e } else bankOf s k := by
  by_cases same : b = k
  · subst same
    simp [putEntry, setBank, bankOf]
  · simp only [putEntry, setBank, bankOf, same, if_false]
    exact tgetD_tset_ne same ..

/-- A bank with a free row has a lowest one, and it is below 4,096. -/
theorem lowestFree_room {s : State} : ∀ {banks : List Nat}, 0 < freeEntriesOf s banks →
    ∃ b ∈ banks, ∃ i < 4096, lowestFree s banks = some (b * 4096 + i)
  | [], room => absurd room (lt_irrefl 0)
  | b :: banks, room => by
    by_cases here : freeNumber 0 ((bankOf s b).entries.map (·.1)) < 4096
    · exact ⟨b, List.mem_cons_self, _, here, if_pos here⟩
    · have full : 4096 ≤ (bankOf s b).entries.length := by
        have := freeNumber_le 0 ((bankOf s b).entries.map (·.1))
        rw [List.length_map] at this
        omega
      have split : freeEntriesOf s (b :: banks) = 4096 - (bankOf s b).entries.length + freeEntriesOf s banks := by
        simp [freeEntriesOf]
      obtain ⟨k, mem, i, small, found⟩ := lowestFree_room (s := s) (banks := banks) (by omega)
      exact ⟨k, List.mem_cons_of_mem _ mem, i, small, (if_neg here).trans found⟩

/-- The free rows of some banks are a matter of the banks alone. -/
theorem freeEntriesOf_congr {s w : State} {banks : List Nat} (h : ∀ b ∈ banks, bankOf w b = bankOf s b) :
    freeEntriesOf w banks = freeEntriesOf s banks := by
  unfold freeEntriesOf
  rw [List.map_congr_left fun b mem => by rw [h b mem]]

/-- A row that is written takes at most one free row. -/
theorem freeEntriesOf_putEntry {s : State} {b i : Nat} {e : CamEntry} : ∀ {banks : List Nat}, banks.Nodup →
    freeEntriesOf s banks ≤ freeEntriesOf (putEntry s b i e) banks + 1
  | [], _ => Nat.zero_le _
  | k :: banks, distinct => by
    obtain ⟨apart, rest⟩ := List.nodup_cons.mp distinct
    have split (v : State) : freeEntriesOf v (k :: banks) = 4096 - (bankOf v k).entries.length + freeEntriesOf v banks := by simp [freeEntriesOf]
    rw [split, split]
    by_cases same : b = k
    · have others : freeEntriesOf (putEntry s b i e) banks = freeEntriesOf s banks := freeEntriesOf_congr fun x mem => by
        rw [bankOf_putEntry, if_neg fun (eq : b = x) => apart (same ▸ eq ▸ mem)]
      have longer := tset_length_le (bankOf s k).entries i e
      rw [others, bankOf_putEntry, if_pos same, same]
      dsimp only
      omega
    · have ih := freeEntriesOf_putEntry (s := s) (b := b) (i := i) (e := e) rest
      rw [bankOf_putEntry, if_neg same]
      omega

/-- Every transition takes an entry where the banks have room for all. -/
theorem installAll_length {t slot : Nat} {banks : List Nat} (distinct : banks.Nodup) : ∀ {l : List Transition} {s : State},
    l.length ≤ freeEntriesOf s banks → (installAll s t slot banks l).1.length = l.length
  | [], _, _ => rfl
  | x :: l, s, room => by
    rw [List.length_cons] at room
    obtain ⟨b, -, i, -, found⟩ := lowestFree_room (s := s) (banks := banks) (by omega)
    simp only [installAll, found, List.length_cons]
    refine congrArg (· + 1) (installAll_length distinct ?_)
    exact Nat.le_of_succ_le_succ (room.trans (freeEntriesOf_putEntry distinct))

theorem installAll_constraints {t slot : Nat} {banks : List Nat} : ∀ {l : List Transition} {s : State},
    (installAll s t slot banks l).2.comp.constraints = s.comp.constraints
  | [], _ => rfl
  | x :: l, s => by
    unfold installAll
    split
    · rfl
    · exact installAll_constraints

/-- The row of a retired constraint is cleared, and its transition goes with it. -/
def clearRow (t : Nat) (s : State) (e : Nat × Nat) : State :=
  { clearEntry s e.1 e.2 with comp := { (clearEntry s e.1 e.2).comp with transitions := tdel s.comp.transitions (t, rowIndex e.1 e.2) } }

theorem freeConstraint_eq (s : State) (k : Constraint) : freeConstraint s k =
    setConstraints (freeEntries (k.entries.foldl (clearRow k.tenant) s) k.dirs)
      ((freeEntries (k.entries.foldl (clearRow k.tenant) s) k.dirs).comp.constraints.filter fun x => !(x.tenant = k.tenant && x.id = k.id)) := rfl

theorem clearRow_entries (t : Nat) (s : State) (e : Nat × Nat) (b i : Nat) :
    tget (bankOf (clearRow t s e) b).entries i = if e = (b, i) then none else tget (bankOf s b).entries i := by
  obtain ⟨b', i'⟩ := e
  change tget (tgetD (tset s.comp.banks b' { bankOf s b' with entries := tdel (bankOf s b').entries i' }) b .fresh).entries i = _
  by_cases bank : b' = b
  · subst bank
    simp [tget_tdel]
  · rw [tgetD_tset_ne bank, if_neg fun same => bank (congrArg Prod.fst same)]
    rfl

theorem clearRows_empty (t b i : Nat) : ∀ (l : List (Nat × Nat)) (s : State), (b, i) ∈ l ∨ tget (bankOf s b).entries i = none →
    tget (bankOf (l.foldl (clearRow t) s) b).entries i = none
  | [], _, h => h.resolve_left (List.not_mem_nil)
  | e :: l, s, h => by
    refine clearRows_empty t b i l _ ?_
    rw [clearRow_entries]
    by_cases now : e = (b, i)
    · exact .inr (if_pos now)
    · rw [if_neg now]
      exact h.imp_left fun mem => (List.mem_cons.mp mem).resolve_left (Ne.symm now)

/-- A freed constraint is gone, with its entries and its runs (R311). -/
theorem freeConstraint_frees (s : State) (k : Constraint) : (∀ x ∈ (freeConstraint s k).comp.constraints, ¬ (x.tenant = k.tenant ∧ x.id = k.id)) ∧
    (∀ b ∈ k.entries, tget (bankOf (freeConstraint s k) b.1).entries b.2 = none) ∧ ∀ i ∈ k.dirs, tget (freeConstraint s k).tier.dir i = none := by
  rw [freeConstraint_eq]
  refine ⟨fun x mem => ?_, fun b mem => ?_, fun i mem => ?_⟩
  · have kept := (List.mem_filter.mp mem).2
    rintro ⟨tenant, named⟩
    simp [tenant, named] at kept
  · change tget (bankOf (freeEntries (k.entries.foldl (clearRow k.tenant) s) k.dirs) b.1).entries b.2 = none
    rw [bankOf, freeEntries_comp]
    exact clearRows_empty k.tenant b.1 b.2 k.entries s (.inl mem)
  · exact (freeEntries_dir ..).trans (if_pos mem)

/-! ### CONSTRAINT_RETIRE (R311) -/

theorem constraintRetire_starts {c : Cmd} {id : Nat} {s s1 : State} (h : Starts 0x43 c s id s1) :
    exec (.constraintRetire c) s = .next (s.keepHost (retireBody c false id (begun s1 id c))) := by
  change quiet s (runConstraintRetire c s) = _
  rw [runConstraintRetire, runCmd_starts h]
  rfl

/-- The constraints under an ID of a tenant. -/
def namedConstraints (s : State) (t n : Nat) : List Constraint := s.comp.constraints.filter fun k => k.tenant = t && k.id = n

/-- What a search with one more condition finds is the first of those named that meets it. -/
theorem find_named (s : State) (t n : Nat) (also : Constraint → Bool) :
    (s.comp.constraints.find? fun k => k.tenant = t && k.id = n && also k) = (namedConstraints s t n).find? also := by
  rw [namedConstraints, List.find?_filter]
  simp

/-- The state once the constraint under an ID of a tenant is hidden by the command in slot `id` that retires it. -/
def hideConstraint (u : State) (t n id : Nat) : State :=
  setConstraints u (u.comp.constraints.map fun x => if x.tenant = t && x.id = n then { x with retiring := some id } else x)

/-- RETIRE takes up a constraint that is not retiring, or that it retires itself. -/
def retirable (id : Nat) (k : Constraint) : Bool := k.retiring = none || k.retiring = some id

theorem retireBody_unknown {c : Cmd} {id : Nat} {u : State} (unknown : namedConstraints u (cmdTenant u c) (fld c.w2 15 0) = []) :
    retireBody c false id u = finish u id 0x0406 0 0 := by
  have found := find_named u (cmdTenant u c) (fld c.w2 15 0) (retirable id)
  rw [unknown, List.find?_nil] at found
  unfold retirable at found
  simp only [retireBody, found]
  rfl

theorem retireBody_named {c : Cmd} {id : Nat} {u : State} {k : Constraint} (one : namedConstraints u (cmdTenant u c) (fld c.w2 15 0) = [k])
    (living : k.retiring = none) : retireBody c false id u =
      if constraintRead u (cmdTenant u c) (fld c.w2 15 0) then await (hideConstraint u (cmdTenant u c) (fld c.w2 15 0) id) id .earlier
      else finish (freeConstraint u k) id 0 0 0 := by
  have found := find_named u (cmdTenant u c) (fld c.w2 15 0) (retirable id)
  rw [one, List.find?_cons_of_pos (by simp [retirable, living])] at found
  unfold retirable at found
  simp only [retireBody, found, hideConstraint]

/-- A constraint under retirement is hidden. -/
theorem constraintOf_hideConstraint (u : State) (t n id : Nat) : constraintOf (hideConstraint u t n id) t n = none := by
  refine List.find?_eq_none.mpr fun x mem => ?_
  obtain ⟨y, -, rfl⟩ := List.mem_map.mp mem
  split
  · simp
  next other =>
    have apart : y.tenant = t → ¬ y.id = n := by simpa using other
    simpa using fun tenant named => absurd named (apart tenant)

/-! ### CONSTRAINT_LOAD (R306, R310) -/

theorem constraintLoad_starts {c : Cmd} {id : Nat} {s s1 : State} (h : Starts 0x42 c s id s1) :
    exec (.constraintLoad c) s = .next (s.keepHost (constraintBody c id (begun s1 id c))) := by
  have run : runConstraintLoad c s = constraintBody c id (begun s1 id c) := (runCmd_starts h _).trans (if_neg Bool.false_ne_true)
  exact congrArg (fun v => Host.Outcome.next (s.keepHost v)) run

theorem placeImage_beside {s p : State} {t id bytes : Nat} {l : List Nat} (h : placeImage s t id bytes = .ok (l, p)) : Beside s p := Beside.placeRuns h

theorem banksOf_nodup (s : State) (t use : Nat) : (banksOf s t use).Nodup := List.nodup_range.filter _

/-- The transitions of an image: a list has none. -/
def imageTransitions (m : Memory) (a : Nat) (h : CHeader) : List Transition := if h.kind = 2 then (List.range h.count).map (transition m a h) else []

/-- The masks of an image (Table 10.2), a list has none. -/
def imageMasks (m : Memory) (a : Nat) (h : CHeader) : Memory :=
  (m.filter fun c => a + h.maskAt ≤ c.1 && c.1 < a + h.maskAt + h.maskBytes && h.kind = 2).map fun c => (c.1 - (a + h.maskAt), c.2)

/-- The constraint that a good image makes, with the entries of its transitions. -/
def imageConstraint (m : Memory) (t slot a : Nat) (h : CHeader) (dirs : List Nat) (entries : List (Nat × Nat)) : Constraint where
  tenant := t
  id := h.id
  slot := slot
  kind := h.kind
  vocab := h.vocab
  tokens := if h.kind = 1 then listTokens m a h.count else []
  states := if h.kind = 2 then (List.range h.states).map (stateEntry m a) else []
  masks := imageMasks m a h
  entries := entries
  dirs := dirs
  retiring := none

theorem imageMasks_read {m : Memory} {a : Nat} {h : CHeader} (grammar : h.kind = 2) {i : Nat} (inside : i < h.maskBytes) :
    (imageMasks m a h).read i = m.read (a + h.maskAt + i) := by
  rw [read_eq_cellAt, read_eq_cellAt, ← cellAt_moved m (a + h.maskAt) h.maskBytes inside]
  simp [imageMasks, grammar]

theorem imageTransitions_length (m : Memory) (a : Nat) (h : CHeader) : (imageTransitions m a h).length = if h.kind = 2 then h.count else 0 := by
  unfold imageTransitions
  split <;> simp

/-- The state in which the transitions of an image are installed, with the entries that they took. -/
def installed (s : State) (t slot a : Nat) (h : CHeader) : List (Nat × Nat) × State :=
  installAll s t slot (banksOf s t 2) (imageTransitions s.hostMem a h)

theorem loadConstraint_eq (s : State) (id t slot a : Nat) (h : CHeader) (dirs : List Nat) : loadConstraint s id t slot a h dirs =
    finish (setConstraints (installed s t slot a h).2 ((installed s t slot a h).2.comp.constraints ++
      [imageConstraint s.hostMem t slot a h dirs (installed s t slot a h).1])) id 0 slot (if h.kind = 2 then h.count else 0) := by
  rw [← imageTransitions_length s.hostMem a h]
  rfl

/-- Each transition of an image takes an entry: none of a list, all of a grammar with room. -/
theorem installed_length {s : State} {t slot a : Nat} {h : CHeader} (room : h.kind = 2 → h.count ≤ freeEntriesOf s (banksOf s t 2)) :
    (installed s t slot a h).1.length = if h.kind = 2 then h.count else 0 := by
  rw [← imageTransitions_length s.hostMem a h]
  refine installAll_length (banksOf_nodup ..) ?_
  rw [imageTransitions_length]
  split
  next grammar => exact room grammar
  · exact Nat.zero_le _

theorem installed_constraints (s : State) (t slot a : Nat) (h : CHeader) : (installed s t slot a h).2.comp.constraints = s.comp.constraints :=
  installAll_constraints

/-! ### The checks of CONSTRAINT_LOAD, in their order (R310) -/

/-- The header that CONSTRAINT_LOAD reads. -/
def loadHeader (u : State) (c : Cmd) : CHeader := cHeader (u.hostMem.readWords c.w2.toNat 8)

/-- The constraints of the command's tenant. -/
def ownConstraints (u : State) (c : Cmd) : List Constraint := u.comp.constraints.filter fun k => k.tenant = cmdTenant u c

/-- The slot that a load takes. -/
def loadSlot (u : State) : Nat := freeNumber 0 (u.comp.constraints.map (·.slot))

/-- How many constraints the command's tenant may have. -/
def loadLimit (u : State) (c : Cmd) : Nat := (tenantRec u (cmdTenant u c)).elim 0 (·.grammarSlots)

/-- The header can be read. -/
structure HeaderRead (u : State) (c : Cmd) : Prop where
  aligned : c.w2.toNat % 64 = 0
  readable : hostBad u c.w2.toNat 64 = false

/-- The image is well formed, and its ID is new to the tenant. -/
structure ImageNew (u : State) (c : Cmd) : Prop extends HeaderRead u c where
  format : (loadHeader u c).ok u.hostMem c.w2.toNat = true
  fresh : ∀ k ∈ ownConstraints u c, k.id ≠ (loadHeader u c).id

/-- The tenant may have one more constraint, and a slot is free. -/
structure SlotFree (u : State) (c : Cmd) : Prop extends ImageNew u c where
  below : (ownConstraints u c).length < loadLimit u c
  slot : loadSlot u < 256

/-- The tenant's grammar banks have room for the transitions. -/
structure ImageFits (u : State) (c : Cmd) : Prop extends SlotFree u c where
  room : (loadHeader u c).kind = 2 → (loadHeader u c).count ≤ freeEntriesOf u (banksOf u (cmdTenant u c) 2)

section
variable {u : State} {c : Cmd} {id : Nat}

theorem constraintBody_unaligned (unaligned : c.w2.toNat % 64 ≠ 0) : constraintBody c id u = finish u id 0x0304 0 0 :=
  if_pos (by simpa using unaligned)

theorem constraintBody_badFormat (a : HeaderRead u c) (bad : (loadHeader u c).ok u.hostMem c.w2.toNat = false) :
    constraintBody c id u = finish u id 0x0408 0 0 := by
  unfold loadHeader at bad
  simp only [constraintBody, a.aligned, a.readable, bad, decide_true, Bool.not_true, Bool.not_false, Bool.false_eq_true, if_false, if_true]
  rfl

/-- An ID that the tenant has loaded is found among its constraints, and no other is. -/
theorem ownConstraints_any (u : State) (c : Cmd) (n : Nat) :
    (ownConstraints u c).any (fun k => k.id = n) = true ↔ ∃ k ∈ ownConstraints u c, k.id = n := by
  simp

theorem constraintBody_exists (a : HeaderRead u c) (format : (loadHeader u c).ok u.hostMem c.w2.toNat = true)
    (taken : ∃ k ∈ ownConstraints u c, k.id = (loadHeader u c).id) : constraintBody c id u = finish u id 0x0407 0 0 := by
  have found := (ownConstraints_any u c _).mpr taken
  unfold ownConstraints loadHeader at found
  unfold loadHeader at format
  simp only [constraintBody, a.aligned, a.readable, format, found, decide_true, Bool.not_true, Bool.false_eq_true, if_false, if_true]
  rfl

/-- For an image that is new to the tenant the checks of the limit and the room are left. -/
theorem ImageNew.any (a : ImageNew u c) :
    (u.comp.constraints.filter fun k => k.tenant = cmdTenant u c).any (fun k => k.id = (cHeader (u.hostMem.readWords c.w2.toNat 8)).id) = false :=
  Bool.eq_false_iff.mpr fun found =>
    let ⟨k, mem, same⟩ := (ownConstraints_any u c _).mp found
    a.fresh k mem same

theorem constraintBody_limit (a : ImageNew u c) (full : loadLimit u c ≤ (ownConstraints u c).length) :
    constraintBody c id u = finish u id 0x040A 0 0 := by
  have format := a.format
  unfold loadHeader at format
  unfold loadLimit ownConstraints at full
  simp only [constraintBody, a.aligned, a.readable, format, a.any, full, decide_true, Bool.true_or, Bool.not_true, Bool.false_eq_true, if_false, if_true]
  rfl

/-- With a free slot the limit holds nothing back. -/
theorem SlotFree.within (a : SlotFree u c) : (decide ((tenantRec u (cmdTenant u c)).elim 0 (·.grammarSlots) ≤
    (u.comp.constraints.filter fun k => k.tenant = cmdTenant u c).length) || decide (256 ≤ freeNumber 0 (u.comp.constraints.map (·.slot)))) = false := by
  have below := a.below
  have slot := a.slot
  unfold loadLimit ownConstraints at below
  unfold loadSlot at slot
  simp only [Nat.not_le.mpr below, Nat.not_le.mpr slot, decide_false, Bool.or_self]

theorem constraintBody_noEntries (a : SlotFree u c) (grammar : (loadHeader u c).kind = 2)
    (short : freeEntriesOf u (banksOf u (cmdTenant u c) 2) < (loadHeader u c).count) : constraintBody c id u = finish u id 0x040B 0 0 := by
  have format := a.format
  unfold loadHeader at format grammar short
  simp only [constraintBody, a.aligned, a.readable, format, a.any, a.within, grammar, short, decide_true, Bool.and_self, Bool.not_true,
    Bool.false_eq_true, if_false, if_true]
  rfl

/-- What fits lacks no entry. -/
theorem ImageFits.entries (a : ImageFits u c) : (decide ((cHeader (u.hostMem.readWords c.w2.toNat 8)).kind = 2) &&
    decide (freeEntriesOf u (banksOf u (cmdTenant u c) 2) < (cHeader (u.hostMem.readWords c.w2.toNat 8)).count)) = false := by
  have room := a.room
  unfold loadHeader at room
  simpa using room

theorem constraintBody_unplaced (a : ImageFits u c) {e : Short}
    (none : placeImage u (cmdTenant u c) (loadHeader u c).id (loadHeader u c).bytes = .error e) :
    constraintBody c id u = finish (unplaced u e) id 0x040B 0 0 := by
  have format := a.format
  unfold loadHeader at format none
  simp only [constraintBody, a.aligned, a.readable, format, a.any, a.within, a.entries, none, decide_true, Bool.not_true, Bool.false_eq_true, if_false]
  rfl

theorem constraintBody_placed (a : ImageFits u c) {l : List Nat} {p : State}
    (placed : placeImage u (cmdTenant u c) (loadHeader u c).id (loadHeader u c).bytes = .ok (l, p))
    (readable : hostBad u c.w2.toNat (loadHeader u c).bytes = false) : constraintBody c id u =
      if crc32c (u.hostMem.readBytes (c.w2.toNat + 64) ((loadHeader u c).bytes - 64)) = (loadHeader u c).crc then
        loadConstraint p id (cmdTenant u c) (loadSlot u) c.w2.toNat (loadHeader u c) l
      else finish (freeEntries p l) id 0x0409 0 0 := by
  have format := a.format
  unfold loadHeader at format placed readable ⊢
  simp only [constraintBody, a.aligned, a.readable, format, a.any, a.within, a.entries, placed, readable, decide_true, Bool.not_true,
    Bool.false_eq_true, if_false, Bool.false_or, Bool.not_eq_true', decide_eq_false_iff_not, ite_not]
  rfl

/-- A good image makes its constraint: in the lowest free slot, over the runs it was placed in, with an entry for each transition. -/
theorem loadConstraint_placed (a : ImageFits u c) {l : List Nat} {p : State} (beside : Beside u p) :
    ∃ v : State, loadConstraint p id (cmdTenant u c) (loadSlot u) c.w2.toNat (loadHeader u c) l =
        finish v id 0 (loadSlot u) (if (loadHeader u c).kind = 2 then (loadHeader u c).count else 0) ∧
      ∃ entries : List (Nat × Nat), entries.length = (if (loadHeader u c).kind = 2 then (loadHeader u c).count else 0) ∧
      v.comp.constraints = p.comp.constraints ++ [imageConstraint u.hostMem (cmdTenant u c) (loadSlot u) c.w2.toNat (loadHeader u c) l entries] := by
  have room : (loadHeader u c).kind = 2 → (loadHeader u c).count ≤ freeEntriesOf p (banksOf p (cmdTenant u c) 2) := fun grammar => by
    rw [beside.banksOf, freeEntriesOf_congr fun b _ => show bankOf p b = bankOf u b by rw [bankOf, beside.comp, bankOf]]
    exact a.room grammar
  have kept := installed_constraints p (cmdTenant u c) (loadSlot u) c.w2.toNat (loadHeader u c)
  exact ⟨_, loadConstraint_eq .., (installed p (cmdTenant u c) (loadSlot u) c.w2.toNat (loadHeader u c)).1, installed_length room,
    (congrArg (· ++ _) kept).trans (by rw [beside.memory])⟩

end

end Sys2Proof.Proofs
end

section
/-!
PROOFS. O48 (10_sieve_sampler.md R297–R321, Tables 10.9, 10.10; 20_counters_and_metering.md R568): SAMPLE, DRAFT_RESET and the constraints of the Sieve.
-/
namespace Sys2Proof.Proofs
open Sys2Proof.Machine Sys2Proof.Laws

/-- A SAMPLE that need not wait does its work. -/
theorem sample_runs {c : Cmd} {id : Nat} {s s1 : State} (h : StartsHere 0x40 c s id s1) (stage : stageOf (here s1 id c) id = 0)
    (noSteps : stepsPending (here s1 id c) id = false) (counter : fld c.w5 47 32 < 4096) (tag : fld c.w5 63 48 = 0)
    (first : sampleAhead (here s1 id c) id = false) (still : grammarHeld (here s1 id c) id (cmdTenant (here s1 id c) c) = false) :
    exec (.sample c) s = .next (s.keep (sampleBody (here s1 id c) id c)) := by
  rw [sample_gated h stage noSteps counter tag, first, still, if_neg Bool.false_ne_true, if_neg Bool.false_ne_true]

/-- Settles O48: SAMPLE through the states after its checks, its step and its LOG_APPEND, DRAFT_RESET through the stored word of the sampler state, and
the constraints through the checks of CONSTRAINT_LOAD in their order and the rows that an installed or a freed constraint has in the grammar banks. -/
theorem samplingAndConstraints : Obligations.SamplingAndConstraints := by
  unfold Obligations.SamplingAndConstraints
  refine ⟨?sample, ?counter, ?waits, ?reset, ?load, ?retire⟩
  case sample =>
    intro c id s s1 o m h u t request r p k stage noSteps counter tag first fresh still readable member single owned handle notPrefilled input output block
      gate moves room ownRun _
    have ready : SampleReady u id c o m :=
      ⟨fresh, noSteps, readable, member, single, owned, handle, notPrefilled, input, output, block, gate, moves, room, ownRun⟩
    have run := sample_runs h stage noSteps counter tag first still
    refine ⟨fun e refused => ?_, fun accepted => ⟨fun noTokens => ?_, fun tokens => ?_⟩⟩
    · obtain ⟨v, wrote, copy, body⟩ := sampleBody_refused ready refused
      exact ⟨v, wrote, copy, run.trans (by rw [body])⟩
    · obtain ⟨v, wrote, copy, body⟩ := sampleBody_noTokens ready accepted noTokens
      exact ⟨v, wrote, copy, run.trans (by rw [body]; rfl)⟩
    · obtain ⟨wrote, canonical, logged⟩ := sampleBody_tokens ready accepted tokens
      obtain ⟨⟨o1, copy, log, count, sampler, phase⟩, ⟨i, l, issued, kind, target, number, total, payload, finishes⟩, wasted, keptDrafts, due⟩ :=
        logged.congr (w' := s.keep (sampleBody u id c)) rfl rfl rfl
      exact ⟨_, o1, i, l, run, wrote_congr wrote rfl rfl rfl rfl (Memory.canon_of_wf canonical), copy, log, count, sampler, phase, issued, kind, target,
        number, total, payload, finishes, wasted, keptDrafts, due⟩
  case counter =>
    intro c id s s1 h stage noSteps canonical bad
    exact sample_badCounter h stage noSteps canonical bad
  case waits =>
    intro c id s s1 h u stage noSteps counter tag
    have gated := sample_gated h stage noSteps counter tag
    refine ⟨fun ahead => gated.trans (by rw [if_pos ahead]), fun first held => gated.trans ?_⟩
    rw [first, if_neg Bool.false_ne_true, if_pos held]
  case reset =>
    intro c id s s1 o h u p owned living
    have run := draftReset_here h owned living
    refine ⟨fun ahead => run.trans (by rw [if_pos ahead]), fun first => ⟨_, run.trans (by rw [first, if_neg Bool.false_ne_true]), ?_, rfl⟩⟩
    exact paramsOf_resetDrafts _
  case load =>
    intro c id s s1 h u t a header mine slot slots code
    have ends {v : State} (body : constraintBody c id u = v) : exec (.constraintLoad c) s = .next (s.keepHost v) :=
      (constraintLoad_starts h).trans (by rw [body])
    refine ⟨fun unaligned => ends (constraintBody_unaligned unaligned), fun aligned readable => ?_⟩
    have read : HeaderRead u c := ⟨aligned, readable⟩
    refine ⟨fun bad => ends (constraintBody_badFormat read bad), fun format taken => ends (constraintBody_exists read format taken), fun format fresh => ?_⟩
    have new : ImageNew u c := ⟨read, format, fresh⟩
    refine ⟨fun full => ends (constraintBody_limit new full), fun below slotFree => ?_⟩
    have free : SlotFree u c := ⟨new, below, slotFree⟩
    refine ⟨fun grammar short => ends (constraintBody_noEntries free grammar short), fun room => ?_⟩
    have fits : ImageFits u c := ⟨free, room⟩
    refine ⟨fun e none => ends (constraintBody_unplaced fits none), fun l p placed whole => ⟨fun bad => ?_, fun good => ?_⟩⟩
    · refine ⟨freeEntries p l, ends ((constraintBody_placed fits placed whole).trans (if_neg bad)), fun i mem => ?_, by rw [freeEntries_comp]⟩
      exact (freeEntries_dir ..).trans (if_pos mem)
    · obtain ⟨v, ended, entries, count, added⟩ := loadConstraint_placed (id := id) (l := l) fits (placeImage_beside placed)
      refine ⟨v, imageConstraint u.hostMem t slot a header l entries, ends ((constraintBody_placed fits placed whole).trans ((if_pos good).trans ended)),
        added, rfl, rfl, rfl, rfl, rfl, rfl, rfl, fun list => ⟨if_pos list, ?_⟩,
        fun grammar => ⟨if_pos grammar, count.trans (if_pos grammar), fun i inside => imageMasks_read grammar inside⟩⟩
      have notGrammar : (loadHeader u c).kind ≠ 2 := by rw [show (loadHeader u c).kind = 1 from list]; decide
      exact List.length_eq_zero_iff.mp (count.trans (if_neg notGrammar))
  case retire =>
    intro c id s s1 h u t n named
    have ends {v : State} (body : retireBody c false id u = v) : exec (.constraintRetire c) s = .next (s.keepHost v) :=
      (constraintRetire_starts h).trans (by rw [body])
    refine ⟨fun unknown => ends (retireBody_unknown unknown), fun k one living => ?_⟩
    have body := retireBody_named (id := id) one living
    refine ⟨fun read => ⟨_, ends (body.trans (if_pos read)), constraintOf_hideConstraint u t n id, rfl, rfl⟩, fun unread => ?_⟩
    have member : k ∈ named := by rw [one]; exact List.mem_singleton_self k
    have names : k.tenant = t ∧ k.id = n := by simpa using (List.mem_filter.mp member).2
    obtain ⟨gone, entries, runs⟩ := freeConstraint_frees u k
    rw [names.1, names.2] at gone
    exact ⟨freeConstraint u k, ends (body.trans (if_neg (Bool.eq_false_iff.mp unread))), gone, entries, runs⟩

end Sys2Proof.Proofs
end
